-- ==== Sys2Proof/Word.lean ====
section
/-! DEFINITION. The bit-vector types of the part: the bytes and words that cross its lines. -/

namespace Sys2Proof

/-- One byte on the Command Link, a lane of the Picture Port or the gyro line (section 10.4). -/
abbrev Byte := BitVec 8

/-- Two bytes, the high byte first on the wire (section 10.4); the event flags and their mask (R188). -/
abbrev Half := BitVec 16

/-- Four bytes: lengths, offsets and check values (section 10.4). -/
abbrev Word := BitVec 32

end Sys2Proof
end

