-- ==== Sys2Proof/Config.lean ====
section
/-! DEFINITION. The sizes the manual fixes for every Q48, and the one free value, the correction code of a sector. What
else the manual leaves open and a step reads arrives as an operand of the command (log 1, log 3, log 6). -/

namespace Sys2Proof.Config

/-- Record places of the Catalogue (R1). -/
abbrev placeCount : Nat := 1024
/-- Highest picture number (R11). -/
abbrev maxNumber : Nat := 9999
/-- Data bytes of a flash page (R27). -/
abbrev pageBytes : Nat := 4096
/-- Data bytes of one corrected sector (R27). -/
abbrev sectorBytes : Nat := 1024
/-- Pages of a flash block (R27). -/
abbrev blockPages : Nat := 64
/-- Most blocks one picture may take (R59). -/
abbrev maxBlocks : Nat := 48
/-- Most data bytes one picture may have: 48 blocks (R59, R64). -/
abbrev maxPicture : Nat := 12582912
/-- Most entries of the bad-block list (R44). -/
abbrev maxBad : Nat := 256
/-- Most records in the pending store queue (R54). -/
abbrev maxQueue : Nat := 8
/-- Most descriptors in the read chain (R71). -/
abbrev maxChain : Nat := 16
/-- Stations of the lens table (R110). -/
abbrev stationCount : Nat := 48
/-- Metering zones (00_scope.md, Zones). -/
abbrev zoneCount : Nat := 48
/-- The data timer's limit: 2 s, in µs (R56). -/
abbrev dataLimit : Nat := 2000000
/-- The block watch's limit: 500 ms, in µs (R97). -/
abbrev blockLimit : Nat := 500000
/-- The sample watch's limit: 500 ms, in µs (R138). -/
abbrev sampleLimit : Nat := 500000
/-- The stall watch's limit: 40 ms, in µs (R112). -/
abbrev stallLimit : Nat := 40000
/-- The brake watch's limit: 10 ms, in µs (R112). -/
abbrev brakeLimit : Nat := 10000
/-- The lost watch's limit: 10 ms, in µs (R153). -/
abbrev lostLimit : Nat := 10000
/-- The time a gyro frame may take from its start marker's stop bit: 500 µs (R150). -/
abbrev gyroLimit : Nat := 500
/-- The bytes of a gyro frame after its start marker (R150). -/
abbrev gyroBytes : Nat := 6
/-- The confirmation watch's limit: 50 ms, in µs (R174). -/
abbrev confirmLimit : Nat := 50000
/-- The steps after which a focus homing without the sensor has failed (R133). -/
abbrev homingLimit : Nat := 3200
/-- The correction code of a sector's 1,024 bytes. The manual gives no code, so nothing says what it is: a free value
(R27, R29, R30, log 49). -/
opaque sectorCode : List Byte → List Byte

end Sys2Proof.Config
end

