-- ==== Sys2Proof/Syntax.lean ====
section
/-! DEFINITION. The commands of the part: one constructor of `Instr` per row of spec/opcode_table.json, and the types
of their operands. A field whose value the sender may choose outside the manual's list is an `Option`, `none` standing
for a value that names nothing on the list (log 19). -/

namespace Sys2Proof

/-- When a command arrives and what the sampled input lines then read (log 1, log 3). -/
structure Moment where
  /-- µs since the command before. -/
  dt : Nat
  /-- The shutter sensor reads closed (R173). -/
  shutterClosed : Bool
  /-- The focus home sensor is seen (R133). -/
  focusHome : Bool
  /-- Focus steps the stepper has taken since the command before (R132). -/
  focusSteps : Nat
  /-- The Out Lane ready line is high (R74). -/
  outReady : Bool
  /-- The bytes the host has clocked on data in since the command before (R184, R186). -/
  clocked : List Byte
  /-- The bytes that have come on the In Lane since the command before, but for those the command itself brings (R193). -/
  lane : List Byte
  /-- The bytes that have come on the gyro line since the command before, but for those the command itself brings, in
  order and at the moment of the command (R150, log 56). -/
  gyro : List Byte
  deriving DecidableEq, Repr

/-- A request names one record by picture number or by place (R13). -/
inductive RecordName where
  | byNumber (n : Nat)
  | byPlace (p : Nat)
  deriving DecidableEq, Repr

/-- FIND NEXT's filter (R16). -/
inductive FindFilter where
  | stored
  | all
  deriving DecidableEq, Repr

/-- A trim box in pixels (section 1.1). -/
structure TrimBox where
  left : Nat
  top : Nat
  width : Nat
  height : Nat
  deriving DecidableEq, Repr

/-- AMEND's change of the trim box (R17). -/
inductive TrimChange where
  | set (box : TrimBox)
  | remove
  deriving DecidableEq, Repr

/-- The changes an AMEND carries; an absent one is `none` (R17). -/
structure AmendChange where
  protect : Option Bool
  rating : Option Nat
  caption : Option (List Byte)
  trim : Option TrimChange
  deriving DecidableEq, Repr

/-- Exposure modes (R103). -/
inductive ExposureMode where
  | program | aperture | shutter | manual
  deriving DecidableEq, Repr

/-- Metering patterns (R103). -/
inductive Pattern where
  | matrix | centre | spot
  deriving DecidableEq, Repr

/-- Sensitivity: AUTO with a base Sv, or FIXED with an Sv (R103). -/
inductive Sensitivity where
  | auto (base : Int)
  | fixed (sv : Int)
  deriving DecidableEq, Repr

/-- METER SETUP's fields as carried (R103). -/
structure MeterSetupFields where
  mode : Option ExposureMode
  pattern : Option Pattern
  sensitivity : Option Sensitivity
  compensation : Int
  av : Int
  tv : Int
  deriving DecidableEq, Repr

/-- One station entry of the lens table (R126). `cams` holds the cam steps from class 0 on. -/
structure StationEntry where
  count : Nat
  focal : Nat
  widest : Nat
  narrowest : Nat
  gain : Nat
  near : Nat
  cams : List Nat
  deriving DecidableEq, Repr

/-- The table READ LENS STATION names (R129). -/
inductive LensTableName where
  | working | staging
  deriving DecidableEq, Repr

/-- FOCUS START's range (R137). -/
inductive FocusRange where
  | normal | full
  deriving DecidableEq, Repr

/-- Focus modes (R131). -/
inductive FocusMode where
  | single | follow | manual
  deriving DecidableEq, Repr

/-- A zone rectangle, both ends included (R134). -/
structure Rect where
  firstCol : Nat
  lastCol : Nat
  firstRow : Nat
  lastRow : Nat
  deriving DecidableEq, Repr

/-- Stabilizer modes (R149). -/
inductive SteadyMode where
  | off | on | shotOnly
  deriving DecidableEq, Repr

/-- Focus policy of a shot (R167). -/
inductive FocusPolicy where
  | focusFirst | releaseFirst
  deriving DecidableEq, Repr

/-- Trigger mode of a shot (R167). -/
inductive TriggerMode where
  | press | held
  deriving DecidableEq, Repr

/-- SHOT SETUP's fields as carried (R167). -/
structure ShotSetupFields where
  count : Nat
  interval : Nat
  policy : Option FocusPolicy
  trigger : Option TriggerMode
  deriving DecidableEq, Repr

/-- The four settings (R191), as WRITE SETTINGS carries them and as SETTINGS holds them. -/
structure Settings where
  target : Nat
  weights : List Nat
  reservation : Nat
  flashBlocks : Nat
  deriving DecidableEq, Repr

/-- The end of a request frame: its last bytes, and whether the request it names accepts a body of its length, where the
manual does not say (R185, log 26). -/
structure FrameEnd where
  bytes : List Byte
  accepted : Bool
  deriving DecidableEq, Repr

/-- One sector's correction count: 0 to 8, or UNCORRECTABLE (R28). -/
inductive SectorCount where
  | corrected (n : Nat)
  | uncorrectable
  deriving DecidableEq, Repr

/-- What the mark position of page 0 carries: nothing, a factory mark or the grown mark (R27). -/
inductive MarkRead where
  | clear | factory | grown
  deriving DecidableEq, Repr

/-- What a page read brings from the flash device (R28). A corrected read uses data and counts, a raw read uses data,
spare and mark. -/
structure PageRead where
  data : List Byte
  spare : List Byte
  counts : List SectorCount
  mark : MarkRead
  deriving DecidableEq, Repr

/-- The source page of a copy-back as the correction unit hands it over: its data bytes, corrected where they can be, and
the four counts (R30). -/
structure CopyRead where
  data : List Byte
  counts : List SectorCount
  deriving DecidableEq, Repr

/-- A statistics block's fields (section 10.4): 48 zone luminance means, clipped fractions and sharpness values. -/
structure StatBlock where
  frame : Nat
  live : Int
  luminance : List Nat
  clipped : List Nat
  sharpness : List Nat
  deriving DecidableEq, Repr

/-- A gyro frame's fields (section 10.4) and whether its check holds (R151). -/
structure GyroFields where
  seq : Nat
  pitch : Int
  yaw : Int
  checkOk : Bool
  deriving DecidableEq, Repr

/-- The commands: one constructor per row of spec/opcode_table.json, in the table's order. -/
inductive Instr where
  | lookup (m : Moment) (r : RecordName)
  | nextPart (m : Moment)
  | findNext (m : Moment) (n : Nat) (f : Option FindFilter)
  | amend (m : Moment) (r : RecordName) (c : AmendChange)
  | retire (m : Moment) (r : RecordName)
  | clearCatalogue (m : Moment)
  | catalogueSummary (m : Moment)
  | prepareStore (m : Moment)
  | abandon (m : Moment) (n : Nat)
  | chainAdd (m : Moment) (n offset length : Nat) (notify : Bool)
  | chainCancel (m : Moment)
  | refresh (m : Moment) (n : Nat)
  | meterSetup (m : Moment) (x : MeterSetupFields)
  | meterLock (m : Moment)
  | meterUnlock (m : Moment)
  | readMeter (m : Moment)
  | extendLens (m : Moment)
  | zoomTo (m : Moment) (station : Nat)
  | zoomStop (m : Moment)
  | parkLens (m : Moment)
  | loadLensStation (m : Moment) (station : Nat) (e : StationEntry)
  | commitLensTable (m : Moment)
  | readZoom (m : Moment)
  | readLensStation (m : Moment) (station : Nat) (t : Option LensTableName)
  | focusStart (m : Moment) (range : Option FocusRange)
  | focusRelease (m : Moment)
  | focusMode (m : Moment) (mode : Option FocusMode)
  | setArea (m : Moment) (id : Nat) (rect : Rect) (enabled : Bool)
  | clearArea (m : Moment) (id : Nat)
  | setDistance (m : Moment) (cls : Nat)
  | readFocus (m : Moment)
  | readFocusCurve (m : Moment) (id : Nat)
  | steadyMode (m : Moment) (mode : Option SteadyMode)
  | readSteady (m : Moment)
  | shotSetup (m : Moment) (x : ShotSetupFields)
  | arm (m : Moment)
  | trigger (m : Moment)
  | disarm (m : Moment)
  | readShot (m : Moment)
  | readStatus (m : Moment)
  | readEvents (m : Moment)
  | setEventMask (m : Moment) (mask : Half)
  | writeSettings (m : Moment) (x : Settings)
  | readSettings (m : Moment)
  | softReset (m : Moment)
  | shutDown (m : Moment)
  /-- the frame's last bytes, after those of the moment -/
  | frameCheck (m : Moment) (f : FrameEnd)
  /-- the frame's last bytes, after those of the moment -/
  | unknownRequest (m : Moment) (bytes : List Byte)
  /-- the frame's last bytes, after those of the moment -/
  | frameBroken (m : Moment) (bytes : List Byte)
  | linkQuietResume (m : Moment)
  /-- the frame's last bytes, after those of the moment -/
  | linkOrder (m : Moment) (bytes : List Byte)
  | responseCollected (m : Moment)
  | softResetExecute (m : Moment)
  | reset (m : Moment)
  | powerOn (m : Moment)
  | startUpEnd (m : Moment)
  | powerLow (m : Moment)
  | shutdownMarkWrite (m : Moment)
  | safe (m : Moment)
  | recordWriteBegin (m : Moment)
  | recordWriteComplete (m : Moment)
  | prepareScanStart (m : Moment)
  | prepareStoreEnd (m : Moment)
  | arbiterGrant (m : Moment)
  | flashStatusReadDone (m : Moment)
  | pageReadDone (m : Moment) (r : PageRead)
  | pageProgramDone (m : Moment) (pass : Bool)
  | copyBackDone (m : Moment) (source : CopyRead) (pass : Bool)
  | blockEraseDone (m : Moment) (pass : Bool)
  | grownMarkProgramDone (m : Moment) (pass : Bool)
  | backgroundTakeBlock (m : Moment)
  /-- the 243 bytes of a statistics body (section 10.4) -/
  | statistics (m : Moment) (body : List Byte)
  | blockWatchExpiry (m : Moment)
  | sampleWatchExpiry (m : Moment)
  | pictureStart (m : Moment)
  | pictureData (m : Moment) (bytes : List Byte)
  /-- the 12 bytes of a PICTURE_END body (section 10.4) -/
  | pictureEnd (m : Moment) (body : List Byte)
  | pictureAbort (m : Moment)
  | inLaneBlockDropped (m : Moment) (kind : Byte) (length : Nat)
  | inLaneFramingFault (m : Moment)
  | dataTimeout (m : Moment)
  | endTaken (m : Moment)
  | outLaneItemBegin (m : Moment)
  | descriptorStartSent (m : Moment)
  | dataItemSent (m : Moment)
  | descriptorEndSent (m : Moment)
  | cancelledEndSent (m : Moment)
  | encoderPulse (m : Moment) (tele : Bool)
  | parkSensorChange (m : Moment) (seen : Bool)
  | stallWatchExpiry (m : Moment)
  | brakeWatchExpiry (m : Moment)
  | focusHomeSensorSeen (m : Moment)
  | focusHomingFailed (m : Moment)
  | focusMoveComplete (m : Moment)
  /-- bytes 1 to 6 of a gyro frame: sequence, pitch, yaw, check (section 10.4) -/
  | gyroFrame (m : Moment) (bytes : List Byte)
  | gyroFrameBroken (m : Moment)
  | gyroFrameTimeout (m : Moment)
  | gyroLost (m : Moment)
  | releaseFalling (m : Moment)
  | releaseRising (m : Moment)
  | irisMoveComplete (m : Moment)
  | closeCommandDue (m : Moment)
  | shutterClosed (m : Moment)
  | shutterTimeout (m : Moment)
  | frameDue (m : Moment)
  | gyroStartMarker (m : Moment)
  | requestStartMarker (m : Moment)
  | inLaneHeader (m : Moment) (kind : Byte) (length : Nat)
  | powerLost (m : Moment)
  deriving DecidableEq, Repr

end Sys2Proof
end

