-- ==== Sys2Proof/WellFormed.lean ====
section
/-! DEFINITION. What the wires can carry: a command whose operands fit the widths and body lengths of section 10.4 and
of the flash page (R27). The meanings are total on every term; a range the manual checks itself (BAD_FIELD) is not
checked here. -/

namespace Sys2Proof

/-- A picture number, place, class or station takes at most two bytes on the link (section 10.4). -/
abbrev fitsHalf (n : Nat) : Bool := n < 65536

/-- An offset or length takes four bytes (section 10.4). -/
abbrev fitsWord (n : Nat) : Bool := n < 4294967296

/-- A signed quantity of one byte (section 10.4). -/
abbrev fitsSignedByte (x : Int) : Bool := -128 ≤ x && x ≤ 127

/-- A correction count is 0 to 8 or UNCORRECTABLE (R28). -/
def SectorCount.wf : SectorCount → Bool
  | .corrected n => n ≤ 8
  | .uncorrectable => true

/-- Four sectors, each with a count (R28). -/
def countsWf (cs : List SectorCount) : Bool := cs.length == 4 && cs.all SectorCount.wf

/-- A whole page of data and spare bytes with four counts (R27, R28). -/
def PageRead.wf (r : PageRead) : Bool :=
  r.data.length == Config.pageBytes && r.spare.length == 128 && countsWf r.counts

/-- The fields of a named record fit their bytes (R13). -/
def RecordName.wf : RecordName → Bool
  | .byNumber n => fitsHalf n
  | .byPlace p => fitsHalf p

/-- A trim box's fields take two bytes each. -/
def TrimBox.wf (b : TrimBox) : Bool :=
  fitsHalf b.left && fitsHalf b.top && fitsHalf b.width && fitsHalf b.height

/-- The changes fit one request body of 251 bytes (section 10.4). -/
def AmendChange.wf (c : AmendChange) : Bool :=
  (match c.rating with | some r => fitsHalf r | none => true) &&
  (match c.caption with | some t => t.length ≤ 236 | none => true) &&
  (match c.trim with | some (.set b) => b.wf | _ => true)

/-- The fields of METER SETUP are signed bytes. -/
def MeterSetupFields.wf (x : MeterSetupFields) : Bool :=
  fitsSignedByte x.compensation && fitsSignedByte x.av && fitsSignedByte x.tv &&
  (match x.sensitivity with
   | some (.auto b) => fitsSignedByte b
   | some (.fixed v) => fitsSignedByte v
   | none => true)

/-- A station entry's fields take two bytes each, its cam steps fit the body. -/
def StationEntry.wf (e : StationEntry) : Bool :=
  fitsHalf e.count && fitsHalf e.focal && fitsHalf e.widest && fitsHalf e.narrowest && fitsHalf e.gain &&
  fitsHalf e.near && e.cams.length ≤ 116 && e.cams.all fitsHalf

/-- WRITE SETTINGS carries all four settings, 48 weights among them (R191). -/
def Settings.wf (x : Settings) : Bool :=
  fitsHalf x.target && x.weights.length == Config.zoneCount && x.weights.all (· < 256) &&
  fitsHalf x.reservation && fitsHalf x.flashBlocks

/-- The command's operands fit their wires. -/
def Instr.wf : Instr → Bool
  | .lookup _ r | .retire _ r => r.wf
  | .amend _ r c => r.wf && c.wf
  | .findNext _ n _ | .abandon _ n | .refresh _ n => fitsHalf n
  | .chainAdd _ n o l _ => fitsHalf n && fitsWord o && fitsWord l
  | .meterSetup _ x => x.wf
  | .zoomTo _ k | .readLensStation _ k _ | .clearArea _ k | .setDistance _ k | .readFocusCurve _ k => fitsHalf k
  | .loadLensStation _ k e => fitsHalf k && e.wf
  | .setArea _ i r _ =>
    fitsHalf i && fitsHalf r.firstCol && fitsHalf r.lastCol && fitsHalf r.firstRow && fitsHalf r.lastRow
  | .shotSetup _ x => fitsHalf x.count && fitsHalf x.interval
  | .writeSettings _ x => x.wf
  | .pageReadDone _ r => r.wf
  | .copyBackDone _ x _ => x.data.length == Config.pageBytes && countsWf x.counts
  | .statistics _ b => b.length == 243
  | .pictureData _ b => 1 ≤ b.length && b.length ≤ Config.pageBytes
  | .pictureEnd _ b => b.length == 12
  | .gyroFrame _ b => b.length == 6
  | .inLaneBlockDropped _ _ l | .inLaneHeader _ _ l => fitsHalf l
  | .nextPart _ | .clearCatalogue _ | .catalogueSummary _ | .prepareStore _ | .chainCancel _ | .meterLock _
  | .meterUnlock _ | .readMeter _ | .extendLens _ | .zoomStop _ | .parkLens _ | .commitLensTable _ | .readZoom _
  | .focusStart _ _ | .focusRelease _ | .focusMode _ _ | .readFocus _ | .steadyMode _ _ | .readSteady _ | .arm _
  | .trigger _ | .disarm _ | .readShot _ | .readStatus _ | .readEvents _ | .setEventMask _ _ | .readSettings _
  | .softReset _ | .shutDown _ | .frameCheck _ _ | .unknownRequest _ _ | .frameBroken _ _ | .linkQuietResume _
  | .linkOrder _ _ | .responseCollected _ | .softResetExecute _ | .reset _ | .powerOn _ | .startUpEnd _ | .powerLow _
  | .shutdownMarkWrite _ | .safe _ | .recordWriteBegin _ | .recordWriteComplete _ | .prepareScanStart _
  | .prepareStoreEnd _ | .arbiterGrant _ | .flashStatusReadDone _ | .pageProgramDone _ _ | .blockEraseDone _ _
  | .grownMarkProgramDone _ _ | .backgroundTakeBlock _ | .blockWatchExpiry _ | .sampleWatchExpiry _ | .pictureStart _
  | .pictureAbort _ | .inLaneFramingFault _ | .dataTimeout _ | .endTaken _ | .outLaneItemBegin _
  | .descriptorStartSent _ | .dataItemSent _ | .descriptorEndSent _ | .cancelledEndSent _ | .encoderPulse _ _
  | .parkSensorChange _ _ | .stallWatchExpiry _ | .brakeWatchExpiry _ | .focusHomeSensorSeen _ | .focusHomingFailed _
  | .focusMoveComplete _ | .gyroFrameBroken _ | .gyroFrameTimeout _ | .gyroLost _ | .releaseFalling _
  | .releaseRising _ | .irisMoveComplete _ | .closeCommandDue _ | .shutterClosed _ | .shutterTimeout _ | .frameDue _
  | .gyroStartMarker _ | .requestStartMarker _ | .powerLost _ => true

end Sys2Proof
end

