-- ==== Sys2Proof/Decode.lean ====
section
/-! DEFINITION. The command a word of the opcode table spells. No row of spec/opcode_table.json gives bits (every
`fields` list is empty), so no word spells a command (log 28). -/

namespace Sys2Proof

/-- The command a word spells by the table's bits: none, since no row gives bits (log 28). -/
def decodeTableWord (_nbits _w : Nat) : Option Instr := none

end Sys2Proof
end

