-- ==== Sys2Proof/Machine/State.lean ====
section
/-! DEFINITION. The state of the part as plain data: every register, list, buffer, mode, watch and line the manual
names, block by block, and the queue of waiting commands. Everything is a number, a list or a closed choice. -/

namespace Sys2Proof.Machine

/-! ### Time and lines -/

/-- The part's watches and timers in µs; `none` is a stopped one. -/
structure Timers where
  /-- block watch (R97) -/
  block : Option Nat
  /-- sample watch (R138) -/
  sample : Option Nat
  /-- data timer (R56) -/
  data : Option Nat
  /-- stall watch (R112) -/
  stall : Option Nat
  /-- brake watch (R112) -/
  brake : Option Nat
  /-- time since the last encoder pulse (R112) -/
  pulse : Option Nat
  /-- lost watch (R153) -/
  lost : Option Nat
  /-- time since the last good gyro frame (R151) -/
  good : Option Nat
  /-- frame timer (R166, R172) -/
  frame : Option Nat
  /-- shutter timer, from EXPOSE (R172) -/
  shutter : Option Nat
  /-- confirmation watch (R174) -/
  confirm : Option Nat
  deriving DecidableEq, Repr

/-- Input lines as last read (line list). -/
structure Lines where
  /-- park sensor seen (R110) -/
  park : Bool
  /-- RELEASE high, the button up (R170) -/
  release : Bool
  /-- the shutter sensor reads closed (R173) -/
  shutterClosed : Bool
  /-- focus home sensor seen (R133) -/
  focusHome : Bool
  /-- the Out Lane ready line is high (R74) -/
  outReady : Bool
  deriving DecidableEq, Repr

/-! ### Supply Monitor and Event Set -/

/-- Reset causes (R194). -/
inductive ResetCause where
  | powerOn | resetLine | softReset | afterPowerFail
  deriving DecidableEq, Repr

/-- Shutdown states (R194). -/
inductive Shutdown where
  | starting | running | draining | shutDown
  deriving DecidableEq, Repr

/-- Values of the shutdown mark (R194). -/
inductive Mark where
  | running | powerFail | clean
  deriving DecidableEq, Repr

/-- The Supply Monitor (R194, R199, R200). -/
structure Supply where
  powered : Bool
  cause : ResetCause
  shutdown : Shutdown
  /-- POWER_LOW has been taken since the last reset (R199) -/
  powerLow : Bool
  /-- POWER_LOW was asserted during start-up (R198) -/
  powerLowEarly : Bool
  /-- SHUT DOWN has been accepted since the last reset (R200) -/
  shutDownTaken : Bool
  /-- the write of POWER_FAIL or CLEAN has completed (R199) -/
  markWritten : Bool
  /-- the SAFE line (R199) -/
  safe : Bool
  deriving DecidableEq, Repr

/-- The sixteen event flags in bit order (section 10.2). -/
inductive EventFlag where
  | shotEnded | burstEnded | pictureStored | storeFailed | readNotice | focusEnded | zoomEnded | lensFault
  | steadyFault | shutterFault | storeReadOnly | maintenanceDone | weakFound | powerLow | linkOrder | started
  deriving DecidableEq, Repr

/-- The Event Set: flags and mask (R188). -/
structure Events where
  flags : Half
  mask : Half
  deriving DecidableEq, Repr

/-! ### Records and durable items -/

/-- States of a record; a FREE place holds none (R1). -/
inductive RecState where
  | reserved | exposing | awaiting | storing | stored | failed | damaged
  deriving DecidableEq, Repr

/-- Failure causes (R9). -/
inductive FailCause where
  | aborted | dataCheck | brokenStream | dataTimeout | noSpace | oversize | shutter | power | interrupted
  deriving DecidableEq, Repr

/-- An exposure as a record keeps it (section 1.1). -/
structure Exposure where
  tv : Int
  av : Int
  sv : Int
  scene : Int
  compensation : Int
  mode : ExposureMode
  pattern : Pattern
  deriving DecidableEq, Repr

/-- The exposure flags (section 1.1). -/
structure ExposureFlags where
  slow : Bool
  bright : Bool
  dark : Bool
  cutShort : Bool
  deriving DecidableEq, Repr

/-- Focus outcome with the class and area its state makes present (section 1.1). -/
inductive FocusOutcome where
  | locked (cls area : Nat)
  | notLocked
  | manual (cls : Nat)
  deriving DecidableEq, Repr

/-- Steadying outcomes (R163). -/
inductive SteadyOutcome where
  | off | steady | clipped | lost
  deriving DecidableEq, Repr

/-- The fields frozen at ARM, present in every state but FREE and unreadable DAMAGED (section 1.1). -/
structure ArmFields where
  group : Nat
  index : Nat
  exposure : Exposure
  flags : ExposureFlags
  station : Nat
  focus : FocusOutcome
  deriving DecidableEq, Repr

/-- The fields of a STORED record's picture (section 1.1). -/
structure PictureFields where
  length : Nat
  check : Word
  width : Nat
  height : Nat
  deriving DecidableEq, Repr

/-- One record of the catalogue; an absent field is `none` (section 1.1). -/
structure PicRecord where
  number : Option Nat
  state : RecState
  cause : Option FailCause
  armed : Option ArmFields
  measured : Option Nat
  focusStep : Option Nat
  steady : Option SteadyOutcome
  peakShift : Option Nat
  /-- reserved blocks remaining -/
  remaining : Nat
  /-- extent list -/
  extent : List Nat
  /-- refresh extent -/
  refreshExtent : Option (List Nat)
  picture : Option PictureFields
  protect : Bool
  rating : Nat
  caption : List Byte
  trim : Option TrimBox
  /-- correction peak -/
  peak : Nat
  weak : Bool
  /-- unreadable-part mark -/
  unreadable : Bool
  /-- hold count -/
  holds : Nat
  deriving DecidableEq, Repr

/-- Kinds of a bad-block list entry (R44). -/
inductive BadKind where
  | factory | grown
  deriving DecidableEq, Repr

/-- A durable item as Record Memory holds it: contents that match their check value, or torn (R23, log 7). -/
inductive Durable (α : Type) where
  | good (a : α)
  | torn
  deriving DecidableEq, Repr

/-- Record Memory (R23). A place not listed is a good FREE place; listed places rise. -/
structure RecordMemory where
  places : List (Nat × Durable PicRecord)
  counter : Durable Nat
  settings : Durable Settings
  lensTable : Durable (Option (List StationEntry))
  badList : Durable (List (Nat × BadKind))
  identity : Durable (Option Nat)
  mark : Durable Mark
  deriving DecidableEq, Repr

/-- The durable items of the write queue (R23, R24). -/
inductive Item where
  | place (p : Nat)
  | counter | settings | lensTable | badList | identity
  deriving DecidableEq, Repr

/-- The copy a write carries (R25). -/
inductive Copy where
  | place (p : Nat) (r : Option PicRecord)
  | counter (n : Nat)
  | settings (x : Settings)
  | lensTable (t : Option (List StationEntry))
  | badList (l : List (Nat × BadKind))
  | identity (t : Option Nat)
  | mark (k : Mark)
  deriving DecidableEq, Repr

/-- The Record Writer (R24, R25). -/
structure Writer where
  queue : List Item
  inFlight : Option Copy
  deriving DecidableEq, Repr

/-- A write that something waits for: the first write of the item to begin after the change; `begun` once it has
(R26, R41, R49). -/
structure Cover where
  item : Item
  begun : Bool
  deriving DecidableEq, Repr

/-- The Catalogue's working state (R1, R11, R14). Listed places rise; an unlisted one is FREE. `snapshot` holds the
unfetched extent parts with their part numbers. -/
structure Catalogue where
  places : List (Nat × PicRecord)
  counter : Nat
  snapshot : Option (List (Nat × List Nat))
  deriving DecidableEq, Repr

/-! ### Block Map and Flash Port -/

/-- What a returned block waits for before it is ready to be erased (R41). -/
inductive ReturnWait where
  | ready
  /-- the next write of this place has still to begin -/
  | begins (place : Nat)
  /-- the covering write of this place is in flight -/
  | completes (place : Nat)
  deriving DecidableEq, Repr

/-- Block states (R36). -/
inductive BlockState where
  | erased | inUse
  | dirty (wait : ReturnWait)
  | unchecked | bad
  deriving DecidableEq, Repr

/-- Store modes (R46). -/
inductive StoreMode where
  | unprepared | preparing | writable | readOnly
  deriving DecidableEq, Repr

/-- Where a PREPARE STORE stands (R49, R50). -/
inductive PreparePhase where
  /-- waiting for the write of STORE IDENTITY as NONE -/
  | identityNone (begun : Bool)
  /-- that write has completed -/
  | scanDue
  /-- the raw read of page 0 of this block is asked for -/
  | scanning (block : Nat)
  /-- the erase of this block is asked for -/
  | erasing (block : Nat)
  /-- the grown mark of this block is asked for -/
  | marking (block : Nat)
  /-- waiting for the write of STORE IDENTITY as the block total -/
  | identityTotal (begun : Bool)
  /-- that write has completed -/
  | endDue
  /-- POWER_LOW has ended the prepare; the operation in flight has still to give its result -/
  | stopping
  deriving DecidableEq, Repr

/-- What background work is doing with its block in hand (R42, R43). `read63` keeps whether page 0 read blank. -/
inductive BackPhase where
  | erasing
  | read0
  | read63 (blank0 : Bool)
  deriving DecidableEq, Repr

/-- The Block Map (R27, R36 to R46). Listed blocks rise; an unlisted one below the total is UNCHECKED. -/
structure BlockMap where
  total : Nat
  blocks : List (Nat × BlockState)
  /-- reserved total (R38) -/
  reserved : Nat
  allocCursor : Nat
  eraseCursor : Nat
  badList : List (Nat × BadKind)
  /-- STORE IDENTITY, working copy: a block total or NONE -/
  identity : Option Nat
  mode : StoreMode
  prepare : Option PreparePhase
  /-- background block in hand -/
  inHand : Option (Nat × BackPhase)
  deriving DecidableEq, Repr

/-- Who asks the Flash Port for operations (R34). -/
inductive Claimant where
  | store | readChain | refresh | background | prepare
  deriving DecidableEq, Repr

/-- Flash operations (R28 to R31). -/
inductive FlashOp where
  | pageRead (block page : Nat)
  | rawRead (block page : Nat)
  | program (block page : Nat) (data : List Byte)
  | copyBack (source sourcePage target targetPage : Nat)
  | erase (block : Nat)
  | grownMark (block : Nat)
  deriving DecidableEq, Repr

/-- The operation in flight. `discard` says that its result no longer concerns its claimant (R69, R80, R87). -/
structure InFlightOp where
  claimant : Claimant
  op : FlashOp
  /-- address cycles given with a page address (R27) -/
  cycles : Nat
  discard : Bool
  deriving DecidableEq, Repr

/-- The two middle-level claimants (R35). -/
inductive MiddleGrant where
  | read | refresh
  deriving DecidableEq, Repr

/-- The Flash Port (R27 to R35). -/
structure FlashPort where
  /-- the first status read has shown the device ready (R31) -/
  statusDone : Bool
  inFlight : Option InFlightOp
  /-- the operation each claimant waits for -/
  store : Option FlashOp
  read : Option FlashOp
  refresh : Option FlashOp
  last : Option (Claimant × FlashOp)
  lastMiddle : MiddleGrant
  /-- what the port last gave the device's page register: the data bytes and the four correction codes of its sectors;
  `none` before the first since reset (R29, R30, log 49) -/
  register : Option (List Byte × List (List Byte))
  /-- the write-protect line (R32) -/
  writeProtect : Bool
  /-- write-protect is to be asserted when the port is next idle, and kept until the next reset (R32, R200) -/
  protectDue : Bool
  deriving DecidableEq, Repr

/-! ### Picture Port, Store Engine, Read Chain -/

/-- The In Lane block in hand: its header has been taken (R51). -/
structure LaneBlock where
  kind : Byte
  length : Nat
  /-- its header arrived before start-up had ended (R51) -/
  discard : Bool
  /-- bytes of its body clocked in so far -/
  got : Nat := 0
  deriving DecidableEq, Repr

/-- The In Lane's receiver: hunting for the marker, in a header with its bytes so far, or with a block in hand (R193). -/
inductive LaneReceiver where
  | hunting
  | header (bytes : List Byte)
  | block (b : LaneBlock)
  deriving DecidableEq, Repr

/-- Stream states (R53). -/
inductive Stream where
  | closed | opened | ending
  deriving DecidableEq, Repr

/-- Page buffer states (section 3.4). -/
inductive BufState where
  | empty | filling | full | programming
  deriving DecidableEq, Repr

/-- One page buffer; its fill count is the number of bytes it holds (section 3.4). -/
structure PageBuffer where
  state : BufState
  data : List Byte
  deriving DecidableEq, Repr

/-- The two page buffers' names. -/
inductive BufId where
  | a | b
  deriving DecidableEq, Repr

/-- A PICTURE_END's fields (section 10.4). -/
structure EndFields where
  length : Nat
  check : Word
  width : Nat
  height : Nat
  deriving DecidableEq, Repr

/-- A program-failure recovery (R60 to R62, R85). -/
structure Recovery where
  /-- the block whose pages are copied -/
  source : Nat
  /-- q, the pages already good in the position -/
  good : Nat
  /-- pages copied so far -/
  copied : Nat
  /-- blocks made BAD in the recovery, in the order they failed -/
  failed : List Nat
  deriving DecidableEq, Repr

/-- The Store Engine (R53). -/
structure StoreEngine where
  /-- pending store queue (R54) -/
  queue : List Nat
  stream : Stream
  bufA : PageBuffer
  bufB : PageBuffer
  /-- FULL buffers in the order they filled (R58) -/
  fullOrder : List BufId
  received : Nat
  check : Word
  pageIndex : Nat
  /-- relocation loss note (R61) -/
  loss : Bool
  heldEnd : Option EndFields
  heldStart : Bool
  recovery : Option Recovery
  /-- grown marks still to be asked for (R62) -/
  marks : List Nat
  deriving DecidableEq, Repr

/-- A read descriptor (R71). -/
structure Descriptor where
  number : Nat
  offset : Nat
  length : Nat
  notify : Bool
  position : Nat
  damage : Bool
  deriving DecidableEq, Repr

/-- Run states of the head descriptor (R71). -/
inductive RunState where
  | waiting | needsPage | reading | sending | ending
  deriving DecidableEq, Repr

/-- The read buffer: one page and its four counts (R71). -/
structure ReadBuffer where
  data : List Byte
  counts : List SectorCount
  deriving DecidableEq, Repr

/-- Outcomes of a DESCRIPTOR_END (R74). -/
inductive EndOutcome where
  | done | damagedData | cancelled
  deriving DecidableEq, Repr

/-- What an Out Lane item carries besides the picture number (R74). -/
inductive ItemKind where
  | start (offset length : Nat)
  | data (bytes : List Byte)
  | finish (outcome : EndOutcome)
  deriving DecidableEq, Repr

/-- The Out Lane item being sent. `live` says that it belongs to the descriptor now at the head; `notify` that its
sending sets READ_NOTICE (R78, R80). -/
structure OutItem where
  number : Nat
  kind : ItemKind
  live : Bool
  notify : Bool
  deriving DecidableEq, Repr

/-- A running refresh (R82). -/
structure Refresh where
  number : Nat
  /-- k, the block position being copied -/
  position : Nat
  /-- q, the page within it -/
  page : Nat
  /-- P, the picture's pages -/
  pages : Nat
  buffer : List Byte
  recovery : Option Recovery
  deriving DecidableEq, Repr

/-- The Read Chain with its refresh (R71, R82). -/
structure ReadChain where
  chain : List Descriptor
  run : Option RunState
  buffer : Option ReadBuffer
  /-- an owed CANCELLED marker: the picture number and the notify flag (R80) -/
  owed : Option (Nat × Bool)
  item : Option OutItem
  refresh : Option Refresh
  /-- grown marks of a refresh still to be asked for (R85 to R87) -/
  refreshMarks : List Nat
  deriving DecidableEq, Repr

/-! ### Metering, zoom, focus -/

/-- Metering states (R89). -/
inductive MeterState where
  | noData | tracking | stable | locked | stale
  deriving DecidableEq, Repr

/-- Lock owners (R89). -/
inductive LockOwner where
  | none | request | shot
  deriving DecidableEq, Repr

/-- The exposure setup in force (R103). -/
structure MeterSetup where
  mode : ExposureMode
  pattern : Pattern
  sensitivity : Sensitivity
  compensation : Int
  av : Int
  tv : Int
  deriving DecidableEq, Repr

/-- The computed exposure with what it was computed from (R89, R98). -/
structure Computed where
  tv : Int
  av : Int
  sv : Int
  flags : ExposureFlags
  difference : Int
  station : Nat
  focal : Nat
  limit : Int
  steadying : Bool
  deriving DecidableEq, Repr

/-- The Metering Unit (R89). `filtered` is in sixteenths of a third. -/
structure Meter where
  state : MeterState
  filtered : Option Int
  last : Option Int
  frame : Option Nat
  run : Nat
  owner : LockOwner
  note : Bool
  setup : MeterSetup
  exposure : Option Computed
  deriving DecidableEq, Repr

/-- Zoom states (R110). -/
inductive ZoomState where
  | unhomed | homing | extending | ready | moving | braking | parking | parked | stalled | noTableHold
  deriving DecidableEq, Repr

/-- Legs of a move (R110). -/
inductive Leg where
  | approach | outbound
  deriving DecidableEq, Repr

/-- Drives of the zoom motor (R110). -/
inductive Drive where
  | off | teleFull | teleSlow | wideFull | wideSlow | braked
  deriving DecidableEq, Repr

/-- Last fault of the Zoom Drive (R110). -/
inductive ZoomFault where
  | none | stall | range | parkSensor | focusHome
  deriving DecidableEq, Repr

/-- The Zoom Drive (R110). -/
structure Zoom where
  state : ZoomState
  count : Option Int
  current : Option Nat
  target : Option (Nat × Leg)
  drive : Drive
  period : Option Nat
  lastFault : ZoomFault
  working : Option (List StationEntry)
  staging : List (Option StationEntry)
  /-- in HOMING: stopped on the sensor (R115); in PARKING: the motor is stopped before the retract (R125) -/
  stopped : Bool
  /-- the Focus Unit's homing report, once it has come: homed or failed (R115, R125) -/
  report : Option Bool
  /-- in PARKING: the retract has begun (R125) -/
  retract : Bool
  deriving DecidableEq, Repr

/-- Focus states (R131). -/
inductive FocusState where
  | unhomed | idle | scanning | approaching | locked | failedNoPeak | manual | tracking
  deriving DecidableEq, Repr

/-- A lock, or a class set by hand (R131). -/
inductive FocusHeld where
  | lock (cls area sharp : Nat)
  | manual (cls : Nat)
  deriving DecidableEq, Repr

/-- Where an approach ends (R131). -/
inductive FocusDest where
  | hold (h : FocusHeld)
  | failed
  | idle
  deriving DecidableEq, Repr

/-- An approach: aimed step, destination, end-owed note (R131). -/
structure Approach where
  aim : Nat
  dest : FocusDest
  owed : Bool
  deriving DecidableEq, Repr

/-- A focus move in progress: the aimed step, and the overshoot point while it is still to be reached (R132). -/
structure FocusMove where
  aim : Nat
  via : Option Nat
  deriving DecidableEq, Repr

/-- An entry of the focus area list (R134). -/
structure Area where
  id : Nat
  rect : Rect
  enabled : Bool
  deriving DecidableEq, Repr

/-- A running scan (R131, R137). -/
structure Scan where
  first : Nat
  last : Nat
  current : Nat
  areas : List Area
  skip : Bool
  station : Nat
  deriving DecidableEq, Repr

/-- One area's part of the scan curve: 16 samples and the confirmed peak (R131). -/
structure Curve where
  id : Nat
  samples : List (Option Nat)
  peak : Option Nat
  deriving DecidableEq, Repr

/-- Last end causes (R131). -/
inductive EndCause where
  | none | locked | noPeak | distanceSet | zoomMoved | released | noStatistics | lensFault | homing
  deriving DecidableEq, Repr

/-- The Focus Unit (R131). -/
structure Focus where
  mode : FocusMode
  state : FocusState
  position : Option Nat
  /-- lock or manual class, in LOCKED, MANUAL and TRACKING -/
  held : Option FocusHeld
  approach : Option Approach
  /-- the end-owed note TRACKING carries (R145) -/
  trackOwed : Bool
  move : Option FocusMove
  /-- steps taken by a homing under way (R133) -/
  homing : Option Nat
  scan : Option Scan
  curve : List Curve
  follow : Nat
  suspended : Bool
  areas : List Area
  lastEnd : EndCause
  deriving DecidableEq, Repr

/-! ### Stabilizer, Shot Sequencer -/

/-- Stabilizer states (R149). -/
inductive SteadyState where
  | off | starting | active | hold | fault
  deriving DecidableEq, Repr

/-- What the gyro receiver is at: hunting, or assembling with the bytes so far and the µs since the start marker's stop
bit (R149, R150). -/
inductive GyroPhase where
  | hunting
  | assembling (bytes : List Byte) (time : Nat)
  deriving DecidableEq, Repr

/-- The gyro receiver: what it is at, and the frames it has completed whose row GYRO_FRAME is still to come, the first to
complete first (R149, R150, log 56). -/
structure GyroReceiver where
  phase : GyroPhase
  whole : List (List Byte)
  deriving DecidableEq, Repr

/-- One axis of the Stabilizer (R149). The angle is in hundredths of a millidegree. -/
structure Axis where
  bias : Option Int
  angle : Int
  pan : Bool
  panOn : Nat
  panOff : Nat
  target : Int
  clip : Bool
  deriving DecidableEq, Repr

/-- An exposure session: outcome so far (OFF, STEADY or LOST), peak shift, clip-seen note (R161). -/
structure Session where
  outcome : SteadyOutcome
  peak : Nat
  clipSeen : Bool
  deriving DecidableEq, Repr

/-- The Stabilizer, but for its receiver (R149). -/
structure Steady where
  mode : SteadyMode
  state : SteadyState
  lastSeq : Option Nat
  good : Nat
  discarded : Nat
  longGap : Nat
  progress : Nat
  pitchSum : Int
  yawSum : Int
  pitch : Axis
  yaw : Axis
  session : Option Session
  /-- the outcome and peak shift of a session POWER_LOW has closed (R165) -/
  kept : Option (SteadyOutcome × Nat)
  /-- the gain last read from the Zoom Drive (R164) -/
  gain : Int
  deriving DecidableEq, Repr

/-- Shot states (R166). -/
inductive ShotState where
  | idle | armed | waitSteady | preparing | exposing | closing | interval | queueWait | fault
  deriving DecidableEq, Repr

/-- The shot setup (R167). -/
structure ShotSetup where
  count : Nat
  interval : Nat
  policy : FocusPolicy
  trigger : TriggerMode
  deriving DecidableEq, Repr

/-- The armed burst (R166). -/
structure Burst where
  group : Nat
  count : Nat
  numbers : List Nat
  next : Nat
  released : Bool
  disarmed : Bool
  tv : Int
  av : Int
  deriving DecidableEq, Repr

/-- The exposure in hand (R166). Times are measured from EXPOSE; `closedAt` is when the close command was issued. -/
structure InHand where
  number : Nat
  tv : Int
  av : Int
  closedAt : Option Nat
  cutShort : Bool
  deriving DecidableEq, Repr

/-- The iris: at an Av, on its run after start-up, or moving to an Av (R166). -/
inductive Iris where
  | at (av : Int)
  | startRun
  | moving (av : Int)
  deriving DecidableEq, Repr

/-- The Shot Sequencer (R166). -/
structure Shot where
  state : ShotState
  setup : ShotSetup
  lastGroup : Nat
  burst : Option Burst
  exposure : Option InHand
  learned : Nat
  lastLatency : Option Nat
  lastMeasured : Option Nat
  iris : Iris
  deriving DecidableEq, Repr

/-! ### Command Link and its answers -/

/-- Result codes (section 10.1). -/
inductive Code where
  | ok | none | busy | frameCheck | unknownRequest | powerLow | badField | noSuchRecord | noMoreParts | wrongState
  | protect | held | chainFull | noSpace | storeReadOnly | storeUnprepared | catalogueFull | shotArmed | shutterFault
  | lensNotReady | lensFault | noLensTable | focusBusy | notReady
  deriving DecidableEq, Repr

/-- COMMIT LENS TABLE's validation tests (R127). -/
inductive TableTest where
  | empty | avOrder | camOrder | countOrder | focalOrder
  deriving DecidableEq, Repr

/-- LOOKUP's header part (R14): the record with its extent list given as a length and its refresh extent as a note. -/
structure HeaderPart where
  place : Nat
  parts : Nat
  record : PicRecord
  extentLength : Nat
  refreshRunning : Bool
  deriving DecidableEq, Repr

/-- CATALOGUE SUMMARY's answer (R21). -/
structure Summary where
  free : Nat
  reserved : Nat
  exposing : Nat
  awaiting : Nat
  storing : Nat
  stored : Nat
  failed : Nat
  damaged : Nat
  erased : Nat
  reservedTotal : Nat
  dirtyUnchecked : Nat
  bad : Nat
  mode : StoreMode
  counter : Nat
  queued : Nat
  deriving DecidableEq, Repr

/-- READ METER's answer (R109). -/
structure MeterReport where
  state : MeterState
  owner : LockOwner
  note : Bool
  scene : Option Int
  last : Option Int
  frame : Option Nat
  run : Nat
  recent : Bool
  setup : MeterSetup
  exposure : Option Computed
  deriving DecidableEq, Repr

/-- READ ZOOM's answer (R129). -/
structure ZoomReport where
  state : ZoomState
  count : Option Int
  current : Option Nat
  target : Option (Nat × Leg)
  drive : Drive
  period : Option Nat
  park : Bool
  lastFault : ZoomFault
  gain : Int
  table : Bool
  filled : Nat
  deriving DecidableEq, Repr

/-- READ LENS STATION's answer (R129). -/
inductive LensAnswer where
  | entry (e : StationEntry)
  | empty
  | absent
  deriving DecidableEq, Repr

/-- READ FOCUS's answer (R148). -/
structure FocusReport where
  mode : FocusMode
  state : FocusState
  position : Option Nat
  held : Option FocusHeld
  approach : Option Approach
  /-- first, last and current class of a running scan -/
  scan : Option (Nat × Nat × Nat)
  follow : Nat
  suspended : Bool
  lastEnd : EndCause
  areas : List Area
  deriving DecidableEq, Repr

/-- One axis in READ STEADY's answer; the angle in millidegrees (R164). -/
structure AxisReport where
  bias : Option Int
  angle : Int
  target : Int
  pan : Bool
  clip : Bool
  deriving DecidableEq, Repr

/-- READ STEADY's answer (R164). -/
structure SteadyReport where
  mode : SteadyMode
  state : SteadyState
  progress : Nat
  good : Nat
  discarded : Nat
  longGap : Nat
  lastSeq : Option Nat
  pitch : AxisReport
  yaw : AxisReport
  gain : Int
  session : Option Session
  deriving DecidableEq, Repr

/-- The armed burst in READ SHOT's answer (R182). -/
structure BurstReport where
  group : Nat
  count : Nat
  numbers : List Nat
  next : Nat
  released : Bool
  disarmed : Bool
  deriving DecidableEq, Repr

/-- READ SHOT's answer (R182). -/
structure ShotReport where
  state : ShotState
  setup : ShotSetup
  reservation : Nat
  lastGroup : Nat
  burst : Option BurstReport
  /-- Tv, Av, time since EXPOSE, close command issued -/
  exposure : Option (Int × Int × Option Nat × Bool)
  learned : Nat
  lastLatency : Option Nat
  lastMeasured : Option Nat
  /-- the Av the iris stands at; `none` is MOVING (R166) -/
  iris : Option Int
  release : Bool
  expose : Bool
  shutterClosed : Bool
  deriving DecidableEq, Repr

/-- READ STATUS's answer (R190). -/
structure StatusReport where
  cause : ResetCause
  shutdown : Shutdown
  mode : StoreMode
  shot : ShotState
  zoom : ZoomState
  station : Option Nat
  focus : FocusState
  steady : SteadyState
  meter : MeterState
  scene : Option Int
  queue : Nat
  chain : Nat
  erased : Nat
  reserved : Nat
  deriving DecidableEq, Repr

/-- Bodies of responses (log 26). -/
inductive Body where
  | empty
  | header (h : HeaderPart)
  | extentPart (part : Nat) (blocks : List Nat)
  | cleared (retired kept : Nat)
  | summary (x : Summary)
  | chainLength (n : Nat)
  | badStation (station : Nat) (test : TableTest)
  | meter (x : MeterReport)
  | zoom (x : ZoomReport)
  | lensStation (x : LensAnswer)
  | cls (k : Nat)
  | focus (x : FocusReport)
  | curve (x : Option Curve)
  | steady (x : SteadyReport)
  | armed (group : Nat) (numbers : List Nat) (tv av sv : Int) (flags : ExposureFlags)
  | shot (x : ShotReport)
  | status (x : StatusReport)
  | events (bytes : List Byte)
  | settings (x : Settings)
  deriving DecidableEq, Repr

/-- What a held response waits for: covering writes (R26, R191) or the write of the shutdown mark (R200). -/
inductive HeldBy where
  | covers (cs : List Cover)
  | mark
  deriving DecidableEq, Repr

/-- The pending response (R183). -/
structure Response where
  kind : Nat
  code : Code
  body : Body
  held : Option HeldBy
  deriving DecidableEq, Repr

/-- The frame being received (R183 to R185). `receiving` keeps whether its start marker arrived while a response was
pending (R186), and the frame's bytes so far, from its length byte on; `overlong` passes over bytes until 1 ms without a
clock. -/
inductive LinkReceiver where
  | hunting
  | receiving (late : Bool) (bytes : List Byte)
  | overlong
  deriving DecidableEq, Repr

/-- The link's condition (R183). -/
inductive LinkCondition where
  | listening | silent
  deriving DecidableEq, Repr

/-- The Command Link (R183). -/
structure Link where
  receiver : LinkReceiver
  pending : Option Response
  /-- bytes of the pending response already clocked out -/
  clockedOut : Nat
  condition : LinkCondition
  deriving DecidableEq, Repr

/-! ### The whole part -/

/-- The state of the part and the queue of commands waiting for it. -/
structure State where
  /-- commands waiting, first in, first out -/
  pending : List Instr
  timers : Timers
  lines : Lines
  supply : Supply
  events : Events
  link : Link
  memory : RecordMemory
  writer : Writer
  cat : Catalogue
  /-- SETTINGS, working copy (R191) -/
  settings : Settings
  map : BlockMap
  flash : FlashPort
  lane : LaneReceiver
  store : StoreEngine
  chain : ReadChain
  meter : Meter
  zoom : Zoom
  focus : Focus
  /-- the Stabilizer's receiver (R149) -/
  gyro : GyroReceiver
  steady : Steady
  shot : Shot
  deriving DecidableEq, Repr

/-- No command of the table stops the part with a fault: a failed mechanism leaves a state of its own and an event
flag, and a request turned away is answered with its refusal code (log 31). -/
inductive Fault where
  deriving DecidableEq, Repr

/-- Why a command has no meaning. -/
inductive Refusal where
  /-- a command not modelled yet: raised by its arm of `exec` alone; safe, no run passes it. No arm raises it now. -/
  | notModelled (mnemonic : String)
  deriving DecidableEq, Repr

/-! ### The state after reset -/

/-- The default matrix weights, zone 0 first (R91). -/
def defaultWeights : List Nat :=
  [2, 2, 2, 2, 2, 2, 2, 2,
   2, 2, 4, 4, 4, 4, 2, 2,
   2, 2, 4, 8, 8, 4, 2, 2,
   2, 2, 4, 8, 8, 4, 2, 2,
   2, 2, 4, 4, 4, 4, 2, 2,
   2, 2, 2, 2, 2, 2, 2, 2]

/-- SETTINGS when defaulted (R191). -/
def defaultSettings : Settings :=
  { target := 11800, weights := defaultWeights, reservation := 32, flashBlocks := 4096 }

/-- Every timer stopped. -/
def stoppedTimers : Timers :=
  { block := none, sample := none, data := none, stall := none, brake := none, pulse := none, lost := none,
    good := none, frame := none, shutter := none, confirm := none }

/-- The exposure setup after every reset (R103). -/
def defaultMeterSetup : MeterSetup :=
  { mode := .program, pattern := .matrix, sensitivity := .auto 0, compensation := 0, av := 11, tv := 18 }

/-- The shot setup after every reset (R167). -/
def defaultShotSetup : ShotSetup :=
  { count := 1, interval := 250, policy := .focusFirst, trigger := .press }

/-- The Metering Unit after every reset (R89). -/
def resetMeter : Meter :=
  { state := .noData, filtered := none, last := none, frame := none, run := 0, owner := .none, note := false,
    setup := defaultMeterSetup, exposure := none }

/-- The Zoom Drive after every reset, given the working table start-up leaves (R110). -/
def resetZoom (working : Option (List StationEntry)) : Zoom :=
  { state := .unhomed, count := none, current := none, target := none, drive := .off, period := none,
    lastFault := .none, working := working,
    staging := match working with
      | some t => t.map some
      | none => List.replicate 48 none
    stopped := false, report := none, retract := false }

/-- The Focus Unit after every reset (R131). -/
def resetFocus : Focus :=
  { mode := .single, state := .unhomed, position := none, held := none, approach := none, trackOwed := false,
    move := none, homing := none, scan := none, curve := [], follow := 0, suspended := false, areas := [],
    lastEnd := .none }

/-- An axis after every reset (R149). -/
def resetAxis : Axis :=
  { bias := none, angle := 0, pan := false, panOn := 0, panOff := 0, target := 0, clip := false }

/-- The Stabilizer after every reset (R149; the sums and the gain read, log 33). -/
def resetSteady : Steady :=
  { mode := .off, state := .off, lastSeq := none, good := 0, discarded := 0, longGap := 0,
    progress := 0, pitchSum := 0, yawSum := 0, pitch := resetAxis, yaw := resetAxis, session := none, kept := none,
    gain := 0 }

/-- The Shot Sequencer after every reset (R166; the iris before its start-up run, log 33). -/
def resetShot : Shot :=
  { state := .idle, setup := defaultShotSetup, lastGroup := 0, burst := none, exposure := none, learned := 5000,
    lastLatency := none, lastMeasured := none, iris := .at 6 }

/-- An EMPTY page buffer (R53). -/
def emptyBuffer : PageBuffer := { state := .empty, data := [] }

/-- The Store Engine after every reset (R53; the four values of the bound picture, log 33). -/
def resetStore : StoreEngine :=
  { queue := [], stream := .closed, bufA := emptyBuffer, bufB := emptyBuffer, fullOrder := [], received := 0,
    check := 0xFFFFFFFF#32, pageIndex := 0, loss := false, heldEnd := none, heldStart := false, recovery := none,
    marks := [] }

/-- The Read Chain after every reset (R71, R82). -/
def resetChain : ReadChain :=
  { chain := [], run := none, buffer := none, owed := none, item := none, refresh := none, refreshMarks := [] }

/-- The Flash Port after every reset (R31, R32, R33, R35). -/
def resetFlash : FlashPort :=
  { statusDone := false, inFlight := none, store := none, read := none, refresh := none, last := none,
    lastMiddle := .refresh, register := none, writeProtect := true, protectDue := false }

/-- The Command Link after every reset (R183). -/
def resetLink : Link :=
  { receiver := .hunting, pending := none, clockedOut := 0, condition := .listening }

/-- The Event Set after every reset: every flag clear, every mask bit 1 (R188). -/
def resetEvents : Events := { flags := 0#16, mask := 0xFFFF#16 }

/-- Record Memory fresh from manufacture (R194). -/
def factoryMemory : RecordMemory :=
  { places := [], counter := .good 1, settings := .good defaultSettings, lensTable := .good none, badList := .good [],
    identity := .good none, mark := .good .clean }

/-- Fresh from manufacture with power just applied: start-up has verified the factory items and rebuilt an empty
catalogue, and the mark RUNNING has still to be written (R194 to R198, log 9; the input lines' levels, log 10). -/
def State.reset : State :=
  { pending := []
    timers := stoppedTimers
    lines := { park := false, release := true, shutterClosed := false, focusHome := false, outReady := false }
    supply := { powered := true, cause := .powerOn, shutdown := .starting, powerLow := false, powerLowEarly := false,
                shutDownTaken := false, markWritten := false, safe := false }
    events := resetEvents
    link := resetLink
    memory := factoryMemory
    writer := { queue := [], inFlight := none }
    cat := { places := [], counter := 1, snapshot := none }
    settings := defaultSettings
    map := { total := 0, blocks := [], reserved := 0, allocCursor := 0, eraseCursor := 0, badList := [],
             identity := none, mode := .unprepared, prepare := none, inHand := none }
    flash := resetFlash
    lane := .hunting
    store := resetStore
    chain := resetChain
    meter := resetMeter
    zoom := resetZoom none
    focus := resetFocus
    gyro := { phase := .hunting, whole := [] }
    steady := resetSteady
    shot := resetShot }

end Sys2Proof.Machine
end

