-- ==== Sys2Proof/Machine/Ops.lean ====
section
/-! DEFINITION. Shared operations: sparse tables in canonical form, rounding, time, the write queue, record places. -/

namespace Sys2Proof.Machine

/-! ### Sparse tables: lists of key and value with rising keys -/

/-- What stands at key `k`, if listed. -/
def Table.get (k : Nat) : List (Nat × α) → Option α
  | [] => none
  | (j, v) :: t => if j = k then some v else Table.get k t

/-- Lists `v` at key `k`, keeping the keys rising. -/
def Table.put (k : Nat) (v : α) : List (Nat × α) → List (Nat × α)
  | [] => [(k, v)]
  | (j, w) :: t => if k < j then (k, v) :: (j, w) :: t else if j = k then (k, v) :: t else (j, w) :: Table.put k v t

/-- Takes key `k` off the list. -/
def Table.erase (k : Nat) : List (Nat × α) → List (Nat × α)
  | [] => []
  | (j, w) :: t => if j = k then t else (j, w) :: Table.erase k t

/-- The keys rise strictly and every listed value may be listed. -/
def Table.wf (ok : α → Bool) : List (Nat × α) → Bool
  | [] => true
  | (k, v) :: t => ok v && (match t with | [] => true | (j, _) :: _ => k < j) && Table.wf ok t

/-! ### Rounding -/

/-- Division of an integer by a positive number, rounded to the nearest with halves upward (R95, R123, R173). -/
def roundHalfUp (a : Int) (b : Nat) : Int := Int.fdiv (2 * a + b) (2 * b)

/-- Division of an integer by a positive number, rounded to the nearest with halves away from zero (R156, R160). -/
def roundHalfAway (a : Int) (b : Nat) : Int :=
  if 0 ≤ a then Int.fdiv (2 * a + b) (2 * b) else -Int.fdiv (2 * -a + b) (2 * b)

/-- Division rounded toward zero (R95, R157, R158). -/
def roundToZero (a : Int) (b : Nat) : Int := Int.tdiv a b

/-- `x` limited to the range `lo` to `hi`. -/
def limit (lo hi x : Int) : Int := if x < lo then lo else if hi < x then hi else x

/-- Three times the base-2 logarithm of `n / d`, rounded to the nearest whole number with halves upward: the greatest
`k` in −49 to 49 with `(n / d)^6 ≥ 2^(2k − 1)` (R94, R98). -/
def thirdsLog (n d : Nat) : Int :=
  go 98 49
where
  /-- Tries `k`, then `k − 1`, and so on. -/
  go : Nat → Int → Int
    | 0, k => k
    | f + 1, k =>
      let e := 2 * k - 1
      if (if 0 ≤ e then d ^ 6 * 2 ^ e.toNat ≤ n ^ 6 else d ^ 6 ≤ n ^ 6 * 2 ^ (-e).toNat) then k else go f (k - 1)

/-- The greatest `r` below `2^(bits)` with `(2r − 1)^3 * a ≤ b` (or 0), bit by bit. -/
def cubeRootSearch (a b : Nat) : Nat → Nat → Nat
  | 0, r => r
  | n + 1, r =>
    let t := r + 2 ^ n
    cubeRootSearch a b n (if (2 * t - 1) ^ 3 * a ≤ b then t else r)

/-- The exposure time in µs: 1,000,000 × 2^(−Tv ÷ 3), rounded to the nearest with halves upward (R172). -/
def exposureTime (tv : Int) : Nat :=
  if 0 ≤ tv then cubeRootSearch (2 ^ tv.toNat) (8 * 10 ^ 18) 26 0
  else cubeRootSearch 1 (8 * 10 ^ 18 * 2 ^ (-tv).toNat) 26 0

/-! ### Lists -/

/-- The entry of a list of numbers at a position, 0 past its end. -/
def nth (l : List Nat) (i : Nat) : Nat := l.getD i 0

/-- The list with position `i` (from 0) replaced. -/
def replaceAt (l : List Nat) (i v : Nat) : List Nat := l.set i v

/-- The list without its first occurrence of `x`. -/
def removeFirst (x : Nat) : List Nat → List Nat
  | [] => []
  | y :: t => if y = x then t else y :: removeFirst x t

/-- The list without position `i` (from 0). -/
def removeAt (l : List Nat) (i : Nat) : List Nat := l.eraseIdx i

/-! ### Bytes on the Command Link -/

/-- The start marker of a request frame (section 10.4). -/
abbrev requestMarker : Byte := 90#8

/-- Nothing more belongs to the frame: its length byte is above 251, or its second check byte has been taken (R184,
R185). -/
def frameWhole : List Byte → Bool
  | [] => false
  | n :: t => 251 < n.toNat || n.toNat + 3 ≤ t.length

/-- A byte on data in, with or without a response pending: the hunt passes over all but the start marker, a frame takes
the bytes that belong to it (R184, R186). A complete frame stays until its row comes and the bytes that follow it before
then are lost, where R184 hunts through them: the model's choice (log 76). -/
def LinkReceiver.takeByte (pending : Bool) (r : LinkReceiver) (b : Byte) : LinkReceiver :=
  match r with
  | .hunting => if b = requestMarker then .receiving pending [] else .hunting
  | .receiving late bytes => if frameWhole bytes then .receiving late bytes else .receiving late (bytes ++ [b])
  | .overlong => .overlong

/-- What the link is receiving after bytes on data in; a SILENT link passes them over (R184, R192). -/
def Link.received (bytes : List Byte) (l : Link) : LinkReceiver :=
  match l.condition with
  | .listening => bytes.foldl (LinkReceiver.takeByte l.pending.isSome) l.receiver
  | .silent => l.receiver

/-- The ready line: a response is pending and is not held (R186). -/
def Link.ready (l : Link) : Bool :=
  match l.pending with
  | some r => r.held.isNone
  | none => false

/-- A response body's bytes, for the bodies whose layout the manual gives: the empty one and READ EVENTS' (R189,
section 10.4, log 26). -/
def bodyBytes : Body → Option (List Byte)
  | .empty => some []
  | .events b => some b
  | _ => none

/-- How many bytes of a response come before its last one; a response has at most 256 (section 10.4, log 27). -/
def Response.beforeLast (r : Response) : Nat :=
  match bodyBytes r.body with
  | some b => b.length + 5
  | none => 255

/-- The bytes of the pending response already clocked out, `n` clocked bytes later: each carries the next one out while
ready is high (R186). -/
def Link.outAfter (n : Nat) (l : Link) : Nat :=
  match l.pending with
  | some r => if r.held.isNone then min r.beforeLast (l.clockedOut + n) else l.clockedOut
  | none => l.clockedOut

/-- Bytes the host clocks: each arrives on data in, and each carries a byte of a ready response out (R184, R186). -/
def Link.clock (bytes : List Byte) (l : Link) : Link :=
  { l with receiver := l.received bytes, clockedOut := l.outAfter bytes.length }

/-! ### Time and sampled lines -/

/-- A running timer `dt` later. -/
def later (dt : Nat) : Option Nat → Option Nat
  | some t => some (t + dt)
  | none => none

/-- The In Lane ready line (R52). -/
def inLaneReady (s : State) : Bool :=
  s.supply.powered && s.supply.shutdown != .starting && !s.supply.powerLow && s.store.stream != .ending &&
    (s.store.bufA.state == .empty || s.store.bufB.state == .empty)

/-- A running timer stands at or past its limit. -/
def reached (limit : Nat) : Option Nat → Bool
  | some t => limit ≤ t
  | none => false

/-- The timers `dt` later; the data timer pauses while the In Lane ready line is low (R56). -/
def Timers.advance (dt : Nat) (ready : Bool) (t : Timers) : Timers :=
  { block := later dt t.block, sample := later dt t.sample,
    data := if ready then later dt t.data else t.data,
    stall := later dt t.stall, brake := later dt t.brake, pulse := later dt t.pulse, lost := later dt t.lost,
    good := later dt t.good, frame := later dt t.frame, shutter := later dt t.shutter,
    confirm := later dt t.confirm }

/-- A focus move `n` steps on: toward home to its overshoot point first, then to its aimed step (R132). -/
def moveSteps (n position : Nat) (mv : FocusMove) : Nat × FocusMove :=
  match mv.via with
  | some v =>
    if n < position - v then (position - n, mv)
    else (min mv.aim (v + (n - (position - v))), { mv with via := none })
  | none =>
    if position ≤ mv.aim then (min mv.aim (position + n), mv) else (max mv.aim (position - n), mv)

/-- The focus stepper `n` steps on, in a move or a homing (R132, R133). -/
def Focus.steps (n : Nat) (f : Focus) : Focus :=
  match f.homing with
  | some h => { f with homing := some (h + n) }
  | none =>
    match f.move, f.position with
    | some mv, some p =>
      let (p', mv') := moveSteps n p mv
      { f with position := some p', move := some mv' }
    | _, _ => f

/-- The shutter sensor's reading as a command brings it; in CLOSING only SHUTTER CLOSED brings a closed one, since the
first such moment is the confirmation (R173, log 3). -/
def sensorRead (m : Moment) (s : State) : Bool :=
  if s.shot.state = .closing then s.lines.shutterClosed else m.shutterClosed

/-! ### Bytes on the In Lane -/

/-- The marker that opens an In Lane block (section 10.4). -/
abbrev laneMarker : Byte := 195#8
/-- Kinds of In Lane blocks (section 10.4). -/
abbrev kindStatistics : Byte := 1#8
/-- PICTURE_START's kind. -/
abbrev kindStart : Byte := 2#8
/-- PICTURE_DATA's kind. -/
abbrev kindData : Byte := 3#8
/-- PICTURE_END's kind. -/
abbrev kindEnd : Byte := 4#8
/-- PICTURE_ABORT's kind. -/
abbrev kindAbort : Byte := 5#8

/-- A header is taken: its block is in hand. After POWER_LOW a PICTURE_DATA header is dropped at once, since its body
could never begin (R51, R70, log 50). -/
def laneHeaded (s : State) (kind : Byte) (length : Nat) : LaneReceiver :=
  if s.supply.powerLow ∧ kind = kindData then .hunting
  else .block { kind := kind, length := length, discard := decide (s.supply.shutdown = .starting) }

/-- The body of a PICTURE_DATA block waits for ready; one that has begun goes on (R51, R70). A body of length 0 waits like
any other, the model's choice: R193 ends its block at its header, R51 takes the body only with ready high (log 68). -/
def LaneBlock.waits (s : State) (b : LaneBlock) : Bool := b.kind == kindData && b.got == 0 && !inLaneReady s

/-- A byte on the In Lane: the hunt passes over all but the marker, a header takes the kind and the two bytes of the
length, a block takes the bytes of its body (R51, R193, log 51). A whole block stays in hand until its row comes and the
bytes that follow it before then are lost, where R193 hunts through them: the model's choice (log 51). -/
def LaneReceiver.takeByte (s : State) (r : LaneReceiver) (x : Byte) : LaneReceiver :=
  match r with
  | .hunting => if x = laneMarker then .header [] else .hunting
  | .header (kind :: high :: _) => laneHeaded s kind (high.toNat * 256 + x.toNat)
  | .header h => .header (h ++ [x])
  | .block b => if b.waits s ∨ b.length ≤ b.got then .block b else .block { b with got := b.got + 1 }

/-! ### Bytes on the gyro line -/

/-- The start marker of a gyro frame (section 10.4). -/
abbrev gyroMarker : Byte := 126#8

/-- The receiver runs from the end of start-up (R150). -/
def gyroRuns (s : State) : Bool := s.supply.shutdown != .starting

/-- A byte on the gyro line: the hunt passes over all but the start marker, a frame takes its six bytes, whatever their
values, while its time lasts; the sixth completes it and the receiver hunts again (R150, log 56). -/
def GyroReceiver.takeByte (r : GyroReceiver) (x : Byte) : GyroReceiver :=
  match r.phase with
  | .hunting => if x = gyroMarker then { r with phase := .assembling [] 0 } else r
  | .assembling h t =>
    if Config.gyroLimit < t then r
    else if h.length + 1 < Config.gyroBytes then { r with phase := .assembling (h ++ [x]) t }
    else { phase := .hunting, whole := r.whole ++ [h ++ [x]] }

/-- The phase `dt` later (R150). -/
def GyroPhase.advance (dt : Nat) : GyroPhase → GyroPhase
  | .hunting => .hunting
  | .assembling h t => .assembling h (t + dt)

/-- The receiver `dt` later (R150). -/
def GyroReceiver.advance (dt : Nat) (r : GyroReceiver) : GyroReceiver := { r with phase := r.phase.advance dt }

/-- What the receiver is after the time and the bytes of a Moment (R150). -/
def gyroAfter (m : Moment) (s : State) : GyroReceiver :=
  if gyroRuns s then m.gyro.foldl GyroReceiver.takeByte (s.gyro.advance m.dt) else s.gyro

/-- The state when a command arrives: time has passed, the stepper has stepped, the host has clocked its bytes, the
In Lane and the gyro line have brought theirs, the sampled lines are read (log 1, log 3, log 56). A focus home sensor
that then reads seen ends no homing by itself; only the row FOCUS HOME SENSOR SEEN does (the model's choice, log 54). -/
def State.arrive (m : Moment) (s : State) : State :=
  { s with
    timers := s.timers.advance m.dt (inLaneReady s)
    lines := { s.lines with
      shutterClosed := sensorRead m s, focusHome := m.focusHome, outReady := m.outReady }
    link := s.link.clock m.clocked
    lane := m.lane.foldl (LaneReceiver.takeByte s) s.lane
    focus := s.focus.steps m.focusSteps
    gyro := gyroAfter m s }

/-! ### Write queue -/

/-- An item becomes dirty: it joins the tail unless it already waits (R24). -/
def Writer.mark (i : Item) (w : Writer) : Writer :=
  if w.queue.contains i then w else { w with queue := w.queue ++ [i] }

/-- Marks an item dirty (R24). -/
def State.markDirty (i : Item) (s : State) : State := { s with writer := s.writer.mark i }

/-- Marks items dirty in order. -/
def State.markAll (is : List Item) (s : State) : State := { s with writer := is.foldl (fun w i => w.mark i) s.writer }

/-- A cover after a write of the item begins (R26). -/
def Cover.onBegin (i : Item) (c : Cover) : Cover := if c.item = i then { c with begun := true } else c

/-- The covers still waiting after a write of the item completes (R26). -/
def coversAfter (i : Item) (cs : List Cover) : List Cover := cs.filter fun c => !(c.item = i && c.begun)

/-! ### Places -/

/-- The record at a place; `none` is FREE (R1). -/
def State.record (s : State) (p : Nat) : Option PicRecord := Table.get p s.cat.places

/-- Changes a place of the working copy; the place is not marked dirty. -/
def State.setRecord (p : Nat) (r : PicRecord) (s : State) : State :=
  { s with cat := { s.cat with places := Table.put p r s.cat.places } }

/-- Changes a place and marks it dirty (R4). -/
def State.claim (p : Nat) (r : PicRecord) (s : State) : State := (s.setRecord p r).markDirty (.place p)

/-- A record as Record Memory keeps it: without hold count and refresh extent (R1, R23). -/
def PicRecord.durable (r : PicRecord) : PicRecord := { r with holds := 0, refreshExtent := none }

/-- Changes the record at a place from `r` to `r'` and marks the place dirty where what Record Memory keeps of it has
changed: a change to the hold count or to the refresh extent alone does not mark it (R4). -/
def State.claimChanged (p : Nat) (r r' : PicRecord) (s : State) : State :=
  if r'.durable = r.durable then s.setRecord p r' else s.claim p r'

/-- Empties a place without marking it. -/
def State.dropRecord (p : Nat) (s : State) : State :=
  { s with cat := { s.cat with places := Table.erase p s.cat.places } }

/-- The place and record that hold a picture number (R11). -/
def findNumber (n : Nat) : List (Nat × PicRecord) → Option (Nat × PicRecord)
  | [] => none
  | (p, r) :: t => if r.number = some n then some (p, r) else findNumber n t

/-- The lowest-numbered FREE place at or after `p` (R5). -/
def freePlaceFrom (places : List (Nat × PicRecord)) : Nat → Nat → Option Nat
  | 0, _ => none
  | f + 1, p => if (Table.get p places).isNone then some p else freePlaceFrom places f (p + 1)

/-- The lowest-numbered FREE place (R5). -/
def lowestFree (places : List (Nat × PicRecord)) : Option Nat := freePlaceFrom places Config.placeCount 0

/-- The picture number after `n`, going from 9,999 to 1 (R11). -/
def numberAfter (n : Nat) : Nat := if n ≥ Config.maxNumber then 1 else n + 1

/-- The first free number at or after `n`, searching upward with the wrap (R11). -/
def freeNumberFrom (places : List (Nat × PicRecord)) : Nat → Nat → Nat
  | 0, n => n
  | f + 1, n => if (findNumber n places).isNone then n else freeNumberFrom places f (numberAfter n)

/-- The first free number from `n` on (R11). -/
def freeNumber (places : List (Nat × PicRecord)) (n : Nat) : Nat :=
  freeNumberFrom places (Config.placeCount + 1) n

/-- How many records stand in a state. -/
def countState (places : List (Nat × PicRecord)) (st : RecState) : Nat :=
  (places.filter fun e => e.2.state == st).length

end Sys2Proof.Machine
end

