-- ==== Sys2Proof/Machine/Flags.lean ====
section
/-! DEFINITION. The Event Set's flags and ATTN (R188), and the result codes' values (section 10.1). -/

namespace Sys2Proof.Machine

/-- The flag's bit (section 10.2). -/
def EventFlag.bit : EventFlag → Nat
  | .shotEnded => 0 | .burstEnded => 1 | .pictureStored => 2 | .storeFailed => 3
  | .readNotice => 4 | .focusEnded => 5 | .zoomEnded => 6 | .lensFault => 7
  | .steadyFault => 8 | .shutterFault => 9 | .storeReadOnly => 10 | .maintenanceDone => 11
  | .weakFound => 12 | .powerLow => 13 | .linkOrder => 14 | .started => 15

/-- The flag word with one bit set. -/
def EventFlag.word (f : EventFlag) : Half := 1#16 <<< f.bit

/-- The flag is set. -/
def Events.has (e : Events) (f : EventFlag) : Bool := e.flags &&& f.word != 0#16

/-- Sets a flag, whatever the mask holds (R188). -/
def State.setFlag (f : EventFlag) (s : State) : State :=
  { s with events := { s.events with flags := s.events.flags ||| f.word } }

/-- Sets a flag when a condition holds. -/
def State.setFlagIf (c : Bool) (f : EventFlag) (s : State) : State := if c then s.setFlag f else s

/-- The ATTN line: high while a flag is set whose mask bit is 1 (R188). -/
def attn (s : State) : Bool := s.events.flags &&& s.events.mask != 0#16

/-- A half word as two bytes, high byte first (section 10.4). -/
def Half.toBytes (h : Half) : List Byte := [h.extractLsb' 8 8, h.extractLsb' 0 8]

/-- The value of a result code (section 10.1). -/
def Code.value : Code → Nat
  | .ok => 0 | .none => 1 | .busy => 2 | .frameCheck => 3 | .unknownRequest => 4 | .powerLow => 5
  | .badField => 6 | .noSuchRecord => 7 | .noMoreParts => 8 | .wrongState => 9 | .protect => 10 | .held => 11
  | .chainFull => 12 | .noSpace => 13 | .storeReadOnly => 14 | .storeUnprepared => 15 | .catalogueFull => 16
  | .shotArmed => 17 | .shutterFault => 18 | .lensNotReady => 19 | .lensFault => 20 | .noLensTable => 21
  | .focusBusy => 22 | .notReady => 23

end Sys2Proof.Machine
end

