-- ==== Sys2Proof/Machine/Operands.lean ====
section
/-! DEFINITION. Operands: how a request names a record (R13), the ranges the owners check, and the layouts of the
bodies that cross the In Lane, the Out Lane and the gyro line (section 10.4). -/

namespace Sys2Proof.Machine

/-! ### Layouts -/

/-- Byte `i` of a body as a number. -/
def byteAt (b : List Byte) (i : Nat) : Nat := (b.getD i 0#8).toNat

/-- Two bytes from byte `i`, high byte first (section 10.4). -/
def halfAt (b : List Byte) (i : Nat) : Nat := byteAt b i * 256 + byteAt b (i + 1)

/-- Four bytes from byte `i`, high byte first (section 10.4). -/
def wordAt (b : List Byte) (i : Nat) : Nat := halfAt b i * 65536 + halfAt b (i + 2)

/-- A number of `bits` bits read in two's complement (section 10.4). -/
def signed (bits n : Nat) : Int := if n < 2 ^ (bits - 1) then (n : Int) else (n : Int) - (2 ^ bits : Nat)

/-- A statistics body's fields (section 10.4). -/
def statOf (b : List Byte) : StatBlock :=
  { frame := halfAt b 0
    live := signed 8 (byteAt b 2)
    luminance := (List.range 48).map fun z => halfAt b (3 + 2 * z)
    clipped := (List.range 48).map fun z => byteAt b (99 + z)
    sharpness := (List.range 48).map fun z => halfAt b (147 + 2 * z) }

/-- A PICTURE_END body's fields (section 10.4). -/
def endOf (b : List Byte) : EndFields :=
  { length := wordAt b 0, check := BitVec.ofNat 32 (wordAt b 4), width := halfAt b 8, height := halfAt b 10 }

/-- A gyro frame's fields from its bytes 1 to 6; the check holds when the six sum to 0 modulo 256 (R151). -/
def gyroOf (b : List Byte) : GyroFields :=
  { seq := byteAt b 0, pitch := signed 16 (halfAt b 1), yaw := signed 16 (halfAt b 3)
    checkOk := (byteAt b 0 + byteAt b 1 + byteAt b 2 + byteAt b 3 + byteAt b 4 + byteAt b 5) % 256 == 0 }

/-- A number as `k` bytes, high byte first (section 10.4). -/
def beBytes : Nat → Nat → List Byte
  | 0, _ => []
  | k + 1, n => BitVec.ofNat 8 (n / 256 ^ k) :: beBytes k n

/-- An outcome's code in a DESCRIPTOR_END (section 10.4). -/
def EndOutcome.value : EndOutcome → Nat
  | .done => 0 | .damagedData => 1 | .cancelled => 2

/-- The bytes of an Out Lane item: marker 60, kind, body (section 10.4). That the outcome of a DESCRIPTOR_END takes one byte
is the model's choice (log 53). -/
def OutItem.bytes (x : OutItem) : List Byte :=
  match x.kind with
  | .start o l => [60#8, 1#8] ++ beBytes 2 x.number ++ beBytes 4 o ++ beBytes 4 l
  | .data d => [60#8, 2#8] ++ beBytes 2 d.length ++ d
  | .finish o => [60#8, 3#8] ++ beBytes 2 x.number ++ beBytes 1 o.value

/-- One bit into the 16-bit link check: register shifted left, generator 1021 hexadecimal (R185). -/
def linkCheckBit (reg : Half) (bit : Bool) : Half :=
  if reg.msb != bit then (reg <<< 1) ^^^ 0x1021#16 else reg <<< 1

/-- The link check: 16 bits over the length, kind and body bytes, most significant bit first, register all ones at the
start (R185). -/
def linkCheck (bytes : List Byte) : Half :=
  bytes.foldl (fun reg b => (List.range 8).foldl (fun r i => linkCheckBit r (b.getMsbD i)) reg) 0xFFFF#16

/-- One bit into the picture check. The register is kept with its highest power in bit 0, as the bytes are taken
(R57, log 8), so the generator 04C11DB7 stands reversed. -/
def pictureCheckBit (reg : Word) (bit : Bool) : Word :=
  if reg.getLsbD 0 != bit then (reg >>> 1) ^^^ 0xEDB88320#32 else reg >>> 1

/-- One byte into the picture check, least significant bit first (R57). -/
def pictureCheckByte (reg : Word) (b : Byte) : Word :=
  (List.range 8).foldl (fun r i => pictureCheckBit r (b.getLsbD i)) reg

/-- Bytes into the running picture check in arrival order (R57). -/
def pictureCheck (reg : Word) (bytes : List Byte) : Word := bytes.foldl pictureCheckByte reg

/-- The check value of a picture: the register inverted after the last byte (R57). -/
def checkValue (reg : Word) : Word := ~~~reg

/-! ### Naming a record -/

/-- A picture number a request may carry (R13). -/
def numberOk (n : Nat) : Bool := 1 ≤ n && n ≤ Config.maxNumber

/-- The record a request names, or the refusal of R13. -/
def resolve (s : State) : RecordName → Except Code (Nat × PicRecord)
  | .byNumber n =>
    if numberOk n then
      match findNumber n s.cat.places with
      | some e => .ok e
      | none => .error .noSuchRecord
    else .error .badField
  | .byPlace p =>
    if p < Config.placeCount then
      match s.record p with
      | some r => .ok (p, r)
      | none => .error .noSuchRecord
    else .error .badField

/-! ### Ranges -/

/-- The value lies in a range of integers. -/
def inRange (lo hi x : Int) : Bool := lo ≤ x && x ≤ hi

/-- A printable character, space to tilde (R17). -/
def printable (c : Byte) : Bool := 32 ≤ c.toNat && c.toNat ≤ 126

/-- A caption of 0 to 32 printable characters (R17). -/
def captionOk (t : List Byte) : Bool := t.length ≤ 32 && t.all printable

/-- A trim box inside a picture (R17). -/
def trimOk (b : TrimBox) (w h : Nat) : Bool :=
  1 ≤ b.width && 1 ≤ b.height && b.left + b.width ≤ w && b.top + b.height ≤ h

/-- METER SETUP's fields in range and MANUAL not with AUTO: the setup they give (R103). -/
def meterSetupOf (x : MeterSetupFields) : Option MeterSetup :=
  match x.mode, x.pattern, x.sensitivity with
  | some mo, some p, some se =>
    let svOk := match se with | .auto b => inRange 0 18 b | .fixed v => inRange 0 18 v
    let pair := match mo, se with | .manual, .auto _ => false | _, _ => true
    if svOk && inRange (-9) 9 x.compensation && inRange 6 27 x.av && inRange (-15) 36 x.tv && pair then
      some { mode := mo, pattern := p, sensitivity := se, compensation := x.compensation, av := x.av, tv := x.tv }
    else none
  | _, _, _ => none

/-- SHOT SETUP's fields in range: the setup they give (R167). -/
def shotSetupOf (x : ShotSetupFields) : Option ShotSetup :=
  match x.policy, x.trigger with
  | some p, some t =>
    if 1 ≤ x.count && x.count ≤ 8 && 100 ≤ x.interval && x.interval ≤ 2000 then
      some { count := x.count, interval := x.interval, policy := p, trigger := t }
    else none
  | _, _ => none

/-- WRITE SETTINGS' fields in range (R191). -/
def settingsOk (x : Settings) : Bool :=
  1 ≤ x.target && x.target ≤ 65535 && x.weights.length == Config.zoneCount && x.weights.all (· ≤ 15) &&
    1 ≤ x.reservation && x.reservation ≤ 48 && (x.flashBlocks == 4096 || x.flashBlocks == 8192)

/-- A station entry with every field in range and one cam step for each class to the near limit (R126). -/
def entryOk (e : StationEntry) : Bool :=
  200 ≤ e.count && e.count ≤ 3000 && 24 ≤ e.focal && e.focal ≤ 960 && 6 ≤ e.widest && e.widest ≤ 27 &&
    6 ≤ e.narrowest && e.narrowest ≤ 27 && 10 ≤ e.gain && e.gain ≤ 4000 && e.near ≤ 15 &&
    e.cams.length == e.near + 1 && e.cams.all (· ≤ 3071)

/-- A zone rectangle in range with neither side reversed (R134). -/
def rectOk (r : Rect) : Bool :=
  r.lastCol ≤ 7 && r.lastRow ≤ 5 && r.firstCol ≤ r.lastCol && r.firstRow ≤ r.lastRow

/-- A zone lies in a rectangle, both ends included: zone = row × 8 + column (R93). -/
def rectCovers (r : Rect) (z : Nat) : Bool :=
  r.firstCol ≤ z % 8 && z % 8 ≤ r.lastCol && r.firstRow ≤ z / 8 && z / 8 ≤ r.lastRow

/-- The default centre area: columns 3 to 4, rows 2 to 3 (R93, R135). -/
def centreRect : Rect := { firstCol := 3, lastCol := 4, firstRow := 2, lastRow := 3 }

/-- The sum of a list's zone values over a rectangle (R138). -/
def zoneSum (r : Rect) (values : List Nat) : Nat :=
  (List.range Config.zoneCount).foldl (fun a z => if rectCovers r z then a + nth values z else a) 0

/-! ### The lens table -/

/-- A station's entry in the working table. -/
def stationEntry (s : State) (k : Nat) : Option StationEntry :=
  match s.zoom.working with
  | some t => t[k]?
  | none => none

/-- A station's encoder count in the working table, as an integer. -/
def stationCount (s : State) (k : Nat) : Option Int := (stationEntry s k).map fun e => (e.count : Int)

/-- A class resolved at a station: itself, or the station's near limit when it lies beyond it (R144, R146). -/
def resolveClass (e : StationEntry) (k : Nat) : Nat := min k e.near

/-- The cam step of a class at a station (R126). -/
def camStep (e : StationEntry) (k : Nat) : Nat := nth e.cams k

end Sys2Proof.Machine
end

