-- ==== Sys2Proof/Machine/Blocks.lean ====
section
/-! DEFINITION. The Block Map's claims: allocation, reservation, release, return, replacement, grown bad blocks
(R36 to R45). -/

namespace Sys2Proof.Machine

/-- The state of a block; an unlisted one is UNCHECKED (R36). -/
def BlockMap.stateOf (m : BlockMap) (b : Nat) : BlockState := (Table.get b m.blocks).getD .unchecked

/-- Sets a block's state; a block outside the block total is not known (R27). -/
def BlockMap.setState (b : Nat) (x : BlockState) (m : BlockMap) : BlockMap :=
  if b < m.total then
    { m with blocks := if x = .unchecked then Table.erase b m.blocks else Table.put b x m.blocks }
  else m

/-- The block is DIRTY. -/
def BlockState.isDirty : BlockState → Bool
  | .dirty _ => true
  | _ => false

/-- The ERASED count (R36). -/
def BlockMap.erasedCount (m : BlockMap) : Nat := (m.blocks.filter fun e => e.2 == .erased).length

/-- The BAD count (R36). -/
def BlockMap.badCount (m : BlockMap) : Nat := (m.blocks.filter fun e => e.2 == .bad).length

/-- The IN_USE count (R36). -/
def BlockMap.inUseCount (m : BlockMap) : Nat := (m.blocks.filter fun e => e.2 == .inUse).length

/-- The DIRTY count (R36). -/
def BlockMap.dirtyCount (m : BlockMap) : Nat := (m.blocks.filter fun e => e.2.isDirty).length

/-- The UNCHECKED count: the known blocks in no other state (R36). -/
def BlockMap.uncheckedCount (m : BlockMap) : Nat := m.total - m.blocks.length

/-- The block number after `b`, or 0 after the last block (R37, R41). -/
def BlockMap.after (m : BlockMap) (b : Nat) : Nat := if b + 1 < m.total then b + 1 else 0

/-- The lowest-numbered ERASED block at or after `from` (R37). -/
def erasedFrom (start : Nat) : List (Nat × BlockState) → Option Nat
  | [] => none
  | (b, x) :: t => if start ≤ b ∧ x = .erased then some b else erasedFrom start t

/-- The ERASED block an allocation takes: at or after the cursor, else the lowest of all (R37). -/
def BlockMap.nextErased (m : BlockMap) : Option Nat :=
  match erasedFrom m.allocCursor m.blocks with
  | some b => some b
  | none => erasedFrom 0 m.blocks

/-- Takes `b` into use: IN_USE, and the allocation cursor moves past it (R37). -/
def BlockMap.take (b : Nat) (m : BlockMap) : BlockMap :=
  { m.setState b .inUse with allocCursor := m.after b }

/-- Allocation for a record with `remaining` reserved blocks: from its reservation, or as an over-run while the ERASED
count is above the reserved total; `none` is NO BLOCK (R37). -/
def BlockMap.allocate (remaining : Nat) (m : BlockMap) : Option (Nat × BlockMap) :=
  if remaining > 0 ∨ m.reserved < m.erasedCount then
    match m.nextErased with
    | some b => some (b, { m.take b with reserved := if remaining > 0 then m.reserved - 1 else m.reserved })
    | none => none
  else none

/-- A reservation of `n` blocks can be granted (R38). -/
def BlockMap.canReserve (n : Nat) (m : BlockMap) : Bool := m.mode == .writable && m.reserved + n ≤ m.erasedCount

/-- Adds `n` blocks to the reserved total (R38). -/
def BlockMap.reserve (n : Nat) (m : BlockMap) : BlockMap := { m with reserved := m.reserved + n }

/-- Takes `n` blocks off the reserved total (R38). -/
def BlockMap.release (n : Nat) (m : BlockMap) : BlockMap := { m with reserved := m.reserved - n }

/-- Returns one block: IN_USE becomes DIRTY (R39). -/
def BlockMap.returnOne (w : ReturnWait) (b : Nat) (m : BlockMap) : BlockMap :=
  if m.stateOf b = .inUse then m.setState b (.dirty w) else m

/-- Returns blocks in order (R39). -/
def BlockMap.returnAll (w : ReturnWait) (bs : List Nat) (m : BlockMap) : BlockMap :=
  bs.foldl (fun m b => m.returnOne w b) m

/-- What a returned block waits for once a write of place `p` begins (R41). -/
def BlockState.onBegin (p : Nat) : BlockState → BlockState
  | .dirty (.begins q) => if q = p then .dirty (.completes q) else .dirty (.begins q)
  | x => x

/-- What a returned block waits for once a write of place `p` completes (R41). -/
def BlockState.onComplete (p : Nat) : BlockState → BlockState
  | .dirty (.completes q) => if q = p then .dirty .ready else .dirty (.completes q)
  | x => x

/-- The block may be taken by background work: UNCHECKED, or DIRTY and waiting for no write (R41). -/
def BlockState.takeable : BlockState → Bool
  | .unchecked => true
  | .dirty .ready => true
  | _ => false

/-- The first takeable block among `n` from `b` on (R41). -/
def takeableFrom (m : BlockMap) : Nat → Nat → Option Nat
  | 0, _ => none
  | f + 1, b => if b < m.total && (m.stateOf b).takeable then some b else takeableFrom m f (b + 1)

/-- The block background work takes next: at or after the erase cursor, cycling to block 0 (R41). -/
def BlockMap.nextTakeable (m : BlockMap) : Option Nat :=
  match takeableFrom m (m.total - m.eraseCursor) m.eraseCursor with
  | some b => some b
  | none => takeableFrom m m.eraseCursor 0

/-- Applies a change to the Block Map. -/
def State.onMap (f : BlockMap → BlockMap) (s : State) : State := { s with map := f s.map }

/-- A block becomes BAD and is listed if there is room; a full list turns a WRITABLE store READ_ONLY (R45). -/
def State.makeBad (b : Nat) (k : BadKind) (s : State) : State :=
  let s := s.onMap (·.setState b .bad)
  if s.map.badList.length < Config.maxBad then
    { s with map := { s.map with badList := Table.put b k s.map.badList } }.markDirty .badList
  else if s.map.mode = .writable then
    { s with map := { s.map with mode := .readOnly } }.setFlag .storeReadOnly
  else s

/-- Allocates a block for the record at place `p` and puts it into the record with `place`, as one claim; `none` is
NO BLOCK (R37). The place is marked dirty through the extent list (R8, R59) or through reserved blocks remaining (R85); an
over-run into a refresh extent changes neither and does not mark it (R4; DEDUCED, log 42). -/
def State.allocateFor (p : Nat) (place : Nat → PicRecord → PicRecord) (s : State) : State × Option Nat :=
  match s.record p with
  | none => (s, none)
  | some r =>
    match s.map.allocate r.remaining with
    | none => (s, none)
    | some (b, m) =>
      ({ s with map := m }.claimChanged p r (place b { r with remaining := r.remaining - 1 }), some b)

/-- Appends to the extent list (R8). -/
def PicRecord.appendExtent (b : Nat) (r : PicRecord) : PicRecord := { r with extent := r.extent ++ [b] }

/-- Appends to the refresh extent (R85). -/
def PicRecord.appendRefresh (b : Nat) (r : PicRecord) : PicRecord :=
  { r with refreshExtent := r.refreshExtent.map (· ++ [b]) }

/-- Changes the extent list. -/
def PicRecord.onExtent (f : List Nat → List Nat) (r : PicRecord) : PicRecord := { r with extent := f r.extent }

/-- Changes the refresh extent. -/
def PicRecord.onRefresh (f : List Nat → List Nat) (r : PicRecord) : PicRecord :=
  { r with refreshExtent := r.refreshExtent.map f }

/-- The list a claimant's blocks stand in: the refresh extent or the extent list. -/
def PicRecord.onList (inRefresh : Bool) (f : List Nat → List Nat) (r : PicRecord) : PicRecord :=
  if inRefresh then r.onRefresh f else r.onExtent f

/-- A replacement claim on the block at position `i` (from 0): the failed block becomes BAD, a new one takes its
position, or the list closes up and the claimant is handed NO BLOCK (R40). A refresh extent that closes up does not by
itself mark the place dirty (R4). -/
def State.replaceBlock (p i failed : Nat) (inRefresh : Bool) (s : State) : State × Option Nat :=
  let s := s.makeBad failed .grown
  match s.allocateFor p (fun b r => r.onList inRefresh (replaceAt · i b)) with
  | (s', some b) => (s', some b)
  | (_, none) =>
    match s.record p with
    | some r => (s.claimChanged p r (r.onList inRefresh (removeAt · i)), none)
    | none => (s, none)

end Sys2Proof.Machine
end

