-- ==== Sys2Proof/Machine/Records.lean ====
section
/-! DEFINITION. The Catalogue's claims: creating, freeing and failing records, holds (R2 to R9, R11, R22). -/

namespace Sys2Proof.Machine

/-- A place becomes FREE: its reservation leaves the reserved total, its extent passes to the Block Map as DIRTY, its
number is free, the place is dirty (R3). -/
def State.freePlace (p : Nat) (s : State) : State :=
  match s.record p with
  | none => s
  | some r =>
    ((s.onMap fun m => (((m.release r.remaining).returnAll (.begins p) r.extent).returnAll .ready
        (r.refreshExtent.getD []))).dropRecord p).markDirty (.place p)

/-- Frees places in order. -/
def State.freePlaces (ps : List Nat) (s : State) : State := ps.foldl (fun s p => s.freePlace p) s

/-- The record as it stands after a failure (R2, R9). -/
def PicRecord.failedWith (c : FailCause) (r : PicRecord) : PicRecord :=
  { r with state := .failed, cause := some c, remaining := 0, extent := [], refreshExtent := none, picture := none,
           trim := none }

/-- A record fails: one claim that sets state and cause, releases its reservation and returns its blocks (R9). -/
def State.failPlace (p : Nat) (c : FailCause) (s : State) : State :=
  match s.record p with
  | none => s
  | some r =>
    (s.onMap fun m => (m.release r.remaining).returnAll (.begins p) r.extent).claim p (r.failedWith c)

/-- Does `f` to the place and record that hold picture number `n`. -/
def State.onNumber (n : Nat) (f : Nat → PicRecord → State → State) (s : State) : State :=
  match findNumber n s.cat.places with
  | some (p, r) => f p r s
  | none => s

/-- Frees the record with number `n` when it is RESERVED (R6). -/
def State.releaseReserved (n : Nat) (s : State) : State :=
  s.onNumber n fun p r s => if r.state = .reserved then s.freePlace p else s

/-- Adds 1 to a record's hold count; the place is not marked dirty (R22). -/
def State.addHold (p : Nat) (s : State) : State :=
  match s.record p with
  | some r => s.setRecord p { r with holds := r.holds + 1 }
  | none => s

/-- Takes 1 from the hold count of the record with number `n` (R22). -/
def State.dropHold (n : Nat) (s : State) : State :=
  s.onNumber n fun p r s => s.setRecord p { r with holds := r.holds - 1 }

/-- A record as ARM creates it (R5). -/
def newRecord (number : Nat) (a : ArmFields) (reservation : Nat) : PicRecord :=
  { number := some number, state := .reserved, cause := none, armed := some a, measured := none, focusStep := none,
    steady := none, peakShift := none, remaining := reservation, extent := [], refreshExtent := none, picture := none,
    protect := false, rating := 0, caption := [], trim := none, peak := 0, weak := false, unreadable := false,
    holds := 0 }

/-- Creates the record of burst index `i`: lowest FREE place, first free number from the counter, the counter on to
the next free number (R5, R11). Answers the number given. -/
def State.createRecord (a : ArmFields) (reservation : Nat) (s : State) : State × List Nat :=
  match lowestFree s.cat.places with
  | none => (s, [])
  | some p =>
    let n := freeNumber s.cat.places s.cat.counter
    let places := Table.put p (newRecord n a reservation) s.cat.places
    ({ s with cat := { s.cat with places := places, counter := freeNumber places (numberAfter n) } }.markDirty
        (.place p), [n])

/-- Creates `k` records in burst order from index `i` on, each with its own index (R5). -/
def State.createBurst (a : ArmFields) (reservation : Nat) : Nat → Nat → State → State × List Nat
  | 0, _, s => (s, [])
  | k + 1, i, s =>
    let (s, n) := s.createRecord { a with index := i } reservation
    let (s, ns) := State.createBurst a reservation k (i + 1) s
    (s, n ++ ns)

end Sys2Proof.Machine
end

