-- ==== Sys2Proof/Machine/Link.lean ====
section
/-! DEFINITION. How a command reaches its owner: arrival, the Command Link's checks before the owner's, the response
(R183 to R187, R192), and the owners' answers that the Command Link and the Event Set give themselves. -/

namespace Sys2Proof.Machine

/-- An owner's answer: result code, body, and what the response is held by (R187). -/
abbrev Answer := Code × Body × Option HeldBy

/-- OK with a body, ready at once. -/
def okBody (b : Body) : Answer := (.ok, b, none)

/-- OK with an empty body. -/
def ok : Answer := okBody .empty

/-- A refusal; it is never held (R187). -/
def refuse (c : Code) : Answer := (c, .empty, none)

/-- OK with a body, held until every covering write of the places and items named has completed; at once if there is
none (R26, R191). -/
def heldOk (b : Body) (items : List Item) : Answer :=
  (.ok, b, if items.isEmpty then none else some (.covers (items.map fun i => { item := i, begun := false })))

/-! ### Arrival -/

/-- An event: time passes, the lines are read, the part takes it; without power nothing happens (log 1, log 17). -/
def event (m : Moment) (f : State → State) (s : State) : Host.Outcome State Fault Refusal :=
  .next (if s.supply.powered then f (s.arrive m) else s)

/-- The response becomes pending (R186, R187). -/
def State.respond (kind : Nat) (a : Answer) (s : State) : State :=
  { s with link := { s.link with pending := some { kind := kind, code := a.1, body := a.2.1, held := a.2.2 }, clockedOut := 0 } }

/-- The link returns to hunting (R184). -/
def State.hunt (s : State) : State := { s with link := { s.link with receiver := .hunting } }

/-- The unfetched parts of a snapshot are discarded (R15). -/
def State.dropSnapshot (s : State) : State := { s with cat := { s.cat with snapshot := none } }

/-- The ready line of the Command Link (R186). -/
def linkReady (s : State) : Bool := s.link.ready

/-- A complete frame: passed over while SILENT or after an overlong frame, discarded with LINK_ORDER when its start
marker arrived while a response was pending, otherwise handled by `f` (R185, R186, R192). -/
def frameGate (f : State → State) (s : State) : State :=
  match s.link.receiver, s.link.condition with
  | .overlong, _ => s
  | _, .silent => s.hunt
  | .receiving true _, .listening => s.hunt.setFlag .linkOrder
  | _, .listening => if s.link.pending.isSome then s.hunt.setFlag .linkOrder else f s.hunt

/-- NEXT PART's kind, the one request that leaves the unfetched parts of a snapshot (R15, R187). -/
abbrev nextPartKind : Nat := 2

/-- SOFT RESET's kind (R187). -/
abbrev softResetKind : Nat := 45

/-- READ STATUS and READ EVENTS are answered after POWER_LOW and in a SHUT DOWN drain (R187). -/
def alwaysAnswered (kind : Nat) : Bool := kind == 40 || kind == 41

/-- The refusal that comes before the owner's checks, if any (R187). -/
def earlyRefusal (kind : Nat) (s : State) : Option Code :=
  if s.supply.shutdown = .starting then some .busy
  else if s.supply.powerLow && !alwaysAnswered kind then some .powerLow
  else if s.supply.shutDownTaken && !alwaysAnswered kind then some .busy
  else none

/-- A taken request: any but NEXT PART discards the snapshot's unfetched parts, the early refusals come first, then the
owner answers (R15, R187). That a NEXT PART which is itself refused, with POWER_LOW too, keeps them is the model's choice
(log 52). -/
def dispatch (kind : Nat) (owner : State → State × Answer) (s : State) : State :=
  let s := if kind = nextPartKind then s else s.dropSnapshot
  match earlyRefusal kind s with
  | some c => s.respond kind (refuse c)
  | none => (owner s).1.respond kind (owner s).2

/-- A request frame that passes the checks of R185, with its owner's rule (R187). -/
def request (kind : Nat) (m : Moment) (owner : State → State × Answer) (s : State) : Host.Outcome State Fault Refusal :=
  event m (frameGate (dispatch kind owner)) s

/-- A check that answers with a refusal and changes nothing, or goes on (section 10.1). -/
def orRefuse (c : Bool) (code : Code) (rest : State × Answer) (s : State) : State × Answer :=
  if c then (s, refuse code) else rest

/-! ### Frames: what their bytes say -/

/-- The body length of a request whose fields fix it: 0 where its rule names no field (ARM and SOFT RESET by R168 and
R192, the others log 63), 2 for the picture number of ABANDON and REFRESH (R67, R83, section 10.4) and for the mask of SET
EVENT MASK (R189). -/
def fixedBody (kind : Nat) : Option Nat :=
  if kind = 9 ∨ kind = 12 ∨ kind = 42 then some 2
  else if kind ∈ [2, 6, 7, 8, 11, 14, 15, 16, 17, 19, 20, 22, 23, 26, 31, 34, 36, 37, 38, 39, 40, 41, 44, softResetKind,
      46] then some 0
  else none

/-- A body length a request accepts (R185). Of a request whose fields the manual gives no widths it is not empty, and the
command says the rest (log 26, log 63). -/
def bodyLengthOk (accepted : Bool) (kind n : Nat) : Bool :=
  match fixedBody kind with
  | some l => n == l
  | none => accepted && 0 < n

/-- What R185 makes of a frame. -/
inductive FrameVerdict where
  /-- refused with FRAME_CHECK; the kind echoed -/
  | frameCheck (kind : Nat)
  /-- refused with UNKNOWN_REQUEST; the kind echoed -/
  | unknownRequest (kind : Nat)
  /-- taken as a request of this kind -/
  | taken (kind : Nat)
  deriving DecidableEq, Repr

/-- R185's four steps in their order over a frame's bytes from its length byte on; `none` while the frame is not
complete. -/
def frameVerdict (accepted : Bool) : List Byte → Option FrameVerdict
  | [] => none
  | n :: t =>
    if 251 < n.toNat then some (.frameCheck 0)
    else if t.length < n.toNat + 3 then none
    else
      let kind := byteAt t 0
      if halfAt t (n.toNat + 1) ≠ (linkCheck (n :: t.take (n.toNat + 1))).toNat then some (.frameCheck kind)
      else if kind < 1 ∨ 46 < kind then some (.unknownRequest kind)
      else if !bodyLengthOk accepted kind n.toNat then some (.frameCheck kind)
      else some (.taken kind)

/-- The bytes of the frame being received; none while the link hunts (R183). -/
def LinkReceiver.bytes : LinkReceiver → List Byte
  | .receiving _ b => b
  | _ => []

/-- The frame's length byte is above 251 (R185). -/
def isOverlong : List Byte → Bool
  | [] => false
  | n :: _ => 251 < n.toNat

/-- The frame is over; an overlong one's further bytes are passed over (R185). -/
def State.frameOver (long : Bool) (s : State) : State :=
  if long then { s with link := { s.link with receiver := .overlong } } else s

/-- Bytes on data in (R184, R186). -/
def State.clock (bytes : List Byte) (s : State) : State := { s with link := s.link.clock bytes }

/-- FRAME CHECK: the frame received is refused with FRAME_CHECK, echoing its kind; the snapshot is kept. A frame that
R185 does not refuse so is not this row's (R185, log 4). -/
def execFrameCheck (m : Moment) (f : FrameEnd) (s : State) : Host.Outcome State Fault Refusal :=
  event m (fun s =>
    let s := s.clock f.bytes
    match frameVerdict f.accepted s.link.receiver.bytes with
    | some (.frameCheck k) =>
      (frameGate (State.respond k (refuse .frameCheck)) s).frameOver (isOverlong s.link.receiver.bytes)
    | _ => s) s

/-- UNKNOWN REQUEST: the frame's kind names no request; the snapshot is discarded like at any other refused request
(R185). -/
def execUnknownRequest (m : Moment) (bytes : List Byte) (s : State) : Host.Outcome State Fault Refusal :=
  event m (fun s =>
    let s := s.clock bytes
    match frameVerdict true s.link.receiver.bytes with
    | some (.unknownRequest k) => frameGate (fun s => s.dropSnapshot.respond k (refuse .unknownRequest)) s
    | _ => s) s

/-- The kind a broken frame echoes: 0 if the frame broke before its kind byte arrived (R185). -/
def brokenEcho (bytes : List Byte) : Nat := byteAt bytes 1

/-- FRAME BROKEN: 1 ms without a clock inside a frame that is not complete: FRAME_CHECK, or discarded with LINK_ORDER
(R184, R185, R186). -/
def execFrameBroken (m : Moment) (bytes : List Byte) (s : State) : Host.Outcome State Fault Refusal :=
  event m (fun s =>
    let s := s.clock bytes
    match s.link.receiver with
    | .receiving _ b => if frameWhole b then s else frameGate (State.respond (brokenEcho b) (refuse .frameCheck)) s
    | _ => s) s

/-- 1 ms without a clock after an overlong frame: the link hunts again (R185). -/
def execLinkQuietResume (m : Moment) (s : State) : Host.Outcome State Fault Refusal :=
  event m (fun s => if s.link.receiver = .overlong then s.hunt else s) s

/-- The frame being received began while a response was pending (R186). -/
def LinkReceiver.late : LinkReceiver → Bool
  | .receiving l _ => l
  | _ => false

/-- A frame whose start marker arrived while a response was pending is discarded and LINK_ORDER is set; the response
and the snapshot are kept (R186). While a response is pending the flag is set even where the bytes hold no frame that has
begun, or one neither complete nor broken: the row is believed, the model's choice (log 75). -/
def execLinkOrder (m : Moment) (bytes : List Byte) (s : State) : Host.Outcome State Fault Refusal :=
  event m (fun s =>
    let s := s.clock bytes
    if s.link.condition = .listening ∧ s.link.receiver ≠ .overlong ∧
        (s.link.pending.isSome ∨ s.link.receiver.late) then
      (s.hunt.setFlag .linkOrder).frameOver (isOverlong s.link.receiver.bytes)
    else s) s

/-- A start marker while the link hunts begins a frame (R184); whether a response was pending is kept for R186. -/
def execRequestStartMarker (m : Moment) (s : State) : Host.Outcome State Fault Refusal :=
  event m (fun s =>
    if s.link.receiver = .hunting then s.clock [requestMarker] else s) s

/-- The start marker of a response frame (section 10.4). -/
abbrev responseMarker : Byte := 165#8

/-- A response frame's bytes, where the manual gives its body's layout: marker 165, length, kind, result, body, check
(section 10.4, R185). -/
def responseFrame (r : Response) : Option (List Byte) :=
  (bodyBytes r.body).map fun b =>
    let checked : List Byte := [BitVec.ofNat 8 b.length, BitVec.ofNat 8 r.kind, BitVec.ofNat 8 r.code.value] ++ b
    responseMarker :: checked ++ Half.toBytes (linkCheck checked)

/-- Byte `i` of a response frame: of every response its marker, kind and result, the other bytes where the manual gives
the body's layout (section 10.4, log 26). -/
def responseByte (r : Response) (i : Nat) : Option Byte :=
  match responseFrame r, i with
  | some b, _ => b[i]?
  | none, 0 => some responseMarker
  | none, 2 => some (BitVec.ofNat 8 r.kind)
  | none, 3 => some (BitVec.ofNat 8 r.code.value)
  | none, _ => none

/-- What the next clocked byte carries on data out: the response's next byte while ready is high, zero while it is low;
`none` where the manual gives no layout of the body (R186, log 26). -/
def dataOut (s : State) : Option Byte :=
  match s.link.pending with
  | some r => if linkReady s then responseByte r s.link.clockedOut else some 0#8
  | none => some 0#8

/-- The last byte of a ready response is clocked out: no response is pending, and after SOFT RESET's OK the link is
SILENT (R186, R192). The row is believed whatever count of its bytes has been clocked out: the model's choice (log
74). -/
def execResponseCollected (m : Moment) (s : State) : Host.Outcome State Fault Refusal :=
  event m (fun s =>
    match s.link.pending with
    | some { kind, code, held := none, .. } =>
      { s with link := { s.link with
          pending := none, clockedOut := 0
          condition := if kind = softResetKind ∧ code = .ok then .silent else s.link.condition } }
    | _ => s) s

/-! ### Status, events, settings -/

/-- Reported scene value: the filtered one over 16, rounded to the nearest with halves upward (R95). -/
def reportedScene (m : Meter) : Option Int := m.filtered.map fun f => roundHalfUp f 16

/-- READ STATUS (R190). -/
def execReadStatus (m : Moment) (s : State) : Host.Outcome State Fault Refusal :=
  request 40 m (fun s => (s, okBody (.status
    { cause := s.supply.cause, shutdown := s.supply.shutdown, mode := s.map.mode, shot := s.shot.state
      zoom := s.zoom.state, station := s.zoom.current, focus := s.focus.state, steady := s.steady.state
      meter := s.meter.state, scene := reportedScene s.meter, queue := s.store.queue.length
      chain := s.chain.chain.length, erased := s.map.erasedCount, reserved := s.map.reserved }))) s

/-- READ EVENTS copies the flags, clears them, and answers with the copy and the mask (R189). -/
def execReadEvents (m : Moment) (s : State) : Host.Outcome State Fault Refusal :=
  request 41 m (fun s => ({ s with events := { s.events with flags := 0#16 } },
    okBody (.events (Half.toBytes s.events.flags ++ Half.toBytes s.events.mask)))) s

/-- SET EVENT MASK replaces the mask and clears no flag (R189). -/
def execSetEventMask (m : Moment) (mask : Half) (s : State) : Host.Outcome State Fault Refusal :=
  request 42 m (fun s => ({ s with events := { s.events with mask := mask } }, ok)) s

/-- WRITE SETTINGS replaces all four settings and is held until the covering write of SETTINGS (R191). -/
def execWriteSettings (m : Moment) (x : Settings) (s : State) : Host.Outcome State Fault Refusal :=
  request 43 m (fun s =>
    orRefuse (!settingsOk x) .badField ({ s with settings := x }.markDirty .settings, heldOk .empty [.settings]) s) s

/-- READ SETTINGS (R191). -/
def execReadSettings (m : Moment) (s : State) : Host.Outcome State Fault Refusal :=
  request 44 m (fun s => (s, okBody (.settings s.settings))) s

/-- SOFT RESET is answered OK; the collecting of that response makes the link SILENT (R192). -/
def execSoftReset (m : Moment) (s : State) : Host.Outcome State Fault Refusal :=
  request softResetKind m (fun s => (s, ok)) s

end Sys2Proof.Machine
end

