-- ==== Sys2Proof/Machine/Metering.lean ====
section
/-! DEFINITION. The Metering Unit: measuring a statistics block (R90 to R97), the exposure program (R98 to R102), the
locks (R105 to R108) and its requests. -/

namespace Sys2Proof.Machine

/-! ### Weights and the measurement -/

/-- The area id of the lock the Focus Unit holds: LOCKED, TRACKING of kind LOCKED, or APPROACHING with destination
LOCKED (R93). -/
def focusLockArea (f : Focus) : Option Nat :=
  match f.state, f.held, f.approach with
  | .locked, some (.lock _ a _), _ => some a
  | .tracking, some (.lock _ a _), _ => some a
  | .approaching, _, some { dest := .hold (.lock _ a _), .. } => some a
  | _, _, _ => none

/-- The rectangle of an area id as the list stands, enabled or not; otherwise the default centre area (R93, R135). -/
def areaRect (areas : List Area) (id : Nat) : Rect :=
  match areas.find? (·.id == id) with
  | some a => a.rect
  | none => centreRect

/-- The rectangle SPOT measures (R93). -/
def spotRect (f : Focus) : Rect :=
  match focusLockArea f with
  | some a => areaRect f.areas a
  | none => centreRect

/-- The matrix weights with the highlight guard; all 0 becomes 1 on every zone (R91). -/
def matrixWeights (weights clipped : List Nat) : List Nat :=
  let guarded := (List.range Config.zoneCount).map fun z =>
    if 192 < nth clipped z then 2 * nth weights z else nth weights z
  if guarded.all (· == 0) then List.replicate Config.zoneCount 1 else guarded

/-- The ring and centre of the fixed CENTRE pattern (R92). -/
def ringRect : Rect := { firstCol := 2, lastCol := 5, firstRow := 1, lastRow := 4 }

/-- The fixed weights of CENTRE (R92). -/
def centreWeights : List Nat :=
  (List.range Config.zoneCount).map fun z =>
    if rectCovers centreRect z then 12 else if rectCovers ringRect z then 3 else 1

/-- SPOT's weights (R93). -/
def spotWeights (r : Rect) : List Nat :=
  (List.range Config.zoneCount).map fun z => if rectCovers r z then 1 else 0

/-- The weights of the pattern in force (R91 to R93). -/
def zoneWeights (s : State) (b : StatBlock) : List Nat :=
  match s.meter.setup.pattern with
  | .matrix => matrixWeights s.settings.weights b.clipped
  | .centre => centreWeights
  | .spot => spotWeights (spotRect s.focus)

/-- The sum of weight times mean over all zones. -/
def weightedSum (weights means : List Nat) : Nat :=
  (List.range Config.zoneCount).foldl (fun a z => a + nth weights z * nth means z) 0

/-- The measured scene value of a block: a weighted mean of at least 1 against the target level, in thirds, plus the
live exposure, limited (R94). -/
def measureBlock (s : State) (b : StatBlock) : Int :=
  let w := zoneWeights s b
  let total := w.foldl (· + ·) 0
  limit (-30) 60 (thirdsLog (max (weightedSum w b.luminance) total) (total * s.settings.target) + b.live)

/-! ### The exposure program -/

/-- Tv, Av, Sv and flags. -/
abbrev Split := Int × Int × Int × ExposureFlags

/-- How far AUTO raises Sv for a shortfall (R99 step 2). -/
def svRaise (auto : Bool) (short sv : Int) : Int := if auto && 0 < short then min short (18 - sv) else 0

/-- How far AUTO lowers Sv for an excess (R99 step 3). -/
def svDrop (auto : Bool) (excess sv : Int) : Int := if auto && 0 < excess then min excess sv else 0

/-- Tv above 36 after every remedy becomes 36 with BRIGHT_LIMIT, below −15 becomes −15 with DARK_LIMIT
(R99, R100). -/
def tvLimits (tv av sv : Int) (slow : Bool) : Split :=
  (limit (-15) 36 tv, av, sv, { slow := slow, bright := 36 < tv, dark := tv < -15, cutShort := false })

/-- PROGRAM: `light` is the scene value less the compensation, `lim` the handheld limit (R99). -/
def programSplit (e : StationEntry) (lim light base : Int) (auto : Bool) : Split :=
  let tv := light + base - e.widest
  let up := svRaise auto (lim - tv) base
  let tv := tv + up
  let stop := if 36 < tv then min (tv - 36) ((e.narrowest : Int) - e.widest) else 0
  let down := svDrop auto (tv - stop - 36) (base + up)
  tvLimits (tv - stop - down) (e.widest + stop) (base + up - down) (tv < lim)

/-- The chosen Av limited into the station's range (R100). -/
def chosenAv (e : StationEntry) (av : Int) : Int :=
  if av < e.widest then e.widest else if (e.narrowest : Int) < av then e.narrowest else av

/-- APERTURE (R100). -/
def apertureSplit (e : StationEntry) (lim light base av : Int) (auto : Bool) : Split :=
  let av := chosenAv e av
  let tv := light + base - av
  let up := svRaise auto (lim - tv) base
  let tv := tv + up
  let down := svDrop auto (tv - 36) (base + up)
  tvLimits (tv - down) av (base + up - down) (tv < lim)

/-- SHUTTER (R101). -/
def shutterSplit (e : StationEntry) (lim light base tv : Int) (auto : Bool) : Split :=
  let av := light + base - tv
  let up := svRaise auto (e.widest - av) base
  let down := svDrop auto (av - e.narrowest) base
  let av := av + up - down
  (tv, chosenAv e av, base + up - down,
    { slow := tv < lim, bright := (e.narrowest : Int) < av, dark := av < e.widest, cutShort := false })

/-- MANUAL (R102). -/
def manualSplit (e : StationEntry) (lim sv av tv : Int) : Split :=
  (tv, chosenAv e av, sv, { slow := tv < lim, bright := false, dark := false, cutShort := false })

/-- The split of the setup in force (R99 to R102). -/
def splitExposure (x : MeterSetup) (e : StationEntry) (lim scene : Int) : Split :=
  let light := scene - x.compensation
  let (base, auto) := match x.sensitivity with | .auto b => (b, true) | .fixed v => (v, false)
  match x.mode with
  | .program => programSplit e lim light base auto
  | .aperture => apertureSplit e lim light base x.av auto
  | .shutter => shutterSplit e lim light base x.tv auto
  | .manual => manualSplit e lim base x.av x.tv

/-- Steadying counts while the Stabilizer is ACTIVE, and in SHOT_ONLY mode (R98). -/
def steadyingCounts (x : Steady) : Bool := x.state == .active || x.mode == .shotOnly

/-- The handheld limit (R98). -/
def handheldLimit (focal : Nat) (steadying : Bool) : Int := thirdsLog focal 1 - if steadying then 9 else 0

/-- The computed exposure from the inputs as they stand; absent in NO_DATA and without a working table (R98). -/
def computeExposure (s : State) : Option Computed :=
  match s.meter.state, reportedScene s.meter, stationEntry s (s.zoom.current.getD 0) with
  | .noData, _, _ => none
  | _, some scene, some e =>
    let steadying := steadyingCounts s.steady
    let lim := handheldLimit e.focal steadying
    let (tv, av, sv, flags) := splitExposure s.meter.setup e lim scene
    some { tv := tv, av := av, sv := sv, flags := flags
           difference := scene + sv - s.meter.setup.compensation - (av + tv)
           station := s.zoom.current.getD 0, focal := e.focal, limit := lim, steadying := steadying }
  | _, _, _ => none

/-- An input has changed: the exposure is computed afresh, but under a SHOT lock nothing is (R98, R107). -/
def State.meterInput (s : State) : State :=
  if s.meter.owner = .shot then s else { s with meter := { s.meter with exposure := computeExposure s } }

/-! ### Blocks and the block watch -/

/-- The run count and state after a measurement in TRACKING or STABLE (R96). -/
def meterRun (m : Meter) (measured filtered : Int) : Nat × MeterState :=
  if (measured * 16 - filtered).natAbs ≤ 16 then
    let run := min 3 (m.run + 1)
    (run, if run = 3 then .stable else m.state)
  else (0, .tracking)

/-- The Metering Unit after measuring a block (R90, R95, R96). -/
def Meter.measured (v : Int) (frame : Nat) (m : Meter) : Meter :=
  match m.state, m.filtered with
  | .tracking, some f | .stable, some f =>
    { m with filtered := some (f + roundToZero (v * 16 - f) 4), run := (meterRun m v f).1, state := (meterRun m v f).2
             last := some v, frame := some frame }
  | _, _ => { m with filtered := some (v * 16), run := 1, state := .tracking, last := some v, frame := some frame }

/-- A statistics block reaches the Metering Unit (R90). -/
def State.meterBlock (b : StatBlock) (s : State) : State :=
  let s := { s with timers := { s.timers with block := some 0 } }
  if s.meter.state = .locked then s
  else { s with meter := s.meter.measured (measureBlock s b) b.frame }.meterInput

/-- 500 ms without a block: STALE, or the note of a LOCKED unit; the note is the stopped watch. A block taken first has
restarted the watch (R97, log 5). -/
def execBlockWatchExpiry (m : Moment) (s : State) : Host.Outcome State Fault Refusal :=
  event m (fun s =>
    if reached Config.blockLimit s.timers.block then
      let s := { s with timers := { s.timers with block := none } }
      match s.meter.state with
      | .tracking | .stable => { s with meter := { s.meter with state := .stale, run := 0 } }.meterInput
      | _ => s
    else s) s

/-! ### Locks -/

/-- The state an unlock leaves (R106, R108). -/
def unlockedState (s : State) : MeterState := if s.timers.block.isSome then .tracking else .stale

/-- No lock any more: TRACKING or STALE with run count 0. R106 gives 0 for both at METER UNLOCK; at the end of a SHOT lock
R108 gives it for TRACKING and says nothing of STALE, while R105 keeps the count in LOCKED: that it is 0 in STALE there
too is the model's choice (log 72). -/
def State.meterUnlocked (s : State) : State :=
  { s with meter := { s.meter with state := unlockedState s, owner := .none, note := false, run := 0 } }.meterInput

/-- The SHOT lock of ARM: the exposure is computed once (R107). -/
def State.meterShotLock (s : State) : State :=
  let note := s.meter.owner == .request
  let s := { s with meter := { s.meter with state := .locked, owner := .shot, note := note } }
  { s with meter := { s.meter with exposure := computeExposure s } }

/-- The shot state returns to IDLE: the SHOT lock ends (R108; the run count of STALE, log 72). -/
def State.meterShotEnd (s : State) : State :=
  if s.meter.owner = .shot then
    if s.meter.note then { s with meter := { s.meter with owner := .request, note := false } }.meterInput
    else s.meterUnlocked
  else s

/-! ### Requests -/

/-- METER SETUP (R103). -/
def execMeterSetup (m : Moment) (x : MeterSetupFields) (s : State) : Host.Outcome State Fault Refusal :=
  request 13 m (fun s =>
    if s.shot.state ≠ .idle then (s, refuse .shotArmed)
    else
      match meterSetupOf x with
      | none => (s, refuse .badField)
      | some y => ({ s with meter := { s.meter with setup := y } }.meterInput, ok)) s

/-- METER LOCK (R105). -/
def execMeterLock (m : Moment) (s : State) : Host.Outcome State Fault Refusal :=
  request 14 m (fun s =>
    if s.meter.state = .noData then (s, refuse .notReady)
    else
      match s.meter.owner with
      | .none => ({ s with meter := { s.meter with state := .locked, owner := .request } }.meterInput, ok)
      | .request => (s, ok)
      | .shot => ({ s with meter := { s.meter with note := true } }, ok)) s

/-- METER UNLOCK (R106). -/
def execMeterUnlock (m : Moment) (s : State) : Host.Outcome State Fault Refusal :=
  request 15 m (fun s =>
    match s.meter.owner with
    | .none => (s, ok)
    | .request => (s.meterUnlocked, ok)
    | .shot => ({ s with meter := { s.meter with note := false } }, ok)) s

/-- READ METER's answer; whether a block is recent is whether the block watch runs (R97, R109). -/
def meterReport (s : State) : MeterReport :=
  { state := s.meter.state, owner := s.meter.owner, note := s.meter.note, scene := reportedScene s.meter
    last := s.meter.last, frame := s.meter.frame, run := s.meter.run, recent := s.timers.block.isSome
    setup := s.meter.setup, exposure := s.meter.exposure }

/-- READ METER (R109). -/
def execReadMeter (m : Moment) (s : State) : Host.Outcome State Fault Refusal :=
  request 16 m (fun s => (s, okBody (.meter (meterReport s)))) s

end Sys2Proof.Machine
end

