-- ==== Sys2Proof/Machine/Steady.lean ====
section
/-! DEFINITION. The Stabilizer: the gyro receiver (R150 to R152), modes and starting (R154 to R156), integration
(R157 to R160), the exposure session (R161 to R163), and its requests. -/

namespace Sys2Proof.Machine

/-! ### The gain the Zoom Drive offers -/

/-- The gain at a count, between the stations that bracket it (R123). -/
def gainAt (c : Int) : List StationEntry → Int
  | [] => 0
  | [a] => a.gain
  | a :: b :: t =>
    if c < a.count then a.gain
    else if c < b.count then
      (a.gain : Int) + roundHalfUp (((b.gain : Int) - a.gain) * (c - a.count)) (b.count - a.count)
    else gainAt c (b :: t)

/-- The zoom states that offer a gain (R123). -/
def ZoomState.offersGain : ZoomState → Bool
  | .extending | .ready | .moving | .braking | .noTableHold => true
  | _ => false

/-- The gain offered (R123). -/
def offeredGain (z : Zoom) : Int :=
  match z.count, z.working with
  | some c, some t => if z.state.offersGain then gainAt c t else 0
  | _, _ => 0

/-! ### One axis -/

/-- The end of the angle's range (R157). -/
abbrev angleEnd : Int := 33554431

/-- The angle after a frame standing for `p` periods (R157). -/
def angleAdvance (p : Nat) (rate bias angle : Int) : Int := limit (-angleEnd) angleEnd (angle + (rate - bias) * p)

/-- The angle after the leak; HOLD has none (R158). -/
def angleLeak (hold pan : Bool) (angle : Int) : Int :=
  if hold then angle else angle - roundToZero angle (if pan then 16 else 1024)

/-- The pan flag and counts after a frame with this corrected rate (R159). -/
def panAfter (corrected : Int) (a : Axis) : Axis :=
  if a.pan then
    if corrected.natAbs < 500 then
      if a.panOff + 1 = 50 then { a with pan := false, panOn := 0, panOff := 0 } else { a with panOff := a.panOff + 1 }
    else { a with panOff := 0 }
  else
    if 2000 < corrected.natAbs then
      if a.panOn + 1 = 100 then { a with pan := true, panOn := 0, panOff := 0 } else { a with panOn := a.panOn + 1 }
    else { a with panOn := 0 }

/-- The shift the angle asks for, before clipping (R160). -/
def rawShift (angle gain : Int) : Int := roundHalfAway (angle * gain) 100000

/-- One good frame on one axis: advance, leak, pan detector, target and clip (R157 to R160). -/
def Axis.integrate (hold : Bool) (p : Nat) (rate gain : Int) (a : Axis) : Axis :=
  let bias := a.bias.getD 0
  let angle := angleLeak hold a.pan (angleAdvance p rate bias a.angle)
  let shift := rawShift angle gain
  { panAfter (rate - bias) a with
    angle := angle, target := limit (-1000) 1000 shift, clip := decide (1000 < shift.natAbs) }

/-- Target 0, clip mark no, pan flag and counts cleared (R153, R154). -/
def Axis.still (a : Axis) : Axis := { a with target := 0, clip := false, pan := false, panOn := 0, panOff := 0 }

/-- The larger of the two target magnitudes (R161, R162). -/
def peakOf (x : Steady) : Nat := max x.pitch.target.natAbs x.yaw.target.natAbs

/-! ### The receiver -/

/-- A count held at 65,535 (R149). -/
def countUp (n : Nat) : Nat := min 65535 (n + 1)

/-- The frame is discarded: one more on the discarded count (R150, R151). -/
def State.gyroDiscard (s : State) : State :=
  { s with steady := { s.steady with discarded := countUp s.steady.discarded } }

/-- The receiver is at `p` (R150). -/
def State.gyroAt (p : GyroPhase) (s : State) : State := { s with gyro := { s.gyro with phase := p } }

/-- The frame is the one the receiver completed first, or the one whose first bytes it has taken (R150, log 20). -/
def GyroReceiver.opens (bytes : List Byte) (r : GyroReceiver) : Bool :=
  match r.whole, r.phase with
  | h :: _, _ => h == bytes
  | [], .hunting => true
  | [], .assembling h _ => h.isPrefixOf bytes

/-- No frame is complete, and the time of the one being assembled has passed (R150). -/
def GyroReceiver.overdue (r : GyroReceiver) : Bool :=
  match r.whole, r.phase with
  | [], .assembling _ t => Config.gyroLimit < t
  | _, _ => false

/-- The receiver once a frame has gone to R151: the first of those complete, or the one just completed (R150). -/
def GyroReceiver.handed (r : GyroReceiver) : GyroReceiver :=
  match r.whole with
  | _ :: t => { r with whole := t }
  | [] => { r with phase := .hunting }

/-- A frame is handed to R151 (R150). -/
def State.gyroHand (s : State) : State := { s with gyro := s.gyro.handed }

/-- The tests of R151, in their order. -/
def gyroGood (g : GyroFields) (s : State) : Bool :=
  g.checkOk && (match s.timers.good with | some t => 750 ≤ t | none => true) && s.steady.lastSeq != some g.seq

/-- The periods a frame stands for, and whether its gap is long (R152). -/
def gyroPeriods (last : Option Nat) (seq : Nat) : Nat × Bool :=
  match last with
  | none => (1, false)
  | some l =>
    let gap := (seq + 256 - l) % 256
    if gap ≤ 4 then (gap, false) else (1, true)

/-- The states in which the lost watch runs (R153). -/
def SteadyState.watched : SteadyState → Bool
  | .starting | .active | .hold => true
  | _ => false

/-- The session after a frame in HOLD (R162). -/
def Session.onFrame (x : Steady) (e : Session) : Session :=
  { e with peak := max e.peak (peakOf x), clipSeen := e.clipSeen || x.pitch.clip || x.yaw.clip }

/-- The bias from the sums of 256 frames (R156). -/
def biasOf (sum : Int) : Int := roundHalfAway sum 256

/-- A frame in STARTING: summed; the 256th makes the bias and the state ACTIVE (R156). -/
def Steady.summed (g : GyroFields) (x : Steady) : Steady :=
  let x := { x with progress := x.progress + 1, pitchSum := x.pitchSum + g.pitch, yawSum := x.yawSum + g.yaw }
  if x.progress = 256 then
    { x with state := .active, pitch := { x.pitch with bias := some (biasOf x.pitchSum) }
             yaw := { x.yaw with bias := some (biasOf x.yawSum) } }
  else x

/-- A frame in ACTIVE or HOLD: integrated with the gain read at it; in HOLD the session takes its results (R157 to
R160, R162). -/
def Steady.integrated (g : GyroFields) (gain : Int) (x : Steady) : Steady :=
  let (p, long) := gyroPeriods x.lastSeq g.seq
  let hold := x.state == .hold
  let x := { x with pitch := x.pitch.integrate hold p g.pitch gain, yaw := x.yaw.integrate hold p g.yaw gain
                    longGap := if long then countUp x.longGap else x.longGap }
  if hold then { x with session := x.session.map (Session.onFrame x) } else x

/-- What a good frame does by state (R151, R156, R157). -/
def Steady.use (g : GyroFields) (gain : Int) (x : Steady) : Steady :=
  match x.state with
  | .starting => x.summed g
  | .active | .hold => x.integrated g gain
  | _ => x

/-- A good frame: counted, the gain read, used, and the lost watch restarts (R123, R151, R160). The Metering Unit is told
when a start ends (R156). -/
def State.gyroTake (g : GyroFields) (s : State) : State :=
  let gain := offeredGain s.zoom
  let x := s.steady.use g gain
  let s' : State :=
    { s with
      steady := { x with good := countUp s.steady.good, lastSeq := some g.seq, gain := gain }
      timers := { s.timers with good := some 0, lost := if s.steady.state.watched then some 0 else s.timers.lost } }
  if s.steady.state = .starting ∧ x.state = .active then s'.meterInput else s'

/-! ### Modes -/

/-- The state becomes OFF: targets, clip marks and pan detectors cleared, the lost watch stops (R154). -/
def State.steadyOff (s : State) : State :=
  { s with steady := { s.steady with state := .off, pitch := s.steady.pitch.still, yaw := s.steady.yaw.still }
           timers := { s.timers with lost := none } }

/-- Entering STARTING clears the measurement; the lost watch starts (R156). -/
def State.steadyStart (s : State) : State :=
  { s with steady := { s.steady with state := .starting, progress := 0, pitchSum := 0, yawSum := 0, pitch := resetAxis
                                     yaw := resetAxis }
           timers := { s.timers with lost := some 0 } }

/-- The gyro is lost (R153). A session is LOST when it was held; one opened in another state stays as opened
(R161, R162). -/
def State.steadyLost (s : State) : State :=
  let t : State := { s with
    steady := { s.steady with
      state := .fault, pitch := s.steady.pitch.still, yaw := s.steady.yaw.still, progress := 0
      session := if s.steady.state = .hold then s.steady.session.map fun e => { e with outcome := .lost }
        else s.steady.session }
    timers := { s.timers with lost := none } }
  (t.setFlag .steadyFault).meterInput

/-- ARM is told: SHOT_ONLY starts from OFF (R155). -/
def State.steadyArmed (s : State) : State :=
  if s.steady.mode = .shotOnly ∧ s.steady.state = .off then s.steadyStart else s

/-- The shot is IDLE again: SHOT_ONLY goes OFF from STARTING, ACTIVE and FAULT (R155). -/
def State.steadyShotEnd (s : State) : State :=
  if s.steady.mode = .shotOnly ∧ s.steady.state ≠ .hold ∧ s.steady.state ≠ .off then s.steadyOff.meterInput else s

/-! ### The exposure session -/

/-- An exposure starts (R161). -/
def State.steadyOpen (s : State) : State :=
  match s.steady.state with
  | .active =>
    { s with steady := { s.steady with
      state := .hold
      session := some { outcome := .steady, peak := peakOf s.steady
                        clipSeen := s.steady.pitch.clip || s.steady.yaw.clip } } }.meterInput
  | .fault => { s with steady := { s.steady with session := some { outcome := .lost, peak := 0, clipSeen := false } } }
  | _ => { s with steady := { s.steady with session := some { outcome := .off, peak := 0, clipSeen := false } } }

/-- The outcome a session gives (R163). -/
def Session.result (e : Session) : SteadyOutcome :=
  match e.outcome with
  | .off => .off
  | .lost => .lost
  | _ => if e.clipSeen then .clipped else .steady

/-- What the session gives at the end of the exposure: kept from POWER_LOW, or the open one (R163, R165). -/
def steadyResult (x : Steady) : SteadyOutcome × Nat :=
  match x.kept, x.session with
  | some k, _ => k
  | none, some e => (e.result, e.peak)
  | none, none => (.off, 0)

/-- The session is closed; HOLD becomes ACTIVE (R163). -/
def State.steadyClose (s : State) : State :=
  let t : State := { s with steady := { s.steady with
      session := none, kept := none, state := if s.steady.state = .hold then .active else s.steady.state } }
  t.meterInput

/-- POWER_LOW at the Stabilizer: OFF, centred, an open session closed and its results kept (R165). -/
def State.steadyPowerLow (s : State) : State :=
  { s.steadyOff with steady := { s.steadyOff.steady with
      kept := s.steady.session.map fun e => (e.result, e.peak), session := none } }

/-! ### Requests and receiver events -/

/-- STEADY MODE (R154). -/
def execSteadyMode (m : Moment) (mode : Option SteadyMode) (s : State) : Host.Outcome State Fault Refusal :=
  request 33 m (fun s =>
    match mode with
    | none => (s, refuse .badField)
    | some x =>
      if s.shot.state ≠ .idle then (s, refuse .shotArmed)
      else
        let t : State := { s with steady := { s.steady with mode := x } }
        let t : State :=
          match x with
          | .on => if s.steady.state = .off ∨ s.steady.state = .fault then t.steadyStart else t
          | _ => t.steadyOff
        (t.meterInput, ok)) s

/-- One axis as READ STEADY reports it (R157, R164). -/
def axisReport (a : Axis) : AxisReport :=
  { bias := a.bias, angle := roundToZero a.angle 100, target := a.target, pan := a.pan, clip := a.clip }

/-- READ STEADY's answer (R164). -/
def steadyReport (x : Steady) : SteadyReport :=
  { mode := x.mode, state := x.state, progress := x.progress, good := x.good, discarded := x.discarded
    longGap := x.longGap, lastSeq := x.lastSeq, pitch := axisReport x.pitch, yaw := axisReport x.yaw, gain := x.gain
    session := x.session }

/-- READ STEADY (R164). -/
def execReadSteady (m : Moment) (s : State) : Host.Outcome State Fault Refusal :=
  request 34 m (fun s => (s, okBody (.steady (steadyReport s.steady)))) s

/-- A start marker while the receiver hunts: it assembles (R150). -/
def execGyroStartMarker (m : Moment) (s : State) : Host.Outcome State Fault Refusal :=
  event m (fun s =>
    if gyroRuns s ∧ s.gyro.phase = .hunting then s.gyroAt (.assembling [] 0) else s) s

/-- The frame being assembled is dropped and counted (R150). -/
def State.gyroDrop (s : State) : State :=
  match s.gyro.phase with
  | .assembling _ _ => s.gyroDiscard.gyroAt .hunting
  | .hunting => s

/-- A parity or framing error (R150). -/
def execGyroFrameBroken (m : Moment) (s : State) : Host.Outcome State Fault Refusal := event m State.gyroDrop s

/-- 500 µs from the start marker without the whole frame; before that nothing (R150, log 5). -/
def execGyroFrameTimeout (m : Moment) (s : State) : Host.Outcome State Fault Refusal :=
  event m (fun s =>
    match s.gyro.phase with
    | .assembling _ t => if Config.gyroLimit ≤ t then s.gyroDrop else s
    | .hunting => s) s

end Sys2Proof.Machine
end

