-- ==== Sys2Proof/Machine/Focus.lean ====
section
/-! DEFINITION. The Focus Unit: moves and homing (R132, R133), the area list (R134, R135), the scan (R137 to R140),
following (R142), distances (R144), the zoom's notices (R145 to R147) and its requests. Where an operation may report
to the Zoom Drive it answers the state with whether the report is given at once. -/

namespace Sys2Proof.Machine

/-! ### Moves -/

/-- Changes the Focus Unit. -/
def State.onFocus (f : Focus → Focus) (s : State) : State := { s with focus := f s.focus }

/-- A move from `p` to `aim`; one that ends from the infinity side goes past the aimed step by 24 first (R132). -/
def moveFrom (direct : Bool) (aim p : Nat) : FocusMove :=
  { aim := aim, via := if direct || p ≤ aim || aim == 0 then none else some (aim - 24) }

/-- The last end cause and FOCUS_ENDED. -/
def State.focusEnded (c : EndCause) (s : State) : State :=
  (s.onFocus fun f => { f with lastEnd := c }).setFlag .focusEnded

/-- `focusEnded` when an end is owed. -/
def State.focusEndedIf (owed : Bool) (c : EndCause) (s : State) : State := if owed then s.focusEnded c else s

/-- The state an approach to a held class ends in. -/
def FocusHeld.state : FocusHeld → FocusState
  | .lock _ _ _ => .locked
  | .manual _ => .manual

/-- The follow count after an approach to a held class completes: 0 when a scan's lock is reached (R140); a class set by
hand leaves it (R144, R146). -/
def FocusHeld.followAfter (owed : Bool) (follow : Nat) : FocusHeld → Nat
  | .lock _ _ _ => if owed then 0 else follow
  | .manual _ => follow

/-- The cause an approach to a held class ends with (R140, R144). -/
def FocusHeld.cause : FocusHeld → EndCause
  | .lock _ _ _ => .locked
  | .manual _ => .distanceSet

/-- An approach completes (R133, R140, R144, R146); the answer says whether "step reached" is reported. -/
def State.approachDone (a : Approach) (s : State) : State × Bool :=
  match a.dest with
  | .hold h =>
    ((s.onFocus fun f => { f with state := h.state, held := some h, approach := none
                                  follow := h.followAfter a.owed f.follow }).focusEndedIf a.owed h.cause, false)
  | .failed =>
    ((s.onFocus fun f => { f with state := .failedNoPeak, approach := none }).focusEndedIf a.owed .noPeak, false)
  | .idle => (s.onFocus fun f => { f with state := .idle, approach := none }, true)

/-- A move has completed: an approach ends, a scan visit begins its sampling (R132, R138). -/
def State.focusArrive (s : State) : State × Bool :=
  match s.focus.state, s.focus.approach with
  | .approaching, some a => s.approachDone a
  | .scanning, _ =>
    let t := s.onFocus fun f => { f with scan := f.scan.map fun x => { x with skip := true } }
    ({ t with timers := { t.timers with sample := some 0 } }, false)
  | _, _ => (s, false)

/-- Orders a move from the step reached; a move to the step the lens stands on completes at once (R132). -/
def State.focusMoveTo (direct : Bool) (aim : Nat) (s : State) : State × Bool :=
  match s.focus.position with
  | some p =>
    if p = aim then (s.onFocus fun f => { f with move := none }).focusArrive
    else (s.onFocus fun f => { f with move := some (moveFrom direct aim p) }, false)
  | none => (s, false)

/-- Begins an approach with its move (R133, R140, R144, R146, R147). -/
def State.beginApproach (aim : Nat) (dest : FocusDest) (owed : Bool) (s : State) : State × Bool :=
  (s.onFocus fun f => { f with state := .approaching, held := none, scan := none, trackOwed := false
                               approach := some { aim := aim, dest := dest, owed := owed } }).focusMoveTo false aim

/-- The stepper stops and what the unit was doing is dropped; the sample watch stops. -/
def State.focusDrop (x : FocusState) (s : State) : State :=
  { (s.onFocus fun f => { f with state := x, held := none, approach := none, scan := none, move := none
                                 trackOwed := false }) with
    timers := { s.timers with sample := none } }

/-- A scan runs, or an approach whose end is owed (R133, R141, R147). -/
def endOwed (f : Focus) : Bool :=
  f.state == .scanning || (f.state == .approaching && (match f.approach with | some a => a.owed | none => false))

/-! ### Homing -/

/-- Homing ends on the sensor: position 0, IDLE (R133). -/
def State.focusHomed (s : State) : State :=
  s.onFocus fun f => { f with homing := none, position := some 0, state := .idle }

/-- A home request: what the unit is doing ends, the position is absent, and homing ends at once on a seen sensor; a
homing that runs is left running (R133). The answer says whether "homed" is reported at once. -/
def State.focusHome (s : State) : State × Bool :=
  if s.focus.homing.isSome then (s, false)
  else
    let t := (s.focusDrop .unhomed).focusEndedIf (endOwed s.focus) .homing
    if s.lines.focusHome then (t.focusHomed, true)
    else (t.onFocus fun f => { f with position := none, homing := some 0 }, false)

/-- The Zoom Drive's move to a given step, after homing (R133). -/
def State.focusGoTo (step : Nat) (s : State) : State × Bool := s.beginApproach step .idle false

/-! ### The scan -/

/-- The areas a scan measures: the enabled entries, or the default centre area as id 0 (R135, R137). -/
def scanAreas (areas : List Area) : List Area :=
  match areas.filter (·.enabled) with
  | [] => [{ id := 0, rect := centreRect, enabled := true }]
  | l => l

/-- The cam step of a class at a station of the working table. -/
def camOf (s : State) (station cls : Nat) : Nat :=
  match stationEntry s station with
  | some e => camStep e cls
  | none => 0

/-- The near limit of a station of the working table. -/
def nearOf (s : State) (station : Nat) : Nat :=
  match stationEntry s station with
  | some e => e.near
  | none => 0

/-- The scan visits a class (R138). -/
def State.scanVisit (k : Nat) (s : State) : State :=
  match s.focus.scan with
  | some x =>
    ((s.onFocus fun f => { f with scan := some { x with current := k, skip := false } }).focusMoveTo false
      (camOf s x.station k)).1
  | none => s

/-- A scan begins: lock dropped, follow count 0, curve emptied, first class visited (R137, R142). -/
def State.scanBegin (station first last : Nat) (s : State) : State :=
  let areas := scanAreas s.focus.areas
  (s.onFocus fun f =>
    { f with state := .scanning, held := none, approach := none, trackOwed := false, follow := 0
             scan := some { first := first, last := last, current := first, areas := areas, skip := false
                            station := station }
             curve := areas.map fun a => { id := a.id, samples := List.replicate 16 none, peak := none } }).scanVisit
    first

/-- A margin of a peak's sample over a neighbour's is large enough (R139). -/
def marginOk (peak neighbour : Nat) : Bool := neighbour + max 1 (peak / 16) ≤ peak

/-- A class's sample, if it was visited. -/
def sampleAt (samples : List (Option Nat)) (k : Nat) : Option Nat := (samples.getD k none)

/-- Class `j` is a peak, its nearer neighbour just sampled (R139). -/
def isPeak (first : Nat) (samples : List (Option Nat)) (j : Nat) : Bool :=
  match sampleAt samples j, sampleAt samples (j + 1) with
  | some v, some n =>
    marginOk v n && (if j ≤ first then true else match sampleAt samples (j - 1) with | some p => marginOk v p | none => true)
  | _, _ => false

/-- A sample at class `k` enters one area's curve; a peak at `k − 1` is confirmed, the first one stays (R138, R139). -/
def Curve.sample (first k v : Nat) (c : Curve) : Curve :=
  let samples := c.samples.set k (some v)
  { c with samples := samples
           peak := match c.peak with
             | some p => some p
             | none => if first < k && isPeak first samples (k - 1) then some (k - 1) else none }

/-- The area chosen: the highest peak class, the earlier one on a tie; with its class and sample (R140). -/
def choosePeak : List Curve → Option (Nat × Nat × Nat)
  | [] => none
  | c :: t =>
    match c.peak, choosePeak t with
    | some k, some (k', a, v) =>
      if k < k' then some (k', a, v) else some (k, c.id, (sampleAt c.samples k).getD 0)
    | some k, none => some (k, c.id, (sampleAt c.samples k).getD 0)
    | none, r => r

/-- The scan stops visiting (R140). -/
def State.scanStop (x : Scan) (s : State) : State :=
  match choosePeak s.focus.curve with
  | some (k, a, v) => (s.beginApproach (camOf s x.station k) (.hold (.lock k a v)) true).1
  | none => (s.beginApproach (camOf s x.station 0) .failed true).1

/-- The rectangle a scan measures for an area id. -/
def scanRect (x : Scan) (id : Nat) : Rect := areaRect x.areas id

/-- The sample block of a visit (R138 to R140). -/
def State.scanSample (x : Scan) (b : StatBlock) (s : State) : State :=
  let t := s.onFocus fun f =>
    { f with curve := f.curve.map fun c => c.sample x.first x.current (zoneSum (scanRect x c.id) b.sharpness) }
  let t := { t with timers := { t.timers with sample := none } }
  if t.focus.curve.all (·.peak.isSome) || x.last ≤ x.current then t.scanStop x else t.scanVisit (x.current + 1)

/-- The follow watch runs (R142). -/
def followRuns (s : State) : Bool :=
  s.focus.mode == .follow && s.focus.state == .locked && s.zoom.state == .ready && !s.focus.suspended

/-- A block while the follow watch runs; the fourth low one in a row re-scans (R142). -/
def State.followBlock (b : StatBlock) (s : State) : State :=
  match s.focus.held, s.zoom.current with
  | some (.lock k a v), some st =>
    if 8 * zoneSum (areaRect s.focus.areas a) b.sharpness < 5 * v then
      if s.focus.follow + 1 = 4 then s.scanBegin st (k - 2) (min (k + 2) (nearOf s st))
      else s.onFocus fun f => { f with follow := f.follow + 1 }
    else s.onFocus fun f => { f with follow := 0 }
  | _, _ => s

/-- A statistics block reaches the Focus Unit (R90, R138, R142). -/
def State.focusBlock (b : StatBlock) (s : State) : State :=
  match s.focus.state, s.focus.scan with
  | .scanning, some x =>
    if s.focus.move.isSome then s
    else if x.skip then
      { (s.onFocus fun f => { f with scan := some { x with skip := false } }) with
        timers := { s.timers with sample := some 0 } }
    else s.scanSample x b
  | _, _ => if followRuns s then s.followBlock b else s

/-- 500 ms without a sample: the scan ends with NO_STATISTICS (R138, log 5). -/
def execSampleWatchExpiry (m : Moment) (s : State) : Host.Outcome State Fault Refusal :=
  event m (fun s =>
    if reached Config.sampleLimit s.timers.sample ∧ s.focus.state = .scanning then (s.focusDrop .idle).focusEnded .noStatistics else s) s

/-! ### The zoom's notices -/

/-- A class resolved at a station (R146). -/
def FocusHeld.resolve (near : Nat) : FocusHeld → FocusHeld
  | .lock k a v => .lock (min k near) a v
  | .manual k => .manual (min k near)

/-- The class held. -/
def FocusHeld.cls : FocusHeld → Nat
  | .lock k _ _ => k
  | .manual k => k

/-- "Motion begins" (R145). -/
def State.focusMotionBegins (s : State) : State :=
  match s.focus.state, s.focus.approach with
  | .scanning, _ => (s.focusDrop .idle).focusEnded .zoomMoved
  | .locked, _ | .manual, _ => s.onFocus fun f => { f with state := .tracking, trackOwed := false }
  | .approaching, some { dest := .hold h, owed, .. } =>
    s.onFocus fun f => { f with state := .tracking, held := some h, approach := none, move := none, trackOwed := owed }
  | .approaching, some { dest := .failed, .. } => (s.focusDrop .failedNoPeak).focusEnded .noPeak
  | _, _ => s

/-- "Station passed" (R146). -/
def State.focusPassed (st : Nat) (s : State) : State :=
  match s.focus.state, s.focus.held with
  | .tracking, some h =>
    let h := h.resolve (nearOf s st)
    ((s.onFocus fun f => { f with held := some h }).focusMoveTo true (camOf s st h.cls)).1
  | _, _ => s

/-- The held class is resolved at a station and approached (R146, R147). -/
def State.focusResettle (st : Nat) (owed : Bool) (s : State) : State :=
  match s.focus.held with
  | some h =>
    let h := h.resolve (nearOf s st)
    (s.beginApproach (camOf s st h.cls) (.hold h) owed).1
  | none => s

/-- The arrival notice (R146). -/
def State.focusArrived (st : Nat) (s : State) : State :=
  if s.focus.state = .tracking then s.focusResettle st s.focus.trackOwed else s

/-- A zoom fault notice; a homing goes on, an end owed in TRACKING is given too (R133, R147, log 14). -/
def State.focusFault (s : State) : State :=
  match s.focus.state with
  | .scanning | .approaching | .locked | .manual | .tracking =>
    (s.focusDrop .idle).focusEndedIf (endOwed s.focus || (s.focus.state == .tracking && s.focus.trackOwed)) .lensFault
  | _ => s

/-- New cam steps by COMMIT LENS TABLE, the zoom READY on `st` (R147). -/
def State.focusCommit (st : Nat) (s : State) : State :=
  match s.focus.state with
  | .locked | .manual => s.focusResettle st false
  | _ => s

/-! ### The shot and the supply -/

/-- ARM is told (R143). -/
def State.focusArmed (s : State) : State := s.onFocus fun f => { f with suspended := true, follow := 0 }

/-- The shot is IDLE again (R143). -/
def State.focusShotEnd (s : State) : State := s.onFocus fun f => { f with suspended := false, follow := 0 }

/-- POWER_LOW at the Focus Unit (R148). -/
def State.focusPowerLow (s : State) : State :=
  (s.focusDrop .unhomed).onFocus fun f => { f with position := none, homing := none, follow := 0 }

/-! ### Requests -/

/-- The focus is still placing the lens. -/
def FocusState.busy : FocusState → Bool
  | .scanning | .approaching => true
  | _ => false

/-- FOCUS START (R137). -/
def execFocusStart (m : Moment) (range : Option FocusRange) (s : State) : Host.Outcome State Fault Refusal :=
  request 25 m (fun s =>
    match range with
    | none => (s, refuse .badField)
    | some r =>
      if s.shot.state ≠ .idle then (s, refuse .shotArmed)
      else if s.focus.mode = .manual then (s, refuse .wrongState)
      else if s.zoom.state ≠ .ready ∨ s.focus.state = .unhomed then (s, refuse .lensNotReady)
      else if s.focus.state.busy ∨ s.focus.state = .tracking then (s, refuse .focusBusy)
      else
        let st := s.zoom.current.getD 0
        (s.scanBegin st 0 (min (match r with | .normal => 11 | .full => 15) (nearOf s st)), ok)) s

/-- FOCUS RELEASE (R141; TRACKING sets no flag, log 14). -/
def execFocusRelease (m : Moment) (s : State) : Host.Outcome State Fault Refusal :=
  request 26 m (fun s =>
    if s.shot.state ≠ .idle then (s, refuse .shotArmed)
    else
      match s.focus.state, s.focus.approach with
      | .approaching, some { dest := .idle, .. } | .unhomed, _ | .idle, _ => (s, ok)
      | _, _ => ((s.focusDrop .idle).focusEndedIf (endOwed s.focus) .released, ok)) s

/-- A change of focus mode (R136). -/
def State.setFocusMode (x : FocusMode) (s : State) : State :=
  if x = s.focus.mode then s
  else if s.focus.state = .unhomed ∨ s.focus.state = .idle then s.onFocus fun f => { f with mode := x }
  else if x = .manual ∨ s.focus.mode = .manual then
    s.onFocus fun f =>
      { f with mode := x, held := none
               state := match f.state with | .locked | .failedNoPeak | .manual => .idle | y => y }
  else s.onFocus fun f => { f with mode := x, follow := 0 }

/-- FOCUS MODE (R136). -/
def execFocusMode (m : Moment) (mode : Option FocusMode) (s : State) : Host.Outcome State Fault Refusal :=
  request 27 m (fun s =>
    match mode with
    | none => (s, refuse .badField)
    | some x =>
      if s.shot.state ≠ .idle then (s, refuse .shotArmed)
      else if s.focus.state.busy ∨ s.focus.state = .tracking then (s, refuse .focusBusy)
      else (s.setFocusMode x, ok)) s

/-- The list with an entry replaced in place, or appended (R134). -/
def putArea (a : Area) (l : List Area) : List Area :=
  if l.any (·.id == a.id) then l.map fun b => if b.id == a.id then a else b else l ++ [a]

/-- SET AREA (R134). -/
def execSetArea (m : Moment) (id : Nat) (rect : Rect) (enabled : Bool) (s : State) : Host.Outcome State Fault Refusal :=
  request 28 m (fun s =>
    if 7 < id || !rectOk rect then (s, refuse .badField)
    else if s.focus.state.busy then (s, refuse .focusBusy)
    else (s.onFocus fun f => { f with areas := putArea { id := id, rect := rect, enabled := enabled } f.areas }, ok)) s

/-- CLEAR AREA (R135). -/
def execClearArea (m : Moment) (id : Nat) (s : State) : Host.Outcome State Fault Refusal :=
  request 29 m (fun s =>
    if 7 < id then (s, refuse .badField)
    else if s.focus.state.busy then (s, refuse .focusBusy)
    else (s.onFocus fun f => { f with areas := f.areas.filter fun a => a.id != id }, ok)) s

/-- SET DISTANCE (R144). -/
def execSetDistance (m : Moment) (cls : Nat) (s : State) : Host.Outcome State Fault Refusal :=
  request 30 m (fun s =>
    if 15 < cls then (s, refuse .badField)
    else if s.shot.state ≠ .idle then (s, refuse .shotArmed)
    else if s.focus.mode ≠ .manual then (s, refuse .wrongState)
    else if s.zoom.state ≠ .ready ∨ s.focus.state = .unhomed then (s, refuse .lensNotReady)
    else if s.focus.state.busy ∨ s.focus.state = .tracking then (s, refuse .focusBusy)
    else
      let st := s.zoom.current.getD 0
      let k := min cls (nearOf s st)
      ((s.beginApproach (camOf s st k) (.hold (.manual k)) true).1, okBody (.cls k))) s

/-- READ FOCUS's answer (R148). In APPROACHING the destination is shown whole, with the class, area and lock sharpness
that R131 has it hold: the model's choice, R148 names the destination and leaves open whether they are part of it
(log 71). -/
def focusReport (f : Focus) : FocusReport :=
  { mode := f.mode, state := f.state, position := f.position, held := f.held, approach := f.approach
    scan := f.scan.map fun x => (x.first, x.last, x.current)
    follow := f.follow, suspended := f.suspended, lastEnd := f.lastEnd, areas := f.areas }

/-- READ FOCUS (R148). -/
def execReadFocus (m : Moment) (s : State) : Host.Outcome State Fault Refusal :=
  request 31 m (fun s => (s, okBody (.focus (focusReport s.focus)))) s

/-- READ FOCUS CURVE; `none` in the body is NONE, an id the last scan did not measure (R148). -/
def execReadFocusCurve (m : Moment) (id : Nat) (s : State) : Host.Outcome State Fault Refusal :=
  request 32 m (fun s =>
    if 7 < id then (s, refuse .badField) else (s, okBody (.curve (s.focus.curve.find? (·.id == id))))) s

end Sys2Proof.Machine
end

