-- ==== Sys2Proof/Machine/Zoom.lean ====
section
/-! DEFINITION. The Zoom Drive: pulses, watches and faults (R111 to R113), extending (R114 to R116), moves (R117 to
R121), parking (R124, R125), the lens table (R126 to R128), the Focus Unit's reports, and its requests. -/

namespace Sys2Proof.Machine

/-! ### The motor -/

/-- Changes the Zoom Drive. -/
def State.onZoom (f : Zoom → Zoom) (s : State) : State := { s with zoom := f s.zoom }

/-- The motor is driven. -/
def Drive.driven : Drive → Bool
  | .off | .braked => false
  | _ => true

/-- A drive begins: the stall watch starts, the brake watch stops (R112). -/
def State.zoomDrive (d : Drive) (s : State) : State :=
  { s with zoom := { s.zoom with drive := d }, timers := { s.timers with stall := some 0, brake := none } }

/-- Braking begins: the brake watch starts, the stall watch stops (R112). -/
def State.zoomBrake (s : State) : State :=
  { s with zoom := { s.zoom with drive := .braked }, timers := { s.timers with stall := none, brake := some 0 } }

/-- The motor is at rest in drive `d`: both watches stop. -/
def State.zoomRest (d : Drive) (s : State) : State :=
  { s with zoom := { s.zoom with drive := d }, timers := { s.timers with stall := none, brake := none } }

/-- The tele-ward speed toward a count: slow within 40 of it (R118). -/
def approachDrive (target count : Int) : Drive := if target - 40 ≤ count then .teleSlow else .teleFull

/-- The retract's speed: slow while the count is present and 40 or below (R125). -/
def retractDrive (count : Option Int) : Drive :=
  match count with
  | some c => if c ≤ 40 then .wideSlow else .wideFull
  | none => .wideFull

/-- A fault: the motor off, STALLED, no target, no current station, both flags, and the neighbours told (R113). -/
def State.zoomFault (c : ZoomFault) (s : State) : State :=
  (((s.zoomRest .off).onZoom fun z =>
      { z with state := .stalled, target := none, current := none, lastFault := c, stopped := false, report := none
               retract := false }).setFlag .lensFault |>.setFlag .zoomEnded).focusFault.meterInput

/-- The count lies outside 0 to 3,200 (R113). -/
def outOfRange (c : Int) : Bool := c < 0 || 3200 < c

/-- In READY the count must stay within 3 counts of the current station's (R111). -/
def State.zoomHoldCheck (s : State) : State :=
  match s.zoom.state, s.zoom.count, s.zoom.current with
  | .ready, some c, some k =>
    match stationCount s k with
    | some t =>
      if 3 < (c - t).natAbs then
        (s.onZoom fun z => { z with state := .noTableHold, current := none }).meterInput
      else s
    | none => s
  | _, _, _ => s

/-! ### Moves -/

/-- The lens starts on the APPROACH leg toward a station (R117 to R119). -/
def State.zoomApproach (k : Nat) (target count : Int) (s : State) : State :=
  (s.onZoom fun z => { z with state := .moving, target := some (k, .approach) }).zoomDrive (approachDrive target count)

/-- The lens starts on the OUTBOUND leg (R117 to R119). -/
def State.zoomOutbound (k : Nat) (s : State) : State :=
  (s.onZoom fun z => { z with state := .moving, target := some (k, .outbound) }).zoomDrive .wideFull

/-- A leg toward station `k` starts from rest: APPROACH when its count lies above, else OUTBOUND (R117, R119). -/
def State.zoomLeg (k : Nat) (s : State) : State :=
  match stationCount s k, s.zoom.count with
  | some t, some c => if c < t then s.zoomApproach k t c else s.zoomOutbound k
  | _, _ => s

/-- Arrival on the target: braked, the brake watch running to the stop, READY, notices, ZOOM_ENDED (R112, R118, R122,
log 15). -/
def State.zoomArrive (k : Nat) (s : State) : State :=
  (((s.zoomBrake.onZoom fun z => { z with state := .ready, current := some k, target := none }).focusArrived
    k).meterInput).setFlag .zoomEnded

/-- The station at a count, if any. -/
def stationAt (s : State) (c : Int) : Option Nat :=
  match s.zoom.working with
  | some t => t.findIdx? fun e => (e.count : Int) == c
  | none => none

/-- The "station passed" notice of a pulse in MOVING, if the count stands on a station (R122). -/
def State.zoomPassed (c : Int) (s : State) : State :=
  match stationAt s c with
  | some k => s.focusPassed k
  | none => s

/-- A pulse in MOVING has left the count at `c` (R118). -/
def State.zoomMoved (c : Int) (s : State) : State :=
  match s.zoom.target with
  | some (k, leg) =>
    match stationCount s k, leg with
    | some t, .approach =>
      if t ≤ c then s.zoomArrive k
      else (s.zoomPassed c).onZoom fun z => { z with drive := approachDrive t c }
    | some t, .outbound =>
      let s := s.zoomPassed c
      if c ≤ t - 30 then (s.onZoom fun z => { z with state := .braking }).zoomBrake else s
    | none, _ => s
  | none => s

/-! ### Extending and parking -/

/-- The zoom is PARKED: motor off, count 0, ZOOM_ENDED (R115, R125). -/
def State.zoomParked (s : State) : State :=
  ((s.zoomRest .off).onZoom fun z =>
    { z with state := .parked, count := some 0, stopped := false, report := none, retract := false }).setFlag .zoomEnded

/-- The retract of a park begins, or ends at once on a seen sensor (R125). -/
def State.zoomRetract (s : State) : State :=
  if s.lines.park then s.zoomParked
  else (s.onZoom fun z => { z with retract := true }).zoomDrive (retractDrive s.zoom.count)

/-- Stopped on the sensor with the homing report in: EXTENDING, or PARKED with FOCUS_HOME (R115, R116; the target of
EXTENDING, log 32). A count that pulses by hand have already brought to station 0's count or past it is driven on from,
tele-ward slow, and taken as reached at the next pulse: the model's choice, R116 says only when the count reaches it
(log 70). -/
def State.zoomHomed (focusOk : Bool) (s : State) : State :=
  if focusOk then
    (s.onZoom fun z =>
      { z with state := .extending, target := some (0, .approach), stopped := false, report := none }).zoomDrive
      (approachDrive ((stationCount s 0).getD 200) (s.zoom.count.getD 0))
  else ((s.onZoom fun z => { z with lastFault := .focusHome }).setFlag .lensFault).zoomParked

/-- The Focus Unit's homing report (R115, R125). -/
def State.zoomReport (focusOk : Bool) (s : State) : State :=
  match s.zoom.state with
  | .homing =>
    if s.zoom.stopped then s.zoomHomed focusOk else s.onZoom fun z => { z with report := some focusOk }
  | .parking =>
    let s :=
      if focusOk then s else (s.onZoom fun z => { z with lastFault := .focusHome }).setFlag .lensFault
    let s := s.onZoom fun z => { z with report := some focusOk }
    if s.zoom.stopped && !s.zoom.retract then s.zoomRetract else s
  | _ => s

/-- The Focus Unit is asked to home (R114, R124, R133). -/
def State.zoomAskHome (s : State) : State :=
  let (t, homed) := s.focusHome
  if homed then t.zoomReport true else t

/-- Station 0's class-0 step is reached: READY (R116). The motor is braked since station 0's count was reached. -/
def State.zoomStepReached (s : State) : State :=
  if s.zoom.state = .extending ∧ s.zoom.current = some 0 then
    let s := s.onZoom fun z => { z with state := .ready, lastFault := .none }
    s.zoomHoldCheck.meterInput.setFlag .zoomEnded
  else s

/-- The count has reached station 0's count in EXTENDING: braked, focus asked to move (R116). -/
def State.zoomExtended (s : State) : State :=
  let s := (s.zoomBrake.onZoom fun z => { z with current := some 0, target := none }).meterInput
  let (t, reached) := s.focusGoTo (camOf s 0 0)
  if reached then t.zoomStepReached else t

/-! ### Events -/

/-- Time and count of a pulse: the period, the watches' restart, the count (R111, R112). -/
def State.zoomCount (tele : Bool) (s : State) : State :=
  { s with
    zoom := { s.zoom with
      period := s.timers.pulse
      count := s.zoom.count.map fun c => if tele then c + 1 else c - 1 }
    timers := { s.timers with
      pulse := some 0
      stall := s.timers.stall.map fun _ => 0
      brake := s.timers.brake.map fun _ => 0 } }

/-- What a pulse does once it is counted (R111, R113, R116, R118, R125). A count that is already out of range when
EXTENDING begins, after pulses by hand in HOMING, faults at the next pulse that leaves it out of range and not at the
entry: R113 says only that the count goes below 0 in EXTENDING, and the model takes the pulse (log 57). -/
def State.zoomPulse (s : State) : State :=
  match s.zoom.state, s.zoom.count with
  | .extending, some c =>
    if outOfRange c then s.zoomFault .range
    else if s.zoom.current.isNone then
      let t := (stationCount s 0).getD 200
      if t ≤ c then s.zoomExtended else s.onZoom fun z => { z with drive := approachDrive t c }
    else s
  | .moving, some c => if outOfRange c then s.zoomFault .range else s.zoomMoved c
  | .braking, some c | .noTableHold, some c => if outOfRange c then s.zoomFault .range else s
  | .ready, some c => if outOfRange c then s.zoomFault .range else s.zoomHoldCheck
  | .parking, c => if s.zoom.drive.driven then s.onZoom fun z => { z with drive := retractDrive c } else s
  | _, _ => s

/-- ENCODER PULSE (R111, R112). -/
def execEncoderPulse (m : Moment) (tele : Bool) (s : State) : Host.Outcome State Fault Refusal :=
  event m (fun s => (s.zoomCount tele).zoomPulse) s

/-- The park sensor becomes seen (R113, R115, R125). -/
def State.zoomParkSeen (s : State) : State :=
  match s.zoom.state with
  | .extending | .moving | .braking | .ready | .noTableHold => s.zoomFault .parkSensor
  | .homing | .parking => if s.zoom.drive.driven then s.zoomBrake else s
  | _ => s

/-- A change of the park sensor reading; a report of the reading already held is no change (R111, log 4). -/
def execParkSensorChange (m : Moment) (seen : Bool) (s : State) : Host.Outcome State Fault Refusal :=
  event m (fun s =>
    if s.lines.park = seen then s
    else
      let s := { s with lines := { s.lines with park := seen } }
      if seen then s.zoomParkSeen else s) s

/-- 40 ms without a pulse while driven (R112, R113, R125). -/
def execStallWatchExpiry (m : Moment) (s : State) : Host.Outcome State Fault Refusal :=
  event m (fun s =>
    if reached Config.stallLimit s.timers.stall then
      match s.zoom.state with
      | .homing | .extending | .moving => s.zoomFault .stall
      | .parking =>
        (((s.zoomRest .off).onZoom fun z =>
          { z with state := .unhomed, count := none, lastFault := .stall, stopped := false, report := none
                   retract := false }).setFlag .lensFault).setFlag .zoomEnded
      | _ => s
    else s) s

/-- The motor has stopped; in EXTENDING, READY and NO_TABLE_HOLD that changes nothing more (R112, R115, R119, R125,
log 15). -/
def State.zoomStopped (s : State) : State :=
  match s.zoom.state with
  | .braking =>
    match s.zoom.target with
    | some (k, _) => s.zoomLeg k
    | none => s
  | .homing =>
    let s := s.onZoom fun z => { z with count := some 0, stopped := true }
    match s.zoom.report with
    | some r => s.zoomHomed r
    | none => s
  | .parking =>
    if s.zoom.retract then s.zoomParked
    else
      let s := s.onZoom fun z => { z with stopped := true }
      if s.zoom.report.isSome then s.zoomRetract else s
  | _ => s

/-- 10 ms without a pulse while braking: the motor counts as stopped (R112). -/
def execBrakeWatchExpiry (m : Moment) (s : State) : Host.Outcome State Fault Refusal :=
  event m (fun s =>
    if reached Config.brakeLimit s.timers.brake then
      { s with timers := { s.timers with brake := none } }.zoomStopped
    else s) s

/-- A focus move reaches its aimed step (R132). -/
def execFocusMoveComplete (m : Moment) (s : State) : Host.Outcome State Fault Refusal :=
  event m (fun s =>
    match s.focus.move with
    | some mv =>
      let (t, reached) := (s.onFocus fun f => { f with move := none, position := some mv.aim }).focusArrive
      if reached then t.zoomStepReached else t
    | none => s) s

/-- The home sensor is seen during homing (R133); only this row ends a homing on the sensor (log 54). -/
def execFocusHomeSensorSeen (m : Moment) (s : State) : Host.Outcome State Fault Refusal :=
  event m (fun s =>
    if s.focus.homing.isSome then
      ({ s with lines := { s.lines with focusHome := true } }.focusHomed).zoomReport true
    else s) s

/-- 3,200 steps of a homing without the home sensor (R133, log 5). -/
def execFocusHomingFailed (m : Moment) (s : State) : Host.Outcome State Fault Refusal :=
  event m (fun s =>
    if reached Config.homingLimit s.focus.homing then (s.onFocus fun f => { f with homing := none }).zoomReport false
    else s) s

/-- POWER_LOW at the Zoom Drive (R130). -/
def State.zoomPowerLow (s : State) : State :=
  (s.zoomRest .braked).onZoom fun z =>
    { z with state := .unhomed, count := none, current := none, target := none, stopped := false, report := none
             retract := false }

/-! ### Requests -/

/-- EXTEND LENS accepted: HOMING, and focus is asked to home (R114, R115). -/
def State.zoomExtend (s : State) : State :=
  let seen := s.lines.park
  let t := (s.onZoom fun z =>
    { z with state := .homing, target := none, current := none, stopped := seen, report := none, retract := false
             count := if seen then some 0 else none }).meterInput
  (if seen then t.zoomRest .off else t.zoomDrive .wideFull).zoomAskHome

/-- EXTEND LENS (R114). -/
def execExtendLens (m : Moment) (s : State) : Host.Outcome State Fault Refusal :=
  request 17 m (fun s =>
    if s.shot.state ≠ .idle then (s, refuse .shotArmed)
    else
      match s.zoom.state with
      | .stalled => (s, refuse .lensFault)
      | .homing | .extending | .moving | .braking | .parking => (s, refuse .busy)
      | .ready | .noTableHold => (s, refuse .wrongState)
      | .unhomed | .parked => if s.zoom.working.isNone then (s, refuse .noLensTable) else (s.zoomExtend, ok)) s

/-- A new target in MOVING or BRAKING (R120). In BRAKING no leg is driven; the target keeps the leg of the move being
stopped, and READ ZOOM shows it, the model's choice (log 46). -/
def State.zoomRetarget (k : Nat) (s : State) : State :=
  match s.zoom.target, stationCount s k, s.zoom.count with
  | some (old, leg), some t, some c =>
    if old = k then s
    else
      let s := s.onZoom fun z => { z with target := some (k, leg) }
      if s.zoom.state = .moving then
        match leg with
        | .approach =>
          if c < t then s.onZoom fun z => { z with drive := approachDrive t c }
          else (s.onZoom fun z => { z with state := .braking }).zoomBrake
        | .outbound =>
          if t - 30 < c then s else (s.onZoom fun z => { z with state := .braking }).zoomBrake
      else s
  | _, _, _ => s

/-- ZOOM TO (R117, R120). -/
def execZoomTo (m : Moment) (station : Nat) (s : State) : Host.Outcome State Fault Refusal :=
  request 18 m (fun s =>
    if 47 < station then (s, refuse .badField)
    else if s.shot.state ≠ .idle then (s, refuse .shotArmed)
    else
      match s.zoom.state with
      | .stalled => (s, refuse .lensFault)
      | .unhomed | .homing | .extending | .parking | .parked => (s, refuse .lensNotReady)
      | .ready =>
        (if s.zoom.current = some station then s.setFlag .zoomEnded else s.focusMotionBegins.zoomLeg station, ok)
      | .noTableHold => (s.focusMotionBegins.zoomLeg station, ok)
      | .moving | .braking => (s.zoomRetarget station, ok)) s

/-- The station with the lowest count above `c` (R121). -/
def stationAbove (t : List StationEntry) (c : Int) : Option Nat := t.findIdx? fun e => c < (e.count : Int)

/-- The station with the highest count below `c`, or station 0 (R121). -/
def stationBelow (t : List StationEntry) (c : Int) : Nat := (t.takeWhile fun e => (e.count : Int) < c).length - 1

/-- ZOOM STOP's new target (R121). -/
def stopTarget (s : State) : Option Nat :=
  match s.zoom.working, s.zoom.count with
  | some t, some c =>
    match s.zoom.state, s.zoom.target with
    | .moving, some (k, .approach) => some ((stationAbove t c).getD k)
    | .moving, some (_, .outbound) => some (stationBelow t c)
    | .braking, some _ => some ((stationAbove t c).getD 47)
    | _, _ => none
  | _, _ => none

/-- ZOOM STOP (R121). -/
def execZoomStop (m : Moment) (s : State) : Host.Outcome State Fault Refusal :=
  request 19 m (fun s =>
    match stopTarget s with
    | some k => (s.zoomRetarget k, ok)
    | none => (s, ok)) s

/-- PARK LENS accepted: PARKING, a driven motor is braked, focus is asked to home (R124). A motor that is off stays off
until the retract, and READ ZOOM shows it so: R110's table has PARKING braked first, R124 brakes a driven motor only,
and the model follows R124 (log 58). -/
def State.zoomPark (s : State) : State :=
  let driven := s.zoom.drive.driven
  let t := (s.onZoom fun z =>
    { z with state := .parking, target := none, current := none, report := none, retract := false
             stopped := !driven && s.timers.brake.isNone }).meterInput
  (if driven then t.zoomBrake else { t with timers := { t.timers with stall := none } }).zoomAskHome

/-- PARK LENS (R124). -/
def execParkLens (m : Moment) (s : State) : Host.Outcome State Fault Refusal :=
  request 20 m (fun s =>
    if s.shot.state ≠ .idle then (s, refuse .shotArmed)
    else
      match s.zoom.state with
      | .parked | .parking => (s, ok)
      | _ => (s.zoomPark, ok)) s

/-- LOAD LENS STATION (R126). -/
def execLoadLensStation (m : Moment) (station : Nat) (e : StationEntry) (s : State) :
    Host.Outcome State Fault Refusal :=
  request 21 m (fun s =>
    if 47 < station || !entryOk e then (s, refuse .badField)
    else (s.onZoom fun z => { z with staging := z.staging.set station (some e) }, ok)) s

/-- The steps of the classes do not fall (R127). -/
def camOrdered : List Nat → Bool
  | a :: b :: t => a ≤ b && camOrdered (b :: t)
  | _ => true

/-- The first failing test of one staged entry, after the station before it (R127). -/
def entryTest (before : Option StationEntry) : Option StationEntry → Option TableTest
  | none => some .empty
  | some e =>
    if e.narrowest < e.widest then some .avOrder
    else if !camOrdered e.cams then some .camOrder
    else
      match before with
      | none => none
      | some p =>
        if e.count ≤ p.count then some .countOrder
        else if e.focal < p.focal then some .focalOrder
        else none

/-- The first station and test that fail, from station `k` on (R127). -/
def firstBad : Nat → Option StationEntry → List (Option StationEntry) → Option (Nat × TableTest)
  | _, _, [] => none
  | k, before, e :: t =>
    match entryTest before e with
    | some x => some (k, x)
    | none => firstBad (k + 1) e t

/-- The station whose count lies nearest, the lower one on a tie, with its distance (R128). -/
def nearestStation (c : Int) : Nat → List StationEntry → Option (Nat × Nat)
  | _, [] => none
  | k, e :: t =>
    let d := (c - e.count).natAbs
    match nearestStation c (k + 1) t with
    | some (j, dj) => if dj < d then some (j, dj) else some (k, d)
    | none => some (k, d)

/-- The position after a commit: READY within 3 counts of the nearest station, else NO_TABLE_HOLD (R128). -/
def State.zoomReconcile (t : List StationEntry) (s : State) : State :=
  match s.zoom.count with
  | some c =>
    match nearestStation c 0 t with
    | some (k, d) =>
      if d ≤ 3 then s.onZoom fun z => { z with state := .ready, current := some k }
      else s.onZoom fun z => { z with state := .noTableHold, current := none }
    | none => s
  | none => s

/-- A commit that passes validation (R128). -/
def State.zoomCommit (s : State) : State :=
  let t := s.zoom.staging.filterMap id
  let s := (s.onZoom fun z => { z with working := some t }).markDirty .lensTable
  let s := if s.zoom.state = .ready ∨ s.zoom.state = .noTableHold then s.zoomReconcile t else s
  let s :=
    match s.zoom.state, s.zoom.current with
    | .ready, some k => s.focusCommit k
    | _, _ => s
  s.meterInput

/-- COMMIT LENS TABLE (R127, R128). -/
def execCommitLensTable (m : Moment) (s : State) : Host.Outcome State Fault Refusal :=
  request 22 m (fun s =>
    if s.shot.state ≠ .idle then (s, refuse .shotArmed)
    else
      match s.zoom.state with
      | .homing | .extending | .moving | .braking | .parking => (s, refuse .busy)
      | _ =>
        if s.focus.state.busy then (s, refuse .focusBusy)
        else
          match firstBad 0 none s.zoom.staging with
          | some (k, x) => (s, (.badField, .badStation k x, none))
          | none => (s.zoomCommit, ok)) s

/-- READ ZOOM's answer (R129). -/
def zoomReport (s : State) : ZoomReport :=
  { state := s.zoom.state, count := s.zoom.count, current := s.zoom.current, target := s.zoom.target
    drive := s.zoom.drive, period := s.zoom.period, park := s.lines.park, lastFault := s.zoom.lastFault
    gain := offeredGain s.zoom, table := s.zoom.working.isSome
    filled := (s.zoom.staging.filter (·.isSome)).length }

/-- READ ZOOM (R129). -/
def execReadZoom (m : Moment) (s : State) : Host.Outcome State Fault Refusal :=
  request 23 m (fun s => (s, okBody (.zoom (zoomReport s)))) s

/-- READ LENS STATION's answer (R129). -/
def lensAnswer (s : State) (station : Nat) : LensTableName → LensAnswer
  | .staging =>
    match s.zoom.staging.getD station none with
    | some e => .entry e
    | none => .empty
  | .working =>
    match s.zoom.working with
    | none => .absent
    | some t => match t[station]? with | some e => .entry e | none => .absent

/-- READ LENS STATION (R129). A table name that is neither WORKING nor STAGING is refused with BAD_FIELD, the model's
choice (log 47). -/
def execReadLensStation (m : Moment) (station : Nat) (t : Option LensTableName) (s : State) :
    Host.Outcome State Fault Refusal :=
  request 24 m (fun s =>
    match t with
    | none => (s, refuse .badField)
    | some t =>
      if 47 < station then (s, refuse .badField) else (s, okBody (.lensStation (lensAnswer s station t)))) s

end Sys2Proof.Machine
end

