-- ==== Sys2Proof/Machine/Shot.lean ====
section
/-! DEFINITION. The Shot Sequencer: arming (R168, R169), triggers (R170, R178), frames (R171 to R177), ending
(R179 to R181), the gyro events that may end its wait for the Stabilizer, and its requests. -/

namespace Sys2Proof.Machine

/-- Changes the Shot Sequencer. -/
def State.onShot (f : Shot → Shot) (s : State) : State := { s with shot := f s.shot }

/-- Changes the armed burst. -/
def State.onBurst (f : Burst → Burst) (s : State) : State := s.onShot fun x => { x with burst := x.burst.map f }

/-- A condition on the armed burst; no without one. -/
def burstHas (f : Burst → Bool) (s : State) : Bool :=
  match s.shot.burst with
  | some b => f b
  | none => false

/-! ### Ending -/

/-- The records of the burst still RESERVED are released (R6, R179 step 1). Their places join the write queue in burst
order, the model's choice: R6 and R179 release them together and give no order (log 61). -/
def State.shotRelease (s : State) : State :=
  match s.shot.burst with
  | some b => b.numbers.foldl (fun s n => s.releaseReserved n) s
  | none => s

/-- The return to IDLE (R179). -/
def State.shotIdle (s : State) : State :=
  let s := s.shotRelease.onShot fun x => { x with state := .idle, burst := none, exposure := none }
  let s := { s with timers := { s.timers with frame := none } }
  s.meterShotEnd.focusShotEnd.steadyShotEnd.setFlag .burstEnded

/-! ### The exposure's end -/

/-- The record of an exposure that has ended: measured exposure, steadying outcome and peak shift (R7). -/
def PicRecord.exposed (measured : Option Nat) (r : SteadyOutcome × Nat) (x : PicRecord) : PicRecord :=
  { x with measured := measured, steady := some r.1, peakShift := some r.2 }

/-- The record becomes AWAITING, marked CUT_SHORT when its exposure was (R7, R173). -/
def PicRecord.awaiting (cut : Bool) (x : PicRecord) : PicRecord :=
  { x with state := .awaiting
           armed := if cut then x.armed.map fun a => { a with flags := { a.flags with cutShort := true } } else x.armed }

/-- The lines fall, the session closes, the timers stop (R173, R174). -/
def State.shotEndFrame (s : State) : State :=
  let s := s.steadyClose.onShot fun x => { x with exposure := none }
  { s with timers := { s.timers with shutter := none, confirm := none } }

/-- An exposing record fails, with its measured exposure when there is one (R7, R174, R181). -/
def State.shotFail (n : Nat) (measured : Option Nat) (c : FailCause) (s : State) : State :=
  let out := steadyResult s.steady
  s.shotEndFrame.onNumber n fun p r s => (s.setRecord p (r.exposed measured out)).failPlace p c

/-- An exposed record becomes AWAITING and joins the tail of the pending store queue (R7, R54, R173). -/
def State.shotAwait (n : Nat) (measured : Nat) (cut : Bool) (s : State) : State :=
  let out := steadyResult s.steady
  let s := s.shotEndFrame.onNumber n fun p r s => s.claim p ((r.exposed (some measured) out).awaiting cut)
  { s with store := { s.store with queue := s.store.queue ++ [n] } }

/-- The new learned delay (R173). -/
def learnedAfter (old latency : Nat) : Nat := (limit 1000 20000 (roundHalfUp (3 * old + latency) 4)).toNat

/-- The frame is over: on to INTERVAL, or back to IDLE (R176, R179, R181). -/
def State.shotNext (s : State) : State :=
  match s.shot.burst with
  | some b =>
    if b.count < b.next || b.disarmed || b.released || s.supply.powerLow then s.shotIdle
    else s.onShot fun x => { x with state := .interval }
  | none => s.shotIdle

/-- The closure is confirmed (R173, R181). -/
def State.shotConfirm (s : State) : State :=
  match s.shot.exposure with
  | some e =>
    let measured := s.timers.shutter.getD 0
    let latency := measured - e.closedAt.getD 0
    let s := s.onShot fun x =>
      { x with learned := learnedAfter x.learned latency, lastLatency := some latency, lastMeasured := some measured }
    let s :=
      if s.supply.powerLow then s.shotFail e.number (some measured) .power
      else s.shotAwait e.number measured e.cutShort
    (s.setFlag .shotEnded).shotNext
  | none => s

/-- The close command is issued; a sensor that already reads closed confirms (R172, R173). -/
def State.shotClose (s : State) : State :=
  let s := s.onShot fun x =>
    { x with state := .closing, exposure := x.exposure.map fun e => { e with closedAt := s.timers.shutter } }
  let s := { s with timers := { s.timers with confirm := some 0 } }
  if s.lines.shutterClosed then s.shotConfirm else s

/-! ### A frame -/

/-- The record of the next burst index becomes EXPOSING with its focus step (R6, R172). -/
def State.shotExpose (n : Nat) (s : State) : State :=
  s.onNumber n fun p r s => s.claim p { r with state := .exposing, focusStep := s.focus.position }

/-- The exposure starts (R172). -/
def State.shotStart (s : State) : State :=
  match s.shot.burst with
  | some b =>
    let n := nth b.numbers (b.next - 1)
    let s := (s.shotExpose n).onShot fun x =>
      { x with state := .exposing, burst := some { b with next := b.next + 1 }
               exposure := some { number := n, tv := b.tv, av := b.av, closedAt := none, cutShort := false } }
    let s := { s with timers := { s.timers with frame := some 0, shutter := some 0 } }.steadyOpen
    if exposureTime b.tv ≤ s.shot.learned then s.shotClose else s
  | none => s

/-- PREPARING has ended: the exposure starts, or the shot returns to IDLE (R171, R180, R181). -/
def State.shotPrepared (s : State) : State := if burstHas (·.disarmed) s then s.shotIdle else s.shotStart

/-- The iris is sent to the burst's Av, once its start-up run is over; there already, the move is complete
(R171). -/
def State.irisToBurst (s : State) : State :=
  match s.shot.burst, s.shot.iris with
  | some b, .at a => if a = b.av then s.shotPrepared else s.onShot fun x => { x with iris := .moving b.av }
  | _, _ => s

/-- PREPARING (R171). -/
def State.shotPrepare (s : State) : State := (s.onShot fun x => { x with state := .preparing }).irisToBurst

/-- A frame begins (R171). -/
def State.shotFrame (s : State) : State :=
  if s.steady.state = .starting then s.onShot fun x => { x with state := .waitSteady } else s.shotPrepare

/-- The next frame is due (R176). -/
def State.shotDue (s : State) : State :=
  if s.store.queue.length < Config.maxQueue then s.shotFrame else s.onShot fun x => { x with state := .queueWait }

/-- In INTERVAL with the frame timer at or past the interval the next frame is due at once (R176). -/
def State.shotDueCheck (s : State) : State :=
  if s.shot.state = .interval ∧ 1000 * s.shot.setup.interval ≤ s.timers.frame.getD 0 then s.shotDue else s

/-- The pending store queue has shrunk: a waiting frame begins (R177). -/
def State.shotQueueShrunk (s : State) : State :=
  if s.shot.state = .queueWait ∧ s.store.queue.length < Config.maxQueue then s.shotFrame else s

/-- The Stabilizer's start has ended (R153, R156, R171). -/
def State.shotSteadyReady (s : State) : State := if s.shot.state = .waitSteady then s.shotPrepare else s

/-- POWER_LOW at the Shot Sequencer (R181), and what DISARM and it do alike (R180). In EXPOSING with the sensor already
closed the released places join the write queue before the place of the record whose exposure ends in the same step:
the model's choice, R180 gives no order between them (log 66). -/
def State.shotDisarm (s : State) : State :=
  match s.shot.state with
  | .idle => s
  | .armed | .waitSteady | .interval | .queueWait | .fault => s.shotIdle
  | .preparing => s.onBurst fun b => { b with disarmed := true }
  | .exposing =>
    ((s.shotRelease.onBurst fun b => { b with disarmed := true }).onShot fun x =>
      { x with exposure := x.exposure.map fun e => { e with cutShort := true } }).shotClose
  | .closing => s.shotRelease.onBurst fun b => { b with disarmed := true }

/-! ### Requests -/

/-- SHOT SETUP (R167). -/
def execShotSetup (m : Moment) (x : ShotSetupFields) (s : State) : Host.Outcome State Fault Refusal :=
  request 35 m (fun s =>
    if s.shot.state ≠ .idle then (s, refuse .shotArmed)
    else
      match shotSetupOf x with
      | none => (s, refuse .badField)
      | some y => (s.onShot fun z => { z with setup := y }, ok)) s

/-- The focus outcome as the Focus Unit stands at ARM (R5). -/
def focusOutcome (f : Focus) : FocusOutcome :=
  match f.state, f.held with
  | .locked, some (.lock k a _) => .locked k a
  | .manual, some (.manual k) => .manual k
  | _, _ => .notLocked

/-- The number of FREE places. -/
def freePlaces (s : State) : Nat := Config.placeCount - s.cat.places.length

/-- ARM's refusal, the first that applies (R168). -/
def armRefusal (s : State) : Option Code :=
  if s.shot.state = .fault then some .shutterFault
  else if s.shot.state ≠ .idle then some .busy
  else if s.map.mode = .preparing then some .busy
  else if s.map.mode = .unprepared then some .storeUnprepared
  else if s.map.mode = .readOnly then some .storeReadOnly
  else if s.store.queue.length ≥ Config.maxQueue then some .busy
  else if s.zoom.state ≠ .ready then some .lensNotReady
  else if s.focus.state.busy then some .focusBusy
  else if s.shot.setup.policy = .focusFirst ∧ s.focus.state ≠ .locked ∧ s.focus.state ≠ .manual then some .notReady
  else if s.meter.state = .noData then some .notReady
  else if freePlaces s < s.shot.setup.count then some .catalogueFull
  else if !s.map.canReserve (s.shot.setup.count * s.settings.reservation) then some .noSpace
  else none

/-- The burst group of an armed shot (R169 step 1). -/
def burstGroup (x : Shot) : Nat := if x.setup.count = 1 then 0 else if x.lastGroup ≥ 255 then 1 else x.lastGroup + 1

/-- The fields every record of the burst takes at ARM (R5, R169 step 4). -/
def armFields (s : State) (group : Nat) (e : Computed) : ArmFields :=
  { group := group, index := 1
    exposure := { tv := e.tv, av := e.av, sv := e.sv, scene := (reportedScene s.meter).getD 0
                  compensation := s.meter.setup.compensation, mode := s.meter.setup.mode
                  pattern := s.meter.setup.pattern }
    flags := e.flags, station := s.zoom.current.getD 0, focus := focusOutcome s.focus }

/-- An ARM that passes its checks (R169). -/
def State.shotArm (e : Computed) (s : State) : State × Answer :=
  let n := s.shot.setup.count
  let group := burstGroup s.shot
  let (t, numbers) := s.createBurst (armFields s group e) s.settings.reservation n 1
  let t := ((t.markDirty .counter).onMap (·.reserve (n * s.settings.reservation))).focusArmed.steadyArmed
  (t.onShot fun x =>
    { x with state := .armed, lastGroup := if n = 1 then x.lastGroup else group
             burst := some { group := group, count := n, numbers := numbers, next := 1, released := false
                             disarmed := false, tv := e.tv, av := e.av } },
    okBody (.armed group numbers e.tv e.av e.sv e.flags))

/-- ARM (R168, R169). A state without a computed exposure cannot pass the READY check; it answers NOT_READY. -/
def execArm (m : Moment) (s : State) : Host.Outcome State Fault Refusal :=
  request 36 m (fun s =>
    match armRefusal s, s.meterShotLock.meter.exposure with
    | some c, _ => (s, refuse c)
    | none, none => (s, refuse .notReady)
    | none, some e => s.meterShotLock.shotArm e) s

/-- TRIGGER (R170). -/
def execTrigger (m : Moment) (s : State) : Host.Outcome State Fault Refusal :=
  request 37 m (fun s => if s.shot.state = .armed then (s.shotFrame, ok) else (s, refuse .wrongState)) s

/-- DISARM (R180). -/
def execDisarm (m : Moment) (s : State) : Host.Outcome State Fault Refusal :=
  request 38 m (fun s => (s.shotDisarm, ok)) s

/-- EXPOSE is high while a record is EXPOSING (R166). -/
def exposeHigh (x : Shot) : Bool := x.state == .exposing || x.state == .closing

/-- The shutter close drive is asserted in CLOSING (R166, R172). -/
def closeDrive (x : Shot) : Bool := x.state == .closing

/-- The armed burst as READ SHOT reports it (R182). -/
def Burst.report (b : Burst) : BurstReport :=
  { group := b.group, count := b.count, numbers := b.numbers, next := b.next, released := b.released
    disarmed := b.disarmed }

/-- The iris position: an Av, or `none` for MOVING (R166). -/
def Iris.position : Iris → Option Int
  | .at a => some a
  | .startRun | .moving _ => none

/-- READ SHOT's answer (R182). -/
def shotReport (s : State) : ShotReport :=
  { state := s.shot.state, setup := s.shot.setup, reservation := s.settings.reservation, lastGroup := s.shot.lastGroup
    burst := s.shot.burst.map Burst.report
    exposure := s.shot.exposure.map fun e => (e.tv, e.av, s.timers.shutter, e.closedAt.isSome)
    learned := s.shot.learned, lastLatency := s.shot.lastLatency, lastMeasured := s.shot.lastMeasured
    iris := s.shot.iris.position, release := s.lines.release, expose := exposeHigh s.shot, shutterClosed := s.lines.shutterClosed }

/-- READ SHOT (R182). -/
def execReadShot (m : Moment) (s : State) : Host.Outcome State Fault Refusal :=
  request 39 m (fun s => (s, okBody (.shot (shotReport s)))) s

/-! ### Events -/

/-- A falling edge of RELEASE (R170). The row itself is the edge: it acts as one where the held level is already low too,
the model's choice (log 65). -/
def execReleaseFalling (m : Moment) (s : State) : Host.Outcome State Fault Refusal :=
  event m (fun s =>
    let s := { s with lines := { s.lines with release := false } }
    if s.shot.state = .armed ∧ !s.supply.powerLow then s.shotFrame else s) s

/-- A rising edge of RELEASE (R178). The row itself is the edge: it acts as one where the held level is already high too,
the model's choice (log 65). -/
def execReleaseRising (m : Moment) (s : State) : Host.Outcome State Fault Refusal :=
  event m (fun s =>
    let s := { s with lines := { s.lines with release := true } }
    if s.shot.setup.trigger = .held ∧ !s.supply.powerLow then
      match s.shot.state with
      | .waitSteady | .preparing | .exposing | .closing => s.onBurst fun b => { b with released := true }
      | .interval | .queueWait => s.shotIdle
      | _ => s
    else s) s

/-- The iris completes its move or its start-up run (R166, R171). -/
def execIrisMoveComplete (m : Moment) (s : State) : Host.Outcome State Fault Refusal :=
  event m (fun s =>
    match s.shot.iris with
    | .at _ => s
    | .startRun =>
      let s := s.onShot fun x => { x with iris := .at 6 }
      if s.shot.state = .preparing then s.irisToBurst else s
    | .moving a =>
      let s := s.onShot fun x => { x with iris := .at a }
      if s.shot.state = .preparing then s.shotPrepared else s) s

/-- The close command is due: the exposure time less the learned delay has passed since EXPOSE (R172). -/
def closeDue (s : State) : Bool :=
  match s.shot.exposure with
  | some e => reached (exposureTime e.tv - s.shot.learned) s.timers.shutter
  | none => false

/-- The close command falls due (R172, log 5). -/
def execCloseCommandDue (m : Moment) (s : State) : Host.Outcome State Fault Refusal :=
  event m (fun s => if s.shot.state = .exposing ∧ closeDue s then s.shotClose.shotDueCheck else s) s

/-- The shutter sensor reads closed in CLOSING (R173). -/
def execShutterClosed (m : Moment) (s : State) : Host.Outcome State Fault Refusal :=
  event m (fun s =>
    if s.shot.state = .closing then
      { s with lines := { s.lines with shutterClosed := true } }.shotConfirm.shotDueCheck
    else s) s

/-- 50 ms in CLOSING without a confirmation (R174, R181). -/
def State.shotTimeout (s : State) : State :=
  match s.shot.exposure with
  | some e =>
    if s.supply.powerLow then ((s.shotFail e.number none .power).setFlag .shotEnded).shotIdle
    else
      ((((s.shotFail e.number none .shutter).shotRelease).onShot fun x => { x with state := .fault }).setFlag
        .shotEnded).setFlag .shutterFault
  | none => s

/-- SHUTTER TIMEOUT (R174, log 5). -/
def execShutterTimeout (m : Moment) (s : State) : Host.Outcome State Fault Refusal :=
  event m (fun s => if s.shot.state = .closing ∧ reached Config.confirmLimit s.timers.confirm then s.shotTimeout else s) s

/-- The frame timer reaches the interval in INTERVAL (R176, log 5). -/
def execFrameDue (m : Moment) (s : State) : Host.Outcome State Fault Refusal :=
  event m State.shotDueCheck s

/-- A good frame; the end of a start is reported to the Shot Sequencer (R151, R156). -/
def State.gyroGoodFrame (g : GyroFields) (s : State) : State :=
  let t := s.gyroTake g
  if s.steady.state = .starting ∧ t.steady.state = .active then t.shotSteadyReady else t

/-- A complete gyro frame: the first of those the receiver has completed, else the rest of the one being assembled or a
whole one; where the time of one being assembled has passed it is broken (R150, R151, log 20, log 56). -/
def execGyroFrame (m : Moment) (bytes : List Byte) (s : State) : Host.Outcome State Fault Refusal :=
  event m (fun s =>
    if !gyroRuns s || !s.gyro.opens bytes then s
    else if s.gyro.overdue then s.gyroDrop
    else if gyroGood (gyroOf bytes) s then s.gyroHand.gyroGoodFrame (gyroOf bytes)
    else s.gyroDiscard.gyroHand) s

/-- 10 ms without a good frame while the lost watch runs (R153, log 5). -/
def execGyroLost (m : Moment) (s : State) : Host.Outcome State Fault Refusal :=
  event m (fun s =>
    if reached Config.lostLimit s.timers.lost then
      let t := s.steadyLost
      if s.steady.state = .starting then t.shotSteadyReady else t
    else s) s

end Sys2Proof.Machine
end

