-- ==== Sys2Proof/Machine/Flash.lean ====
section
/-! DEFINITION. The Flash Port: asking, withdrawing, the arbiter (R34, R35), write-protect (R32), the first status read
(R31). -/

namespace Sys2Proof.Machine

/-- Changes the Flash Port. -/
def State.onFlash (f : FlashPort → FlashPort) (s : State) : State := { s with flash := f s.flash }

/-- The operation writes to the device (R32, R34). -/
def FlashOp.writes : FlashOp → Bool
  | .pageRead _ _ | .rawRead _ _ => false
  | _ => true

/-- The operation is a grown-mark program. -/
def FlashOp.isMark : FlashOp → Bool
  | .grownMark _ => true
  | _ => false

/-- What a claimant waits for. -/
def FlashPort.waitingOf (c : Claimant) (f : FlashPort) : Option FlashOp :=
  match c with
  | .store => f.store
  | .readChain => f.read
  | .refresh => f.refresh
  | .background | .prepare => match f.last with | some (d, op) => if d = c then some op else none | none => none

/-- Sets or clears what a claimant waits for. -/
def FlashPort.setWaiting (c : Claimant) (op : Option FlashOp) (f : FlashPort) : FlashPort :=
  match c with
  | .store => { f with store := op }
  | .readChain => { f with read := op }
  | .refresh => { f with refresh := op }
  | .background | .prepare => { f with last := op.map fun o => (c, o) }

/-- A claimant asks for an operation (R34). -/
def State.flashAsk (c : Claimant) (op : FlashOp) (s : State) : State := s.onFlash (·.setWaiting c (some op))

/-- A claimant's waiting operation is withdrawn (R68, R80, R87). -/
def State.flashWithdraw (c : Claimant) (s : State) : State :=
  if (s.flash.waitingOf c).isSome then s.onFlash (·.setWaiting c none) else s

/-- A claimant's operation is in flight. -/
def FlashPort.flies (c : Claimant) (f : FlashPort) : Bool :=
  match f.inFlight with
  | some x => x.claimant == c
  | none => false

/-- The claimant has no operation waiting or in flight. -/
def FlashPort.free (c : Claimant) (f : FlashPort) : Bool := (f.waitingOf c).isNone && !f.flies c

/-- The result of a claimant's operation in flight, if any, is to be discarded (R69, R80, R87). -/
def State.flashDiscard (c : Claimant) (s : State) : State :=
  s.onFlash fun f =>
    { f with inFlight := f.inFlight.map fun x => if x.claimant = c then { x with discard := true } else x }

/-- A grown mark of this claimant waits or is in flight (R48, R83). -/
def FlashPort.marking (c : Claimant) (f : FlashPort) : Bool :=
  (match f.waitingOf c with | some op => op.isMark | none => false) ||
  (match f.inFlight with | some x => x.claimant == c && x.op.isMark | none => false)

/-! ### Write-protect -/

/-- No operation is in flight; until it has shown the device ready the first status read is one (R31, R32). -/
def FlashPort.quiet (f : FlashPort) : Bool := f.statusDone && f.inFlight.isNone

/-- Write-protect owed since POWER_LOW or SHUT DOWN is asserted when no operation is in flight (R32). -/
def State.flashSettle (s : State) : State :=
  if s.flash.protectDue && s.flash.quiet then s.onFlash fun f => { f with writeProtect := true } else s

/-- Write-protect is asserted when the port is next idle, and kept (R32, R200). -/
def State.flashProtect (s : State) : State := (s.onFlash fun f => { f with protectDue := true }).flashSettle

/-- Write-protect follows the store mode, unless POWER_LOW or SHUT DOWN has claimed it (R32). -/
def State.flashFollowMode (s : State) : State :=
  if s.flash.protectDue then s else s.onFlash fun f => { f with writeProtect := decide (s.map.mode = .unprepared) }

/-! ### The arbiter -/

/-- An operation counted as waiting: a write is not while write-protect is asserted (R34). -/
def counted (f : FlashPort) (op : Option FlashOp) : Option FlashOp :=
  match op with
  | some o => if o.writes && f.writeProtect then none else some o
  | none => none

/-- The claimant a decision grants, with its operation and the last middle-level grant after it (R34, R35). -/
def choose (f : FlashPort) : Option (Claimant × FlashOp × MiddleGrant) :=
  match counted f f.store with
  | some op => some (.store, op, f.lastMiddle)
  | none =>
    match counted f f.read, counted f f.refresh with
    | some r, none => some (.readChain, r, .read)
    | none, some w => some (.refresh, w, .refresh)
    | some r, some w =>
      match f.lastMiddle with
      | .refresh => some (.readChain, r, .read)
      | .read => some (.refresh, w, .refresh)
    | none, none =>
      match f.last with
      | some (c, op) => (counted f (some op)).map fun o => (c, o, f.lastMiddle)
      | none => none

/-- Address cycles of a page address (R27). -/
def addressCycles (total : Nat) : Nat := if total = 8192 then 5 else 4

/-- The buffer of a granted page program becomes PROGRAMMING: the one that filled first; a recovery's program finds its
buffer PROGRAMMING already (R58, R61). -/
def StoreEngine.programGranted (e : StoreEngine) : StoreEngine :=
  if e.recovery.isSome then e
  else
    match e.fullOrder with
    | .a :: t => { e with bufA := { e.bufA with state := .programming }, fullOrder := t }
    | .b :: t => { e with bufB := { e.bufB with state := .programming }, fullOrder := t }
    | [] => e

/-- The correction codes of a page's four sectors, which its spare bytes carry (R27, R29). -/
def pageCodes (data : List Byte) : List (List Byte) :=
  (List.range 4).map fun i => Config.sectorCode ((data.drop (i * Config.sectorBytes)).take Config.sectorBytes)

/-- The port gives the page register data bytes with their freshly computed codes (R29, R30). -/
def State.flashRegister (data : List Byte) (s : State) : State :=
  s.onFlash fun f => { f with register := some (data, pageCodes data) }

/-- What a grant gives the page register: a page program its data with their codes (R29). -/
def State.flashLoad (op : FlashOp) (s : State) : State :=
  match op with
  | .program _ _ data => s.flashRegister data
  | _ => s

/-- A grant. -/
def State.flashGrant (c : Claimant) (op : FlashOp) (mid : MiddleGrant) (s : State) : State :=
  let t := s.onFlash fun f =>
    { f.setWaiting c none with
      inFlight := some { claimant := c, op := op, cycles := addressCycles s.map.total, discard := false }
      lastMiddle := mid }
  let t := t.flashLoad op
  match c, op with
  | .store, .program _ _ _ => { t with store := t.store.programGranted }
  | _, _ => t

/-- The port may decide: status read done, no operation in flight, the link not SILENT (R31, R34, R192). -/
def portIdle (s : State) : Bool := s.flash.quiet && s.link.condition == .listening

/-- ARBITER GRANT (R34). -/
def execArbiterGrant (m : Moment) (s : State) : Host.Outcome State Fault Refusal :=
  event m (fun s =>
    if portIdle s then
      match choose s.flash with
      | some (c, op, mid) => s.flashGrant c op mid
      | none => s
    else s) s

/-- FLASH STATUS READ DONE: the first operation is over, and owed write-protect is asserted (R31, R32). -/
def execFlashStatusReadDone (m : Moment) (s : State) : Host.Outcome State Fault Refusal :=
  event m (fun s => (s.onFlash fun f => { f with statusDone := true }).flashSettle) s

/-- The operation in flight gives its result: the port is idle, owed write-protect is asserted, then the claimant acts
(R28 to R32). An operation of another kind is not this row's (log 4). -/
def flashResult (kind : FlashOp → Bool) (f : InFlightOp → State → State) (s : State) : State :=
  match s.flash.inFlight with
  | some x => if kind x.op then f x (s.onFlash fun p => { p with inFlight := none }).flashSettle else s
  | none => s

/-- A page was read with an UNCORRECTABLE sector (R28). -/
def anyUncorrectable (cs : List SectorCount) : Bool := cs.any (· == .uncorrectable)

end Sys2Proof.Machine
end

