-- ==== Sys2Proof/Machine/Store.lean ====
section
/-! DEFINITION. The Store Engine: buffers (R57), programs (R58, R59), recovery (R60 to R62), the end of a picture
(R63 to R65), failure (R66 to R70), and ABANDON. -/

namespace Sys2Proof.Machine

/-- Changes the Store Engine. -/
def State.onStore (f : StoreEngine → StoreEngine) (s : State) : State := { s with store := f s.store }

/-! ### Buffers -/

/-- A page buffer. -/
def StoreEngine.buf (e : StoreEngine) : BufId → PageBuffer
  | .a => e.bufA
  | .b => e.bufB

/-- Replaces a page buffer. -/
def StoreEngine.setBuf (i : BufId) (x : PageBuffer) (e : StoreEngine) : StoreEngine :=
  match i with
  | .a => { e with bufA := x }
  | .b => { e with bufB := x }

/-- The buffer the next byte enters: the FILLING one, else an EMPTY one, A before B (R57, log 30). -/
def StoreEngine.openBuf (e : StoreEngine) : Option BufId :=
  if e.bufA.state = .filling then some .a
  else if e.bufB.state = .filling then some .b
  else if e.bufA.state = .empty then some .a
  else if e.bufB.state = .empty then some .b
  else none

/-- A buffer becomes FULL (R57, R63). -/
def StoreEngine.fill (i : BufId) (data : List Byte) (e : StoreEngine) : StoreEngine :=
  { e.setBuf i { state := .full, data := data } with fullOrder := e.fullOrder ++ [i] }

/-- Bytes enter one buffer up to 4,096; answers those left over (R57). -/
def StoreEngine.pour (bytes : List Byte) (e : StoreEngine) : StoreEngine × List Byte :=
  match e.openBuf with
  | none => (e, [])
  | some i =>
    let room := Config.pageBytes - (e.buf i).data.length
    let data := (e.buf i).data ++ bytes.take room
    (if data.length = Config.pageBytes then e.fill i data else e.setBuf i { state := .filling, data := data },
      bytes.drop room)

/-- A body is taken: into the buffers, the count and the running check (R57). -/
def StoreEngine.take (bytes : List Byte) (e : StoreEngine) : StoreEngine :=
  let (e', rest) := e.pour bytes
  let e' := if rest.isEmpty then e' else (e'.pour rest).1
  { e' with received := e.received + bytes.length, check := pictureCheck e.check bytes }

/-- A FILLING page is padded with the erased value and FULL (R63). -/
def StoreEngine.pad (e : StoreEngine) : StoreEngine :=
  match [BufId.a, BufId.b].find? fun i => (e.buf i).state == .filling with
  | some i =>
    let d := (e.buf i).data
    e.fill i (d ++ List.replicate (Config.pageBytes - d.length) 255#8)
  | none => e

/-- A PROGRAMMING buffer becomes EMPTY (R58, R69). -/
def StoreEngine.programmed (e : StoreEngine) : StoreEngine :=
  if e.bufA.state = .programming then { e with bufA := emptyBuffer }
  else if e.bufB.state = .programming then { e with bufB := emptyBuffer }
  else e

/-- The page in the PROGRAMMING buffer. -/
def StoreEngine.programmingData (e : StoreEngine) : List Byte :=
  if e.bufA.state = .programming then e.bufA.data else e.bufB.data

/-- A FILLING or FULL buffer is cleared; a PROGRAMMING one stays while its operation is in flight (R68). -/
def clearBuffer (flying : Bool) (x : PageBuffer) : PageBuffer :=
  match x.state with
  | .programming => if flying then x else emptyBuffer
  | _ => emptyBuffer

/-! ### Binding and closing -/

/-- A PICTURE_START in CLOSED: binds to the head, or is refused (R55). -/
def State.storeStart (s : State) : State :=
  match s.store.queue with
  | [] => s.setFlag .storeFailed
  | n :: _ =>
    let t := s.onNumber n fun p r s => s.claim p { r with state := .storing }
    let t := t.onStore fun e =>
      { e with stream := .opened, received := 0, check := 0xFFFFFFFF#32, pageIndex := 0, loss := false }
    { t with timers := { t.timers with data := some 0 } }

/-- A held PICTURE_START is acted on once the stream is CLOSED (R63, R68). -/
def State.storeHeldStart (s : State) : State :=
  if s.store.heldStart && s.store.stream == .closed then
    (s.onStore fun e => { e with heldStart := false }).storeStart
  else s

/-- A waiting operation is withdrawn, a grown mark only with `marks` (R68, R70). -/
def State.storeWithdraw (marks : Bool) (s : State) : State :=
  match s.flash.store with
  | some op => if op.isMark && !marks then s else s.flashWithdraw .store
  | none => s

/-- The bound record has failed: the stream CLOSED, the buffers cleared, the waiting operation withdrawn, the one in
flight discarded, the recovery's grown marks owed (R68, R69). -/
def State.storeClose (s : State) : State :=
  let t := (s.storeWithdraw false).flashDiscard .store
  let flying := t.flash.flies .store
  let t := t.onStore fun e =>
    { e with stream := .closed, heldEnd := none, fullOrder := [], recovery := none
             bufA := clearBuffer flying e.bufA, bufB := clearBuffer flying e.bufB
             marks := e.marks ++ (match e.recovery with | some r => r.failed | none => []) }
  { t with timers := { t.timers with data := none } }

/-- The record is the bound one (R53). -/
def isBound (n : Nat) (s : State) : Bool := s.store.stream != .closed && s.store.queue.head? == some n

/-- A record fails in the Store Engine's hands and leaves the queue; the flag is set (R68). -/
def State.storeFail (n : Nat) (c : FailCause) (s : State) : State :=
  let bound := isBound n s
  let t := s.onNumber n fun p _ s => s.failPlace p c
  let t := t.onStore fun e => { e with queue := removeFirst n e.queue }
  (if bound then t.storeClose else t).setFlag .storeFailed

/-- The bound record fails (R68). -/
def State.storeFailBound (c : FailCause) (s : State) : State :=
  match s.store.queue with
  | n :: _ => s.storeFail n c
  | [] => s

/-! ### Programs -/

/-- The block position of a page index, counted from 0 (R58). -/
abbrev positionOf (page : Nat) : Nat := page / Config.blockPages

/-- The bound record's place and record. -/
def boundRecord (s : State) : Option (Nat × PicRecord) :=
  match s.store.queue with
  | n :: _ => findNumber n s.cat.places
  | [] => none

/-- Asks for the program of the page index into its block (R58). -/
def State.storeAskProgram (data : List Byte) (s : State) : State :=
  match boundRecord s with
  | some (_, r) =>
    s.flashAsk .store (.program (nth r.extent (positionOf s.store.pageIndex)) (s.store.pageIndex % Config.blockPages) data)
  | none => s

/-- The program of a FULL buffer's page, its block allocated before the first page of a position; a 49th position is
OVERSIZE, NO BLOCK is NO_SPACE (R58, R59). -/
def State.storeProgram (data : List Byte) (s : State) : State :=
  if s.store.pageIndex % Config.blockPages ≠ 0 then s.storeAskProgram data
  else if Config.maxBlocks ≤ positionOf s.store.pageIndex then s.storeFailBound .oversize
  else
    match boundRecord s with
    | some (p, _) =>
      match s.allocateFor p PicRecord.appendExtent with
      | (t, some _) => t.storeAskProgram data
      | (_, none) => s.storeFailBound .noSpace
    | none => s

/-- The Store Engine's next operation, when it has none and no recovery runs: owed grown marks first, then the FULL
buffer that filled first (R58, R62). -/
def State.storeKick (s : State) : State :=
  if !s.flash.free .store || s.store.recovery.isSome then s
  else
    match s.store.marks, s.store.fullOrder with
    | b :: t, _ => (s.onStore fun e => { e with marks := t }).flashAsk .store (.grownMark b)
    | [], i :: _ => s.storeProgram (s.store.buf i).data
    | [], [] => s

/-- After a change: the next operation is asked for, a held start is acted on, and a frame that waits for the queue is
begun if it has shrunk (R63, R68, R177). Where one step does several of these, the Store Engine's claims, an allocation
and the bind to the next record, come before the frame's, and so do their places in the write queue: the model's choice,
no rule gives an order between them (log 69). -/
def State.storeGoOn (s : State) : State := s.storeKick.storeHeldStart.shotQueueShrunk

/-! ### Recovery -/

/-- The recovery's next operation: the next copy-back, or the program again (R61). -/
def State.storeRecoverNext (r : Recovery) (s : State) : State :=
  let s := s.onStore fun e => { e with recovery := some r }
  if r.copied < r.good then
    match boundRecord s with
    | some (_, x) =>
      s.flashAsk .store (.copyBack r.source r.copied (nth x.extent (positionOf s.store.pageIndex)) r.copied)
    | none => s
  else s.storeAskProgram s.store.programmingData

/-- A FAIL at the position being programmed: replacement claim on the block that stands there, then the copy-backs from
page 0 again; NO BLOCK is NO_SPACE (R60, R62). -/
def State.storeReplace (s : State) : State :=
  match boundRecord s with
  | some (p, x) =>
    let i := positionOf s.store.pageIndex
    let b := nth x.extent i
    let r := s.store.recovery.getD
      { source := b, good := s.store.pageIndex % Config.blockPages, copied := 0, failed := [] }
    let r := { r with copied := 0, failed := r.failed ++ [b] }
    match s.replaceBlock p i b false with
    | (t, some _) => t.storeRecoverNext r
    | (t, none) => ((t.onStore fun e => { e with recovery := some r }).storeFailBound .noSpace).storeGoOn
  | none => s

/-- The result of a Store Engine program (R58, R60 to R62, R69). -/
def State.storeProgramDone (discard pass : Bool) (s : State) : State :=
  if discard then (s.onStore StoreEngine.programmed).storeGoOn
  else if pass then
    (s.onStore fun e =>
      { e.programmed with
        pageIndex := e.pageIndex + 1, recovery := none
        marks := e.marks ++ (match e.recovery with | some r => r.failed | none => []) }).storeGoOn
  else s.storeReplace

/-- The result of a Store Engine copy-back (R61, R62, R69). -/
def State.storeCopyDone (discard : Bool) (counts : List SectorCount) (pass : Bool) (s : State) : State :=
  if discard then (s.onStore StoreEngine.programmed).storeGoOn
  else
    let s := if anyUncorrectable counts then s.onStore fun e => { e with loss := true } else s
    match s.store.recovery with
    | some r => if pass then s.storeRecoverNext { r with copied := r.copied + 1 } else s.storeReplace
    | none => s

/-! ### The end of a picture -/

/-- The held end agrees with what was received (R64). -/
def endGood (x : EndFields) (e : StoreEngine) : Bool :=
  1 ≤ e.received && e.received ≤ Config.maxPicture && e.received == x.length && checkValue e.check == x.check &&
    1 ≤ x.width && x.width ≤ 16383 && 1 ≤ x.height && x.height ≤ 16383 && !e.loss

/-- The record becomes STORED, its remaining reservation released (R8, R64). -/
def State.storeStored (x : EndFields) (n : Nat) (s : State) : State :=
  let t := s.onNumber n fun p r s =>
    (s.onMap (·.release r.remaining)).claim p
      { r with state := .stored, remaining := 0
               picture := some { length := x.length, check := x.check, width := x.width, height := x.height } }
  let t := t.onStore fun e => { e with queue := e.queue.tail, stream := .closed, heldEnd := none }
  t.setFlag .pictureStored

/-- END TAKEN: both buffers EMPTY in ENDING (R63 to R65). -/
def State.storeEnd (s : State) : State :=
  match s.store.heldEnd, s.store.queue with
  | some x, n :: _ => (if endGood x s.store then s.storeStored x n else s.storeFailBound .dataCheck).storeGoOn
  | _, _ => s

/-- The end may be taken (R63). -/
def endDue (e : StoreEngine) : Bool := e.stream == .ending && e.bufA.state == .empty && e.bufB.state == .empty

/-- END TAKEN (R64). -/
def execEndTaken (m : Moment) (s : State) : Host.Outcome State Fault Refusal :=
  event m (fun s => if endDue s.store then s.storeEnd else s) s

/-- DATA TIMEOUT: an expiry counts only once the data timer, which a body restarts and a low ready line pauses, stands at
2 s (R56). -/
def execDataTimeout (m : Moment) (s : State) : Host.Outcome State Fault Refusal :=
  event m (fun s =>
    if s.store.stream = .opened ∧ reached Config.dataLimit s.timers.data then
      (s.storeFailBound .dataTimeout).storeGoOn
    else s) s

/-- POWER_LOW at the Store Engine: every queued record fails with POWER, nothing more is asked for (R70). -/
def State.storePowerLow (s : State) : State :=
  let t := s.store.queue.foldl (fun s n => s.onNumber n fun p _ s => s.failPlace p .power) s
  let t := (t.storeClose.storeWithdraw true).onStore fun e => { e with queue := [], heldStart := false, marks := [] }
  t.setFlagIf (!s.store.queue.isEmpty) .storeFailed

/-- ABANDON (R67). -/
def execAbandon (m : Moment) (n : Nat) (s : State) : Host.Outcome State Fault Refusal :=
  request 9 m (fun s =>
    if s.map.mode = .preparing then (s, refuse .busy)
    else if !numberOk n then (s, refuse .badField)
    else
      match findNumber n s.cat.places with
      | none => (s, refuse .noSuchRecord)
      | some (_, r) =>
        if r.state ≠ .awaiting ∧ r.state ≠ .storing then (s, refuse .wrongState)
        else ((s.storeFail n .aborted).storeGoOn, ok)) s

end Sys2Proof.Machine
end

