-- ==== Sys2Proof/Machine/Read.lean ====
section
/-! DEFINITION. The Read Chain: descriptors (R72, R73, R75 to R79), the Out Lane items (R74), CHAIN CANCEL (R80), and
refresh (R83 to R87). -/

namespace Sys2Proof.Machine

/-- Changes the Read Chain. -/
def State.onChain (f : ReadChain → ReadChain) (s : State) : State := { s with chain := f s.chain }

/-- Changes the head descriptor. -/
def State.onHead (f : Descriptor → Descriptor) (s : State) : State :=
  s.onChain fun c => { c with chain := match c.chain with | d :: t => f d :: t | [] => [] }

/-! ### Running a descriptor -/

/-- The head asks for the page of its next byte, looked up in the extent list as it stands (R75). A read that a CHAIN
CANCEL left in flight, its result to be discarded, does not hold the ask back: R75 has one page read asked for at a time
and does not say whether such a read counts, and the model takes it as no longer the chain's (log 62). -/
def State.chainAskPage (s : State) : State :=
  match s.chain.chain with
  | d :: _ =>
    match findNumber d.number s.cat.places with
    | some (_, r) =>
      let page := (d.offset + d.position) / Config.pageBytes
      (s.onChain fun c => { c with run := some .reading }).flashAsk .readChain
        (.pageRead (nth r.extent (positionOf page)) (page % Config.blockPages))
    | none => s
  | [] => s

/-- The bytes of the page in the buffer that the head takes: from, and up to but not including (R75). -/
def wantedRange (d : Descriptor) : Nat × Nat :=
  let o := (d.offset + d.position) % Config.pageBytes
  (o, min Config.pageBytes (o + (d.length - d.position)))

/-- Sector `i` holds a byte of the range. -/
def sectorTaken (range : Nat × Nat) (i : Nat) : Bool :=
  decide (i * Config.sectorBytes < range.2) && decide (range.1 < (i + 1) * Config.sectorBytes)

/-- The counts of the sectors taken (R76, R77). -/
def countsTaken (range : Nat × Nat) (cs : List SectorCount) : List SectorCount :=
  (cs.zipIdx.filter fun e => sectorTaken range e.2).map (·.1)

/-- A count reported to a record (R76, R77). -/
def PicRecord.report (r : PicRecord) : SectorCount → PicRecord
  | .corrected n => { r with peak := max r.peak n, weak := r.weak || decide (6 ≤ n) }
  | .uncorrectable => { r with unreadable := true }

/-- The counts of the sectors taken reach the record: peak and marks, the place dirty when one changed, WEAK_FOUND when
the weak mark was set (R76, R77). -/
def State.chainReport (number : Nat) (cs : List SectorCount) (s : State) : State :=
  s.onNumber number fun p r s =>
    let r' := cs.foldl PicRecord.report r
    if r' = r then s else (s.claim p r').setFlagIf (r'.weak && !r.weak) .weakFound

/-- A page read for the head descriptor gives its result (R75 to R77). -/
def State.chainPageRead (x : PageRead) (s : State) : State :=
  match s.chain.chain with
  | d :: _ =>
    let taken := countsTaken (wantedRange d) x.counts
    let t := (s.chainReport d.number taken).onHead fun d => { d with damage := d.damage || anyUncorrectable taken }
    t.onChain fun c => { c with buffer := some { data := x.data, counts := x.counts }, run := some .sending }
  | [] => s

/-! ### Out Lane items -/

/-- The bytes of the next DATA item: to a sector boundary or the descriptor's last byte (R74, R75). -/
def nextData (d : Descriptor) (buffer : Option ReadBuffer) : List Byte :=
  let o := (d.offset + d.position) % Config.pageBytes
  let n := min (Config.sectorBytes - o % Config.sectorBytes) (d.length - d.position)
  match buffer with
  | some b => (b.data.drop o).take n
  | none => []

/-- The outcome of a descriptor that has ended (R78). -/
def Descriptor.outcome (d : Descriptor) : EndOutcome := if d.damage then .damagedData else .done

/-- The item owed next: the CANCELLED marker first, else the head's (R74, R75, R78). -/
def nextItem (c : ReadChain) : Option OutItem :=
  match c.owed, c.chain, c.run with
  | some (n, notify), _, _ => some { number := n, kind := .finish .cancelled, live := false, notify := notify }
  | none, d :: _, some .waiting =>
    some { number := d.number, kind := .start d.offset d.length, live := true, notify := d.notify }
  | none, d :: _, some .sending =>
    some { number := d.number, kind := .data (nextData d c.buffer), live := true, notify := d.notify }
  | none, d :: _, some .ending =>
    some { number := d.number, kind := .finish d.outcome, live := true, notify := d.notify }
  | _, _, _ => none

/-- OUT LANE ITEM BEGIN: only while the Out Lane ready line is high (R74), and not after POWER_LOW (R81). The run state
stays WAITING while DESCRIPTOR_START goes out: R71's table has no state for it, and the model takes NEEDS_PAGE at its
end (log 45). -/
def execOutLaneItemBegin (m : Moment) (s : State) : Host.Outcome State Fault Refusal :=
  event m (fun s =>
    if s.lines.outReady && s.chain.item.isNone && !s.supply.powerLow then
      match nextItem s.chain with
      | some x => s.onChain fun c => { c with item := some x, owed := none }
      | none => s
    else s) s

/-- The item being sent is done. -/
def State.itemGone (s : State) : State := s.onChain fun c => { c with item := none }

/-- DESCRIPTOR START SENT (R75). -/
def execDescriptorStartSent (m : Moment) (s : State) : Host.Outcome State Fault Refusal :=
  event m (fun s =>
    match s.chain.item with
    | some { kind := .start _ _, live, .. } =>
      if live then (s.itemGone.onChain fun c => { c with run := some .needsPage }).chainAskPage else s.itemGone
    | _ => s) s

/-- The head after `n` bytes have been sent: more from the buffer, another page, or ENDING (R75). -/
def State.chainSent (n : Nat) (s : State) : State :=
  let t := s.onHead fun d => { d with position := d.position + n }
  match t.chain.chain with
  | d :: _ =>
    if d.length ≤ d.position then t.onChain fun c => { c with buffer := none, run := some .ending }
    else if (d.offset + d.position) % Config.pageBytes = 0 then
      (t.onChain fun c => { c with buffer := none, run := some .needsPage }).chainAskPage
    else t
  | [] => t

/-- DATA ITEM SENT (R75). -/
def execDataItemSent (m : Moment) (s : State) : Host.Outcome State Fault Refusal :=
  event m (fun s =>
    match s.chain.item with
    | some { kind := .data bytes, live, .. } => if live then s.itemGone.chainSent bytes.length else s.itemGone
    | _ => s) s

/-- The head leaves the chain and gives its hold back; the next one is WAITING (R78). -/
def State.chainPop (s : State) : State :=
  match s.chain.chain with
  | d :: t =>
    (s.dropHold d.number).onChain fun c =>
      { c with chain := t, run := if t.isEmpty then none else some .waiting, buffer := none }
  | [] => s

/-- DESCRIPTOR END SENT (R78, R80). -/
def execDescriptorEndSent (m : Moment) (s : State) : Host.Outcome State Fault Refusal :=
  event m (fun s =>
    match s.chain.item with
    | some { kind := .finish o, live, notify, .. } =>
      if o = .cancelled then s
      else (if live then s.itemGone.chainPop else s.itemGone).setFlagIf notify .readNotice
    | _ => s) s

/-- CANCELLED END SENT (R80). -/
def execCancelledEndSent (m : Moment) (s : State) : Host.Outcome State Fault Refusal :=
  event m (fun s =>
    match s.chain.item with
    | some { kind := .finish .cancelled, notify, .. } => s.itemGone.setFlagIf notify .readNotice
    | _ => s) s

/-! ### Requests on the chain -/

/-- CHAIN ADD's refusal, the first that applies, or the place and record (R72). -/
def chainAddCheck (n offset length : Nat) (s : State) : Except Code (Nat × PicRecord × PictureFields) :=
  if s.map.mode = .preparing then .error .busy
  else if !numberOk n || Config.maxPicture ≤ offset || Config.maxPicture < length then .error .badField
  else if Config.maxChain ≤ s.chain.chain.length then .error .chainFull
  else
    match findNumber n s.cat.places with
    | none => .error .noSuchRecord
    | some (p, r) =>
      match r.state, r.picture with
      | .stored, some x =>
        if x.length ≤ offset || (length != 0 && x.length < offset + length) then .error .badField else .ok (p, r, x)
      | _, _ => .error .wrongState

/-- A descriptor joins the tail; a hold is taken (R73). -/
def State.chainAppend (p n offset length : Nat) (notify : Bool) (s : State) : State :=
  (s.addHold p).onChain fun c =>
    { c with
      chain := c.chain ++ [{ number := n, offset := offset, length := length, notify := notify, position := 0
                             damage := false }]
      run := if c.chain.isEmpty then some .waiting else c.run }

/-- CHAIN ADD (R72, R73). -/
def execChainAdd (m : Moment) (n offset length : Nat) (notify : Bool) (s : State) :
    Host.Outcome State Fault Refusal :=
  request 10 m (fun s =>
    match chainAddCheck n offset length s with
    | .error c => (s, refuse c)
    | .ok (p, _, x) =>
      let t := s.chainAppend p n offset (if length = 0 then x.length - offset else length) notify
      (t, okBody (.chainLength t.chain.chain.length))) s

/-- The CANCELLED marker owed for a head whose start has been sent or is going out and whose end has not begun (R80,
log 21). -/
def cancelOwed (c : ReadChain) : Option (Nat × Bool) :=
  match c.chain, c.run, c.item with
  | d :: _, some .waiting, some { live := true, .. } => some (d.number, d.notify)
  | _, some .waiting, _ => c.owed
  | _, _, some { kind := .finish _, .. } => c.owed
  | d :: _, some _, _ => some (d.number, d.notify)
  | _, _, _ => c.owed

/-- Every descriptor leaves, its hold given back; the read is withdrawn or its result discarded (R80, R81). -/
def State.chainEmpty (owed : Option (Nat × Bool)) (s : State) : State :=
  let t := s.chain.chain.foldl (fun s d => s.dropHold d.number) s
  let t := t.onChain fun c =>
    { c with chain := [], run := none, buffer := none, owed := owed
             item := c.item.map fun x => { x with live := false } }
  (t.flashWithdraw .readChain).flashDiscard .readChain

/-- CHAIN CANCEL (R80). -/
def execChainCancel (m : Moment) (s : State) : Host.Outcome State Fault Refusal :=
  request 11 m (fun s => (s.chainEmpty (cancelOwed s.chain), ok)) s

/-! ### Refresh -/

/-- The page index the refresh is copying (R85). -/
def Refresh.page' (r : Refresh) : Nat := (r.position - 1) * Config.blockPages + r.page

/-- The refresh's record. -/
def refreshRecord (s : State) : Option (Nat × PicRecord) :=
  match s.chain.refresh with
  | some r => findNumber r.number s.cat.places
  | none => none

/-- The refresh is over: the running one is absent, the waiting operation withdrawn, the one in flight discarded, the
grown marks of a recovery owed. -/
def State.refreshOver (s : State) : State :=
  let t := s.onChain fun c =>
    { c with refresh := none
             refreshMarks := c.refreshMarks ++ (match c.refresh with
               | some { recovery := some r, .. } => r.failed
               | _ => []) }
  (t.flashWithdraw .refresh).flashDiscard .refresh

/-- Abandonment: the refresh extent DIRTY, the reservation and the hold given back, the place dirty (R87). It is marked
also where nothing reserved was left and nothing that Record Memory keeps changes: R87 says so of every abandonment, R4
says that such a change alone does not mark, and the model follows R87 (the model's choice, log 73). -/
def State.refreshDrop (unreadable : Bool) (s : State) : State :=
  match refreshRecord s with
  | some (p, r) =>
    ((s.onMap fun m => (m.release r.remaining).returnAll .ready (r.refreshExtent.getD [])).claim p
      { r with refreshExtent := none, remaining := 0, holds := r.holds - 1
               unreadable := r.unreadable || unreadable }).refreshOver
  | none => s.refreshOver

/-- Owed grown marks, when the refresh has no operation (R85 to R87). -/
def State.refreshMarkNext (s : State) : State :=
  match s.flash.free .refresh, s.chain.refreshMarks with
  | true, b :: t => (s.onChain fun c => { c with refreshMarks := t }).flashAsk .refresh (.grownMark b)
  | _, _ => s

/-- The refresh is abandoned: marks asked for, MAINTENANCE_DONE (R87). -/
def State.refreshAbandon (unreadable : Bool) (s : State) : State :=
  ((s.refreshDrop unreadable).refreshMarkNext).setFlag .maintenanceDone

/-- The read of the next page, its block allocated before the first page of a position; NO BLOCK abandons (R85,
log 22). -/
def State.refreshRead (s : State) : State :=
  match s.chain.refresh, refreshRecord s with
  | some r, some (p, x) =>
    let op : FlashOp := .pageRead (nth x.extent (r.position - 1)) r.page
    if r.page = 0 then
      match s.allocateFor p PicRecord.appendRefresh with
      | (t, some _) => t.flashAsk .refresh op
      | (_, none) => s.refreshAbandon false
    else s.flashAsk .refresh op
  | _, _ => s

/-- The refresh's next operation, when it has none: owed marks first, then the next page (R85). -/
def State.refreshKick (s : State) : State :=
  if s.flash.free .refresh then
    match s.chain.refreshMarks with
    | _ :: _ => s.refreshMarkNext
    | [] => s.refreshRead
  else s

/-- Changes the running refresh. -/
def State.onRefresh (f : Refresh → Refresh) (s : State) : State :=
  s.onChain fun c => { c with refresh := c.refresh.map f }

/-- The new block at the position being copied. -/
def refreshTarget (r : Refresh) (x : PicRecord) : Nat := nth (x.refreshExtent.getD []) (r.position - 1)

/-- Asks for the program of the refresh buffer (R85). -/
def State.refreshAskProgram (s : State) : State :=
  match s.chain.refresh, refreshRecord s with
  | some r, some (_, x) => s.flashAsk .refresh (.program (refreshTarget r x) r.page r.buffer)
  | _, _ => s

/-- A page read for the refresh gives its result (R85, R87). -/
def State.refreshPageRead (x : PageRead) (s : State) : State :=
  if anyUncorrectable x.counts then s.refreshAbandon true
  else (s.onRefresh fun r => { r with buffer := x.data }).refreshAskProgram

/-- Completion: the swap (R86). -/
def State.refreshComplete (s : State) : State :=
  match refreshRecord s with
  | some (p, r) =>
    let t := (s.onMap fun m => (m.release r.remaining).returnAll (.begins p) r.extent).claim p
      { r with extent := r.refreshExtent.getD [], refreshExtent := none, remaining := 0, peak := 0, weak := false
               holds := r.holds - 1 }
    (t.refreshOver.refreshMarkNext).setFlag .maintenanceDone
  | none => s

/-- A recovery has ended: its grown marks are owed (R85). -/
def State.refreshRecovered (s : State) : State :=
  s.onChain fun c =>
    { c with refreshMarks := c.refreshMarks ++ (match c.refresh with
               | some { recovery := some r, .. } => r.failed
               | _ => [])
             refresh := c.refresh.map fun r => { r with recovery := none } }

/-- The page after this one. -/
def Refresh.next (r : Refresh) : Refresh :=
  if r.page + 1 = Config.blockPages then { r with position := r.position + 1, page := 0 }
  else { r with page := r.page + 1 }

/-- The recovery's next operation (R61, R85). -/
def State.refreshRecoverNext (v : Recovery) (s : State) : State :=
  let s := s.onRefresh fun r => { r with recovery := some v }
  if v.copied < v.good then
    match s.chain.refresh, refreshRecord s with
    | some r, some (_, x) => s.flashAsk .refresh (.copyBack v.source v.copied (refreshTarget r x) v.copied)
    | _, _ => s
  else s.refreshAskProgram

/-- A FAIL in the refresh: replacement claim in the refresh extent; NO BLOCK abandons (R85, R87). -/
def State.refreshReplace (s : State) : State :=
  match s.chain.refresh, refreshRecord s with
  | some r, some (p, x) =>
    let b := refreshTarget r x
    let v := r.recovery.getD { source := b, good := r.page, copied := 0, failed := [] }
    let v := { v with copied := 0, failed := v.failed ++ [b] }
    match s.replaceBlock p (r.position - 1) b true with
    | (t, some _) => t.refreshRecoverNext v
    | (t, none) => (t.onRefresh fun r => { r with recovery := some v }).refreshAbandon false
  | _, _ => s

/-- The result of a refresh program (R85, R86). -/
def State.refreshProgramDone (pass : Bool) (s : State) : State :=
  match s.chain.refresh with
  | some r =>
    if pass then
      let s := s.refreshRecovered
      if r.page' + 1 < r.pages then (s.onRefresh Refresh.next).refreshKick else s.refreshComplete
    else s.refreshReplace
  | none => s

/-- The result of a refresh copy-back (R85, R87). -/
def State.refreshCopyDone (counts : List SectorCount) (pass : Bool) (s : State) : State :=
  match s.chain.refresh with
  | some { recovery := some v, .. } =>
    if anyUncorrectable counts then s.refreshAbandon false
    else if pass then s.refreshRecoverNext { v with copied := v.copied + 1 }
    else s.refreshReplace
  | _ => s

/-- REFRESH's refusal, the first that applies, or the place and record (R83). -/
def refreshCheck (n : Nat) (s : State) : Except Code (Nat × PicRecord) :=
  if s.map.mode = .preparing then .error .busy
  else if !numberOk n then .error .badField
  else
    match findNumber n s.cat.places with
    | none => .error .noSuchRecord
    | some (p, r) =>
      if r.state ≠ .stored then .error .wrongState
      else if s.chain.refresh.isSome || !s.chain.refreshMarks.isEmpty || s.flash.marking .refresh then .error .busy
      else if s.map.mode = .readOnly then .error .storeReadOnly
      else if s.map.mode = .unprepared then .error .storeUnprepared
      else if !s.map.canReserve r.extent.length then .error .noSpace
      else .ok (p, r)

/-- The pages of a picture (R82). -/
def pagesOf (length : Nat) : Nat := (length + 4095) / 4096

/-- A refresh starts: reservation, hold, empty refresh extent, the first allocation and read (R84, R85). -/
def State.refreshStart (p : Nat) (r : PicRecord) (s : State) : State :=
  let n := r.extent.length
  let t := (s.onMap (·.reserve n)).claim p { r with remaining := n, holds := r.holds + 1, refreshExtent := some [] }
  let t := t.onChain fun c =>
    { c with refresh := some { number := r.number.getD 0, position := 1, page := 0
                               pages := pagesOf (match r.picture with | some x => x.length | none => 0)
                               buffer := [], recovery := none } }
  t.refreshKick

/-- REFRESH (R83, R84). -/
def execRefresh (m : Moment) (n : Nat) (s : State) : Host.Outcome State Fault Refusal :=
  request 12 m (fun s =>
    match refreshCheck n s with
    | .error c => (s, refuse c)
    | .ok (p, r) => (s.refreshStart p r, ok)) s

/-- POWER_LOW at the Read Chain (R81, R87). -/
def State.chainPowerLow (s : State) : State :=
  let t := s.chainEmpty none
  let t := t.onChain fun c => { c with item := c.item.map fun x => { x with notify := false } }
  let t := if t.chain.refresh.isSome then t.refreshDrop false else t
  (t.flashWithdraw .refresh).onChain fun c => { c with refreshMarks := [] }

end Sys2Proof.Machine
end

