-- ==== Sys2Proof/Machine/Maintain.lean ====
section
/-! DEFINITION. The Block Map's own work: PREPARE STORE (R48 to R50) and background work (R41 to R43). -/

namespace Sys2Proof.Machine

/-- Sets where a prepare stands. -/
def State.preparePhase (x : Option PreparePhase) (s : State) : State := s.onMap fun m => { m with prepare := x }

/-! ### PREPARE STORE -/

/-- PREPARE STORE is accepted (R48). -/
def canPrepare (s : State) : Bool :=
  s.map.mode != .preparing && s.shot.state == .idle && s.store.queue.isEmpty && s.chain.chain.isEmpty &&
    s.chain.refresh.isNone && s.store.marks.isEmpty && s.chain.refreshMarks.isEmpty && !s.flash.marking .store &&
    !s.flash.marking .refresh

/-- Background work drops its block; an operation of it in flight has its result discarded (R41). That a grown mark of
background work which still waits is withdrawn with it, and never programmed, is the model's choice (log 55). -/
def State.backgroundDrop (s : State) : State :=
  ((s.onMap fun m => { m with inHand := none }).flashWithdraw .background).flashDiscard .background

/-- Every place of the catalogue, in ascending order. -/
def allPlaces : List Nat := List.range Config.placeCount

/-- An accepted PREPARE STORE: PREPARING, STORE IDENTITY NONE, every place FREE and dirty (R48, R49); the block total
is 0 until the scan begins (R27, log 11; the places already FREE, log 34). -/
def State.prepareBegin (s : State) : State :=
  let s := s.backgroundDrop.onMap fun m =>
    { m with mode := .preparing, identity := none, prepare := some (.identityNone false) }
  let s := (s.markDirty .identity).markAll (allPlaces.map .place)
  let s := s.freePlaces (s.cat.places.map (·.1))
  (s.onMap fun m => { m with total := 0, blocks := [], reserved := 0 }).flashFollowMode

/-- PREPARE STORE (R48, R49). -/
def execPrepareStore (m : Moment) (s : State) : Host.Outcome State Fault Refusal :=
  request 8 m (fun s => if canPrepare s then (s.prepareBegin, ok) else (s, refuse .busy)) s

/-- The prepare asks for an operation (R49, R50). -/
def State.prepareAsk (x : PreparePhase) (op : FlashOp) (s : State) : State :=
  (s.preparePhase (some x)).flashAsk .prepare op

/-- PREPARE SCAN START (R49). The blocks not yet scanned are UNCHECKED until their raw read, and counted so: R49 gives DIRTY
to a scanned one only, and the model takes the state start-up gives an unknown block (log 43). The block total is FLASH
BLOCKS as it stands now: a WRITE SETTINGS taken since PREPARE STORE was accepted counts in this prepare, the model's
choice, since R49 takes the value here and R27 and R191 have a change wait for the next PREPARE STORE (log 67). -/
def execPrepareScanStart (m : Moment) (s : State) : Host.Outcome State Fault Refusal :=
  event m (fun s =>
    if s.map.prepare = some .scanDue then
      ((s.onMap fun m =>
          { m with total := s.settings.flashBlocks, blocks := [], badList := [], allocCursor := 0, eraseCursor := 0
                   reserved := 0 }).markDirty .badList).prepareAsk (.scanning 0) (.rawRead 0 0)
    else s) s

/-- A prepare has ended with the mode UNPREPARED (R50). -/
def State.prepareUnprepared (s : State) : State :=
  (s.onMap fun m => { m with mode := .unprepared, prepare := none }).flashFollowMode

/-- TOO_MANY_BAD: no block known, the list empty; MAINTENANCE_DONE unless POWER_LOW has ended the prepare (R50). -/
def State.prepareTooMany (s : State) : State :=
  let stopping := s.map.prepare == some .stopping
  let s := (s.onMap fun m => { m with total := 0, blocks := [], badList := [] }).markDirty .badList
  s.prepareUnprepared.setFlagIf (!stopping) .maintenanceDone

/-- A block becomes BAD and joins the list (R49, R50). -/
def State.prepareBad (b : Nat) (k : BadKind) (s : State) : State :=
  (s.onMap fun m => { m.setState b .bad with badList := Table.put b k m.badList }).markDirty .badList

/-- The lowest DIRTY block at or after `b`. -/
def dirtyFrom (b : Nat) : List (Nat × BlockState) → Option Nat
  | [] => none
  | (j, x) :: t => if b ≤ j ∧ x.isDirty then some j else dirtyFrom b t

/-- The erase pass goes on from block `b`; when it is done STORE IDENTITY takes the block total (R50). -/
def State.prepareErase (b : Nat) (s : State) : State :=
  match dirtyFrom b s.map.blocks with
  | some j => s.prepareAsk (.erasing j) (.erase j)
  | none =>
    (s.onMap fun m => { m with identity := some m.total, prepare := some (.identityTotal false) }).markDirty .identity

/-- The scan goes on after block `b`, or the erase pass begins (R49, R50). -/
def State.prepareScanNext (b : Nat) (s : State) : State :=
  if b + 1 < s.map.total then s.prepareAsk (.scanning (b + 1)) (.rawRead (b + 1) 0)
  else (s.markDirty .badList).prepareErase 0

/-- The kind of a bad mark (R27, R49). -/
def markKind : MarkRead → Option BadKind
  | .clear => none
  | .factory => some .factory
  | .grown => some .grown

/-- What the scan makes of a block: BAD with its kind, or DIRTY; `none` is TOO_MANY_BAD (R49). -/
def State.prepareScanned (b : Nat) (x : PageRead) (s : State) : Option State :=
  match markKind x.mark with
  | none => some (s.onMap (·.setState b (.dirty .ready)))
  | some k => if s.map.badList.length < Config.maxBad then some (s.prepareBad b k) else none

/-- What the erase pass makes of a block: ERASED, or grown bad; `none` is TOO_MANY_BAD (R50). -/
def State.prepareErased (b : Nat) (pass : Bool) (s : State) : Option State :=
  if pass then some (s.onMap (·.setState b .erased))
  else if s.map.badList.length < Config.maxBad then some (s.prepareBad b .grown)
  else none

/-- A prepare that POWER_LOW has ended is over once its operation in flight has given its result (R50). -/
def State.prepareStopped (s : State) : State := if s.map.prepare = some .stopping then s.preparePhase none else s

/-- A raw read for the prepare gives its result (R49, R50). -/
def State.prepareRead (b : Nat) (x : PageRead) (s : State) : State :=
  match s.prepareScanned b x with
  | none => s.prepareTooMany
  | some t => if s.map.prepare = some .stopping then t.prepareStopped else t.prepareScanNext b

/-- An erase for the prepare gives its result (R50). A FAIL that finds the list full ends the prepare at once, with no
grown-mark program: R50 names the mark before the full list, and the model takes the end first (log 44). -/
def State.prepareEraseDone (b : Nat) (pass : Bool) (s : State) : State :=
  match s.prepareErased b pass with
  | none => s.prepareTooMany
  | some t =>
    if s.map.prepare = some .stopping then t.prepareStopped
    else if pass then t.prepareErase (b + 1)
    else t.prepareAsk (.marking b) (.grownMark b)

/-- A grown mark of the prepare is done (R50). -/
def State.prepareMarked (b : Nat) (s : State) : State :=
  if s.map.prepare = some .stopping then s.prepareStopped else s.prepareErase (b + 1)

/-- PREPARE STORE END (R50). -/
def execPrepareStoreEnd (m : Moment) (s : State) : Host.Outcome State Fault Refusal :=
  event m (fun s =>
    if s.map.prepare = some .endDue then
      ((s.onMap fun m => { m with mode := .writable, prepare := none }).flashFollowMode).setFlag .maintenanceDone
    else s) s

/-- POWER_LOW ends a prepare: mode UNPREPARED, STORE IDENTITY stays or goes back to NONE, so the block total is 0 and no
block is known; an operation in flight still gives its result (R27, R50, log 13). -/
def State.preparePowerLow (s : State) : State :=
  if s.map.mode = .preparing then
    let flying := s.flash.flies .prepare
    let s := s.onMap fun m => { m with mode := .unprepared, total := 0, blocks := []
                                       prepare := if flying then some .stopping else none }
    let s := s.flashWithdraw .prepare
    if s.map.identity.isSome then (s.onMap fun m => { m with identity := none }).markDirty .identity else s
  else s

/-! ### Background work -/

/-- Background work may ask for an operation (R41, R199, R200). -/
def backgroundRuns (s : State) : Bool :=
  s.supply.shutdown == .running && !s.supply.powerLow && !s.supply.shutDownTaken &&
    (s.map.mode == .writable || s.map.mode == .readOnly)

/-- Sets the block in hand and asks for its operation (R41). -/
def State.backgroundAsk (b : Nat) (x : BackPhase) (op : FlashOp) (s : State) : State :=
  (s.onMap fun m => { m with inHand := some (b, x) }).flashAsk .background op

/-- The block in hand is done. -/
def State.backgroundDone (s : State) : State := s.onMap fun m => { m with inHand := none }

/-- BACKGROUND TAKE BLOCK (R41). -/
def execBackgroundTakeBlock (m : Moment) (s : State) : Host.Outcome State Fault Refusal :=
  event m (fun s =>
    if backgroundRuns s && s.map.inHand.isNone && s.flash.last.isNone && !s.flash.flies .background then
      match s.map.nextTakeable with
      | some b =>
        let t := s.onMap fun m => { m with eraseCursor := m.after b }
        if (s.map.stateOf b).isDirty then t.backgroundAsk b .erasing (.erase b)
        else t.backgroundAsk b .read0 (.rawRead b 0)
      | none => s
    else s) s

/-- The next operation on the block in hand, unless none may be asked for any more (R41). -/
def State.backgroundNext (b : Nat) (x : BackPhase) (op : FlashOp) (s : State) : State :=
  if backgroundRuns s then s.backgroundAsk b x op else s.backgroundDone

/-- A background erase gives its result (R42, R45). -/
def State.backgroundErased (b : Nat) (pass : Bool) (s : State) : State :=
  let s := s.backgroundDone
  if pass then s.onMap (·.setState b .erased)
  else
    let s := s.makeBad b .grown
    if backgroundRuns s then s.flashAsk .background (.grownMark b) else s

/-- Every data and spare byte reads 255 (R43). -/
def isBlank (x : PageRead) : Bool := x.data.all (· == 255#8) && x.spare.all (· == 255#8)

/-- A blank-check read gives its result (R43). -/
def State.backgroundRead (x : PageRead) (s : State) : State :=
  match s.map.inHand with
  | some (b, .read0) =>
    match markKind x.mark with
    | some k => (s.backgroundDone).makeBad b k
    | none => s.backgroundNext b (.read63 (isBlank x)) (.rawRead b 63)
  | some (b, .read63 blank0) =>
    if blank0 && isBlank x then (s.backgroundDone).onMap (·.setState b .erased)
    else s.backgroundNext b .erasing (.erase b)
  | _ => s

/-! ### Results of operations -/

/-- PAGE READ DONE (R28): to the Read Chain, the refresh, the prepare or the blank check. -/
def pageReadResult (r : PageRead) (x : InFlightOp) (s : State) : State :=
  match x.claimant, x.op with
  | .readChain, _ => if x.discard then s else s.chainPageRead r
  | .refresh, _ => if x.discard then s.refreshKick else s.refreshPageRead r
  | .prepare, .rawRead b _ => if x.discard then s else s.prepareRead b r
  | .background, _ => if x.discard then s else s.backgroundRead r
  | _, _ => s

/-- A page read or raw read. -/
def FlashOp.isRead : FlashOp → Bool
  | .pageRead _ _ | .rawRead _ _ => true
  | _ => false

/-- A page program, but for the grown mark. -/
def FlashOp.isProgram : FlashOp → Bool
  | .program _ _ _ => true
  | _ => false

/-- A copy-back. -/
def FlashOp.isCopy : FlashOp → Bool
  | .copyBack _ _ _ _ => true
  | _ => false

/-- A block erase. -/
def FlashOp.isErase : FlashOp → Bool
  | .erase _ => true
  | _ => false

/-- PAGE READ DONE (R28). -/
def execPageReadDone (m : Moment) (r : PageRead) (s : State) : Host.Outcome State Fault Refusal :=
  event m (flashResult FlashOp.isRead (pageReadResult r)) s

/-- PAGE PROGRAM DONE (R29). -/
def execPageProgramDone (m : Moment) (pass : Bool) (s : State) : Host.Outcome State Fault Refusal :=
  event m (flashResult FlashOp.isProgram fun x s =>
    match x.claimant with
    | .store => s.storeProgramDone x.discard pass
    | .refresh => if x.discard then s.refreshKick else s.refreshProgramDone pass
    | _ => s) s

/-- COPY BACK DONE: the port has written the corrected sectors and fresh codes back into the page register; counts and
result go to the claimant (R30). -/
def execCopyBackDone (m : Moment) (source : CopyRead) (pass : Bool) (s : State) : Host.Outcome State Fault Refusal :=
  event m (flashResult FlashOp.isCopy fun x s =>
    let s := s.flashRegister source.data
    match x.claimant with
    | .store => s.storeCopyDone x.discard source.counts pass
    | .refresh => if x.discard then s.refreshKick else s.refreshCopyDone source.counts pass
    | _ => s) s

/-- The block an erase or grown mark acts on. -/
def FlashOp.block : FlashOp → Nat
  | .pageRead b _ | .rawRead b _ | .program b _ _ | .erase b | .grownMark b => b
  | .copyBack _ _ b _ => b

/-- BLOCK ERASE DONE (R31). -/
def execBlockEraseDone (m : Moment) (pass : Bool) (s : State) : Host.Outcome State Fault Refusal :=
  event m (flashResult FlashOp.isErase fun x s =>
    match x.claimant with
    | .background => if x.discard then s else s.backgroundErased x.op.block pass
    | .prepare => if x.discard then s else s.prepareEraseDone x.op.block pass
    | _ => s) s

/-- GROWN MARK PROGRAM DONE: the result is not used; the claimant goes on (R29, R45). -/
def execGrownMarkProgramDone (m : Moment) (_pass : Bool) (s : State) : Host.Outcome State Fault Refusal :=
  event m (flashResult FlashOp.isMark fun x s =>
    match x.claimant with
    | .store => s.storeGoOn
    | .refresh => s.refreshKick
    | .prepare => s.prepareMarked x.op.block
    | _ => s) s

end Sys2Proof.Machine
end

