-- ==== Sys2Proof/Machine/Catalogue.lean ====
section
/-! DEFINITION. The Catalogue's requests (R13 to R21). -/

namespace Sys2Proof.Machine

/-! ### Finding records -/

/-- The extent parts of a snapshot, 24 blocks each, from part number `k` on (R14). -/
def extentParts (k : Nat) (blocks : List Nat) : List (Nat × List Nat) :=
  match blocks with
  | [] => []
  | _ =>
    if blocks.length ≤ 24 then [(k, blocks)] else [(k, blocks.take 24), (k + 1, blocks.drop 24)]

/-- The number of parts of a snapshot (R14). -/
def partCount (extent : List Nat) : Nat := 1 + (extent.length + 23) / 24

/-- The header part of a record (R14). -/
def headerPart (p : Nat) (r : PicRecord) : HeaderPart :=
  { place := p, parts := partCount r.extent, record := { r with extent := [], refreshExtent := none }
    extentLength := r.extent.length, refreshRunning := r.refreshExtent.isSome }

/-- A lookup: the snapshot replaces any earlier one, the header part is the answer (R14). -/
def State.lookUp (p : Nat) (r : PicRecord) (s : State) : State × Answer :=
  ({ s with cat := { s.cat with snapshot := if r.extent.isEmpty then none else some (extentParts 2 r.extent) } },
    okBody (.header (headerPart p r)))

/-- LOOKUP (R13, R14). -/
def execLookup (m : Moment) (x : RecordName) (s : State) : Host.Outcome State Fault Refusal :=
  request 1 m (fun s =>
    match resolve s x with
    | .error c => (s, refuse c)
    | .ok (p, r) => s.lookUp p r) s

/-- NEXT PART (R15). -/
def execNextPart (m : Moment) (s : State) : Host.Outcome State Fault Refusal :=
  request nextPartKind m (fun s =>
    match s.cat.snapshot with
    | some ((k, blocks) :: t) =>
      ({ s with cat := { s.cat with snapshot := if t.isEmpty then none else some t } }, okBody (.extentPart k blocks))
    | _ => (s.dropSnapshot, refuse .noMoreParts)) s

/-- The filter admits the record (R16). -/
def admits (f : FindFilter) (r : PicRecord) : Bool :=
  match f with
  | .stored => r.state == .stored
  | .all => true

/-- The record with the smallest picture number above `n` among those admitted (R16). -/
def nextRecord (n : Nat) (f : FindFilter) : List (Nat × PicRecord) → Option (Nat × Nat × PicRecord)
  | [] => none
  | (p, r) :: t =>
    match r.number with
    | some k =>
      if n < k && admits f r then
        match nextRecord n f t with
        | some (j, q, x) => if j < k then some (j, q, x) else some (k, p, r)
        | none => some (k, p, r)
      else nextRecord n f t
    | none => nextRecord n f t

/-- FIND NEXT (R16). A filter that is neither STORED nor ALL is refused with BAD_FIELD, the model's choice (log 47). -/
def execFindNext (m : Moment) (n : Nat) (f : Option FindFilter) (s : State) : Host.Outcome State Fault Refusal :=
  request 3 m (fun s =>
    match f with
    | none => (s, refuse .badField)
    | some f =>
      if Config.maxNumber < n then (s, refuse .badField)
      else
        match nextRecord n f s.cat.places with
        | some (_, p, r) => s.lookUp p r
        | none => (s, (.none, .empty, none))) s

/-! ### Amending and retiring -/

/-- The values of an AMEND are in range for a record (R17 step 4). -/
def amendRanges (c : AmendChange) (r : PicRecord) : Bool :=
  (match c.rating with | some x => x ≤ 5 | none => true) &&
  (match c.caption with | some t => captionOk t | none => true) &&
  (match c.trim, r.picture with
   | some (.set b), some x => trimOk b x.width x.height
   | some (.set _), none => false
   | _, _ => true)

/-- The AMEND sets a trim box. -/
def setsTrim (c : AmendChange) : Bool :=
  match c.trim with
  | some (.set _) => true
  | _ => false

/-- The AMEND carries none of the four changes (R17). -/
def amendEmpty (c : AmendChange) : Bool :=
  c.protect.isNone && c.rating.isNone && c.caption.isNone && c.trim.isNone

/-- AMEND's refusal, the first that applies, or the place and record (R17). The refusal of an AMEND with no change stands
outside R17's numbered order; it comes here after BUSY and before the naming checks, the model's choice (log 41). -/
def amendCheck (x : RecordName) (c : AmendChange) (s : State) : Except Code (Nat × PicRecord) :=
  if s.map.mode = .preparing then .error .busy
  else if amendEmpty c then .error .badField
  else
    match resolve s x with
    | .error e => .error e
    | .ok (p, r) =>
      if r.state = .damaged then .error .wrongState
      else if setsTrim c && r.state != .stored then .error .wrongState
      else if !amendRanges c r then .error .badField
      else .ok (p, r)

/-- The record with the changes made (R18). -/
def PicRecord.amend (c : AmendChange) (r : PicRecord) : PicRecord :=
  { r with
    protect := c.protect.getD r.protect, rating := c.rating.getD r.rating, caption := c.caption.getD r.caption
    trim := match c.trim with | some (.set b) => some b | some .remove => none | none => r.trim }

/-- AMEND (R17, R18); held until the place's covering write (R26). -/
def execAmend (m : Moment) (x : RecordName) (c : AmendChange) (s : State) : Host.Outcome State Fault Refusal :=
  request 4 m (fun s =>
    match amendCheck x c s with
    | .error e => (s, refuse e)
    | .ok (p, r) => (s.claim p (r.amend c), heldOk .empty [.place p])) s

/-- The states RETIRE and CLEAR CATALOGUE act on (R19, R20). -/
def RecState.retirable : RecState → Bool
  | .stored | .failed | .damaged => true
  | _ => false

/-- RETIRE's refusal, the first that applies, or the place (R19). -/
def retireCheck (x : RecordName) (s : State) : Except Code Nat :=
  if s.map.mode = .preparing then .error .busy
  else
    match resolve s x with
    | .error e => .error e
    | .ok (p, r) =>
      if !r.state.retirable then .error .wrongState
      else if r.protect then .error .protect
      else if 0 < r.holds then .error .held
      else .ok p

/-- RETIRE (R19); held until the freed place's covering write (R26). -/
def execRetire (m : Moment) (x : RecordName) (s : State) : Host.Outcome State Fault Refusal :=
  request 5 m (fun s =>
    match retireCheck x s with
    | .error e => (s, refuse e)
    | .ok p => (s.freePlace p, heldOk .empty [.place p])) s

/-- The places CLEAR CATALOGUE retires, in ascending order (R20). -/
def clearable (s : State) : List Nat :=
  (s.cat.places.filter fun e => e.2.state.retirable && !e.2.protect && e.2.holds == 0).map (·.1)

/-- CLEAR CATALOGUE (R20); held until the last freed place has been written (R26). -/
def execClearCatalogue (m : Moment) (s : State) : Host.Outcome State Fault Refusal :=
  request 6 m (fun s =>
    if s.map.mode = .preparing then (s, refuse .busy)
    else
      let ps := clearable s
      (s.freePlaces ps, heldOk (.cleared ps.length (s.cat.places.length - ps.length)) (ps.map .place))) s

/-- CATALOGUE SUMMARY's answer (R21). -/
def summaryOf (s : State) : Summary :=
  let n := countState s.cat.places
  { free := freePlaces s, reserved := n .reserved, exposing := n .exposing, awaiting := n .awaiting
    storing := n .storing, stored := n .stored, failed := n .failed, damaged := n .damaged
    erased := s.map.erasedCount, reservedTotal := s.map.reserved
    dirtyUnchecked := s.map.dirtyCount + s.map.uncheckedCount, bad := s.map.badCount, mode := s.map.mode
    counter := s.cat.counter, queued := s.writer.queue.length }

/-- CATALOGUE SUMMARY (R21). -/
def execCatalogueSummary (m : Moment) (s : State) : Host.Outcome State Fault Refusal :=
  request 7 m (fun s => (s, okBody (.summary (summaryOf s)))) s

end Sys2Proof.Machine
end

