-- ==== Sys2Proof/Machine/Lane.lean ====
section
/-! DEFINITION. The Picture Port's In Lane: headers, blocks and faults (R51, R55, R57, R63, R66, R90, R193). -/

namespace Sys2Proof.Machine

/-- The port hunts again (R193). -/
def State.laneFree (s : State) : State := { s with lane := .hunting }

/-- A body length that lets a block of its kind reach its owner (R51, R193). -/
def laneLengthOk (kind : Byte) (n : Nat) : Bool :=
  if kind = kindStatistics then n == 243
  else if kind = kindStart ∨ kind = kindAbort then n == 0
  else if kind = kindData then 1 ≤ n && n ≤ Config.pageBytes
  else if kind = kindEnd then n == 12
  else false

/-- The block in hand reaches no owner: its header came before start-up had ended, or gives a length its kind does not
take (R51, R193). -/
def LaneBlock.dropped (b : LaneBlock) : Bool := b.discard || !laneLengthOk b.kind b.length

/-- A block of this kind and length can be the one arriving: none has begun, or the bytes of its header that have come
are its own (R193, log 20). -/
def LaneReceiver.opens (kind : Byte) (length : Nat) : LaneReceiver → Bool
  | .hunting => true
  | .header h => h.isPrefixOf (kind :: beBytes 2 length)
  | .block _ => false

/-- A block has arrived whole: its owner takes it, unless its header came before start-up had ended or gives another
length than the kind's. With another block in hand it cannot arrive (R51, R193, log 4, log 20). -/
def laneBlock (kind : Byte) (length : Nat) (f : State → State) (s : State) : State :=
  match s.lane with
  | .block b => if b.kind = kind then (if b.dropped then s.laneFree else f s.laneFree) else s
  | r =>
    if r.opens kind length then (if s.supply.shutdown = .starting then s.laneFree else f s.laneFree) else s

/-- A header is taken (R51). -/
def State.laneHeader (kind : Byte) (length : Nat) (s : State) : State := { s with lane := laneHeaded s kind length }

/-- IN LANE HEADER: the header's bytes, or the last of them; behind a block in hand the lane waits (R51, R193). -/
def execInLaneHeader (m : Moment) (kind : Byte) (length : Nat) (s : State) : Host.Outcome State Fault Refusal :=
  event m (fun s => if s.lane.opens kind length then s.laneHeader kind length else s) s

/-- STATISTICS: to the Metering Unit and to the Focus Unit (R90, log 24). -/
def execStatistics (m : Moment) (body : List Byte) (s : State) : Host.Outcome State Fault Refusal :=
  event m (laneBlock kindStatistics 243 fun s => (s.meterBlock (statOf body)).focusBlock (statOf body)) s

/-- A PICTURE_START by the stream state; none binds after POWER_LOW (R55, R63, R70). In OPEN it binds before a frame that
waits for the queue begins (the model's choice, log 69). -/
def State.pictureStart (s : State) : State :=
  if s.supply.powerLow then s
  else
    match s.store.stream with
    | .closed => s.storeStart
    | .opened => ((s.storeFailBound .brokenStream).storeStart).storeGoOn
    | .ending => if s.store.heldStart then s.setFlag .storeFailed else s.onStore fun e => { e with heldStart := true }

/-- PICTURE START (R55). -/
def execPictureStart (m : Moment) (s : State) : Host.Outcome State Fault Refusal :=
  event m (laneBlock kindStart 0 State.pictureStart) s

/-- A PICTURE_DATA whose length is out of range breaks an OPEN stream (R51, R193). -/
def State.pictureDataBad (s : State) : State :=
  if s.store.stream = .opened then (s.storeFailBound .brokenStream).storeGoOn else s

/-- A PICTURE_DATA body is taken (R57), dropped in CLOSED (R53). -/
def State.pictureData (bytes : List Byte) (s : State) : State :=
  if !laneLengthOk kindData bytes.length then s.pictureDataBad
  else if s.store.stream = .opened then
    let t := s.onStore (·.take bytes)
    { t with timers := { t.timers with data := some 0 } }.storeGoOn
  else s

/-- A PICTURE_DATA block has ended: what it does, unless its header came before start-up had ended (R51). -/
def laneDataEnd (discard : Bool) (f : State → State) (s : State) : State :=
  if discard then s.laneFree else f s.laneFree

/-- A PICTURE_DATA block's body arrives: clocked in while ready is high or once it has begun, else its header is taken and
waits for it (R51, R52). A body of another length than the header in hand gives is not that block's (log 4). -/
def dataBlock (length : Nat) (f : State → State) (s : State) : State :=
  match s.lane with
  | .block b =>
    if b.kind = kindData ∧ b.length = length ∧ ¬b.waits s then laneDataEnd b.discard f s else s
  | r =>
    if r.opens kindData length then (if inLaneReady s then f s.laneFree else s.laneHeader kindData length) else s

/-- PICTURE DATA (R51, R52, R57). -/
def execPictureData (m : Moment) (bytes : List Byte) (s : State) : Host.Outcome State Fault Refusal :=
  event m (dataBlock bytes.length (State.pictureData bytes)) s

/-- A PICTURE_END by the stream state (R53, R63). -/
def State.pictureEnd (x : EndFields) (s : State) : State :=
  if s.store.stream = .opened then
    let t := s.onStore fun e => { e.pad with stream := .ending, heldEnd := some x }
    { t with timers := { t.timers with data := none } }.storeGoOn
  else s

/-- PICTURE END (R63). -/
def execPictureEnd (m : Moment) (body : List Byte) (s : State) : Host.Outcome State Fault Refusal :=
  event m (laneBlock kindEnd 12 (State.pictureEnd (endOf body))) s

/-- PICTURE ABORT (R66). -/
def execPictureAbort (m : Moment) (s : State) : Host.Outcome State Fault Refusal :=
  event m (laneBlock kindAbort 0 fun s =>
    if s.store.stream = .closed then s else (s.storeFailBound .aborted).storeGoOn) s

/-- The block a row of this kind and length brings, or is the rest of; none while another is in hand (R193, log 20). -/
def laneArrival (kind : Byte) (length : Nat) (s : State) : Option LaneBlock :=
  match s.lane with
  | .block b => if b.kind = kind ∧ b.length = length then some b else none
  | r =>
    if r.opens kind length then
      some { kind := kind, length := length, discard := decide (s.supply.shutdown = .starting) }
    else none

/-- IN LANE BLOCK DROPPED: a block that reaches no owner has its body clocked in, a PICTURE_DATA body only while ready is
high, and only a PICTURE_DATA of a length out of range has an effect. A block that its owner takes is not this row's
(R51, R193, log 4). -/
def execInLaneBlockDropped (m : Moment) (kind : Byte) (length : Nat) (s : State) :
    Host.Outcome State Fault Refusal :=
  event m (fun s =>
    match laneArrival kind length s with
    | some b =>
      if b.dropped then (if kind = kindData then dataBlock length State.pictureDataBad s else s.laneFree) else s
    | none => s) s

/-- A gap ends the block that has begun, in its header or in its body; a PICTURE_DATA counts as one of a bad length. The
time a PICTURE_DATA header waits while ready is low is not counted, and a block that has arrived whole has no gap
(R193, log 51). The 100 µs are held by no counter and the row is believed: the model's choice (log 5). -/
def State.laneFault (s : State) : State :=
  match s.lane with
  | .hunting => s
  | .header (kind :: _) =>
    if kind = kindData then laneDataEnd (decide (s.supply.shutdown = .starting)) State.pictureDataBad s else s.laneFree
  | .header [] => s.laneFree
  | .block b =>
    if b.waits s ∨ b.length ≤ b.got then s
    else if b.kind = kindData then laneDataEnd b.discard State.pictureDataBad s
    else s.laneFree

/-- IN LANE FRAMING FAULT (R193). -/
def execInLaneFramingFault (m : Moment) (s : State) : Host.Outcome State Fault Refusal := event m State.laneFault s

end Sys2Proof.Machine
end

