-- ==== Sys2Proof/Machine/Power.lean ====
section
/-! DEFINITION. The Supply Monitor and the Record Writer: writes (R24 to R26), start-up (R194 to R198), POWER_LOW
(R199), SHUT DOWN (R200), and the resets. -/

namespace Sys2Proof.Machine

/-! ### Copies and Record Memory -/

/-- The working contents of an item, as a write copies them (R25). -/
def copyOf (s : State) : Item → Copy
  | .place p => .place p ((s.record p).map PicRecord.durable)
  | .counter => .counter s.cat.counter
  | .settings => .settings s.settings
  | .lensTable => .lensTable s.zoom.working
  | .badList => .badList s.map.badList
  | .identity => .identity s.map.identity

/-- The item a copy is of; the mark is none of the queue's (R23). -/
def Copy.item : Copy → Option Item
  | .place p _ => some (.place p)
  | .counter _ => some .counter
  | .settings _ => some .settings
  | .lensTable _ => some .lensTable
  | .badList _ => some .badList
  | .identity _ => some .identity
  | .mark _ => none

/-- Record Memory holds the copy (R25). -/
def RecordMemory.write (c : Copy) (m : RecordMemory) : RecordMemory :=
  match c with
  | .place p none => { m with places := Table.erase p m.places }
  | .place p (some r) => { m with places := Table.put p (.good r) m.places }
  | .counter n => { m with counter := .good n }
  | .settings x => { m with settings := .good x }
  | .lensTable t => { m with lensTable := .good t }
  | .badList l => { m with badList := .good l }
  | .identity t => { m with identity := .good t }
  | .mark k => { m with mark := .good k }

/-- A write cut short leaves its item torn (R23). -/
def RecordMemory.tear (c : Copy) (m : RecordMemory) : RecordMemory :=
  match c with
  | .place p _ => { m with places := Table.put p .torn m.places }
  | .counter _ => { m with counter := .torn }
  | .settings _ => { m with settings := .torn }
  | .lensTable _ => { m with lensTable := .torn }
  | .badList _ => { m with badList := .torn }
  | .identity _ => { m with identity := .torn }
  | .mark _ => { m with mark := .torn }

/-- Record Memory when power or RESET cuts a write in flight short (R23). -/
def memoryAfterCut (s : State) : RecordMemory :=
  match s.writer.inFlight with
  | some c => s.memory.tear c
  | none => s.memory

/-! ### Start-up -/

/-- An unreadable DAMAGED record (R10). -/
def unreadableRecord : PicRecord :=
  { number := none, state := .damaged, cause := none, armed := none, measured := none, focusStep := none
    steady := none, peakShift := none, remaining := 0, extent := [], refreshExtent := none, picture := none
    protect := false, rating := 0, caption := [], trim := none, peak := 0, weak := false, unreadable := false
    holds := 0 }

/-- A place as verification reads it (R195). -/
def verified : Durable PicRecord → PicRecord
  | .good r => r
  | .torn => unreadableRecord

/-- A record as the rebuild leaves it while the block total is `total`; `none` is FREE (R196). -/
def rebuilt (total : Nat) (r : PicRecord) : Option PicRecord :=
  match r.state with
  | .reserved => none
  | .exposing | .awaiting | .storing => some (r.failedWith .interrupted).durable
  | .stored => if total = 0 then none else some { r.durable with remaining := 0 }
  | .failed | .damaged => some r.durable

/-- The rebuilt catalogue with the places changed, both in ascending place order (R196). -/
def rebuildPlaces (total : Nat) : List (Nat × Durable PicRecord) → List (Nat × PicRecord) × List Nat
  | [] => ([], [])
  | (p, d) :: t =>
    let (rest, changed) := rebuildPlaces total t
    match rebuilt total (verified d) with
    | none => (rest, p :: changed)
    | some r => ((p, r) :: rest, if d = .good r then changed else p :: changed)

/-- The highest picture number held. -/
def highestNumber (places : List (Nat × PicRecord)) : Option Nat :=
  places.foldl (fun a e => match a, e.2.number with
    | some x, some n => some (max x n)
    | none, n => n
    | a, none => a) none

/-- The counter after start-up, and whether it had to be recomputed (R12). -/
def rebuiltCounter (d : Durable Nat) (places : List (Nat × PicRecord)) : Nat × Bool :=
  match d with
  | .good n => (n, false)
  | .torn => (match highestNumber places with | some n => numberAfter n | none => 1, true)

/-- A record that loses its extent to a record at a lower place (R10, R197). -/
def PicRecord.claimedBelow (r : PicRecord) : PicRecord :=
  { r with state := .damaged, extent := [], picture := none, trim := none, remaining := 0 }

/-- Settles which STORED record keeps each block, in ascending place order: the records, the places made DAMAGED, and
the blocks kept (R197, log 35). -/
def settleBlocks (taken : List Nat) : List (Nat × PicRecord) → List (Nat × PicRecord) × List Nat × List Nat
  | [] => ([], [], taken)
  | (p, r) :: t =>
    if r.state = .stored then
      if r.extent.any taken.contains then
        let (rest, damaged, kept) := settleBlocks taken t
        ((p, r.claimedBelow) :: rest, p :: damaged, kept)
      else
        let (rest, damaged, kept) := settleBlocks (taken ++ r.extent) t
        ((p, r) :: rest, damaged, kept)
    else
      let (rest, damaged, kept) := settleBlocks taken t
      ((p, r) :: rest, damaged, kept)

/-- The block total STORE IDENTITY names; 0 when it is NONE or torn (R27, R195). -/
def identityTotal : Durable (Option Nat) → Nat
  | .good (some t) => t
  | _ => 0

/-- The Block Map start-up rebuilds (R46, R195, R197). -/
def rebuiltMap (mem : RecordMemory) (kept : List Nat) : BlockMap :=
  let bad := match mem.badList with | .good l => l | .torn => []
  let empty : BlockMap :=
    { total := identityTotal mem.identity, blocks := [], reserved := 0, allocCursor := 0, eraseCursor := 0
      badList := bad, identity := match mem.identity with | .good t => t | .torn => none
      mode := match mem.identity, mem.badList with | .good (some _), .good _ => .writable | _, _ => .unprepared
      prepare := none, inHand := none }
  let withBad := bad.foldl (fun m e => m.setState e.1 .bad) empty
  kept.foldl (fun m b => m.setState b .inUse) withBad

/-- The working lens table start-up leaves (R195). -/
def rebuiltTable : Durable (Option (List StationEntry)) → Option (List StationEntry)
  | .good t => t
  | .torn => none

/-- The reset cause: AFTER_POWER_FAIL when the mark reads POWER_FAIL or fails its check (R194). -/
def causeOf (kind : ResetCause) : Durable Mark → ResetCause
  | .good .powerFail | .torn => .afterPowerFail
  | _ => kind

/-- The items start-up marks dirty, in order (R12, R195 to R197). -/
def startUpDirty (mem : RecordMemory) (changed : List Nat) (counter : Bool) (damaged : List Nat) : List Item :=
  (match mem.settings with | .good _ => [] | .torn => [Item.settings]) ++ changed.map .place ++
    (if counter then [.counter] else []) ++ damaged.map .place

/-- A reset: every block as its chapter gives it, then start-up's verification and rebuild from Record Memory. The
input lines and the commands still to come are the world's (R194 to R197). -/
def State.resetPart (kind : ResetCause) (s : State) : State :=
  let mem := memoryAfterCut s
  let (places, changed) := rebuildPlaces (identityTotal mem.identity) mem.places
  let (counter, recomputed) := rebuiltCounter mem.counter places
  let (places, damaged, kept) := settleBlocks [] places
  let t : State :=
    { State.reset with
      pending := s.pending
      lines := s.lines
      supply := { State.reset.supply with cause := causeOf kind mem.mark }
      memory := mem
      cat := { places := places, counter := counter, snapshot := none }
      settings := match mem.settings with | .good x => x | .torn => defaultSettings
      map := rebuiltMap mem kept
      zoom := resetZoom (rebuiltTable mem.lensTable) }
  t.markAll (startUpDirty mem changed recomputed damaged)

/-- RESET (R194). -/
def execReset (m : Moment) (s : State) : Host.Outcome State Fault Refusal := event m (·.resetPart .resetLine) s

/-- POWER ON (R194); applied while powered it stands for power removed and applied (log 17). -/
def execPowerOn (m : Moment) (s : State) : Host.Outcome State Fault Refusal :=
  .next ((s.arrive m).resetPart .powerOn)

/-- SOFT RESET EXECUTE: the link SILENT, no write and no flash operation in flight (R192). POWER_LOW taken meanwhile, while
the OK waits to be collected or after, does not stop it (log 39). -/
def execSoftResetExecute (m : Moment) (s : State) : Host.Outcome State Fault Refusal :=
  event m (fun s =>
    if s.link.condition = .silent ∧ s.writer.inFlight.isNone ∧ s.flash.quiet then s.resetPart .softReset
    else s) s

/-- POWER LOST: the write in flight is torn, the flash operation cut, working state gone (R23, R33, log 17). -/
def execPowerLost (m : Moment) (s : State) : Host.Outcome State Fault Refusal :=
  event m (fun s =>
    { State.reset with
      pending := s.pending, lines := s.lines, memory := memoryAfterCut s
      supply := { State.reset.supply with powered := false } }) s

/-! ### POWER_LOW -/

/-- POWER_LOW is taken and handed to every block (R199). The Metering Unit recomputes its exposure with the Stabilizer
OFF: R163 tells it of every change of the Stabilizer's state, R165 says that no notice reaches it after POWER_LOW, and
the model takes the change that POWER_LOW itself makes as told (log 59). The items it dirties join the write queue by
block, in the order below: the model's choice, since R199 has the blocks take it independently and no rule gives an
order between them (log 64). -/
def State.takePowerLow (s : State) : State :=
  let s := { s with supply := { s.supply with powerLow := true, shutdown := .draining } }.setFlag .powerLow
  let s := s.shotDisarm.storePowerLow.chainPowerLow.preparePowerLow
  s.zoomPowerLow.focusPowerLow.steadyPowerLow.meterInput.flashProtect

/-- POWER LOW by shutdown state (R198, R199, R200, log 18). -/
def execPowerLow (m : Moment) (s : State) : Host.Outcome State Fault Refusal :=
  event m (fun s =>
    match s.supply.shutdown with
    | .starting => { s with supply := { s.supply with powerLowEarly := true } }
    | .running | .draining => if s.supply.powerLow then s else s.takePowerLow
    | .shutDown => if s.supply.powerLow then s else s.setFlag .powerLow) s

/-! ### The end of start-up -/

/-- Start-up has ended; POWER_LOW asserted meanwhile is taken now (R198). -/
def State.startUpEnd (s : State) : State :=
  let s := { s with
    memory := { s.memory with mark := .good .running }
    writer := { s.writer with inFlight := none }
    supply := { s.supply with shutdown := .running }
    shot := { s.shot with iris := .startRun } }
  let s := s.flashFollowMode.setFlag .started
  if s.supply.powerLowEarly then s.takePowerLow else s

/-- The Writer is writing the mark RUNNING, or has nothing left to write (R198, log 25). -/
def startUpWritten (s : State) : Bool :=
  s.writer.queue.isEmpty && (s.writer.inFlight.isNone || s.writer.inFlight == some (.mark .running))

/-- START UP END (R198). -/
def execStartUpEnd (m : Moment) (s : State) : Host.Outcome State Fault Refusal :=
  event m (fun s => if s.supply.shutdown = .starting ∧ startUpWritten s then s.startUpEnd else s) s

/-! ### The Record Writer -/

/-- A pending response and a prepare learn that the write of an item has begun (R26, R49). -/
def heldBegin (i : Item) (r : Response) : Response :=
  match r.held with
  | some (.covers cs) => { r with held := some (.covers (cs.map (·.onBegin i))) }
  | _ => r

/-- A pending response learns that the write of an item has completed; it is ready when nothing is left (R26). -/
def heldComplete (i : Item) (r : Response) : Response :=
  match r.held with
  | some (.covers cs) =>
    let cs := coversAfter i cs
    { r with held := if cs.isEmpty then none else some (.covers cs) }
  | _ => r

/-- Changes the pending response. -/
def State.onPending (f : Response → Response) (s : State) : State :=
  { s with link := { s.link with pending := s.link.pending.map f } }

/-- Changes every listed block's state. -/
def BlockMap.mapStates (f : BlockState → BlockState) (m : BlockMap) : BlockMap :=
  { m with blocks := m.blocks.map fun e => (e.1, f e.2) }

/-- A prepare after a write of STORE IDENTITY begins (R49, R50). -/
def PreparePhase.onBegin : PreparePhase → PreparePhase
  | .identityNone _ => .identityNone true
  | .identityTotal _ => .identityTotal true
  | x => x

/-- A prepare after a write of STORE IDENTITY completes (R49, R50). -/
def PreparePhase.onComplete : PreparePhase → PreparePhase
  | .identityNone true => .scanDue
  | .identityTotal true => .endDue
  | x => x

/-- The Block Map learns of a write that begins (R41, R49). -/
def BlockMap.writeBegins (i : Item) (m : BlockMap) : BlockMap :=
  match i with
  | .place p => m.mapStates (·.onBegin p)
  | .identity => { m with prepare := m.prepare.map PreparePhase.onBegin }
  | _ => m

/-- The Block Map learns of a write that completes (R41, R49, R50). -/
def BlockMap.writeCompletes (i : Item) (m : BlockMap) : BlockMap :=
  match i with
  | .place p => m.mapStates (·.onComplete p)
  | .identity => { m with prepare := m.prepare.map PreparePhase.onComplete }
  | _ => m

/-- The Writer begins a write (R25). -/
def State.beginWrite (c : Copy) (s : State) : State := { s with writer := { s.writer with inFlight := some c } }

/-- RECORD WRITE BEGIN: the head item, or the mark RUNNING at the end of start-up; none while SILENT, after POWER_LOW
too (R25, R192, R198, log 39). An item made dirty after the shutdown mark has been written is written as any other, after
the mark and after SAFE: R199 does not say, and the model ends no write queue (log 60). -/
def execRecordWriteBegin (m : Moment) (s : State) : Host.Outcome State Fault Refusal :=
  event m (fun s =>
    if s.writer.inFlight.isSome || s.link.condition == .silent then s
    else
      match s.writer.queue with
      | i :: t =>
        let s := { s with writer := { s.writer with queue := t } }.beginWrite (copyOf s i)
        (s.onPending (heldBegin i)).onMap (·.writeBegins i)
      | [] => if s.supply.shutdown = .starting then s.beginWrite (.mark .running) else s) s

/-- The write of the shutdown mark has completed: a response held by it is ready (R199, R200). -/
def State.markDone (s : State) : State :=
  { s with supply := { s.supply with markWritten := true } }.onPending fun r =>
    match r.held with
    | some .mark => { r with held := none }
    | _ => r

/-- RECORD WRITE COMPLETE (R25, R26). -/
def execRecordWriteComplete (m : Moment) (s : State) : Host.Outcome State Fault Refusal :=
  event m (fun s =>
    match s.writer.inFlight with
    | none => s
    | some c =>
      let t : State := { s with memory := s.memory.write c, writer := { s.writer with inFlight := none } }
      match c.item with
      | some i => (t.onPending (heldComplete i)).onMap (·.writeCompletes i)
      | none => if t.supply.shutdown = .starting then t.startUpEnd else t.markDone) s

/-! ### The shutdown mark and SAFE -/

/-- The drain is over. An item on the Out Lane must have gone; an owed CANCELLED marker that has not begun does not hold the
drain up (R199, R200, log 29, log 48). -/
def drained (s : State) : Bool :=
  s.writer.queue.isEmpty && s.writer.inFlight.isNone && s.shot.state == .idle && s.store.queue.isEmpty &&
    s.chain.chain.isEmpty && s.chain.refresh.isNone && s.chain.item.isNone && s.flash.quiet

/-- SHUTDOWN MARK WRITE: POWER_FAIL after POWER_LOW, else CLEAN (R199, R200); none while SILENT (R192, log 39). -/
def execShutdownMarkWrite (m : Moment) (s : State) : Host.Outcome State Fault Refusal :=
  event m (fun s =>
    if s.supply.shutdown = .draining ∧ !s.supply.markWritten ∧ drained s ∧ s.link.condition = .listening then
      s.beginWrite (.mark (if s.supply.powerLow then .powerFail else .clean))
    else s) s

/-- SAFE (R199). -/
def execSafe (m : Moment) (s : State) : Host.Outcome State Fault Refusal :=
  event m (fun s =>
    if s.supply.shutdown = .draining ∧ s.supply.markWritten ∧ s.flash.writeProtect then
      { s with supply := { s.supply with safe := true, shutdown := .shutDown } }
    else s) s

/-- SHUT DOWN's refusal, the first that applies (R200). -/
def shutDownRefusal (s : State) : Option Code :=
  if s.zoom.state ≠ .parked then some .wrongState
  else if s.shot.state ≠ .idle || !s.store.queue.isEmpty || !s.chain.chain.isEmpty || s.chain.refresh.isSome ||
      s.map.mode == .preparing then some .busy
  else none

/-- SHUT DOWN (R200). -/
def execShutDown (m : Moment) (s : State) : Host.Outcome State Fault Refusal :=
  request 46 m (fun s =>
    match shutDownRefusal s with
    | some c => (s, refuse c)
    | none =>
      let t := { s with supply := { s.supply with shutdown := .draining, shutDownTaken := true } }
      (t.steadyOff.meterInput.flashProtect, (.ok, .empty, some .mark))) s

end Sys2Proof.Machine
end

