-- ==== Sys2Proof/Machine/Dispatch.lean ====
section
/-! DEFINITION. One arm per command: a direct call of its meaning. -/

namespace Sys2Proof.Machine

/-- What a command does to everything but the queue of waiting commands. -/
def exec (i : Instr) (s : State) : Host.Outcome State Fault Refusal :=
  match i with
  | .lookup m r => Sys2Proof.Machine.execLookup m r s
  | .nextPart m => Sys2Proof.Machine.execNextPart m s
  | .findNext m n f => Sys2Proof.Machine.execFindNext m n f s
  | .amend m r c => Sys2Proof.Machine.execAmend m r c s
  | .retire m r => Sys2Proof.Machine.execRetire m r s
  | .clearCatalogue m => Sys2Proof.Machine.execClearCatalogue m s
  | .catalogueSummary m => Sys2Proof.Machine.execCatalogueSummary m s
  | .prepareStore m => Sys2Proof.Machine.execPrepareStore m s
  | .abandon m n => Sys2Proof.Machine.execAbandon m n s
  | .chainAdd m n offset length notify => Sys2Proof.Machine.execChainAdd m n offset length notify s
  | .chainCancel m => Sys2Proof.Machine.execChainCancel m s
  | .refresh m n => Sys2Proof.Machine.execRefresh m n s
  | .meterSetup m x => Sys2Proof.Machine.execMeterSetup m x s
  | .meterLock m => Sys2Proof.Machine.execMeterLock m s
  | .meterUnlock m => Sys2Proof.Machine.execMeterUnlock m s
  | .readMeter m => Sys2Proof.Machine.execReadMeter m s
  | .extendLens m => Sys2Proof.Machine.execExtendLens m s
  | .zoomTo m station => Sys2Proof.Machine.execZoomTo m station s
  | .zoomStop m => Sys2Proof.Machine.execZoomStop m s
  | .parkLens m => Sys2Proof.Machine.execParkLens m s
  | .loadLensStation m station e => Sys2Proof.Machine.execLoadLensStation m station e s
  | .commitLensTable m => Sys2Proof.Machine.execCommitLensTable m s
  | .readZoom m => Sys2Proof.Machine.execReadZoom m s
  | .readLensStation m station t => Sys2Proof.Machine.execReadLensStation m station t s
  | .focusStart m range => Sys2Proof.Machine.execFocusStart m range s
  | .focusRelease m => Sys2Proof.Machine.execFocusRelease m s
  | .focusMode m mode => Sys2Proof.Machine.execFocusMode m mode s
  | .setArea m id rect enabled => Sys2Proof.Machine.execSetArea m id rect enabled s
  | .clearArea m id => Sys2Proof.Machine.execClearArea m id s
  | .setDistance m cls => Sys2Proof.Machine.execSetDistance m cls s
  | .readFocus m => Sys2Proof.Machine.execReadFocus m s
  | .readFocusCurve m id => Sys2Proof.Machine.execReadFocusCurve m id s
  | .steadyMode m mode => Sys2Proof.Machine.execSteadyMode m mode s
  | .readSteady m => Sys2Proof.Machine.execReadSteady m s
  | .shotSetup m x => Sys2Proof.Machine.execShotSetup m x s
  | .arm m => Sys2Proof.Machine.execArm m s
  | .trigger m => Sys2Proof.Machine.execTrigger m s
  | .disarm m => Sys2Proof.Machine.execDisarm m s
  | .readShot m => Sys2Proof.Machine.execReadShot m s
  | .readStatus m => Sys2Proof.Machine.execReadStatus m s
  | .readEvents m => Sys2Proof.Machine.execReadEvents m s
  | .setEventMask m mask => Sys2Proof.Machine.execSetEventMask m mask s
  | .writeSettings m x => Sys2Proof.Machine.execWriteSettings m x s
  | .readSettings m => Sys2Proof.Machine.execReadSettings m s
  | .softReset m => Sys2Proof.Machine.execSoftReset m s
  | .shutDown m => Sys2Proof.Machine.execShutDown m s
  | .frameCheck m f => Sys2Proof.Machine.execFrameCheck m f s
  | .unknownRequest m bytes => Sys2Proof.Machine.execUnknownRequest m bytes s
  | .frameBroken m bytes => Sys2Proof.Machine.execFrameBroken m bytes s
  | .linkQuietResume m => Sys2Proof.Machine.execLinkQuietResume m s
  | .linkOrder m bytes => Sys2Proof.Machine.execLinkOrder m bytes s
  | .responseCollected m => Sys2Proof.Machine.execResponseCollected m s
  | .softResetExecute m => Sys2Proof.Machine.execSoftResetExecute m s
  | .reset m => Sys2Proof.Machine.execReset m s
  | .powerOn m => Sys2Proof.Machine.execPowerOn m s
  | .startUpEnd m => Sys2Proof.Machine.execStartUpEnd m s
  | .powerLow m => Sys2Proof.Machine.execPowerLow m s
  | .shutdownMarkWrite m => Sys2Proof.Machine.execShutdownMarkWrite m s
  | .safe m => Sys2Proof.Machine.execSafe m s
  | .recordWriteBegin m => Sys2Proof.Machine.execRecordWriteBegin m s
  | .recordWriteComplete m => Sys2Proof.Machine.execRecordWriteComplete m s
  | .prepareScanStart m => Sys2Proof.Machine.execPrepareScanStart m s
  | .prepareStoreEnd m => Sys2Proof.Machine.execPrepareStoreEnd m s
  | .arbiterGrant m => Sys2Proof.Machine.execArbiterGrant m s
  | .flashStatusReadDone m => Sys2Proof.Machine.execFlashStatusReadDone m s
  | .pageReadDone m r => Sys2Proof.Machine.execPageReadDone m r s
  | .pageProgramDone m pass => Sys2Proof.Machine.execPageProgramDone m pass s
  | .copyBackDone m source pass => Sys2Proof.Machine.execCopyBackDone m source pass s
  | .blockEraseDone m pass => Sys2Proof.Machine.execBlockEraseDone m pass s
  | .grownMarkProgramDone m pass => Sys2Proof.Machine.execGrownMarkProgramDone m pass s
  | .backgroundTakeBlock m => Sys2Proof.Machine.execBackgroundTakeBlock m s
  | .statistics m body => Sys2Proof.Machine.execStatistics m body s
  | .blockWatchExpiry m => Sys2Proof.Machine.execBlockWatchExpiry m s
  | .sampleWatchExpiry m => Sys2Proof.Machine.execSampleWatchExpiry m s
  | .pictureStart m => Sys2Proof.Machine.execPictureStart m s
  | .pictureData m bytes => Sys2Proof.Machine.execPictureData m bytes s
  | .pictureEnd m body => Sys2Proof.Machine.execPictureEnd m body s
  | .pictureAbort m => Sys2Proof.Machine.execPictureAbort m s
  | .inLaneBlockDropped m kind length => Sys2Proof.Machine.execInLaneBlockDropped m kind length s
  | .inLaneFramingFault m => Sys2Proof.Machine.execInLaneFramingFault m s
  | .dataTimeout m => Sys2Proof.Machine.execDataTimeout m s
  | .endTaken m => Sys2Proof.Machine.execEndTaken m s
  | .outLaneItemBegin m => Sys2Proof.Machine.execOutLaneItemBegin m s
  | .descriptorStartSent m => Sys2Proof.Machine.execDescriptorStartSent m s
  | .dataItemSent m => Sys2Proof.Machine.execDataItemSent m s
  | .descriptorEndSent m => Sys2Proof.Machine.execDescriptorEndSent m s
  | .cancelledEndSent m => Sys2Proof.Machine.execCancelledEndSent m s
  | .encoderPulse m tele => Sys2Proof.Machine.execEncoderPulse m tele s
  | .parkSensorChange m seen => Sys2Proof.Machine.execParkSensorChange m seen s
  | .stallWatchExpiry m => Sys2Proof.Machine.execStallWatchExpiry m s
  | .brakeWatchExpiry m => Sys2Proof.Machine.execBrakeWatchExpiry m s
  | .focusHomeSensorSeen m => Sys2Proof.Machine.execFocusHomeSensorSeen m s
  | .focusHomingFailed m => Sys2Proof.Machine.execFocusHomingFailed m s
  | .focusMoveComplete m => Sys2Proof.Machine.execFocusMoveComplete m s
  | .gyroFrame m bytes => Sys2Proof.Machine.execGyroFrame m bytes s
  | .gyroFrameBroken m => Sys2Proof.Machine.execGyroFrameBroken m s
  | .gyroFrameTimeout m => Sys2Proof.Machine.execGyroFrameTimeout m s
  | .gyroLost m => Sys2Proof.Machine.execGyroLost m s
  | .releaseFalling m => Sys2Proof.Machine.execReleaseFalling m s
  | .releaseRising m => Sys2Proof.Machine.execReleaseRising m s
  | .irisMoveComplete m => Sys2Proof.Machine.execIrisMoveComplete m s
  | .closeCommandDue m => Sys2Proof.Machine.execCloseCommandDue m s
  | .shutterClosed m => Sys2Proof.Machine.execShutterClosed m s
  | .shutterTimeout m => Sys2Proof.Machine.execShutterTimeout m s
  | .frameDue m => Sys2Proof.Machine.execFrameDue m s
  | .gyroStartMarker m => Sys2Proof.Machine.execGyroStartMarker m s
  | .requestStartMarker m => Sys2Proof.Machine.execRequestStartMarker m s
  | .inLaneHeader m kind length => Sys2Proof.Machine.execInLaneHeader m kind length s
  | .powerLost m => Sys2Proof.Machine.execPowerLost m s

end Sys2Proof.Machine
end

