-- ==== Sys2Proof/Safety.lean ====
section
/-! DEFINITION. The predicates statements about the part are made with: when the Command Link takes a frame, what a taken
request finds, what stands on the In Lane, and the invariant of the state's lists and tables. -/

namespace Sys2Proof.Machine

/-! ### When a request is taken -/

/-- The link takes a complete frame: powered, LISTENING, no response pending, and the frame is one that began with none
pending (R185, R186, R192). -/
abbrev Listening (s : State) : Prop :=
  s.supply.powered = true ∧ s.link.condition = .listening ∧ s.link.pending = none ∧
    s.link.receiver ≠ .overlong ∧ s.link.receiver.late = false

/-- A request reaches its owner: the link takes it and none of R187's three early refusals applies. -/
abbrev Taking (s : State) : Prop :=
  Listening s ∧ s.supply.shutdown ≠ .starting ∧ s.supply.powerLow = false ∧ s.supply.shutDownTaken = false

/-- What a taken request of a kind finds: time has passed, the link hunts again, and any request but NEXT PART has
discarded the unfetched parts of a snapshot (R15, R184). -/
def taken (kind : Nat) (m : Moment) (s : State) : State :=
  if kind = nextPartKind then (s.arrive m).hunt else (s.arrive m).hunt.dropSnapshot

/-- The kind of a request; `none` for an event (section 10.1). -/
def requestKind : Instr → Option (Nat × Moment)
  | .lookup m _ => some (1, m) | .nextPart m => some (2, m) | .findNext m _ _ => some (3, m)
  | .amend m _ _ => some (4, m) | .retire m _ => some (5, m) | .clearCatalogue m => some (6, m)
  | .catalogueSummary m => some (7, m) | .prepareStore m => some (8, m) | .abandon m _ => some (9, m)
  | .chainAdd m _ _ _ _ => some (10, m) | .chainCancel m => some (11, m) | .refresh m _ => some (12, m)
  | .meterSetup m _ => some (13, m) | .meterLock m => some (14, m) | .meterUnlock m => some (15, m)
  | .readMeter m => some (16, m) | .extendLens m => some (17, m) | .zoomTo m _ => some (18, m)
  | .zoomStop m => some (19, m) | .parkLens m => some (20, m) | .loadLensStation m _ _ => some (21, m)
  | .commitLensTable m => some (22, m) | .readZoom m => some (23, m) | .readLensStation m _ _ => some (24, m)
  | .focusStart m _ => some (25, m) | .focusRelease m => some (26, m) | .focusMode m _ => some (27, m)
  | .setArea m _ _ _ => some (28, m) | .clearArea m _ => some (29, m) | .setDistance m _ => some (30, m)
  | .readFocus m => some (31, m) | .readFocusCurve m _ => some (32, m) | .steadyMode m _ => some (33, m)
  | .readSteady m => some (34, m) | .shotSetup m _ => some (35, m) | .arm m => some (36, m)
  | .trigger m => some (37, m) | .disarm m => some (38, m) | .readShot m => some (39, m)
  | .readStatus m => some (40, m) | .readEvents m => some (41, m) | .setEventMask m _ => some (42, m)
  | .writeSettings m _ => some (43, m) | .readSettings m => some (44, m) | .softReset m => some (45, m)
  | .shutDown m => some (46, m)
  | _ => none

/-! ### What stands on the In Lane -/

/-- The bytes of an In Lane header after its marker: the kind and the body length, high byte first (section 10.4). -/
abbrev headerBytes (kind : Byte) (length : Nat) : List Byte :=
  [kind, BitVec.ofNat 8 (length / 256), BitVec.ofNat 8 length]

/-- A block of this kind and length may be arriving: the port hunts, or has taken the marker and the first bytes of its
header (R193, log 20). -/
abbrev LaneOpens (kind : Byte) (length : Nat) (s : State) : Prop :=
  s.lane = .hunting ∨ ∃ h rest, s.lane = .header h ∧ h ++ rest = headerBytes kind length

/-- A block of this kind and length is in hand, its header taken after start-up had ended (R51). -/
abbrev LaneHolds (kind : Byte) (length : Nat) (s : State) : Prop :=
  ∃ b, s.lane = .block b ∧ b.kind = kind ∧ b.length = length ∧ b.discard = false

/-! ### What stands on the gyro line -/

/-- A frame of these bytes may be handed to R151: it is the first of those the receiver has completed; or none is
complete, and the receiver hunts, or has taken the start marker and the first of the bytes, no more than 500 µs ago (R150,
log 56). -/
abbrev GyroOpens (bytes : List Byte) (s : State) : Prop :=
  (∃ rest, s.gyro.whole = bytes :: rest) ∨ s.gyro.whole = [] ∧
    (s.gyro.phase = .hunting ∨ ∃ h rest t, s.gyro.phase = .assembling h t ∧ t ≤ 500 ∧ h ++ rest = bytes)

/-! ### Blocks in use -/

/-- The blocks that stand in a record: its extent list and its refresh extent (section 1.1). -/
def PicRecord.heldBlocks (r : PicRecord) : List Nat := r.extent ++ r.refreshExtent.getD []

/-- The blocks that stand in some record, each as often as it stands there. -/
def heldBlocks (s : State) : List Nat := s.cat.places.flatMap fun e => e.2.heldBlocks

/-- The law of R36: a block is IN_USE exactly when it stands in one extent list or refresh extent, and in no two. -/
def BlocksLawful (s : State) : Prop :=
  (heldBlocks s).Nodup ∧ ∀ b, s.map.stateOf b = .inUse ↔ b ∈ heldBlocks s

/-- The first half of the law of R38: the reserved total equals the sum of reserved blocks remaining over all records. -/
def ReservedLawful (s : State) : Prop := s.map.reserved = (s.cat.places.map (·.2.remaining)).sum

/-! ### The invariant -/

/-- A table in canonical form whose keys lie below `n`. -/
def tableOk (n : Nat) (ok : α → Bool) (t : List (Nat × α)) : Prop := Table.wf ok t = true ∧ ∀ e ∈ t, e.1 < n

/-- Any value may be listed. -/
abbrev anyValue (_ : α) : Bool := true

/-- A bad-block list: canonical, at most 256 entries (R44). -/
def badListOk (l : List (Nat × BadKind)) : Prop := Table.wf anyValue l = true ∧ l.length ≤ Config.maxBad

/-- An item of the write queue names a place of the catalogue or one of the other items (R23). -/
def Item.ok : Item → Prop
  | .place p => p < Config.placeCount
  | _ => True

/-- A copy in flight is of an item that exists (R23). -/
def Copy.ok : Copy → Prop
  | .place p _ => p < Config.placeCount
  | .badList l => badListOk l
  | _ => True

/-- Record Memory: 1,024 places in canonical form, a bad list that fits (R1, R23, R44). -/
def memoryOk (m : RecordMemory) : Prop :=
  tableOk Config.placeCount anyValue m.places ∧ ∀ l, m.badList = .good l → badListOk l

/-- The write queue holds no item twice and only items that exist; so does the write in flight (R24, R25). -/
def writerOk (w : Writer) : Prop :=
  w.queue.Nodup ∧ (∀ i ∈ w.queue, i.ok) ∧ ∀ c, w.inFlight = some c → c.ok

/-- The Block Map: blocks below the block total in canonical form, UNCHECKED never listed, a bad list that fits
(R27, R36, R44). -/
def mapOk (m : BlockMap) : Prop := tableOk m.total (· != BlockState.unchecked) m.blocks ∧ badListOk m.badList

/-- The invariant of the state's lists and tables: 1,024 places, each named once; a write queue without duplicates;
blocks below the block total; at most 256 bad blocks; at most 16 descriptors (R1, R23, R24, R27, R44, R71). -/
def Canonical (s : State) : Prop :=
  tableOk Config.placeCount anyValue s.cat.places ∧ memoryOk s.memory ∧ writerOk s.writer ∧ mapOk s.map ∧
    s.chain.chain.length ≤ Config.maxChain

end Sys2Proof.Machine
end

