-- ==== Sys2Proof/Certificates/Slice0/Obligations.lean ====
section
/-! DEFINITION. The statements for the provers. In all of them `u` is the state in which a command is taken: the arrived
state `s.arrive m` of an event, or `taken k m s` of a request; an equation `exec c s = .next t` with `t` given as an update
of `u` says that everything else stands as in `u`. -/

open Sys2Proof Sys2Proof.Machine

/-! ### The machine -/

/-- A step takes the command at the front of the queue and executes it on the state with the queue's rest. -/
def Obligations.StepRunsTheFrontCommand : Prop :=
  ∀ (c : Instr) (rest : List Instr) (s : State),
    step { s with pending := c :: rest } = exec c { s with pending := rest }

/-- The state right after reset holds the invariant of the lists and tables. -/
def Obligations.ResetStateIsCanonical : Prop := Canonical State.reset

/-- Every step keeps the invariant of the lists and tables, in every state that has it. -/
def Obligations.EveryStepKeepsTheCanonicalForm : Prop :=
  ∀ s t : State, Canonical s → step s = .next t → Canonical t

/-- In a state with the invariant every command completes, and none touches the commands still waiting. -/
def Obligations.EveryCommandCompletesAndKeepsTheQueue : Prop :=
  ∀ (c : Instr) (s : State), Canonical s → ∃ t, exec c s = .next t ∧ t.pending = s.pending ∧ Canonical t

/-- With no command waiting the part idles, and without power no command but POWER ON has an effect (the model's choices,
log 2 and log 17). -/
def Obligations.IdleOrUnpoweredPartStaysAsItIs : Prop :=
  (∀ s : State, s.pending = [] → step s = .next s) ∧
  (∀ (c : Instr) (s : State), s.supply.powered = false → (∀ m, c ≠ .powerOn m) → exec c s = .next s)

/-! ### The Command Link -/

/-- What decides a request before its owner: a SILENT link passes the frame over (R192), a frame that finds a response
pending is discarded with LINK_ORDER (R186), and R187's three refusals come in their order (the last for R200's drain).
(That a SILENT link sets no LINK_ORDER, whatever pends, is the model's choice, log 39, and that a NEXT PART one of the
three refusals turns away keeps the snapshot log 52.) -/
def Obligations.RequestsBeforeTheirOwner : Prop :=
  ∀ (c : Instr) (k : Nat) (m : Moment) (s : State), requestKind c = some (k, m) → s.supply.powered = true →
    (s.link.condition = .silent → s.link.receiver ≠ .overlong → exec c s = .next (s.arrive m).hunt) ∧
    (s.link.condition = .listening → s.link.receiver ≠ .overlong →
      s.link.pending ≠ none ∨ s.link.receiver.late = true →
      exec c s = .next ((s.arrive m).hunt.setFlag .linkOrder)) ∧
    (Listening s → s.supply.shutdown = .starting →
      exec c s = .next ((taken k m s).respond k (.busy, .empty, none))) ∧
    (Listening s → s.supply.shutdown ≠ .starting → s.supply.powerLow = true → k ≠ 40 → k ≠ 41 →
      exec c s = .next ((taken k m s).respond k (.powerLow, .empty, none))) ∧
    (Listening s → s.supply.shutdown ≠ .starting → s.supply.powerLow = false → s.supply.shutDownTaken = true →
      k ≠ 40 → k ≠ 41 → exec c s = .next ((taken k m s).respond k (.busy, .empty, none)))

/-- R185's four steps over the bytes that arrive, while the link listens: a length above 251, a check that does not
match, a kind that names no request, a body length the request does not take; and a frame that breaks. Which refusal,
the kind it echoes, the snapshot it leaves or discards. The body lengths: none for a request without fields, two bytes
for the picture number of ABANDON and REFRESH and the mask of SET EVENT MASK (section 10.4). (That a request whose rule
names no field, but for ARM and SOFT RESET, takes none, and that one with fields takes some, is read by inference, log
63; which lengths of those are accepted comes with the command, log 26; a FRAME CHECK of a frame the request accepts
does nothing, log 4.) The link check bit by bit. -/
def Obligations.MalformedFramesAreRefused : Prop :=
  (∀ (m : Moment) (s : State) (bytes frame : List Byte), Listening s →
    ((∃ held, s.link.receiver = .receiving false held ∧ frame = held ++ m.clocked ++ bytes) ∨
      (s.link.receiver = .hunting ∧ m.clocked ++ bytes = 90#8 :: frame)) →
    let u := (s.arrive m).hunt
    (∀ n rest ok, frame = n :: rest → 251 < n.toNat → exec (.frameCheck m { bytes := bytes, accepted := ok }) s =
      .next { u with link :=
        { u.link with receiver := .overlong, clockedOut := 0
                      pending := some { kind := 0, code := .frameCheck, body := .empty, held := none } } }) ∧
    (∀ (n k hi lo : Byte) (body : List Byte), frame = n :: k :: body ++ [hi, lo] → n.toNat = body.length →
      body.length ≤ 251 →
      let holds : Prop := hi.toNat * 256 + lo.toNat = (linkCheck (n :: k :: body)).toNat
      let checkRefused (ok : Bool) : Prop := exec (.frameCheck m { bytes := bytes, accepted := ok }) s =
        .next (u.respond k.toNat (.frameCheck, .empty, none))
      (¬holds → ∀ ok, checkRefused ok) ∧
      (holds → k.toNat = 0 ∨ 46 < k.toNat → exec (.unknownRequest m bytes) s =
        .next ({ u with cat := { u.cat with snapshot := none } }.respond k.toNat (.unknownRequest, .empty, none))) ∧
      let bare : List Nat :=
        [2, 6, 7, 8, 11, 14, 15, 16, 17, 19, 20, 22, 23, 26, 31, 34, 36, 37, 38, 39, 40, 41, 44, 45, 46]
      let double : List Nat := [9, 12, 42]
      let accepts (ok : Bool) : Prop := k.toNat ∈ bare ∧ body = [] ∨ k.toNat ∈ double ∧ body.length = 2 ∨
        k.toNat ∉ bare ∧ k.toNat ∉ double ∧ body ≠ [] ∧ ok = true
      (holds → 1 ≤ k.toNat → k.toNat ≤ 46 → ∀ ok, (¬accepts ok → checkRefused ok) ∧
        (accepts ok → exec (.frameCheck m { bytes := bytes, accepted := ok }) s = .next ((s.arrive m).clock bytes)))) ∧
    (frame = [] → exec (.frameBroken m bytes) s = .next (u.respond 0 (.frameCheck, .empty, none))) ∧
    (∀ n, frame = [n] → n.toNat ≤ 251 →
      exec (.frameBroken m bytes) s = .next (u.respond 0 (.frameCheck, .empty, none))) ∧
    (∀ n k rest, frame = n :: k :: rest → n.toNat ≤ 251 → rest.length < n.toNat + 2 →
      exec (.frameBroken m bytes) s = .next (u.respond k.toNat (.frameCheck, .empty, none)))) ∧
  (let bit (r : Half) (x : Bool) : Half := if r.msb = x then r <<< 1 else (r <<< 1) ^^^ 0x1021#16
   linkCheck [] = 0xFFFF#16 ∧ ∀ (bs : List Byte) (b : Byte),
     linkCheck (bs ++ [b]) = [7, 6, 5, 4, 3, 2, 1, 0].foldl (fun r i => bit r (b.getLsbD i)) (linkCheck bs))

/-- The link's framing: a start marker begins a frame and keeps whether a response was pending; a frame that began while
one was pending is discarded with LINK_ORDER, response and snapshot kept; the quiet after an overlong frame ends it.
Every byte clocked while ready is high carries one out; a response's bytes are those of section 10.4: 165, kind and
result code of every response, all of them where the manual gives the body's layout (log 26). That the count of bytes
clocked out stops before the last one is the model's choice (log 27), that LINK ORDER sets its flag whatever its bytes
hold log 75, and that bytes behind a complete frame in its row are lost log 76. -/
def Obligations.FramesBeginAndAreDiscarded : Prop :=
  (∀ (m : Moment) (s : State), s.supply.powered = true →
    let u := s.arrive m
    let count (r : Response) (n : Nat) : Nat := match r.held, r.body with
      | some _, _ => s.link.clockedOut
      | none, .empty => min 5 (s.link.clockedOut + n)
      | none, .events b => min (b.length + 5) (s.link.clockedOut + n)
      | none, _ => min 255 (s.link.clockedOut + n)
    let frame (bytes : List Byte) : List Byte := match s.link.receiver with
      | .receiving _ held => held ++ m.clocked ++ bytes
      | _ => ((m.clocked ++ bytes).dropWhile (· != 90#8)).tail
    let receiverAfter (bytes : List Byte) : LinkReceiver := match frame bytes with
      | n :: _ => if 251 < n.toNat then .overlong else .hunting
      | [] => .hunting
    (s.link.pending = none → u.link.clockedOut = s.link.clockedOut) ∧
    (∀ r, s.link.pending = some r → u.link.clockedOut = count r m.clocked.length) ∧
    (s.link.condition = .listening → u.link.receiver = .hunting → s.link.pending = none →
      exec (.requestStartMarker m) s = .next { u with link := { u.link with receiver := .receiving false [] } }) ∧
    (∀ r, s.link.condition = .listening → u.link.receiver = .hunting → s.link.pending = some r →
      exec (.requestStartMarker m) s = .next { u with link :=
        { u.link with receiver := .receiving true [], clockedOut := count r (m.clocked.length + 1) } }) ∧
    (∀ r bytes, s.link.condition = .listening → s.link.receiver ≠ .overlong → s.link.pending = some r →
      exec (.linkOrder m bytes) s = .next ({ u with link :=
        { u.link with receiver := receiverAfter bytes, clockedOut := count r (m.clocked.length + bytes.length) } }.setFlag
          .linkOrder)) ∧
    (∀ bytes, s.link.condition = .listening → s.link.receiver.late = true → s.link.pending = none →
      exec (.linkOrder m bytes) s =
        .next ({ u with link := { u.link with receiver := receiverAfter bytes } }.setFlag .linkOrder)) ∧
    (s.link.receiver = .overlong →
      exec (.linkQuietResume m) s = .next { u with link := { u.link with receiver := .hunting } })) ∧
  (∀ (s : State) (r : Response), s.link.pending = some r →
    let bytes (body : List Byte) : List Byte :=
      let checked : List Byte := [BitVec.ofNat 8 body.length, BitVec.ofNat 8 r.kind, BitVec.ofNat 8 r.code.value] ++ body
      165#8 :: checked ++ [(linkCheck checked).extractLsb' 8 8, (linkCheck checked).extractLsb' 0 8]
    (∀ h, r.held = some h → dataOut s = some 0#8) ∧
    (r.held = none →
      (s.link.clockedOut = 0 → dataOut s = some 165#8) ∧
      (s.link.clockedOut = 2 → dataOut s = some (BitVec.ofNat 8 r.kind)) ∧
      (s.link.clockedOut = 3 → dataOut s = some (BitVec.ofNat 8 r.code.value))) ∧
    (r.held = none → r.body = .empty → dataOut s = (bytes [])[s.link.clockedOut]?) ∧
    (∀ b, r.held = none → r.body = .events b → dataOut s = (bytes b)[s.link.clockedOut]?)) ∧
  (∀ s : State, s.link.pending = none → dataOut s = some 0#8)

/-- SOFT RESET is answered OK whatever state the part is in; collecting that response makes the link SILENT; while it is
SILENT no write begins and no operation is granted; with neither in flight the part is reset as by the RESET line, but
for the cause. (That the shutdown mark is no exception to the SILENT rule, and that the reset is taken after POWER_LOW
too, is the model's choice, log 39: R192 over R199; that RESPONSE COLLECTED ends the response whatever count of its bytes
has been clocked out, log 74.) -/
def Obligations.SoftResetWaitsAndResets : Prop :=
  ∀ (m : Moment) (s : State), s.supply.powered = true →
    let u := s.arrive m
    (Taking s → exec (.softReset m) s = .next ((taken 45 m s).respond 45 (.ok, .empty, none))) ∧
    (∀ r, s.link.pending = some r → r.held = none → exec (.responseCollected m) s = .next { u with link :=
      { u.link with pending := none, clockedOut := 0
                    condition := if r.kind = 45 ∧ r.code = .ok then .silent else s.link.condition } }) ∧
    (s.link.condition = .silent → exec (.recordWriteBegin m) s = .next u ∧ exec (.arbiterGrant m) s = .next u ∧
      exec (.shutdownMarkWrite m) s = .next u) ∧
    (s.link.condition = .silent → s.writer.inFlight ≠ none ∨ s.flash.inFlight ≠ none ∨ s.flash.statusDone = false →
      exec (.softResetExecute m) s = .next u) ∧
    (s.link.condition = .silent → s.writer.inFlight = none → s.flash.inFlight = none →
      s.flash.statusDone = true → ∃ t, exec (.reset m) s = .next t ∧ exec (.softResetExecute m) s = .next { t with supply :=
        { t.supply with cause := if t.supply.cause = .resetLine then .softReset else t.supply.cause } })

/-- The event flags: setting one sets it whatever the mask holds and changes no other, setting it again changes nothing;
ATTN is high exactly while a flag is set whose mask bit is 1; a reset clears every flag and sets every mask bit; the end
of start-up sets STARTED. -/
def Obligations.EventFlagsAndAttn : Prop :=
  (∀ (f : EventFlag) (s : State), (s.setFlag f).events.has f = true ∧ (s.setFlag f).events.mask = s.events.mask ∧
    (s.setFlag f).setFlag f = s.setFlag f ∧
    ∀ g, g ≠ f → (s.setFlag f).events.has g = s.events.has g) ∧
  (∀ s : State, attn s = true ↔ ∃ f : EventFlag, s.events.has f = true ∧ s.events.mask.getLsbD f.bit = true) ∧
  (∀ (m : Moment) (s : State), s.supply.powered = true → ∃ t, exec (.reset m) s = .next t ∧
    t.events = { flags := 0#16, mask := 0xFFFF#16 } ∧ attn t = false) ∧
  (∀ (m : Moment) (s : State), s.supply.powered = true → s.supply.shutdown = .starting → s.writer.queue = [] →
    s.writer.inFlight = some (.mark .running) → s.events.mask = 0xFFFF#16 → s.supply.powerLowEarly = false →
    ∃ t, exec (.recordWriteComplete m) s = .next t ∧ t.events.has .started = true ∧ attn t = true)

/-- READ EVENTS copies and clears the flags in every condition but start-up; a flag set afterwards stays set. SET EVENT
MASK replaces the mask and clears no flag; a set flag raises ATTN as soon as its mask bit is 1; a reset sets every bit. -/
def Obligations.ReadEventsCopiesAndClears : Prop :=
  (∀ (m : Moment) (s : State), Listening s → s.supply.shutdown ≠ .starting →
    let u := taken 41 m s
    exec (.readEvents m) s = .next ({ u with events := { u.events with flags := 0#16 } }.respond 41
      (.ok, .events [s.events.flags.extractLsb' 8 8, s.events.flags.extractLsb' 0 8, s.events.mask.extractLsb' 8 8,
        s.events.mask.extractLsb' 0 8], none))) ∧
  (∀ (f : EventFlag) (s : State), (s.setFlag f).events.has f = true) ∧
  (∀ (m : Moment) (mask : Half) (s : State), Taking s →
    let u := taken 42 m s
    exec (.setEventMask m mask) s =
      .next ({ u with events := { u.events with mask := mask } }.respond 42 (.ok, .empty, none))) ∧
  (∀ (f : EventFlag) (s : State) (mask : Half), s.events.has f = true → mask.getLsbD f.bit = true →
    attn { s with events := { s.events with mask := mask } } = true) ∧
  (∀ (m : Moment) (s : State), s.supply.powered = true →
    ∃ t, exec (.reset m) s = .next t ∧ t.events.mask = 0xFFFF#16) ∧
  (∀ (m : Moment) (s : State), Listening s → s.supply.shutdown = .starting →
    exec (.readEvents m) s = .next ((taken 41 m s).respond 41 (.busy, .empty, none)))

/-- READ STATUS is answered at once in every condition but start-up, with the values of R190, and changes nothing. -/
def Obligations.ReadStatusReportsEveryOwner : Prop :=
  ∀ (m : Moment) (s : State), Listening s → s.supply.shutdown ≠ .starting →
    let u := taken 40 m s
    exec (.readStatus m) s = .next (u.respond 40 (.ok, .status
      { cause := u.supply.cause, shutdown := u.supply.shutdown, mode := u.map.mode, shot := u.shot.state
        zoom := u.zoom.state, station := u.zoom.current, focus := u.focus.state, steady := u.steady.state
        meter := u.meter.state, scene := u.meter.filtered.map fun f => Int.fdiv (2 * f + 16) 32
        queue := u.store.queue.length, chain := u.chain.chain.length
        erased := (u.map.blocks.filter fun e => e.2 == .erased).length, reserved := u.map.reserved }, none))

/-- WRITE SETTINGS replaces all four settings when each is in range, and its response is held by the covering write of
SETTINGS; otherwise it changes nothing. READ SETTINGS answers the working copy. -/
def Obligations.SettingsAreWrittenWhole : Prop :=
  ∀ (m : Moment) (x : Settings) (s : State), Taking s →
    let u := taken 43 m s
    (1 ≤ x.target → x.target ≤ 65535 → x.weights.length = 48 → (∀ w ∈ x.weights, w ≤ 15) → 1 ≤ x.reservation →
      x.reservation ≤ 48 → x.flashBlocks = 4096 ∨ x.flashBlocks = 8192 →
      exec (.writeSettings m x) s = .next ({ u with settings := x, writer := u.writer.mark .settings }.respond 43
        (.ok, .empty, some (.covers [{ item := .settings, begun := false }])))) ∧
    (x.target = 0 ∨ 65535 < x.target ∨ x.weights.length ≠ 48 ∨ (∃ w ∈ x.weights, 15 < w) ∨ x.reservation = 0 ∨
        48 < x.reservation ∨ (x.flashBlocks ≠ 4096 ∧ x.flashBlocks ≠ 8192) →
      exec (.writeSettings m x) s = .next (u.respond 43 (.badField, .empty, none))) ∧
    (exec (.readSettings m) s = .next ((taken 44 m s).respond 44 (.ok, .settings s.settings, none)))

/-- The reads of one owner's state are answered at once with that state and change nothing. (READ FOCUS CURVE of an area
that was not measured is OK with the curve absent, log 26; a table name that names neither table is BAD_FIELD, log 47; in
CLOSING the sensor reading stands until SHUTTER CLOSED, log 3; READ FOCUS in APPROACHING shows the destination with the
class, area and lock sharpness it holds, log 71. All four are the model's.) -/
def Obligations.OwnerReadsChangeNothing : Prop :=
  ∀ (m : Moment) (s : State), Taking s →
    (let u := taken 7 m s
     exec (.catalogueSummary m) s = .next (u.respond 7 (.ok, .summary
      { free := 1024 - u.cat.places.length, reserved := countState u.cat.places .reserved
        exposing := countState u.cat.places .exposing, awaiting := countState u.cat.places .awaiting
        storing := countState u.cat.places .storing, stored := countState u.cat.places .stored
        failed := countState u.cat.places .failed, damaged := countState u.cat.places .damaged
        erased := u.map.erasedCount, reservedTotal := u.map.reserved
        dirtyUnchecked := u.map.dirtyCount + u.map.uncheckedCount, bad := u.map.badCount, mode := u.map.mode
        counter := u.cat.counter, queued := u.writer.queue.length }, none))) ∧
    (let u := taken 16 m s
     exec (.readMeter m) s = .next (u.respond 16 (.ok, .meter
      { state := u.meter.state, owner := u.meter.owner, note := u.meter.note, scene := reportedScene u.meter
        last := u.meter.last, frame := u.meter.frame, run := u.meter.run, recent := u.timers.block.isSome
        setup := u.meter.setup, exposure := u.meter.exposure }, none))) ∧
    (let u := taken 23 m s
     exec (.readZoom m) s = .next (u.respond 23 (.ok, .zoom
      { state := u.zoom.state, count := u.zoom.count, current := u.zoom.current, target := u.zoom.target
        drive := u.zoom.drive, period := u.zoom.period, park := u.lines.park, lastFault := u.zoom.lastFault
        gain := offeredGain u.zoom, table := u.zoom.working.isSome
        filled := (u.zoom.staging.filter (·.isSome)).length }, none))) ∧
    (let u := taken 24 m s
     (∀ n e, n ≤ 47 → u.zoom.staging[n]? = some (some e) →
      exec (.readLensStation m n (some .staging)) s = .next (u.respond 24 (.ok, .lensStation (.entry e), none))) ∧
     (∀ n, n ≤ 47 → u.zoom.staging[n]? = some none →
      exec (.readLensStation m n (some .staging)) s = .next (u.respond 24 (.ok, .lensStation .empty, none))) ∧
     (∀ n l e, n ≤ 47 → u.zoom.working = some l → l[n]? = some e →
      exec (.readLensStation m n (some .working)) s = .next (u.respond 24 (.ok, .lensStation (.entry e), none))) ∧
     (∀ n, n ≤ 47 → u.zoom.working = none →
      exec (.readLensStation m n (some .working)) s = .next (u.respond 24 (.ok, .lensStation .absent, none))) ∧
     (∀ n t, 47 < n ∨ t = none →
      exec (.readLensStation m n t) s = .next (u.respond 24 (.badField, .empty, none)))) ∧
    (let u := taken 31 m s
     exec (.readFocus m) s = .next (u.respond 31 (.ok, .focus
      { mode := u.focus.mode, state := u.focus.state, position := u.focus.position, held := u.focus.held
        approach := u.focus.approach, scan := u.focus.scan.map fun x => (x.first, x.last, x.current)
        follow := u.focus.follow, suspended := u.focus.suspended, lastEnd := u.focus.lastEnd
        areas := u.focus.areas }, none))) ∧
    (let u := taken 32 m s
     (∀ i, i ≤ 7 → exec (.readFocusCurve m i) s =
      .next (u.respond 32 (.ok, .curve (u.focus.curve.find? (·.id == i)), none))) ∧
     (∀ i, 7 < i → exec (.readFocusCurve m i) s = .next (u.respond 32 (.badField, .empty, none)))) ∧
    (let u := taken 34 m s
     exec (.readSteady m) s = .next (u.respond 34 (.ok, .steady
      { mode := u.steady.mode, state := u.steady.state, progress := u.steady.progress, good := u.steady.good
        discarded := u.steady.discarded, longGap := u.steady.longGap, lastSeq := u.steady.lastSeq
        pitch := { bias := u.steady.pitch.bias, angle := Int.tdiv u.steady.pitch.angle 100
                   target := u.steady.pitch.target, pan := u.steady.pitch.pan, clip := u.steady.pitch.clip }
        yaw := { bias := u.steady.yaw.bias, angle := Int.tdiv u.steady.yaw.angle 100
                 target := u.steady.yaw.target, pan := u.steady.yaw.pan, clip := u.steady.yaw.clip }
        gain := u.steady.gain, session := u.steady.session }, none))) ∧
    (let u := taken 39 m s
     exec (.readShot m) s = .next (u.respond 39 (.ok, .shot
      { state := u.shot.state, setup := u.shot.setup, reservation := u.settings.reservation
        lastGroup := u.shot.lastGroup
        burst := u.shot.burst.map fun b => { group := b.group, count := b.count, numbers := b.numbers, next := b.next
                                             released := b.released, disarmed := b.disarmed }
        exposure := u.shot.exposure.map fun e => (e.tv, e.av, u.timers.shutter, e.closedAt.isSome)
        learned := u.shot.learned, lastLatency := u.shot.lastLatency, lastMeasured := u.shot.lastMeasured
        iris := match u.shot.iris with | .at a => some a | .startRun | .moving _ => none
        release := u.lines.release
        expose := u.shot.state == .exposing || u.shot.state == .closing
        shutterClosed := if s.shot.state = .closing then s.lines.shutterClosed else m.shutterClosed }, none)))

/-! ### Power, start-up, Record Memory -/

/-- RESET and POWER ON leave every working block at the value its chapter gives, the cause by the shutdown mark, and
Record Memory as it was but for an item whose write was cut short, which is torn. The working values are those for which
a chapter states one; what start-up rebuilds from Record Memory stands in `StartUpRebuildsEveryPlace`. (That the input
lines keep their levels is the model's choice, log 10; the page register, absent until the port first gives it data, is
log 49.) -/
def Obligations.ResetLeavesTheStatedValues : Prop :=
  ∀ (m : Moment) (s : State) (c : Instr) (kind : ResetCause),
    (c = .reset m ∧ kind = .resetLine ∧ s.supply.powered = true) ∨ (c = .powerOn m ∧ kind = .powerOn) →
    ∃ t, exec c s = .next t ∧ t.pending = s.pending ∧ t.lines = (s.arrive m).lines ∧
      t.supply = { powered := true, shutdown := .starting, powerLow := false, powerLowEarly := false
                   shutDownTaken := false, markWritten := false, safe := false
                   cause := match t.memory.mark with
                     | .good .running | .good .clean => kind
                     | .good .powerFail | .torn => .afterPowerFail } ∧
      t.timers = { block := none, sample := none, data := none, stall := none, brake := none, pulse := none
                   lost := none, good := none, frame := none, shutter := none, confirm := none } ∧
      t.events = { flags := 0#16, mask := 0xFFFF#16 } ∧
      t.link = { receiver := .hunting, pending := none, clockedOut := 0, condition := .listening } ∧
      t.cat.snapshot = none ∧ t.writer.inFlight = none ∧ t.lane = .hunting ∧
      t.map.reserved = 0 ∧ t.map.allocCursor = 0 ∧ t.map.eraseCursor = 0 ∧ t.map.prepare = none ∧
      t.map.inHand = none ∧
      t.flash = { statusDone := false, inFlight := none, store := none, read := none, refresh := none, last := none
                  lastMiddle := .refresh, register := none, writeProtect := true, protectDue := false } ∧
      t.store.queue = [] ∧ t.store.stream = .closed ∧ t.store.bufA = { state := .empty, data := [] } ∧
      t.store.bufB = { state := .empty, data := [] } ∧ t.store.heldEnd = none ∧ t.store.heldStart = false ∧
      t.store.recovery = none ∧
      t.chain.chain = [] ∧ t.chain.run = none ∧ t.chain.buffer = none ∧ t.chain.owed = none ∧ t.chain.refresh = none ∧
      t.meter = { state := .noData, filtered := none, last := none, frame := none, run := 0, owner := .none
                  note := false, exposure := none
                  setup := { mode := .program, pattern := .matrix, sensitivity := .auto 0, compensation := 0, av := 11
                             tv := 18 } } ∧
      t.zoom.state = .unhomed ∧ t.zoom.count = none ∧ t.zoom.current = none ∧ t.zoom.target = none ∧
      t.zoom.drive = .off ∧ t.zoom.period = none ∧ t.zoom.lastFault = .none ∧
      t.focus = { mode := .single, state := .unhomed, position := none, held := none, approach := none
                  trackOwed := false, move := none, homing := none, scan := none, curve := [], follow := 0
                  suspended := false, areas := [], lastEnd := .none } ∧
      t.steady.mode = .off ∧ t.steady.state = .off ∧ t.gyro = { phase := .hunting, whole := [] } ∧ t.steady.lastSeq = none ∧
      t.steady.good = 0 ∧ t.steady.discarded = 0 ∧ t.steady.longGap = 0 ∧ t.steady.session = none ∧
      t.steady.progress = 0 ∧
      t.steady.pitch = { bias := none, angle := 0, pan := false, panOn := 0, panOff := 0, target := 0, clip := false } ∧
      t.steady.yaw = t.steady.pitch ∧
      t.shot.state = .idle ∧ t.shot.lastGroup = 0 ∧ t.shot.burst = none ∧ t.shot.exposure = none ∧
      t.shot.lastLatency = none ∧ t.shot.lastMeasured = none ∧
      t.shot.learned = 5000 ∧ t.shot.setup = { count := 1, interval := 250, policy := .focusFirst, trigger := .press } ∧
      (s.writer.inFlight = none → t.memory = s.memory) ∧
      (∀ p r, s.writer.inFlight = some (.place p r) →
        t.memory = { s.memory with places := Table.put p .torn s.memory.places }) ∧
      (∀ n, s.writer.inFlight = some (.counter n) → t.memory = { s.memory with counter := .torn }) ∧
      (∀ x, s.writer.inFlight = some (.settings x) → t.memory = { s.memory with settings := .torn }) ∧
      (∀ x, s.writer.inFlight = some (.lensTable x) → t.memory = { s.memory with lensTable := .torn }) ∧
      (∀ l, s.writer.inFlight = some (.badList l) → t.memory = { s.memory with badList := .torn }) ∧
      (∀ x, s.writer.inFlight = some (.identity x) → t.memory = { s.memory with identity := .torn }) ∧
      (∀ k, s.writer.inFlight = some (.mark k) → t.memory = { s.memory with mark := .torn })

/-- POWER LOST: nothing but Record Memory outlives it, and a write in flight leaves its item torn. -/
def Obligations.PowerLossKeepsRecordMemory : Prop :=
  ∀ (m : Moment) (s : State), s.supply.powered = true →
    ∃ t, exec (.powerLost m) s = .next t ∧ t.supply.powered = false ∧ t.pending = s.pending ∧ t.cat.places = [] ∧
      t.writer = { queue := [], inFlight := none } ∧ t.flash.inFlight = none ∧ t.link.pending = none ∧
      (s.writer.inFlight = none → t.memory = s.memory) ∧
      (∀ p r, s.writer.inFlight = some (.place p r) →
        t.memory = { s.memory with places := Table.put p .torn s.memory.places }) ∧
      (∀ n, s.writer.inFlight = some (.counter n) → t.memory = { s.memory with counter := .torn }) ∧
      (∀ x, s.writer.inFlight = some (.settings x) → t.memory = { s.memory with settings := .torn }) ∧
      (∀ x, s.writer.inFlight = some (.lensTable x) → t.memory = { s.memory with lensTable := .torn }) ∧
      (∀ l, s.writer.inFlight = some (.badList l) → t.memory = { s.memory with badList := .torn }) ∧
      (∀ x, s.writer.inFlight = some (.identity x) → t.memory = { s.memory with identity := .torn }) ∧
      (∀ k, s.writer.inFlight = some (.mark k) → t.memory = { s.memory with mark := .torn })

/-- Start-up's rebuild from Record Memory. Places (R196): a torn one is DAMAGED and unreadable; RESERVED and, while the
block total is 0, STORED become FREE; EXPOSING, AWAITING and STORING fail with INTERRUPTED; every place changed is
dirty. The other items, readable or not (R12, R195). The block map, and which of two STORED records keeps a block (R197,
settled in ascending place order, log 35). -/
def Obligations.StartUpRebuildsEveryPlace : Prop :=
  ∀ (m : Moment) (s : State), Canonical s → s.supply.powered = true → s.writer.inFlight = none →
    ∃ t, exec (.reset m) s = .next t ∧
      (∀ p, Table.get p s.memory.places = none → t.record p = none) ∧
      (∀ p, Table.get p s.memory.places = some .torn → t.record p = some
        { number := none, state := .damaged, cause := none, armed := none, measured := none, focusStep := none
          steady := none, peakShift := none, remaining := 0, extent := [], refreshExtent := none, picture := none
          protect := false, rating := 0, caption := [], trim := none, peak := 0, weak := false, unreadable := false
          holds := 0 } ∧ .place p ∈ t.writer.queue) ∧
      (∀ p r, Table.get p s.memory.places = some (.good r) →
        (r.state = .reserved → t.record p = none ∧ .place p ∈ t.writer.queue) ∧
        (r.state = .exposing ∨ r.state = .awaiting ∨ r.state = .storing → t.record p = some
          { r with state := .failed, cause := some .interrupted, remaining := 0, extent := [], refreshExtent := none
                   picture := none, trim := none, holds := 0 } ∧ .place p ∈ t.writer.queue) ∧
        (r.state = .failed ∨ r.state = .damaged → t.record p = some { r with refreshExtent := none, holds := 0 }) ∧
        (r.state = .stored → t.map.total = 0 → t.record p = none ∧ .place p ∈ t.writer.queue) ∧
        (r.state = .stored → t.map.total ≠ 0 →
          (∀ j x, j < p → Table.get j s.memory.places = some (.good x) → x.state = .stored → ∀ b ∈ x.extent,
            b ∉ r.extent) → t.record p = some { r with remaining := 0, refreshExtent := none, holds := 0 }) ∧
        (r.state = .stored → 0 < r.remaining → .place p ∈ t.writer.queue)) ∧
      (∀ p q r x y b, p < q → Table.get p s.memory.places = some (.good r) →
        Table.get q s.memory.places = some (.good x) → r.state = .stored → x.state = .stored → t.map.total ≠ 0 →
        b ∈ r.extent → b ∈ x.extent → t.record p = some y → y.state = .stored →
        t.record q = some { x with state := .damaged, extent := [], picture := none, trim := none, remaining := 0
                                   refreshExtent := none, holds := 0 } ∧ .place q ∈ t.writer.queue) ∧
      (∀ n, s.memory.counter = .good n → t.cat.counter = n) ∧
      (s.memory.counter = .torn → .counter ∈ t.writer.queue ∧
        ((∀ p r, t.record p = some r → r.number = none) → t.cat.counter = 1) ∧
        (∀ p r n, t.record p = some r → r.number = some n →
          (∀ q x k, t.record q = some x → x.number = some k → k ≤ n) →
          t.cat.counter = if 9999 ≤ n then 1 else n + 1)) ∧
      (∀ x, s.memory.settings = .good x → t.settings = x) ∧
      (s.memory.settings = .torn → t.settings.target = 11800 ∧ t.settings.reservation = 32 ∧
        t.settings.flashBlocks = 4096 ∧ t.settings.weights.length = 48 ∧
        (∀ col, col < 8 → ∀ row, row < 6 → t.settings.weights[row * 8 + col]? = some
          (if 3 ≤ col ∧ col ≤ 4 ∧ 2 ≤ row ∧ row ≤ 3 then 8
            else if 2 ≤ col ∧ col ≤ 5 ∧ 1 ≤ row ∧ row ≤ 4 then 4 else 2)) ∧ .settings ∈ t.writer.queue) ∧
      (∀ x, s.memory.lensTable = .good x → t.zoom.working = x ∧ (∀ l, x = some l → t.zoom.staging = l.map some)) ∧
      (s.memory.lensTable = .torn ∨ s.memory.lensTable = .good none → t.zoom.working = none ∧
        t.zoom.staging = List.replicate 48 none) ∧
      (∀ l, s.memory.badList = .good l → t.map.badList = l) ∧
      (s.memory.badList = .torn → t.map.badList = [] ∧ t.map.mode = .unprepared) ∧
      (∀ n l, s.memory.identity = .good (some n) → t.map.total = n ∧ t.map.identity = some n ∧
        (s.memory.badList = .good l → t.map.mode = .writable)) ∧
      (s.memory.identity = .good none ∨ s.memory.identity = .torn → t.map.total = 0 ∧ t.map.identity = none ∧
        t.map.mode = .unprepared) ∧
      .lensTable ∉ t.writer.queue ∧ .badList ∉ t.writer.queue ∧ .identity ∉ t.writer.queue ∧
      (∀ b, let kept : Prop := ∃ p r, t.record p = some r ∧ r.state = .stored ∧ b ∈ r.extent
        (b < t.map.total → kept → t.map.stateOf b = .inUse) ∧
        (b < t.map.total → ¬kept → Table.get b t.map.badList ≠ none → t.map.stateOf b = .bad) ∧
        (t.map.total ≤ b ∨ (¬kept ∧ Table.get b t.map.badList = none) → t.map.stateOf b = .unchecked))

/-- The end of start-up: the mark RUNNING is written, the shutdown state is RUNNING, STARTED is set, write-protect
follows the store mode, the iris run begins; a POWER_LOW asserted meanwhile is only noted until then and is taken at
that moment. (That the row START UP END takes effect with an empty queue while the Writer is idle or writes the
mark is read by inference, log 25.) -/
def Obligations.StartUpEndsWithTheMarkRunning : Prop :=
  ∀ (m : Moment) (s : State), s.supply.powered = true → s.supply.shutdown = .starting →
    let u := s.arrive m
    exec (.powerLow m) s = .next { u with supply := { u.supply with powerLowEarly := true } } ∧
    (s.writer.queue = [] → s.writer.inFlight = none ∨ s.writer.inFlight = some (.mark .running) →
      s.flash.protectDue = false →
      (s.supply.powerLowEarly = false → exec (.startUpEnd m) s = .next ({ u with
        memory := { u.memory with mark := .good .running }, writer := { queue := [], inFlight := none }
        supply := { u.supply with shutdown := .running }, shot := { u.shot with iris := .startRun }
        flash := { u.flash with writeProtect := decide (u.map.mode = StoreMode.unprepared) } }.setFlag .started)) ∧
      (s.supply.powerLowEarly = true → ∃ t, exec (.startUpEnd m) s = .next t ∧ t.supply.shutdown = .draining ∧
        t.supply.powerLow = true ∧ t.events.has .started = true ∧ t.events.has .powerLow = true))

/-- POWER_LOW taken: the duties of section 11.3, block by block. In SHUT_DOWN it only sets its flag, and once taken it
is not taken again. The Store Engine fails every queued record with POWER (R70); the Read Chain gives every hold back
and the refresh its new extent (R81, R87); a prepare ends with no block known (R27, R50; when, log 13); the Shot
Sequencer ends its shot and gives the metering lock back (R108, R181); an exposure whose shutter already reads closed
fails with POWER at once, its time measured (R173, R181). (That the exposure is recomputed with the Stabilizer OFF is
the model's choice, log 59; so are the run count 0 of a metering that the end of its SHOT lock leaves STALE, log 72, and
the mark of the place of a refresh abandoned with nothing reserved left, log 73.) -/
def Obligations.PowerLowHandsOutItsDuties : Prop :=
  ∀ (m : Moment) (s : State), s.supply.powered = true →
    (s.supply.powerLow = true → s.supply.shutdown ≠ .starting → exec (.powerLow m) s = .next (s.arrive m)) ∧
    (s.supply.powerLow = false → s.supply.shutdown = .shutDown →
      exec (.powerLow m) s = .next ((s.arrive m).setFlag .powerLow)) ∧
    (s.supply.powerLow = false → s.supply.shutdown = .running ∨ s.supply.shutdown = .draining →
      let u := s.arrive m
      let shotEnds : Prop := s.shot.state = .armed ∨ s.shot.state = .waitSteady ∨ s.shot.state = .interval ∨
        s.shot.state = .queueWait ∨ s.shot.state = .fault
      let apart (n : Nat) : Prop := ∀ x, s.shot.exposure = some x → x.number ≠ n
      ∃ t, exec (.powerLow m) s = .next t ∧
        t.supply = { s.supply with powerLow := true, shutdown := .draining } ∧ t.events.has .powerLow = true ∧
        t.store.queue = [] ∧ t.store.stream = .closed ∧ t.store.heldStart = false ∧ t.store.marks = [] ∧
        t.flash.store = none ∧ t.flash.read = none ∧ t.flash.refresh = none ∧ t.chain.refreshMarks = [] ∧
        inLaneReady t = false ∧ t.chain.chain = [] ∧ t.chain.owed = none ∧ t.chain.refresh = none ∧
        (∀ x, t.flash.inFlight = some x → x.claimant = .store ∨ x.claimant = .readChain → x.discard = true) ∧
        t.map.mode ≠ .preparing ∧ t.zoom.state = .unhomed ∧ t.zoom.drive = .braked ∧ t.zoom.count = none ∧
        t.focus.state = .unhomed ∧ t.focus.position = none ∧ t.focus.move = none ∧
        t.steady.state = .off ∧ t.steady.pitch.target = 0 ∧ t.steady.yaw.target = 0 ∧ t.timers.lost = none ∧
        t.flash.protectDue = true ∧
        (t.flash.inFlight = none → s.flash.statusDone = true → t.flash.writeProtect = true) ∧
        t.link = u.link ∧ t.memory = s.memory ∧ t.settings = s.settings ∧
        (s.map.mode = .preparing → t.map.mode = .unprepared ∧ t.map.total = 0 ∧ t.map.blocks = [] ∧
          t.map.identity = none) ∧
        (s.map.mode ≠ .preparing → t.map.mode = s.map.mode ∧ t.map.total = s.map.total ∧
          t.map.identity = s.map.identity) ∧
        (s.store.queue ≠ [] → t.events.has .storeFailed = true) ∧
        (∀ n p r, Canonical s → n ∈ s.store.queue → findNumber n s.cat.places = some (p, r) →
          r.state = .awaiting ∨ r.state = .storing → apart n → ∃ x, t.record p = some x ∧ x.number = some n ∧
            x.state = .failed ∧ x.cause = some .power ∧ x.remaining = 0 ∧ x.extent = [] ∧ x.picture = none ∧
            x.trim = none ∧ Item.place p ∈ t.writer.queue ∧ t.map.reserved ≤ s.map.reserved - r.remaining ∧
            (s.store.queue = [n] → s.shot.state = .idle → s.chain.refresh = none →
              t.map.reserved = s.map.reserved - r.remaining) ∧
            (s.map.mode ≠ .preparing → ∀ b ∈ r.extent, s.map.stateOf b = .inUse →
              ∃ w, t.map.stateOf b = .dirty w)) ∧
        (∀ n p r, Canonical s → findNumber n s.cat.places = some (p, r) → r.state = .stored → n ∉ s.store.queue →
          apart n →
          let held := (s.chain.chain.filter fun d => d.number = n).length
          ((∀ f, s.chain.refresh = some f → f.number ≠ n) → t.record p = some { r with holds := r.holds - held }) ∧
          (∀ f, s.chain.refresh = some f → f.number = n → t.record p = some
              { r with refreshExtent := none, remaining := 0, holds := r.holds - held - 1 } ∧
            Item.place p ∈ t.writer.queue ∧ t.map.reserved ≤ s.map.reserved - r.remaining ∧
            (s.map.mode ≠ .preparing → ∀ ns, r.refreshExtent = some ns → ∀ b ∈ ns, s.map.stateOf b = .inUse →
              ∃ w, t.map.stateOf b = .dirty w))) ∧
        (s.shot.state = .idle → t.shot = s.shot) ∧
        (shotEnds → t.shot.state = .idle ∧ t.shot.burst = none ∧ t.shot.exposure = none ∧ t.timers.frame = none ∧
          t.events.has .burstEnded = true ∧
          (s.meter.owner = .shot → s.meter.note = false → t.meter.owner = .none ∧ t.meter.run = 0 ∧
            t.meter.state = if u.timers.block = none then .stale else .tracking) ∧
          (s.meter.owner = .shot → s.meter.note = true → t.meter.owner = .request ∧ t.meter.note = false ∧
            t.meter.state = s.meter.state)) ∧
        (s.shot.state = .preparing ∨ s.shot.state = .closing → t.shot = { s.shot with
          burst := s.shot.burst.map fun b : Burst => { b with disarmed := true } }) ∧
        (∀ x, s.shot.state = .exposing → s.shot.exposure = some x → m.shutterClosed = false →
          t.timers.confirm = some 0 ∧ t.shot = { s.shot with
            state := .closing, burst := s.shot.burst.map fun b : Burst => { b with disarmed := true }
            exposure := some { x with cutShort := true, closedAt := u.timers.shutter } }) ∧
        (∀ x p r total, Canonical s → s.shot.state = .exposing → s.shot.exposure = some x → m.shutterClosed = true →
          u.timers.shutter = some total → findNumber x.number s.cat.places = some (p, r) → r.state = .exposing →
          t.shot.state = .idle ∧ t.shot.burst = none ∧ t.shot.exposure = none ∧ t.shot.lastMeasured = some total ∧
          t.shot.lastLatency = some 0 ∧ t.timers.shutter = none ∧ t.timers.confirm = none ∧
          t.events.has .shotEnded = true ∧ t.events.has .burstEnded = true ∧
          ∃ y, t.record p = some y ∧ y.number = some x.number ∧ y.state = .failed ∧ y.cause = some .power ∧
            y.measured = some total ∧ y.remaining = 0 ∧ y.extent = [] ∧ Item.place p ∈ t.writer.queue) ∧
        (∀ b k p r, Canonical s → shotEnds ∨ s.shot.state = .exposing ∨ s.shot.state = .closing →
          s.shot.burst = some b → k ∈ b.numbers → findNumber k s.cat.places = some (p, r) → r.state = .reserved →
          apart k → t.record p = none))

/-- SHUT DOWN's checks in their order, its acceptance with the response held by the mark, the writing of the mark at the
end of the drain (POWER_FAIL after POWER_LOW, else CLEAN), and SAFE. (That the drain waits for an item going out on the
Out Lane is the model's choice, log 29; that it does not wait for an owed CANCELLED marker that has not begun, log 48.)
-/
def Obligations.ShutDownDrainsAndRaisesSafe : Prop :=
  (∀ (m : Moment) (s : State), Taking s →
    let u := taken 46 m s
    (s.zoom.state ≠ .parked → exec (.shutDown m) s = .next (u.respond 46 (.wrongState, .empty, none))) ∧
    (s.zoom.state = .parked → (s.shot.state ≠ .idle ∨ s.store.queue ≠ [] ∨ s.chain.chain ≠ [] ∨
        s.chain.refresh ≠ none ∨ s.map.mode = .preparing) →
      exec (.shutDown m) s = .next (u.respond 46 (.busy, .empty, none))) ∧
    (s.zoom.state = .parked → s.shot.state = .idle → s.store.queue = [] → s.chain.chain = [] →
      s.chain.refresh = none → s.map.mode ≠ .preparing →
      ∃ t, exec (.shutDown m) s = .next t ∧
        t.supply = { s.supply with shutdown := .draining, shutDownTaken := true } ∧
        t.steady.state = .off ∧ t.steady.pitch.target = 0 ∧ t.steady.yaw.target = 0 ∧
        t.flash.protectDue = true ∧ (s.flash.inFlight = none → s.flash.statusDone = true → t.flash.writeProtect = true) ∧
        t.link.pending = some { kind := 46, code := .ok, body := .empty, held := some .mark } ∧
        t.writer = s.writer ∧ t.memory = s.memory ∧ t.cat.places = s.cat.places ∧ t.zoom = s.zoom)) ∧
  (∀ (m : Moment) (s : State), s.supply.powered = true → s.supply.shutdown = .draining →
    s.supply.markWritten = false → s.link.condition = .listening → s.writer = { queue := [], inFlight := none } →
    s.shot.state = .idle → s.store.queue = [] → s.chain.chain = [] → s.chain.refresh = none → s.chain.item = none →
    s.flash.inFlight = none → s.flash.statusDone = true →
    exec (.shutdownMarkWrite m) s = .next { s.arrive m with writer :=
      { queue := [], inFlight := some (.mark (if s.supply.powerLow then .powerFail else .clean)) } }) ∧
  (∀ (m : Moment) (s : State) (k : Mark), s.supply.powered = true → s.supply.shutdown = .draining →
    s.writer.inFlight = some (.mark k) →
    ∃ t, exec (.recordWriteComplete m) s = .next t ∧ t.memory = { s.memory with mark := .good k } ∧
      t.supply = { s.supply with markWritten := true } ∧ t.writer.inFlight = none ∧
      ∀ r, s.link.pending = some r → r.held = some .mark → t.link.pending = some { r with held := none }) ∧
  (∀ (m : Moment) (s : State), s.supply.powered = true → s.supply.shutdown = .draining →
    s.supply.markWritten = true → s.flash.writeProtect = true →
    exec (.safe m) s = .next { s.arrive m with supply := { s.supply with safe := true, shutdown := .shutDown } })

/-- An item that becomes dirty joins the tail of the write queue unless it already waits; the queue then still holds no
item twice. -/
def Obligations.DirtyItemsJoinTheTail : Prop :=
  ∀ (i : Item) (w : Writer),
    (i ∈ w.queue → w.mark i = w) ∧ (i ∉ w.queue → w.mark i = { w with queue := w.queue ++ [i] }) ∧
    (w.queue.Nodup → (w.mark i).queue.Nodup)

/-- RECORD WRITE BEGIN takes the head item off the queue and copies it; RECORD WRITE COMPLETE puts the copy into Record
Memory: a place's record or its emptiness, the counter, SETTINGS, the LENS TABLE, the BAD LIST or the STORE IDENTITY,
whose write is what a prepare waits for (R49, R50). A held response, of one cover or of many, is ready once every
covering write, one that began after the request, has completed. -/
def Obligations.WritesCarryTheCopyAndCoverResponses : Prop :=
  (∀ (m : Moment) (s : State) (i : Item) (rest : List Item), s.supply.powered = true → s.writer.inFlight = none →
    s.link.condition = .listening → s.writer.queue = i :: rest →
    ∃ t c, exec (.recordWriteBegin m) s = .next t ∧ t.writer = { queue := rest, inFlight := some c } ∧
      t.memory = s.memory ∧ t.cat = s.cat ∧
      (∀ p, i = .place p → c = .place p ((s.record p).map fun r => { r with holds := 0, refreshExtent := none })) ∧
      (i = .counter → c = .counter s.cat.counter) ∧ (i = .settings → c = .settings s.settings) ∧
      (i = .lensTable → c = .lensTable s.zoom.working) ∧ (i = .badList → c = .badList s.map.badList) ∧
      (i = .identity → c = .identity s.map.identity) ∧
      (∀ r cs, s.link.pending = some r → r.held = some (.covers cs) → t.link.pending =
        some { r with held := some (.covers (cs.map fun x => if x.item = i then { x with begun := true } else x)) }) ∧
      (∀ p b, i = .place p → s.map.stateOf b = .dirty (.begins p) → t.map.stateOf b = .dirty (.completes p)) ∧
      (i = .identity → (∀ x, s.map.prepare = some (.identityNone x) → t.map.prepare = some (.identityNone true)) ∧
        (∀ x, s.map.prepare = some (.identityTotal x) → t.map.prepare = some (.identityTotal true)))) ∧
  (∀ (m : Moment) (s : State) (c : Copy), Canonical s → s.supply.powered = true → s.writer.inFlight = some c →
    (∀ k, c ≠ .mark k) →
    ∃ t, exec (.recordWriteComplete m) s = .next t ∧ t.writer = { s.writer with inFlight := none } ∧ t.cat = s.cat ∧
      (∀ p x, c = .place p x → t.memory = { s.memory with places := t.memory.places } ∧
        Table.get p t.memory.places = x.map .good ∧
        (∀ j, j ≠ p → Table.get j t.memory.places = Table.get j s.memory.places) ∧
        (∀ b, s.map.stateOf b = .dirty (.completes p) → t.map.stateOf b = .dirty .ready) ∧
        (∀ b, s.map.stateOf b ≠ .dirty (.completes p) → t.map.stateOf b = s.map.stateOf b)) ∧
      (∀ n, c = .counter n → t.memory = { s.memory with counter := .good n } ∧ t.map = s.map) ∧
      (∀ x, c = .settings x → t.memory = { s.memory with settings := .good x } ∧ t.map = s.map) ∧
      (∀ x, c = .lensTable x → t.memory = { s.memory with lensTable := .good x } ∧ t.map = s.map) ∧
      (∀ l, c = .badList l → t.memory = { s.memory with badList := .good l } ∧ t.map = s.map) ∧
      (∀ x, c = .identity x → t.memory = { s.memory with identity := .good x } ∧
        t.map = { s.map with prepare := t.map.prepare } ∧
        (s.map.prepare = some (.identityNone true) → t.map.prepare = some .scanDue) ∧
        (s.map.prepare = some (.identityTotal true) → t.map.prepare = some .endDue) ∧
        (s.map.prepare ≠ some (.identityNone true) → s.map.prepare ≠ some (.identityTotal true) →
          t.map.prepare = s.map.prepare)) ∧
      (s.link.pending = none → t.link = (s.arrive m).link) ∧
      (∀ r, s.link.pending = some r → (∀ cs, r.held ≠ some (.covers cs)) → t.link.pending = some r) ∧
      (∀ i r cs, c.item = some i → s.link.pending = some r → r.held = some (.covers cs) →
        let left : List Cover := cs.filter fun x => !(x.item == i && x.begun)
        t.link.pending = some { r with held := if left = [] then none else some (.covers left) }))

/-! ### The catalogue -/

/-- R13: naming a record by number or by place, with its refusals, for LOOKUP, AMEND and RETIRE. -/
def Obligations.RecordsAreNamedByNumberOrPlace : Prop :=
  (∀ (s : State) (n : Nat), n < 1 ∨ 9999 < n → resolve s (.byNumber n) = .error .badField) ∧
  (∀ (s : State) (p : Nat), 1023 < p → resolve s (.byPlace p) = .error .badField) ∧
  (∀ (s : State) (n : Nat), 1 ≤ n → n ≤ 9999 → Canonical s →
    (∀ p r, resolve s (.byNumber n) = .ok (p, r) → s.record p = some r ∧ r.number = some n) ∧
    ((∀ p r, s.record p = some r → r.number ≠ some n) → resolve s (.byNumber n) = .error .noSuchRecord) ∧
    (∀ p r, s.record p = some r → r.number = some n → ∃ q x, resolve s (.byNumber n) = .ok (q, x))) ∧
  (∀ (s : State) (p : Nat), p ≤ 1023 →
    (s.record p = none → resolve s (.byPlace p) = .error .noSuchRecord) ∧
    (∀ r, s.record p = some r → resolve s (.byPlace p) = .ok (p, r))) ∧
  (∀ (m : Moment) (s : State) (x : RecordName) (e : Code), Taking s → resolve s x = .error e →
    exec (.lookup m x) s = .next ((taken 1 m s).respond 1 (e, .empty, none)) ∧
    (∀ c, s.map.mode ≠ .preparing → amendEmpty c = false →
      exec (.amend m x c) s = .next ((taken 4 m s).respond 4 (e, .empty, none))) ∧
    (s.map.mode ≠ .preparing → exec (.retire m x) s = .next ((taken 5 m s).respond 5 (e, .empty, none))))

/-- LOOKUP and FIND NEXT answer the header part and keep the extent parts, 24 blocks each; NEXT PART answers them in
order, then NO_MORE_PARTS. (A filter that is neither STORED nor ALL is BAD_FIELD, the model's choice, log 47.) -/
def Obligations.LookupsAnswerInParts : Prop :=
  ∀ (m : Moment) (s : State), Taking s →
    let header (p : Nat) (r : PicRecord) : Body := .header
      { place := p, parts := 1 + (r.extent.length + 23) / 24, record := { r with extent := [], refreshExtent := none }
        extentLength := r.extent.length, refreshRunning := r.refreshExtent.isSome }
    let parts (r : PicRecord) : Option (List (Nat × List Nat)) :=
      if r.extent = [] then none
      else if r.extent.length ≤ 24 then some [(2, r.extent)]
      else some [(2, r.extent.take 24), (3, r.extent.drop 24)]
    (∀ x p r, resolve s x = .ok (p, r) →
      let u := taken 1 m s
      exec (.lookup m x) s =
        .next ({ u with cat := { u.cat with snapshot := parts r } }.respond 1 (.ok, header p r, none))) ∧
    (∀ n f k p r, n ≤ 9999 → nextRecord n f s.cat.places = some (k, p, r) →
      let u := taken 3 m s
      exec (.findNext m n (some f)) s =
        .next ({ u with cat := { u.cat with snapshot := parts r } }.respond 3 (.ok, header p r, none))) ∧
    (∀ n f, n ≤ 9999 → nextRecord n f s.cat.places = none →
      exec (.findNext m n (some f)) s = .next ((taken 3 m s).respond 3 (.none, .empty, none))) ∧
    (∀ n f, 9999 < n → exec (.findNext m n (some f)) s = .next ((taken 3 m s).respond 3 (.badField, .empty, none))) ∧
    (∀ n, exec (.findNext m n none) s = .next ((taken 3 m s).respond 3 (.badField, .empty, none))) ∧
    (let u := taken 2 m s
     (∀ k bs, s.cat.snapshot = some [(k, bs)] → exec (.nextPart m) s =
      .next ({ u with cat := { u.cat with snapshot := none } }.respond 2 (.ok, .extentPart k bs, none))) ∧
     (∀ k bs y rest, s.cat.snapshot = some ((k, bs) :: y :: rest) → exec (.nextPart m) s =
      .next ({ u with cat := { u.cat with snapshot := some (y :: rest) } }.respond 2 (.ok, .extentPart k bs, none))) ∧
     (s.cat.snapshot = none → exec (.nextPart m) s = .next (u.respond 2 (.noMoreParts, .empty, none))))

/-- FIND NEXT's search: the smallest picture number above n among the records the filter admits, or none. -/
def Obligations.FindNextTakesTheSmallestNumberAbove : Prop :=
  ∀ (n : Nat) (f : FindFilter) (places : List (Nat × PicRecord)),
    (∀ k p r, nextRecord n f places = some (k, p, r) →
      (p, r) ∈ places ∧ r.number = some k ∧ n < k ∧ (f = .stored → r.state = .stored) ∧
      ∀ q x j, (q, x) ∈ places → x.number = some j → n < j → (f = .stored → x.state = .stored) → k ≤ j) ∧
    (nextRecord n f places = none → ∀ q x j, (q, x) ∈ places → x.number = some j → n < j →
      ¬(f = .stored → x.state = .stored))

/-- AMEND's checks in their order, and an accepted one: all its changes at once, the place dirty, the response held by
the place's covering write. (That an AMEND with no change is refused after BUSY and before the record is looked up is the
model's choice, log 41.) -/
def Obligations.AmendChangesOneRecordAtOnce : Prop :=
  ∀ (m : Moment) (s : State) (x : RecordName) (c : AmendChange), Taking s →
    let u := taken 4 m s
    let bad : State := u.respond 4 (.badField, .empty, none)
    let wrong : State := u.respond 4 (.wrongState, .empty, none)
    (s.map.mode = .preparing → exec (.amend m x c) s = .next (u.respond 4 (.busy, .empty, none))) ∧
    (s.map.mode ≠ .preparing → c = { protect := none, rating := none, caption := none, trim := none } →
      exec (.amend m x c) s = .next bad) ∧
    (s.map.mode ≠ .preparing → c ≠ { protect := none, rating := none, caption := none, trim := none } →
      ∀ p r, resolve s x = .ok (p, r) →
      (r.state = .damaged → exec (.amend m x c) s = .next wrong) ∧
      (∀ b, r.state ≠ .stored → c.trim = some (.set b) → exec (.amend m x c) s = .next wrong) ∧
      (∀ k, r.state ≠ .damaged → r.state = .stored ∨ (∀ b, c.trim ≠ some (.set b)) → c.rating = some k → 5 < k →
        exec (.amend m x c) s = .next bad) ∧
      (∀ cap, r.state ≠ .damaged → r.state = .stored ∨ (∀ b, c.trim ≠ some (.set b)) → c.caption = some cap →
        32 < cap.length ∨ (∃ ch ∈ cap, ch.toNat < 32 ∨ 126 < ch.toNat) → exec (.amend m x c) s = .next bad) ∧
      (∀ b y, r.state = .stored → c.trim = some (.set b) → r.picture = some y →
        b.width = 0 ∨ b.height = 0 ∨ y.width < b.left + b.width ∨ y.height < b.top + b.height →
        exec (.amend m x c) s = .next bad) ∧
      (r.state ≠ .damaged → (∀ k, c.rating = some k → k ≤ 5) →
        (∀ cap, c.caption = some cap → cap.length ≤ 32 ∧ ∀ ch ∈ cap, 32 ≤ ch.toNat ∧ ch.toNat ≤ 126) →
        (∀ b, c.trim = some (.set b) → r.state = .stored ∧ ∃ y, r.picture = some y ∧ 1 ≤ b.width ∧ 1 ≤ b.height ∧
          b.left + b.width ≤ y.width ∧ b.top + b.height ≤ y.height) →
        let amended : PicRecord := { r with
          protect := c.protect.getD r.protect, rating := c.rating.getD r.rating
          caption := c.caption.getD r.caption
          trim := match c.trim with | some (.set b) => some b | some .remove => none | none => r.trim }
        exec (.amend m x c) s = .next ({ u with
          cat := { u.cat with places := Table.put p amended u.cat.places }
          writer := u.writer.mark (.place p) }.respond 4
            (.ok, .empty, some (.covers [{ item := .place p, begun := false }])))))

/-- RETIRE's checks in their order, and what it and CLEAR CATALOGUE free: the place, its reservation, its blocks, which
become DIRTY and wait for the place's write; the response is held by the covering writes. -/
def Obligations.RetiringFreesPlacesAndBlocks : Prop :=
  (∀ (m : Moment) (s : State) (x : RecordName), Taking s →
    let u := taken 5 m s
    (s.map.mode = .preparing → exec (.retire m x) s = .next (u.respond 5 (.busy, .empty, none))) ∧
    (s.map.mode ≠ .preparing → ∀ p r, resolve s x = .ok (p, r) →
      (r.state ≠ .stored → r.state ≠ .failed → r.state ≠ .damaged →
        exec (.retire m x) s = .next (u.respond 5 (.wrongState, .empty, none))) ∧
      (r.state = .stored ∨ r.state = .failed ∨ r.state = .damaged → r.protect = true →
        exec (.retire m x) s = .next (u.respond 5 (.protect, .empty, none))) ∧
      (r.state = .stored ∨ r.state = .failed ∨ r.state = .damaged → r.protect = false → 0 < r.holds →
        exec (.retire m x) s = .next (u.respond 5 (.held, .empty, none))) ∧
      (r.state = .stored ∨ r.state = .failed ∨ r.state = .damaged → r.protect = false → r.holds = 0 →
        exec (.retire m x) s = .next ((u.freePlace p).respond 5
          (.ok, .empty, some (.covers [{ item := .place p, begun := false }])))))) ∧
  (∀ (m : Moment) (s : State), Taking s →
    let u := taken 6 m s
    let freed : List Nat := (u.cat.places.filter fun e =>
      (e.2.state == .stored || e.2.state == .failed || e.2.state == .damaged) && !e.2.protect && e.2.holds == 0).map
        (·.1)
    (s.map.mode = .preparing → exec (.clearCatalogue m) s = .next (u.respond 6 (.busy, .empty, none))) ∧
    (s.map.mode ≠ .preparing → freed = [] →
      exec (.clearCatalogue m) s = .next (u.respond 6 (.ok, .cleared 0 u.cat.places.length, none))) ∧
    (s.map.mode ≠ .preparing → freed ≠ [] →
      exec (.clearCatalogue m) s = .next ((freed.foldl (fun s p => s.freePlace p) u).respond 6
        (.ok, .cleared freed.length (u.cat.places.length - freed.length),
          some (.covers (freed.map fun p => { item := .place p, begun := false })))))) ∧
  (∀ (s : State) (p : Nat) (r : PicRecord), Canonical s → s.record p = some r → r.refreshExtent = none →
    (s.freePlace p).record p = none ∧ (∀ j, j ≠ p → (s.freePlace p).record j = s.record j) ∧
    (s.freePlace p).writer = s.writer.mark (.place p) ∧
    (s.freePlace p).map.reserved = s.map.reserved - r.remaining ∧
    (∀ b ∈ r.extent, s.map.stateOf b = .inUse → (s.freePlace p).map.stateOf b = .dirty (.begins p)) ∧
    (∀ b, b ∉ r.extent → (s.freePlace p).map.stateOf b = s.map.stateOf b))

/-- R5, R11: a new record takes the lowest FREE place and the first free number from the counter on, going from 9,999 to
1, and the counter moves on to the first free number after it. So every command but the resets, which read Record Memory,
keeps the law that no two records hold one number, with the counter from 1 to 9,999. -/
def Obligations.NewRecordsTakeFreeNumbersAndPlaces : Prop :=
  (∀ (a : ArmFields) (n p : Nat) (s : State), Canonical s → lowestFree s.cat.places = some p →
    ∃ t k, s.createRecord a n = (t, [k]) ∧ s.record p = none ∧ (∀ q, q < p → s.record q ≠ none) ∧
      t.record p = some { number := some k, state := .reserved, cause := none, armed := some a, measured := none
                          focusStep := none, steady := none, peakShift := none, remaining := n, extent := []
                          refreshExtent := none, picture := none, protect := false, rating := 0, caption := []
                          trim := none, peak := 0, weak := false, unreadable := false, holds := 0 } ∧
      (∀ j, j ≠ p → t.record j = s.record j) ∧ t.writer = s.writer.mark (.place p) ∧
      (1 ≤ s.cat.counter → s.cat.counter ≤ 9999 →
        (∀ j r, s.record j = some r → r.number ≠ some k) ∧ 1 ≤ k ∧ k ≤ 9999 ∧
        (∃ d, k = (s.cat.counter - 1 + d) % 9999 + 1 ∧ ∀ e, e < d → ∃ j r, s.record j = some r ∧
          r.number = some ((s.cat.counter - 1 + e) % 9999 + 1)) ∧
        (∀ j r, t.record j = some r → r.number ≠ some t.cat.counter) ∧ 1 ≤ t.cat.counter ∧ t.cat.counter ≤ 9999 ∧
        (∃ d, t.cat.counter = (k + d) % 9999 + 1 ∧ ∀ e, e < d → ∃ j r, t.record j = some r ∧
          r.number = some ((k + e) % 9999 + 1)))) ∧
  (let distinct (s : State) : Prop := 1 ≤ s.cat.counter ∧ s.cat.counter ≤ 9999 ∧ ∀ p q x y n,
     s.record p = some x → s.record q = some y → x.number = some n → y.number = some n → p = q
   ∀ (c : Instr) (s t : State), Canonical s → distinct s → exec c s = .next t →
     (∀ m, c ≠ .reset m ∧ c ≠ .powerOn m ∧ c ≠ .softResetExecute m) → distinct t)

/-! ### Block Map and Flash Port -/

/-- ARBITER GRANT: with the status read done, no operation in flight and the link LISTENING, the first level first, then
READ and REFRESH in turn, then the last level; an operation that writes does not count under write-protect. FLASH STATUS
READ DONE lets the port begin, and asserts write-protect where POWER_LOW or SHUT DOWN has it owed (R32). A granted page
program gives the page register its data with the four codes of its sectors (R29; a code's value is free, log 49). -/
def Obligations.ArbiterGrantsByLevel : Prop :=
  ∀ (m : Moment) (s : State), s.supply.powered = true →
    let u := s.arrive m
    let may (op : FlashOp) : Prop := op.writes = true → s.flash.writeProtect = false
    let idle (x : Option FlashOp) : Prop := ∀ op, x = some op → ¬may op
    let loaded (op : FlashOp) : Option (List Byte × List (List Byte)) := match op with
      | .program _ _ d => some (d, (List.range 4).map fun i => Config.sectorCode ((d.drop (i * 1024)).take 1024))
      | _ => s.flash.register
    let flown (c : Claimant) (op : FlashOp) (mid : MiddleGrant) (f : FlashPort) : FlashPort := { f with
      lastMiddle := mid, register := loaded op
      inFlight := some { claimant := c, op := op, cycles := if s.map.total = 8192 then 5 else 4, discard := false } }
    exec (.flashStatusReadDone m) s = .next { u with flash := { s.flash with
      statusDone := true
      writeProtect := if s.flash.protectDue = true ∧ s.flash.inFlight = none then true else s.flash.writeProtect } } ∧
    (s.flash.statusDone = false ∨ s.flash.inFlight ≠ none → exec (.arbiterGrant m) s = .next u) ∧
    (s.flash.statusDone = true → s.flash.inFlight = none → s.link.condition = .listening →
      (∀ op, s.flash.store = some op → may op →
        ∃ t, exec (.arbiterGrant m) s = .next t ∧
          t.flash = flown .store op s.flash.lastMiddle { s.flash with store := none } ∧
          t.map = s.map ∧ t.cat = s.cat ∧ t.writer = s.writer ∧ t.chain = s.chain ∧ t.store.queue = s.store.queue ∧
          (∀ b p d rest, op = .program b p d → s.store.recovery = none → s.store.fullOrder = .a :: rest →
            t.store = { s.store with fullOrder := rest, bufA := { s.store.bufA with state := .programming } }) ∧
          (∀ b p d rest, op = .program b p d → s.store.recovery = none → s.store.fullOrder = .b :: rest →
            t.store = { s.store with fullOrder := rest, bufB := { s.store.bufB with state := .programming } }) ∧
          ((∀ b p d, op ≠ .program b p d) → t.store = s.store)) ∧
      (∀ op, idle s.flash.store → s.flash.read = some op → may op →
        idle s.flash.refresh ∨ s.flash.lastMiddle = .refresh →
        exec (.arbiterGrant m) s =
          .next { u with flash := flown .readChain op .read { s.flash with read := none } }) ∧
      (∀ op, idle s.flash.store → s.flash.refresh = some op → may op →
        idle s.flash.read ∨ s.flash.lastMiddle = .read →
        exec (.arbiterGrant m) s =
          .next { u with flash := flown .refresh op .refresh { s.flash with refresh := none } }) ∧
      (∀ c op, idle s.flash.store → idle s.flash.read → idle s.flash.refresh → s.flash.last = some (c, op) → may op →
        c = .background ∨ c = .prepare →
        exec (.arbiterGrant m) s =
          .next { u with flash := flown c op s.flash.lastMiddle { s.flash with last := none } }) ∧
      (idle s.flash.store → idle s.flash.read → idle s.flash.refresh →
        (∀ c op, s.flash.last = some (c, op) → ¬may op) → exec (.arbiterGrant m) s = .next u))

/-- Allocation: from the reservation, or above the reserved total; the lowest ERASED block at or after the cursor, else
the lowest of all; that block alone changes. A refused allocation is NO BLOCK. Reservation: WRITABLE with room. The law of
R38 in both its halves: the reserved total no higher than the ERASED count is kept by each of the Block Map's claims; the
reserved total equal to the sum of reserved blocks remaining over all records is kept by each claim on the Catalogue and
the Block Map together: ARM and a record created with its reservation, a place freed, a record failed or stored, an
allocation into either list, a replacement with and without a block, a refresh's start, swap and abandonment, any claim
that leaves a record's reserved blocks remaining, a block's change by background work or the prepare, and the start of a
prepare. Both are 0 after start-up, where Record Memory holds no FAILED or DAMAGED record with a reservation. -/
def Obligations.AllocationTakesTheNextErasedBlock : Prop :=
  (∀ (x : BlockMap) (n : Nat), mapOk x →
    (∀ b y, x.allocate n = some (b, y) →
      (0 < n ∨ x.reserved < x.erasedCount) ∧ x.stateOf b = .erased ∧ y.stateOf b = .inUse ∧
      (∀ j, j ≠ b → y.stateOf j = x.stateOf j) ∧
      y.allocCursor = (if b + 1 < x.total then b + 1 else 0) ∧
      y.reserved = (if 0 < n then x.reserved - 1 else x.reserved) ∧ y.badList = x.badList ∧ y.total = x.total ∧
      (x.allocCursor ≤ b → ∀ j, x.allocCursor ≤ j → j < b → x.stateOf j ≠ .erased) ∧
      (b < x.allocCursor →
        (∀ j, x.allocCursor ≤ j → x.stateOf j ≠ .erased) ∧ ∀ j, j < b → x.stateOf j ≠ .erased)) ∧
    (x.allocate n = none → (n = 0 ∧ x.erasedCount ≤ x.reserved) ∨ ∀ j, x.stateOf j ≠ .erased) ∧
    (x.canReserve n = true ↔ x.mode = .writable ∧ x.reserved + n ≤ x.erasedCount) ∧
    (x.reserved ≤ x.erasedCount →
      let lawful (y : BlockMap) : Prop := y.reserved ≤ y.erasedCount
      (∀ b y, x.allocate n = some (b, y) → lawful y) ∧ (x.canReserve n = true → lawful (x.reserve n)) ∧
      lawful (x.release n) ∧ (∀ w bs, lawful (x.returnAll w bs)) ∧
      (∀ b v, x.stateOf b ≠ .erased → lawful (x.setState b v)))) ∧
  (∀ s : State, Canonical s → ReservedLawful s →
    (∀ e, s.shot.setup.count ≤ freePlaces s → ReservedLawful (s.shotArm e).1) ∧
    (∀ a n, lowestFree s.cat.places ≠ none → ReservedLawful ((s.createRecord a n).1.onMap (·.reserve n))) ∧
    (∀ p, ReservedLawful (s.freePlace p)) ∧ (∀ p c, ReservedLawful (s.failPlace p c)) ∧
    (∀ x n, ReservedLawful (s.storeStored x n)) ∧
    (∀ p b t, s.allocateFor p PicRecord.appendExtent = (t, some b) → ReservedLawful t) ∧
    (∀ p b t, s.allocateFor p PicRecord.appendRefresh = (t, some b) → ReservedLawful t) ∧
    (∀ p i b inRefresh, ReservedLawful (s.replaceBlock p i b inRefresh).1) ∧
    (∀ p r, s.record p = some r → r.remaining = 0 → ReservedLawful (s.refreshStart p r)) ∧
    ReservedLawful s.refreshComplete ∧ (∀ unreadable, ReservedLawful (s.refreshDrop unreadable)) ∧
    (∀ p r r', s.record p = some r → r'.remaining = r.remaining → ReservedLawful (s.claim p r')) ∧
    (∀ b v, ReservedLawful (s.onMap (·.setState b v))) ∧ ReservedLawful s.prepareBegin) ∧
  (∀ (s : State) (k : ResetCause),
    (∀ p r, (p, Durable.good r) ∈ (memoryAfterCut s).places → r.state = .failed ∨ r.state = .damaged → r.remaining = 0) →
    (s.resetPart k).map.reserved = 0 ∧ ReservedLawful (s.resetPart k))

/-- R36: the five counts sum to the block total, and each counts the blocks below the total in its state; every block is
in one of the five states, and only a known block is in another than UNCHECKED. The law of R36, a block is IN_USE exactly
when it stands in one record's extent list or refresh extent and no block stands in two, is kept by each claim: a place
freed, a record failed or created, an allocation into either list, a replacement with and without a block for it, the
refresh's swap and its abandonment, what background work and the prepare make of a block, and the start of a prepare. -/
def Obligations.FiveBlockCountsSumToTheTotal : Prop :=
  (∀ x : BlockMap, mapOk x →
    let among (p : BlockState → Bool) : Nat := ((List.range x.total).filter fun b => p (x.stateOf b)).length
    x.erasedCount + x.inUseCount + x.dirtyCount + x.uncheckedCount + x.badCount = x.total ∧
    x.erasedCount = among (· == .erased) ∧ x.inUseCount = among (· == .inUse) ∧
    x.dirtyCount = among (fun y => match y with | .dirty _ => true | _ => false) ∧
    x.uncheckedCount = among (· == .unchecked) ∧ x.badCount = among (· == .bad) ∧
    (∀ b, x.stateOf b = .erased ∨ x.stateOf b = .inUse ∨ (∃ w, x.stateOf b = .dirty w) ∨ x.stateOf b = .unchecked ∨
      x.stateOf b = .bad) ∧
    (∀ b, x.stateOf b ≠ .unchecked → b < x.total)) ∧
  (∀ s : State, Canonical s → BlocksLawful s →
    (∀ p, BlocksLawful (s.freePlace p)) ∧
    (∀ p c, (∀ r, s.record p = some r → r.refreshExtent = none) → BlocksLawful (s.failPlace p c)) ∧
    (∀ a n, BlocksLawful (s.createRecord a n).1) ∧
    (∀ p b t, s.allocateFor p PicRecord.appendExtent = (t, some b) → BlocksLawful t ∧ b ∈ heldBlocks t) ∧
    (∀ p r b t, s.record p = some r → r.refreshExtent ≠ none →
      s.allocateFor p PicRecord.appendRefresh = (t, some b) → BlocksLawful t ∧ b ∈ heldBlocks t) ∧
    (∀ p r i b, s.record p = some r → r.extent[i]? = some b →
      let t : State := (s.replaceBlock p i b false).1
      BlocksLawful t ∧ b ∉ heldBlocks t ∧ t.map.stateOf b = .bad) ∧
    (∀ p r ns i b, s.record p = some r → r.refreshExtent = some ns → ns[i]? = some b →
      let t : State := (s.replaceBlock p i b true).1
      BlocksLawful t ∧ b ∉ heldBlocks t ∧ t.map.stateOf b = .bad) ∧
    BlocksLawful s.refreshComplete ∧ (∀ unreadable, BlocksLawful (s.refreshDrop unreadable)) ∧
    (∀ b v, b ∉ heldBlocks s → v ≠ .inUse → BlocksLawful (s.onMap (·.setState b v))) ∧
    BlocksLawful s.prepareBegin)

/-- PREPARE STORE's acceptance and refusal, PREPARE SCAN START and PREPARE STORE END. The block total is 0 between the
acceptance and the scan (the model's choice, log 11); places already FREE are marked dirty too (log 34); BAD LIST is
marked as soon as the scan empties it (deduced from section 2.6, log 12); blocks not yet scanned are UNCHECKED (log 43);
FLASH BLOCKS is read when the scan starts, a change made since the acceptance included (the model's choice, log 67).
-/
def Obligations.PrepareStoreEmptiesAndEnds : Prop :=
  ∀ (m : Moment) (s : State),
    (Taking s →
      let u := taken 8 m s
      (s.map.mode = .preparing ∨ s.shot.state ≠ .idle ∨ s.store.queue ≠ [] ∨ s.chain.chain ≠ [] ∨
          s.chain.refresh ≠ none ∨ s.store.marks ≠ [] ∨ s.chain.refreshMarks ≠ [] ∨
          (∃ b, s.flash.store = some (.grownMark b) ∨ s.flash.refresh = some (.grownMark b)) ∨
          (∃ x b, s.flash.inFlight = some x ∧ (x.claimant = .store ∨ x.claimant = .refresh) ∧ x.op = .grownMark b) →
        exec (.prepareStore m) s = .next (u.respond 8 (.busy, .empty, none))) ∧
      (s.map.mode ≠ .preparing → s.shot.state = .idle → s.store.queue = [] → s.chain.chain = [] →
        s.chain.refresh = none → s.store.marks = [] → s.chain.refreshMarks = [] →
        (∀ b, s.flash.store ≠ some (.grownMark b)) → (∀ b, s.flash.refresh ≠ some (.grownMark b)) →
        (∀ x, s.flash.inFlight = some x → x.claimant = .store ∨ x.claimant = .refresh → ∀ b, x.op ≠ .grownMark b) →
        ∃ t, exec (.prepareStore m) s = .next t ∧ t.cat.places = [] ∧ t.cat.counter = s.cat.counter ∧
          t.map.mode = .preparing ∧ t.map.identity = none ∧ t.map.total = 0 ∧ t.map.blocks = [] ∧
          t.map.reserved = 0 ∧ t.map.prepare = some (.identityNone false) ∧ t.map.inHand = none ∧
          Item.identity ∈ t.writer.queue ∧ (∀ p, p < 1024 → Item.place p ∈ t.writer.queue) ∧
          (s.flash.protectDue = false → t.flash.writeProtect = false) ∧ t.memory = s.memory ∧
          t.link.pending = some { kind := 8, code := .ok, body := .empty, held := none })) ∧
    (s.supply.powered = true → s.map.prepare = some .scanDue →
      exec (.prepareScanStart m) s = .next { s.arrive m with
        map := { s.map with total := s.settings.flashBlocks, blocks := [], badList := [], allocCursor := 0
                            eraseCursor := 0, reserved := 0, prepare := some (.scanning 0) }
        writer := s.writer.mark .badList
        flash := { s.flash with last := some (.prepare, .rawRead 0 0) } }) ∧
    (s.supply.powered = true → s.map.prepare = some .endDue → s.flash.protectDue = false →
      exec (.prepareStoreEnd m) s = .next ({ s.arrive m with
        map := { s.map with mode := .writable, prepare := none }
        flash := { s.flash with writeProtect := false } }.setFlag .maintenanceDone))

/-- A prepare's operations: the scan finds each block DIRTY or BAD with its kind and goes on to the next; the erase pass
makes a block ERASED or grown bad and goes on to the lowest DIRTY block above it, and at its end STORE IDENTITY takes
the block total; a 257th bad block is TOO_MANY_BAD (an erase FAIL then asks for no grown mark, log 44). Once POWER_LOW
has ended the prepare the operation in flight gives its result and nothing more is asked for (R50; no block is known by
then, log 13). (BAD LIST is marked at every change, log 12.) -/
def Obligations.PrepareScansAndErasesEveryBlock : Prop :=
  (∀ (m : Moment) (s : State) (x : InFlightOp), s.supply.powered = true → s.flash.inFlight = some x →
    x.claimant = .prepare → x.discard = false → s.flash.protectDue = false →
    let u := s.arrive m
    let idle : FlashPort := { s.flash with inFlight := none }
    (∀ b r, x.op = .rawRead b 0 → s.map.prepare = some (.scanning b) → b + 1 < s.map.total →
      (r.mark = .clear → exec (.pageReadDone m r) s = .next { u with
        map := { s.map with blocks := Table.put b (.dirty .ready) s.map.blocks, prepare := some (.scanning (b + 1)) }
        flash := { idle with last := some (.prepare, .rawRead (b + 1) 0) } }) ∧
      (∀ k, r.mark = .factory ∧ k = .factory ∨ r.mark = .grown ∧ k = .grown → s.map.badList.length < 256 →
        exec (.pageReadDone m r) s = .next { u with
          map := { s.map with blocks := Table.put b .bad s.map.blocks, badList := Table.put b k s.map.badList
                              prepare := some (.scanning (b + 1)) }
          writer := s.writer.mark .badList
          flash := { idle with last := some (.prepare, .rawRead (b + 1) 0) } })) ∧
    (∀ b r, x.op = .rawRead b 0 → s.map.prepare = some (.scanning b) → b + 1 = s.map.total → mapOk s.map →
      let found (v : BlockState) (l : List (Nat × BadKind)) : Prop :=
        let y : BlockMap := { s.map with blocks := Table.put b v s.map.blocks, badList := l }
        (∀ j, (∃ w, y.stateOf j = .dirty w) → (∀ i, i < j → ∀ w, y.stateOf i ≠ .dirty w) →
          exec (.pageReadDone m r) s = .next { u with
            map := { y with prepare := some (.erasing j) }
            writer := s.writer.mark .badList
            flash := { idle with last := some (.prepare, .erase j) } }) ∧
        ((∀ j w, y.stateOf j ≠ .dirty w) → exec (.pageReadDone m r) s = .next { u with
          map := { y with identity := some s.map.total, prepare := some (.identityTotal false) }
          writer := (s.writer.mark .badList).mark .identity
          flash := idle })
      (r.mark = .clear → found (.dirty .ready) s.map.badList) ∧
      (∀ k, r.mark = .factory ∧ k = .factory ∨ r.mark = .grown ∧ k = .grown → s.map.badList.length < 256 →
        found .bad (Table.put b k s.map.badList))) ∧
    (∀ b r, x.op = .rawRead b 0 → s.map.prepare = some (.scanning b) → r.mark ≠ .clear →
      256 ≤ s.map.badList.length → exec (.pageReadDone m r) s = .next ({ u with
        map := { s.map with total := 0, blocks := [], badList := [], mode := .unprepared, prepare := none }
        writer := s.writer.mark .badList
        flash := { idle with writeProtect := true } }.setFlag .maintenanceDone)) ∧
    (∀ b, x.op = .erase b → s.map.prepare = some (.erasing b) → b < s.map.total →
      (∀ j, mapOk s.map → b < j → (∃ w, s.map.stateOf j = .dirty w) →
        (∀ i, b < i → i < j → ∀ w, s.map.stateOf i ≠ .dirty w) →
        exec (.blockEraseDone m true) s = .next { u with
          map := { s.map with blocks := Table.put b .erased s.map.blocks, prepare := some (.erasing j) }
          flash := { idle with last := some (.prepare, .erase j) } }) ∧
      (mapOk s.map → (∀ j, b < j → ∀ w, s.map.stateOf j ≠ .dirty w) →
        exec (.blockEraseDone m true) s = .next { u with
          map := { s.map with blocks := Table.put b .erased s.map.blocks, identity := some s.map.total
                              prepare := some (.identityTotal false) }
          writer := s.writer.mark .identity, flash := idle }) ∧
      (s.map.badList.length < 256 → exec (.blockEraseDone m false) s = .next { u with
        map := { s.map with blocks := Table.put b .bad s.map.blocks, badList := Table.put b .grown s.map.badList
                            prepare := some (.marking b) }
        writer := s.writer.mark .badList
        flash := { idle with last := some (.prepare, .grownMark b) } }) ∧
      (256 ≤ s.map.badList.length → exec (.blockEraseDone m false) s = .next ({ u with
        map := { s.map with total := 0, blocks := [], badList := [], mode := .unprepared, prepare := none }
        writer := s.writer.mark .badList
        flash := { idle with writeProtect := true } }.setFlag .maintenanceDone))) ∧
    (∀ b ok j, x.op = .grownMark b → s.map.prepare = some (.marking b) → mapOk s.map → b < j →
      (∃ w, s.map.stateOf j = .dirty w) → (∀ i, b < i → i < j → ∀ w, s.map.stateOf i ≠ .dirty w) →
      exec (.grownMarkProgramDone m ok) s = .next { u with
        map := { s.map with prepare := some (.erasing j) }
        flash := { idle with last := some (.prepare, .erase j) } }) ∧
    (∀ b ok, x.op = .grownMark b → s.map.prepare = some (.marking b) →
      (∀ j, b < j → ∀ w, s.map.stateOf j ≠ .dirty w) → mapOk s.map →
      exec (.grownMarkProgramDone m ok) s = .next { u with
        map := { s.map with identity := some s.map.total, prepare := some (.identityTotal false) }
        writer := s.writer.mark .identity, flash := idle })) ∧
  (∀ (m : Moment) (s : State) (x : InFlightOp), s.supply.powered = true → s.flash.inFlight = some x →
    x.claimant = .prepare → x.discard = false → s.map.prepare = some .stopping → s.map.total = 0 →
    s.map.mode = .unprepared → s.flash.protectDue = true →
    let u := s.arrive m
    let port : FlashPort :=
      { s.flash with inFlight := none, writeProtect := if s.flash.statusDone then true else s.flash.writeProtect }
    let atRest : BlockMap := { s.map with prepare := none }
    let listed (b : Nat) (k : BadKind) : State := { u with
      map := { atRest with badList := Table.put b k s.map.badList }, writer := s.writer.mark .badList, flash := port }
    let emptied : State := { u with
      map := { atRest with blocks := [], badList := [] }, writer := s.writer.mark .badList, flash := port }
    (∀ b g r, x.op = .rawRead b g →
      (r.mark = .clear → exec (.pageReadDone m r) s = .next { u with map := atRest, flash := port }) ∧
      (∀ k, r.mark = .factory ∧ k = .factory ∨ r.mark = .grown ∧ k = .grown →
        (s.map.badList.length < 256 → exec (.pageReadDone m r) s = .next (listed b k)) ∧
        (256 ≤ s.map.badList.length → exec (.pageReadDone m r) s = .next emptied))) ∧
    (∀ b, x.op = .erase b →
      exec (.blockEraseDone m true) s = .next { u with map := atRest, flash := port } ∧
      (s.map.badList.length < 256 → exec (.blockEraseDone m false) s = .next (listed b .grown)) ∧
      (256 ≤ s.map.badList.length → exec (.blockEraseDone m false) s = .next emptied)) ∧
    (∀ b ok, x.op = .grownMark b →
      exec (.grownMarkProgramDone m ok) s = .next { u with map := atRest, flash := port }))

/-- Background work: the block it takes, the lowest-numbered DIRTY or UNCHECKED one ready to be taken from the erase
cursor on, else from block 0 (R41), and the operation it asks for; an erase makes the block ERASED or grown bad; a blank
check finds a mark, two blank pages, or a block to erase. A BAD block past a full list turns the store READ_ONLY, whether
an erase or a blank check found it (R43, R45). A result that PREPARE STORE has discarded changes nothing (R41). -/
def Obligations.BackgroundWorkMakesErasedBlocks : Prop :=
  ∀ (m : Moment) (s : State), s.supply.powered = true →
    let u := s.arrive m
    let idle : FlashPort := { s.flash with inFlight := none }
    let runs : Prop := s.supply.shutdown = .running ∧ s.supply.powerLow = false ∧ s.supply.shutDownTaken = false ∧
      (s.map.mode = .writable ∨ s.map.mode = .readOnly)
    let after (b : Nat) : Nat := if b + 1 < s.map.total then b + 1 else 0
    let may (j : Nat) : Prop := j < s.map.total ∧ (s.map.stateOf j = .unchecked ∨ s.map.stateOf j = .dirty .ready)
    let taken (b : Nat) : Prop := may b ∧
      ((s.map.eraseCursor ≤ b ∧ ∀ j, s.map.eraseCursor ≤ j → j < b → ¬may j) ∨
        (b < s.map.eraseCursor ∧ (∀ j, s.map.eraseCursor ≤ j → ¬may j) ∧ ∀ j, j < b → ¬may j))
    (runs → s.map.inHand = none → s.flash.last = none → (∀ x, s.flash.inFlight = some x → x.claimant ≠ .background) →
      ∀ b, taken b →
      (∀ w, s.map.stateOf b = .dirty w → exec (.backgroundTakeBlock m) s = .next { u with
        map := { s.map with eraseCursor := after b, inHand := some (b, .erasing) }
        flash := { s.flash with last := some (.background, .erase b) } }) ∧
      (s.map.stateOf b = .unchecked → exec (.backgroundTakeBlock m) s = .next { u with
        map := { s.map with eraseCursor := after b, inHand := some (b, .read0) }
        flash := { s.flash with last := some (.background, .rawRead b 0) } })) ∧
    (¬runs ∨ s.map.inHand ≠ none ∨ (∀ j, ¬may j) → exec (.backgroundTakeBlock m) s = .next u) ∧
    (∀ x b, s.flash.inFlight = some x → x.claimant = .background → x.discard = false → s.flash.protectDue = false →
      b < s.map.total →
      (x.op = .erase b →
        exec (.blockEraseDone m true) s = .next { u with
          map := { s.map with inHand := none, blocks := Table.put b .erased s.map.blocks }, flash := idle } ∧
        (runs → s.map.badList.length < 256 → exec (.blockEraseDone m false) s = .next { u with
          map := { s.map with inHand := none, blocks := Table.put b .bad s.map.blocks
                              badList := Table.put b .grown s.map.badList }
          writer := s.writer.mark .badList
          flash := { idle with last := some (.background, .grownMark b) } }) ∧
        (runs → 256 ≤ s.map.badList.length → s.map.mode = .writable →
          exec (.blockEraseDone m false) s = .next ({ u with
            map := { s.map with inHand := none, blocks := Table.put b .bad s.map.blocks, mode := .readOnly }
            flash := { idle with last := some (.background, .grownMark b) } }.setFlag .storeReadOnly)) ∧
        (runs → 256 ≤ s.map.badList.length → s.map.mode = .readOnly →
          exec (.blockEraseDone m false) s = .next { u with
            map := { s.map with inHand := none, blocks := Table.put b .bad s.map.blocks }
            flash := { idle with last := some (.background, .grownMark b) } })) ∧
      (∀ ok, x.op = .grownMark b → exec (.grownMarkProgramDone m ok) s = .next { u with flash := idle }) ∧
      (∀ r blank0, x.op = .rawRead b 63 → s.map.inHand = some (b, .read63 blank0) →
        let blank : Bool := blank0 && (r.data.all (· == 255#8) && r.spare.all (· == 255#8))
        (blank = true → exec (.pageReadDone m r) s = .next { u with
          map := { s.map with inHand := none, blocks := Table.put b .erased s.map.blocks }, flash := idle }) ∧
        (runs → blank = false → exec (.pageReadDone m r) s = .next { u with
          map := { s.map with inHand := some (b, .erasing) }
          flash := { idle with last := some (.background, .erase b) } })) ∧
      (∀ r, x.op = .rawRead b 0 → s.map.inHand = some (b, .read0) →
        (runs → r.mark = .clear → exec (.pageReadDone m r) s = .next { u with
          map := { s.map with
            inHand := some (b, .read63 (r.data.all (· == 255#8) && r.spare.all (· == 255#8))) }
          flash := { idle with last := some (.background, .rawRead b 63) } }) ∧
        (∀ k, r.mark = .factory ∧ k = .factory ∨ r.mark = .grown ∧ k = .grown → s.map.badList.length < 256 →
          exec (.pageReadDone m r) s = .next { u with
            map := { s.map with inHand := none, blocks := Table.put b .bad s.map.blocks
                                badList := Table.put b k s.map.badList }
            writer := s.writer.mark .badList, flash := idle }) ∧
        (r.mark ≠ .clear → 256 ≤ s.map.badList.length →
          (s.map.mode = .writable → exec (.pageReadDone m r) s = .next ({ u with
            map := { s.map with inHand := none, blocks := Table.put b .bad s.map.blocks, mode := .readOnly }
            flash := idle }.setFlag .storeReadOnly)) ∧
          (s.map.mode = .readOnly → exec (.pageReadDone m r) s = .next { u with
            map := { s.map with inHand := none, blocks := Table.put b .bad s.map.blocks }, flash := idle })))) ∧
    (∀ x b, s.flash.inFlight = some x → x.claimant = .background → x.discard = true → s.flash.protectDue = false →
      (∀ ok, x.op = .erase b → exec (.blockEraseDone m ok) s = .next { u with flash := idle }) ∧
      (∀ g r, x.op = .rawRead b g → exec (.pageReadDone m r) s = .next { u with flash := idle }) ∧
      (∀ ok, x.op = .grownMark b → exec (.grownMarkProgramDone m ok) s = .next { u with flash := idle }))

/-! ### The Picture Port and the Store Engine -/

/-- The ready line is high from the end of start-up to POWER_LOW, but in ENDING, while a buffer is EMPTY (R52). The In
Lane's receiver byte by byte: the hunt for the marker 195, the header, the body's bytes counted (R51, R193;
how bytes come with a command, and that those behind a block's last byte are lost until its row comes, log 51). In Lane headers and PICTURE START: a header is kept with whether start-up had
ended; a start binds the head of the queue, is held in ENDING, or sets STORE_FAILED (R55, R63, R70); a block whose
header came during start-up or gives a length that is not 0 is dropped (R51, R193). (What a row does with no block or
another kind of block in hand is the model's choice, log 20, and that a PICTURE_DATA header after POWER_LOW is dropped
at once log 50; that one of length 0 waits for ready, log 68.) -/
def Obligations.InLaneHeadersAndPictureStarts : Prop :=
  ∀ (m : Moment) (s : State), s.supply.powered = true →
    let u := s.arrive m
    let v : State := { u with lane := .hunting }
    let headed (k : Byte) (n : Nat) : LaneReceiver :=
      .block { kind := k, length := n, discard := decide (s.supply.shutdown = .starting), got := 0 }
    (inLaneReady s = true ↔ s.supply.shutdown ≠ .starting ∧ s.supply.powerLow = false ∧ s.store.stream ≠ .ending ∧
      (s.store.bufA.state = .empty ∨ s.store.bufB.state = .empty)) ∧
    (m.lane = [] → u.lane = s.lane) ∧
    (∀ pass : List Byte, s.lane = .hunting → (∀ x ∈ pass, x ≠ 195#8) →
      (m.lane = pass → u.lane = .hunting) ∧
      (∀ h, m.lane = pass ++ 195#8 :: h → h.length ≤ 2 → u.lane = .header h) ∧
      (∀ k hi lo body, m.lane = pass ++ [195#8, k, hi, lo] ++ body →
        (s.supply.powerLow = true → k = 3#8 → body = [] → u.lane = .hunting) ∧
        (s.supply.powerLow = false ∨ k ≠ 3#8 → body = [] → u.lane = headed k (hi.toNat * 256 + lo.toNat)))) ∧
    (∀ h, s.lane = .header h →
      (h.length + m.lane.length ≤ 2 → u.lane = .header (h ++ m.lane)) ∧
      (∀ k hi lo, m.lane ≠ [] → h ++ m.lane = [k, hi, lo] →
        (s.supply.powerLow = true → k = 3#8 → u.lane = .hunting) ∧
        (s.supply.powerLow = false ∨ k ≠ 3#8 → u.lane = headed k (hi.toNat * 256 + lo.toNat)))) ∧
    (∀ b, s.lane = .block b →
      (b.kind = 3#8 → b.got = 0 → inLaneReady s = false → u.lane = .block b) ∧
      (b.kind ≠ 3#8 ∨ 0 < b.got ∨ inLaneReady s = true → b.got ≤ b.length →
        u.lane = .block { b with got := min b.length (b.got + m.lane.length) })) ∧
    (∀ k n, LaneOpens k n u →
      (s.supply.powerLow = false ∨ k ≠ 3#8 → exec (.inLaneHeader m k n) s = .next { u with lane := headed k n }) ∧
      (s.supply.powerLow = true → k = 3#8 → exec (.inLaneHeader m k n) s = .next v)) ∧
    (∀ k n, ¬LaneOpens k n u → exec (.inLaneHeader m k n) s = .next u) ∧
    (∀ b, u.lane = .block b → b.kind = 2#8 → b.discard = true ∨ b.length ≠ 0 → exec (.pictureStart m) s = .next v) ∧
    (∀ b, u.lane = .block b → b.kind ≠ 2#8 → exec (.pictureStart m) s = .next u) ∧
    (∀ h, u.lane = .header h → ¬LaneOpens 2#8 0 u → exec (.pictureStart m) s = .next u) ∧
    (LaneOpens 2#8 0 u → s.supply.shutdown = .starting → exec (.pictureStart m) s = .next v) ∧
    (LaneOpens 2#8 0 u ∧ s.supply.shutdown ≠ .starting ∨ LaneHolds 2#8 0 u →
      (s.supply.powerLow = true → exec (.pictureStart m) s = .next v) ∧
      (s.supply.powerLow = false → s.store.stream = .closed →
        (s.store.queue = [] → exec (.pictureStart m) s = .next (v.setFlag .storeFailed)) ∧
        (∀ n rest p r, s.store.queue = n :: rest → findNumber n s.cat.places = some (p, r) →
          exec (.pictureStart m) s = .next { v with
            cat := { s.cat with places := Table.put p { r with state := .storing } s.cat.places }
            writer := s.writer.mark (.place p)
            store := { s.store with stream := .opened, received := 0, check := 0xFFFFFFFF#32, pageIndex := 0
                                    loss := false }
            timers := { v.timers with data := some 0 } })) ∧
      (s.supply.powerLow = false → s.store.stream = .ending → s.store.heldStart = false →
        exec (.pictureStart m) s = .next { v with store := { s.store with heldStart := true } }) ∧
      (s.supply.powerLow = false → s.store.stream = .ending → s.store.heldStart = true →
        exec (.pictureStart m) s = .next (v.setFlag .storeFailed)))

/-- PICTURE DATA: taken only while the ready line is high or once its body has begun; in an OPEN stream its bytes enter
the FILLING buffer, else an EMPTY one (A before B, log 30), in order; the full page joins the FULL buffers and is
programmed where the Flash Port has none of the Store Engine's operations; what is left enters the other buffer; count,
check and data timer follow. The picture check bit by bit (R57; which way the register stands, log 8). (That the row
does nothing while another block is in hand, or one of another length, or, with ready low, one that has not begun, is
the model's choice, log 4; that it goes with a header of which some bytes have come log 20; a header that finds
POWER_LOW, log 50; that one of length 0 waits for ready, log 68.) -/
def Obligations.PictureDataFillsTheBuffers : Prop :=
  (∀ (m : Moment) (s : State) (bytes : List Byte), s.supply.powered = true →
    let u := s.arrive m
    let i := s.store.pageIndex
    let taken : StoreEngine := { s.store with
      received := s.store.received + bytes.length, check := pictureCheck s.store.check bytes }
    let v (e : StoreEngine) : State := { u with lane := .hunting, store := e, timers := { u.timers with data := some 0 } }
    let becomes (e : StoreEngine) : Prop := exec (.pictureData m bytes) s = .next (v e)
    let programs (e : StoreEngine) (page : List Byte) : Prop :=
      ∀ n rest p r, s.store.queue = n :: rest → findNumber n s.cat.places = some (p, r) → Canonical s →
        (i % 64 ≠ 0 → exec (.pictureData m bytes) s = .next { v e with
          flash := { s.flash with store := some (.program (r.extent.getD (i / 64) 0) (i % 64) page) } }) ∧
        (∀ c y, i % 64 = 0 → i / 64 < 48 → s.map.allocate r.remaining = some (c, y) →
          ∃ t, exec (.pictureData m bytes) s = .next t ∧ t.map = y ∧ t.store = e ∧ t.timers = (v e).timers ∧
            t.record p = some { r with extent := r.extent ++ [c], remaining := r.remaining - 1 } ∧
            t.writer = s.writer.mark (.place p) ∧
            t.flash = { s.flash with store := some (.program ((r.extent ++ [c]).getD (i / 64) 0) 0 page) }) ∧
        (i % 64 = 0 → s.store.heldStart = false → s.shot.state ≠ .queueWait →
          (48 ≤ i / 64 → ∃ t y, exec (.pictureData m bytes) s = .next t ∧ t.record p = some y ∧
            y.state = .failed ∧ y.cause = some .oversize ∧ t.store.stream = .closed) ∧
          (i / 64 < 48 → s.map.allocate r.remaining = none → ∃ t y, exec (.pictureData m bytes) s = .next t ∧
            t.record p = some y ∧ y.state = .failed ∧ y.cause = some .noSpace ∧ t.store.stream = .closed))
    let completes (e : StoreEngine) (page : List Byte) : Prop :=
      (s.flash.free .store = false ∨ s.store.recovery ≠ none → becomes e) ∧
      (s.flash.store = none → (∀ x, s.flash.inFlight = some x → x.claimant ≠ .store) → s.store.recovery = none →
        s.store.marks = [] → s.store.fullOrder = [] → programs e page)
    (inLaneReady s = false →
      (LaneOpens 3#8 bytes.length u → s.supply.powerLow = false → exec (.pictureData m bytes) s = .next { u with
        lane := .block { kind := 3#8, length := bytes.length, discard := decide (s.supply.shutdown = .starting) } }) ∧
      (LaneOpens 3#8 bytes.length u → s.supply.powerLow = true →
        exec (.pictureData m bytes) s = .next { u with lane := .hunting }) ∧
      (∀ b, u.lane = .block b → b.got = 0 → exec (.pictureData m bytes) s = .next u)) ∧
    (∀ b, u.lane = .block b → b.kind ≠ 3#8 ∨ b.length ≠ bytes.length → exec (.pictureData m bytes) s = .next u) ∧
    (1 ≤ bytes.length → bytes.length ≤ 4096 →
      (LaneOpens 3#8 bytes.length u ∧ inLaneReady s = true) ∨
        (∃ b, u.lane = .block b ∧ b.kind = 3#8 ∧ b.length = bytes.length ∧ b.discard = false ∧
          (inLaneReady s = true ∨ 0 < b.got)) →
      (s.store.stream ≠ .opened → exec (.pictureData m bytes) s = .next { u with lane := .hunting }) ∧
      (s.store.stream = .opened → ¬(s.shot.state = .queueWait ∧ s.store.queue.length < 8) →
        (s.flash.free .store = false ∨ s.store.recovery ≠ none ∨ (s.store.marks = [] ∧ s.store.fullOrder = []) →
          (∀ d, s.store.bufA = { state := .filling, data := d } → d.length + bytes.length < 4096 →
            becomes { taken with bufA := { state := .filling, data := d ++ bytes } }) ∧
          (∀ d, s.store.bufA.state ≠ .filling → s.store.bufB = { state := .filling, data := d } →
            d.length + bytes.length < 4096 → becomes { taken with bufB := { state := .filling, data := d ++ bytes } }) ∧
          (s.store.bufA = { state := .empty, data := [] } → s.store.bufB.state ≠ .filling → bytes.length < 4096 →
            becomes { taken with bufA := { state := .filling, data := bytes } }) ∧
          (s.store.bufA.state = .full ∨ s.store.bufA.state = .programming →
            s.store.bufB = { state := .empty, data := [] } → bytes.length < 4096 →
            becomes { taken with bufB := { state := .filling, data := bytes } })) ∧
        (∀ d, s.store.bufA = { state := .filling, data := d } → d.length < 4096 →
          (d.length + bytes.length = 4096 → completes { taken with
            bufA := { state := .full, data := d ++ bytes }, fullOrder := s.store.fullOrder ++ [.a] } (d ++ bytes)) ∧
          (s.store.bufB = { state := .empty, data := [] } → 4096 < d.length + bytes.length → completes { taken with
            bufA := { state := .full, data := d ++ bytes.take (4096 - d.length) }
            bufB := { state := .filling, data := bytes.drop (4096 - d.length) }
            fullOrder := s.store.fullOrder ++ [.a] } (d ++ bytes.take (4096 - d.length)))) ∧
        (∀ d, s.store.bufA.state ≠ .filling → s.store.bufB = { state := .filling, data := d } → d.length < 4096 →
          (d.length + bytes.length = 4096 → completes { taken with
            bufB := { state := .full, data := d ++ bytes }, fullOrder := s.store.fullOrder ++ [.b] } (d ++ bytes)) ∧
          (s.store.bufA = { state := .empty, data := [] } → 4096 < d.length + bytes.length → completes { taken with
            bufB := { state := .full, data := d ++ bytes.take (4096 - d.length) }
            bufA := { state := .filling, data := bytes.drop (4096 - d.length) }
            fullOrder := s.store.fullOrder ++ [.b] } (d ++ bytes.take (4096 - d.length)))) ∧
        (s.store.bufA = { state := .empty, data := [] } → s.store.bufB.state ≠ .filling → bytes.length = 4096 →
          completes { taken with
            bufA := { state := .full, data := bytes }, fullOrder := s.store.fullOrder ++ [.a] } bytes) ∧
        (s.store.bufA.state = .full ∨ s.store.bufA.state = .programming →
          s.store.bufB = { state := .empty, data := [] } → bytes.length = 4096 → completes { taken with
            bufB := { state := .full, data := bytes }, fullOrder := s.store.fullOrder ++ [.b] } bytes)))) ∧
  (let bit (r : Word) (x : Bool) : Word := if r.getLsbD 0 = x then r >>> 1 else (r >>> 1) ^^^ BitVec.reverse 0x04C11DB7#32
   ∀ (r : Word) (bs : List Byte) (b : Byte), pictureCheck r [] = r ∧
     pictureCheck r (bs ++ [b]) =
       [0, 1, 2, 3, 4, 5, 6, 7].foldl (fun r i => bit r (b.getLsbD i)) (pictureCheck r bs))

/-- PICTURE END pads a FILLING page with 255 and holds its fields, those of section 10.4, in ENDING; the padded page is
programmed where the Flash Port has none of the Store Engine's operations; END TAKEN makes the record STORED when the held
end agrees with what was received, the check being the running one inverted (R57), its remaining reservation released, and
sets PICTURE_STORED. A held PICTURE_START is then acted on as in CLOSED (R55, R64): it binds to the next record of the
queue, the stream OPEN with its counts at their start, or it is refused with STORE_FAILED on an empty queue; so also where
a recovery's grown mark is still owed. -/
def Obligations.PictureEndsAreHeldAndTaken : Prop :=
  ∀ (m : Moment) (s : State), s.supply.powered = true →
    let u := s.arrive m
    (LaneOpens 4#8 12 u ∧ s.supply.shutdown ≠ .starting ∨ LaneHolds 4#8 12 u →
      ∀ body : List Byte,
      (s.store.stream ≠ .opened → exec (.pictureEnd m body) s = .next { u with lane := .hunting }) ∧
      (s.store.stream = .opened → ¬(s.shot.state = .queueWait ∧ s.store.queue.length < 8) →
        (s.flash.free .store = false ∨ s.store.recovery ≠ none →
          (∀ d, s.store.bufA = { state := .filling, data := d } → exec (.pictureEnd m body) s = .next { u with
            lane := .hunting
            store := { s.store with
              stream := .ending, heldEnd := some (endOf body), fullOrder := s.store.fullOrder ++ [.a]
              bufA := { state := .full, data := d ++ List.replicate (4096 - d.length) 255#8 } }
            timers := { u.timers with data := none } }) ∧
          (∀ d, s.store.bufA.state ≠ .filling → s.store.bufB = { state := .filling, data := d } →
            exec (.pictureEnd m body) s = .next { u with
              lane := .hunting
              store := { s.store with
                stream := .ending, heldEnd := some (endOf body), fullOrder := s.store.fullOrder ++ [.b]
                bufB := { state := .full, data := d ++ List.replicate (4096 - d.length) 255#8 } }
              timers := { u.timers with data := none } })) ∧
        (s.flash.store = none → (∀ x, s.flash.inFlight = some x → x.claimant ≠ .store) → s.store.recovery = none →
          s.store.marks = [] → s.store.fullOrder = [] → ∀ d n rest p r side, s.store.queue = n :: rest →
          findNumber n s.cat.places = some (p, r) → Canonical s →
          (s.store.bufA = { state := .filling, data := d } ∧ side = BufId.a) ∨
            (s.store.bufA.state ≠ .filling ∧ s.store.bufB = { state := .filling, data := d } ∧ side = BufId.b) →
          let i := s.store.pageIndex
          let page : List Byte := d ++ List.replicate (4096 - d.length) 255#8
          let e : StoreEngine := { s.store.setBuf side { state := .full, data := page } with
            stream := .ending, heldEnd := some (endOf body), fullOrder := [side] }
          (i % 64 ≠ 0 → exec (.pictureEnd m body) s = .next { u with
            lane := .hunting, store := e, timers := { u.timers with data := none }
            flash := { s.flash with store := some (.program (r.extent.getD (i / 64) 0) (i % 64) page) } }) ∧
          (∀ c y, i % 64 = 0 → i / 64 < 48 → s.map.allocate r.remaining = some (c, y) →
            ∃ t, exec (.pictureEnd m body) s = .next t ∧ t.map = y ∧ t.store = e ∧
              t.record p = some { r with extent := r.extent ++ [c], remaining := r.remaining - 1 } ∧
              t.flash = { s.flash with store := some (.program ((r.extent ++ [c]).getD (i / 64) 0) 0 page) }) ∧
          (i % 64 = 0 → s.store.heldStart = false → s.shot.state ≠ .queueWait →
            48 ≤ i / 64 ∨ s.map.allocate r.remaining = none →
            ∃ t y, exec (.pictureEnd m body) s = .next t ∧ t.record p = some y ∧ y.state = .failed ∧
              y.cause = some (if 48 ≤ i / 64 then .oversize else .noSpace) ∧ t.store.stream = .closed)) ∧
        (s.flash.free .store = false ∨ s.store.recovery ≠ none ∨ (s.store.marks = [] ∧ s.store.fullOrder = []) →
          s.store.bufA.state ≠ .filling → s.store.bufB.state ≠ .filling →
          exec (.pictureEnd m body) s = .next { u with
            lane := .hunting, store := { s.store with stream := .ending, heldEnd := some (endOf body) }
            timers := { u.timers with data := none } }))) ∧
    (∀ n rest p r x (marks : List Nat) (flash : FlashPort),
      s.store.stream = .ending → s.store.bufA.state = .empty → s.store.bufB.state = .empty →
      s.store.heldEnd = some x → s.store.queue = n :: rest → findNumber n s.cat.places = some (p, r) →
      1 ≤ s.store.received → s.store.received ≤ 12582912 → s.store.received = x.length →
      ~~~s.store.check = x.check → 1 ≤ x.width → x.width ≤ 16383 → 1 ≤ x.height → x.height ≤ 16383 →
      s.store.loss = false → s.store.fullOrder = [] → s.shot.state ≠ .queueWait →
      (marks = s.store.marks ∧ flash = s.flash ∧ (s.store.marks = [] ∨ s.flash.free .store = false)) ∨
        (s.flash.free .store = true ∧ s.store.recovery = none ∧
          ∃ k, s.store.marks = k :: marks ∧ flash = { s.flash with store := some (.grownMark k) }) →
      let stored : State := { u with
        cat := { s.cat with places := Table.put p { r with
          state := .stored, remaining := 0
          picture := some { length := x.length, check := x.check, width := x.width, height := x.height } } s.cat.places }
        map := { s.map with reserved := s.map.reserved - r.remaining }
        writer := s.writer.mark (.place p)
        store := { s.store with queue := rest, stream := .closed, heldEnd := none, heldStart := false, marks := marks }
        flash := flash }.setFlag .pictureStored
      (s.store.heldStart = false → exec (.endTaken m) s = .next stored) ∧
      (s.store.heldStart = true → rest = [] → exec (.endTaken m) s = .next (stored.setFlag .storeFailed)) ∧
      (∀ n' p' r' rest', s.store.heldStart = true → rest = n' :: rest' → n' ≠ n → Canonical s →
        findNumber n' s.cat.places = some (p', r') →
        exec (.endTaken m) s = .next { stored with
          cat := { stored.cat with places := Table.put p' { r' with state := .storing } stored.cat.places }
          writer := stored.writer.mark (.place p')
          store := { stored.store with stream := .opened, received := 0, check := 0xFFFFFFFF#32, pageIndex := 0
                                       loss := false }
          timers := { stored.timers with data := some 0 } })) ∧
    (s.store.stream ≠ .ending ∨ s.store.bufA.state ≠ .empty ∨ s.store.bufB.state ≠ .empty →
      exec (.endTaken m) s = .next u) ∧
    (∀ a b c d e f g h i j k l : Byte, endOf [a, b, c, d, e, f, g, h, i, j, k, l] =
      { length := ((a.toNat * 256 + b.toNat) * 256 + c.toNat) * 256 + d.toNat, check := e ++ f ++ g ++ h
        width := i.toNat * 256 + j.toNat, height := k.toNat * 256 + l.toNat })

/-- The ways the In Lane fails the bound picture: PICTURE ABORT (ABORTED, R66), a PICTURE_DATA of a bad length (R51),
one ended by a framing fault, in its header once its kind has come (log 51) or in its body (R193), and a second PICTURE
START (BROKEN_STREAM, R55), DATA TIMEOUT (R56), and an end that does not agree (DATA_CHECK, R65): record, blocks,
reservation, queue, stream, flag, buffers and operations (R68, R69). A second start then binds the next record of the
queue; with none left it is refused, with STORE_FAILED, and the stream stays CLOSED (R55). A PICTURE_START held in ENDING
is acted on in the same way after a PICTURE ABORT or an end that does not agree (R63, R68). (That a PICTURE_DATA of
length 0 fails its record only once ready is high is the model's choice, log 68, and that the row of a framing fault is
believed, no counter holding the 100 µs, log 5.) -/
def Obligations.FailedPicturesGiveBackTheirBlocks : Prop :=
  ∀ (m : Moment) (s : State) (n p : Nat) (r : PicRecord) (rest : List Nat), Canonical s →
    s.supply.powered = true → s.supply.shutdown ≠ .starting → s.store.queue = n :: rest →
    findNumber n s.cat.places = some (p, r) → s.shot.state ≠ .queueWait →
    let u := s.arrive m
    let gone (c : FailCause) (t : State) : Prop :=
      t.record p = some { r with state := .failed, cause := some c, remaining := 0, extent := [], refreshExtent := none
                                 picture := none, trim := none } ∧
      t.map.reserved = s.map.reserved - r.remaining ∧
      (∀ b ∈ r.extent, s.map.stateOf b = .inUse → t.map.stateOf b = .dirty (.begins p)) ∧
      (∀ b, b ∉ r.extent → t.map.stateOf b = s.map.stateOf b) ∧
      t.store.queue = rest ∧ t.store.heldEnd = none ∧ t.store.recovery = none ∧
      t.events = (s.setFlag .storeFailed).events ∧ t.store.fullOrder = [] ∧
      (∀ i, (s.store.buf i).state ≠ .programming ∨
        (∀ x, s.flash.inFlight = some x → x.claimant ≠ .store) → t.store.buf i = { state := .empty, data := [] }) ∧
      (∀ op, t.flash.store = some op → ∃ b, op = .grownMark b) ∧
      (∀ x, s.flash.inFlight = some x → x.claimant = .store → t.flash.inFlight = some { x with discard := true })
    let failed (c : FailCause) (t : State) : Prop := gone c t ∧ (∀ j, j ≠ p → t.record j = s.record j) ∧
      t.writer = s.writer.mark (.place p) ∧ t.store.stream = .closed ∧ t.timers.data = none
    let binds (i : Instr) (c : FailCause) : Prop :=
      ∀ n' p' r' rest', rest = n' :: rest' → findNumber n' s.cat.places = some (p', r') → n' ≠ n →
        ∃ t, exec i s = .next t ∧ gone c t ∧ t.record p' = some { r' with state := .storing } ∧
          (∀ j, j ≠ p → j ≠ p' → t.record j = s.record j) ∧
          t.writer = (s.writer.mark (.place p)).mark (.place p') ∧ t.store.stream = .opened ∧
          t.store.received = 0 ∧ t.store.check = 0xFFFFFFFF#32 ∧ t.store.pageIndex = 0 ∧ t.store.loss = false ∧
          t.store.heldStart = false ∧ t.timers.data = some 0
    let fails (i : Instr) (c : FailCause) : Prop :=
      (s.store.heldStart = false ∨ rest = [] → ∃ t, exec i s = .next t ∧ failed c t ∧ t.store.heldStart = false) ∧
      (s.store.heldStart = true → binds i c)
    (s.store.stream ≠ .closed → LaneOpens 5#8 0 u ∨ LaneHolds 5#8 0 u → fails (.pictureAbort m) .aborted) ∧
    (s.store.stream = .opened → ∀ k, k = 0 ∨ 4096 < k →
      (LaneOpens 3#8 k u ∧ inLaneReady s = true) ∨
        (∃ b, u.lane = .block b ∧ b.kind = 3#8 ∧ b.length = k ∧ b.discard = false ∧
          (inLaneReady s = true ∨ 0 < b.got)) →
      fails (.inLaneBlockDropped m 3#8 k) .brokenStream ∧
      ∀ bytes : List Byte, bytes.length = k → fails (.pictureData m bytes) .brokenStream) ∧
    (∀ b, s.store.stream = .opened → u.lane = .block b → b.kind = 3#8 → b.discard = false → b.got < b.length →
      inLaneReady s = true ∨ 0 < b.got → fails (.inLaneFramingFault m) .brokenStream) ∧
    (∀ rest, s.store.stream = .opened → u.lane = .header (3#8 :: rest) →
      fails (.inLaneFramingFault m) .brokenStream) ∧
    (∀ x, s.store.stream = .opened → u.timers.data = some x → 2000000 ≤ x →
      fails (.dataTimeout m) .dataTimeout) ∧
    (∀ x, s.store.stream = .ending → s.store.bufA.state = .empty → s.store.bufB.state = .empty →
      s.store.heldEnd = some x →
      s.store.received = 0 ∨ 12582912 < s.store.received ∨ s.store.received ≠ x.length ∨
        ~~~s.store.check ≠ x.check ∨ x.width = 0 ∨ 16383 < x.width ∨ x.height = 0 ∨ 16383 < x.height ∨
        s.store.loss = true →
      fails (.endTaken m) .dataCheck) ∧
    (s.store.stream = .opened → s.store.heldStart = false → s.supply.powerLow = false →
      LaneOpens 2#8 0 u ∨ LaneHolds 2#8 0 u →
      (rest = [] → fails (.pictureStart m) .brokenStream) ∧ binds (.pictureStart m) .brokenStream)

/-- In Lane blocks that have no effect: of another length than the kind's, of no known kind, broken, or from before the
end of start-up (R51, R193); a data timer below 2 s (R56); and ABANDON: its checks in their order, and a record it
fails, bound or waiting in the queue: its reservation released, its blocks DIRTY, its place marked dirty (R68); a
PICTURE_START held in ENDING then binds to the next record, or is refused on an empty queue, where the bound record was
named, and stays held where another was (R55, R63). (What a row does with no block, another block or no expired timer in
hand is the model's choice, log 4 and log 20; a PICTURE_DATA header that finds POWER_LOW, log 50; that one of length 0
waits for ready, log 68; a gap in a header or after a block's last byte, log 51; that the row of a framing fault is
believed, log 5.) -/
def Obligations.AbandonAndDroppedBlocks : Prop :=
  (∀ (m : Moment) (s : State) (n : Nat), Taking s → Canonical s →
    let u := taken 9 m s
    let refused (c : Code) : Prop := exec (.abandon m n) s = .next (u.respond 9 (c, .empty, none))
    (s.map.mode = .preparing → refused .busy) ∧
    (s.map.mode ≠ .preparing → n = 0 ∨ 9999 < n → refused .badField) ∧
    (s.map.mode ≠ .preparing → 1 ≤ n → n ≤ 9999 →
      (findNumber n s.cat.places = none → refused .noSuchRecord) ∧
      (∀ p r, findNumber n s.cat.places = some (p, r) →
        (r.state ≠ .awaiting → r.state ≠ .storing → refused .wrongState) ∧
        (r.state = .awaiting ∨ r.state = .storing → s.shot.state ≠ .queueWait →
          s.store.heldStart = false ∨ (s.store.stream ≠ .closed ∧ s.store.queue.head? ≠ some n) →
          s.store.fullOrder = [] ∨ s.flash.free .store = false ∨ s.store.recovery ≠ none ∨
            (s.store.stream ≠ .closed ∧ s.store.queue.head? = some n) →
          ∃ t, exec (.abandon m n) s = .next t ∧
            t.record p = some { r with state := .failed, cause := some .aborted, remaining := 0, extent := []
                                       refreshExtent := none, picture := none, trim := none } ∧
            (∀ j, j ≠ p → t.record j = s.record j) ∧ t.writer = s.writer.mark (.place p) ∧
            t.map.reserved = s.map.reserved - r.remaining ∧
            (∀ b ∈ r.extent, s.map.stateOf b = .inUse → t.map.stateOf b = .dirty (.begins p)) ∧
            (∀ b, b ∉ r.extent → t.map.stateOf b = s.map.stateOf b) ∧ t.store.queue = removeFirst n s.store.queue ∧
            t.events.has .storeFailed = true ∧ t.store.heldStart = s.store.heldStart ∧
            (s.store.queue.head? ≠ some n → t.store.stream = s.store.stream ∧ t.store.bufA = s.store.bufA ∧
              t.store.bufB = s.store.bufB) ∧
            (s.store.queue.head? = some n → t.store.stream = .closed) ∧
            t.link.pending = some { kind := 9, code := .ok, body := .empty, held := none }) ∧
        (∀ rest, r.state = .awaiting ∨ r.state = .storing → s.shot.state ≠ .queueWait → s.store.heldStart = true →
          s.store.stream ≠ .closed → s.store.queue = n :: rest →
          let failed (t : State) : Prop :=
            t.record p = some { r with state := .failed, cause := some .aborted, remaining := 0, extent := []
                                       refreshExtent := none, picture := none, trim := none } ∧
            t.map.reserved = s.map.reserved - r.remaining ∧ t.store.queue = rest ∧ t.store.heldStart = false ∧
            t.store.heldEnd = none ∧ t.events.has .storeFailed = true ∧
            t.link.pending = some { kind := 9, code := .ok, body := .empty, held := none }
          (rest = [] → ∃ t, exec (.abandon m n) s = .next t ∧ failed t ∧ t.store.stream = .closed ∧
            (∀ j, j ≠ p → t.record j = s.record j) ∧ t.writer = s.writer.mark (.place p)) ∧
          (∀ n' p' r' rest', rest = n' :: rest' → n' ≠ n → findNumber n' s.cat.places = some (p', r') →
            ∃ t, exec (.abandon m n) s = .next t ∧ failed t ∧ t.store.stream = .opened ∧
              t.record p' = some { r' with state := .storing } ∧
              (∀ j, j ≠ p → j ≠ p' → t.record j = s.record j) ∧
              t.writer = (s.writer.mark (.place p)).mark (.place p') ∧ t.store.received = 0 ∧
              t.store.check = 0xFFFFFFFF#32 ∧ t.store.pageIndex = 0 ∧ t.store.loss = false ∧
              t.timers.data = some 0))))) ∧
  (∀ (m : Moment) (s : State), s.supply.powered = true → s.supply.shutdown ≠ .starting →
    let u := s.arrive m
    let gone : State := { u with lane := .hunting }
    (∀ k n, LaneOpens k n u →
      let taken : Prop := (k = 1#8 ∧ n = 243) ∨ (k = 2#8 ∧ n = 0) ∨ (k = 3#8 ∧ 1 ≤ n ∧ n ≤ 4096) ∨
        (k = 4#8 ∧ n = 12) ∨ (k = 5#8 ∧ n = 0)
      (taken → exec (.inLaneBlockDropped m k n) s = .next u) ∧
      (¬taken → k ≠ 3#8 → exec (.inLaneBlockDropped m k n) s = .next gone) ∧
      (¬taken → k = 3#8 →
        (inLaneReady s = true → s.store.stream ≠ .opened → exec (.inLaneBlockDropped m k n) s = .next gone) ∧
        (inLaneReady s = false → s.supply.powerLow = false → exec (.inLaneBlockDropped m k n) s =
          .next { u with lane := .block { kind := 3#8, length := n, discard := false } }) ∧
        (s.supply.powerLow = true → exec (.inLaneBlockDropped m k n) s = .next gone))) ∧
    (∀ h k n, u.lane = .header h → ¬LaneOpens k n u → exec (.inLaneBlockDropped m k n) s = .next u) ∧
    (u.lane = .hunting → exec (.inLaneFramingFault m) s = .next u) ∧
    (∀ h, u.lane = .header h → h.head? ≠ some 3#8 ∨ s.store.stream ≠ .opened →
      exec (.inLaneFramingFault m) s = .next gone) ∧
    (s.store.stream = .closed → LaneOpens 5#8 0 u → exec (.pictureAbort m) s = .next gone)) ∧
  (∀ (m : Moment) (s : State), s.supply.powered = true →
    s.store.stream ≠ .opened ∨ (∀ x, (s.arrive m).timers.data = some x → x < 2000000) →
    exec (.dataTimeout m) s = .next (s.arrive m)) ∧
  (∀ (m : Moment) (s : State) (b : LaneBlock), s.supply.powered = true → (s.arrive m).lane = .block b →
    let u := s.arrive m
    let gone : State := { u with lane := .hunting }
    let lost : Prop := b.discard = true ∨ (b.kind = 1#8 ∧ b.length ≠ 243) ∨ (b.kind = 2#8 ∧ b.length ≠ 0) ∨
      (b.kind = 3#8 ∧ (b.length = 0 ∨ 4096 < b.length)) ∨ (b.kind = 4#8 ∧ b.length ≠ 12) ∨
      (b.kind = 5#8 ∧ b.length ≠ 0) ∨ (b.kind ≠ 1#8 ∧ b.kind ≠ 2#8 ∧ b.kind ≠ 3#8 ∧ b.kind ≠ 4#8 ∧ b.kind ≠ 5#8)
    let waits : Prop := b.kind = 3#8 ∧ b.got = 0 ∧ inLaneReady s = false
    let drops (r : State) : Prop := exec (.inLaneBlockDropped m b.kind b.length) s = .next r
    let broken (r : State) : Prop := exec (.inLaneFramingFault m) s = .next r
    (waits ∨ b.length ≤ b.got → broken u) ∧
    (¬waits → b.got < b.length → b.kind ≠ 3#8 ∨ b.discard = true ∨ s.store.stream ≠ .opened → broken gone) ∧
    (¬lost → drops u) ∧
    (lost → b.kind ≠ 3#8 → drops gone) ∧
    (lost → waits → drops u) ∧
    (lost → ¬waits → b.kind = 3#8 → b.discard = true ∨ s.store.stream ≠ .opened → drops gone))

/-- A Store Engine program that passes empties its buffer, A or B, and counts its page; the next FULL page is
programmed, its block allocated first at the start of a position; one that ends a recovery leaves the failed blocks'
grown marks to be asked for (R62). One that fails, in a recovery or not, makes the block BAD, replaces it and copies the
good pages back from page 0 (R60, R61); NO BLOCK is NO_SPACE. Copy-backs go on, note an uncorrectable source, and leave
the page register the corrected sectors with fresh codes (R30; a code's value is free, log 49). All this alike in OPEN
and in ENDING; with the bad-block list full the failed block turns a WRITABLE store READ_ONLY and the recovery goes on
(R45). The result of an operation whose record has failed is discarded: its buffer is EMPTY, no block becomes BAD, what
waits goes on, a new picture's first page with its block allocated (R58, R69). A grown mark done leads to the next one,
else to the FULL page that waits (R62). Where OVERSIZE or NO_SPACE fails the record, a PICTURE_START held in ENDING binds
to the next record of the queue, or is refused on an empty queue and the stream stays CLOSED (R63, R68). -/
def Obligations.StoreProgramsPassOrRecover : Prop :=
  let ends (s : State) (q : Instr) (p : Nat) (c : FailCause) (more : State → Prop) : Prop :=
    (s.store.heldStart = false ∨ s.store.queue.tail = [] → ∃ t y, exec q s = .next t ∧ t.record p = some y ∧
      y.state = .failed ∧ y.cause = some c ∧ y.extent = [] ∧ t.store.stream = .closed ∧ t.store.heldStart = false ∧
      t.events.has .storeFailed = true ∧ more t) ∧
    (∀ n' p' r' rest', s.store.heldStart = true → s.store.queue.tail = n' :: rest' → s.store.queue.head? ≠ some n' →
      findNumber n' s.cat.places = some (p', r') → ∃ t y, exec q s = .next t ∧ t.record p = some y ∧
        y.state = .failed ∧ y.cause = some c ∧ y.extent = [] ∧ t.store.stream = .opened ∧ t.store.heldStart = false ∧
        t.record p' = some { r' with state := .storing } ∧ t.store.queue = n' :: rest' ∧ t.store.received = 0 ∧
        t.store.check = 0xFFFFFFFF#32 ∧ t.store.pageIndex = 0 ∧ t.store.loss = false ∧ t.timers.data = some 0 ∧
        t.events.has .storeFailed = true ∧ more t)
  (∀ (m : Moment) (s : State) (x : InFlightOp) (n p : Nat) (r : PicRecord) (rest : List Nat),
    s.supply.powered = true → s.flash.inFlight = some x → x.claimant = .store → x.discard = false →
    s.flash.protectDue = false → s.flash.store = none → s.store.stream ≠ .closed → s.shot.state ≠ .queueWait →
    s.store.queue = n :: rest → findNumber n s.cat.places = some (p, r) → Canonical s → s.store.marks = [] →
    let u := s.arrive m
    let i := s.store.pageIndex
    let registered (f : CopyRead) : Option (List Byte × List (List Byte)) :=
      some (f.data, (List.range 4).map fun j => Config.sectorCode ((f.data.drop (j * 1024)).take 1024))
    (∀ b g d side other, x.op = .program b g d → side = BufId.a ∧ other = BufId.b ∨ side = BufId.b ∧ other = BufId.a →
      (s.store.buf side).state = .programming → (s.store.buf other).state ≠ .programming →
      let e : StoreEngine :=
        { s.store.setBuf side { state := .empty, data := [] } with pageIndex := i + 1, recovery := none }
      let page : List Byte := (s.store.buf other).data
      (s.store.recovery = none → s.store.fullOrder = [] → exec (.pageProgramDone m true) s =
        .next { u with store := e, flash := { s.flash with inFlight := none } }) ∧
      (∀ v k tl, s.store.recovery = some v → v.failed = k :: tl → exec (.pageProgramDone m true) s =
        .next { u with store := { e with marks := tl }
                       flash := { s.flash with inFlight := none, store := some (.grownMark k) } }) ∧
      (∀ o, s.store.recovery = none → s.store.fullOrder = other :: o → (i + 1) % 64 ≠ 0 →
        exec (.pageProgramDone m true) s = .next { u with
          store := e
          flash := { s.flash with
            inFlight := none
            store := some (.program (r.extent.getD ((i + 1) / 64) 0) ((i + 1) % 64) page) } }) ∧
      (∀ o c y, s.store.recovery = none → s.store.fullOrder = other :: o → (i + 1) % 64 = 0 → (i + 1) / 64 < 48 →
        s.map.allocate r.remaining = some (c, y) →
        ∃ t, exec (.pageProgramDone m true) s = .next t ∧ t.map = y ∧
          t.record p = some { r with extent := r.extent ++ [c], remaining := r.remaining - 1 } ∧
          t.writer = s.writer.mark (.place p) ∧ t.store = e ∧
          t.flash.store = some (.program ((r.extent ++ [c]).getD ((i + 1) / 64) 0) 0 page)) ∧
      (∀ o, s.store.recovery = none → s.store.fullOrder = other :: o → (i + 1) % 64 = 0 →
        (48 ≤ (i + 1) / 64 → ends s (.pageProgramDone m true) p .oversize fun _ => True) ∧
        ((i + 1) / 64 < 48 → s.map.allocate r.remaining = none →
          ends s (.pageProgramDone m true) p .noSpace fun _ => True))) ∧
    (∀ (q : Instr) (f : CopyRead) (b : Nat),
      ((∃ a g d, x.op = .program a g d) ∧ q = .pageProgramDone m false) ∨
        ((∃ a g c h, x.op = .copyBack a g c h) ∧ q = .copyBackDone m f false ∧ s.store.recovery ≠ none ∧
          ∀ k ∈ f.counts, k ≠ SectorCount.uncorrectable) →
      b = r.extent.getD (i / 64) 0 → i / 64 < r.extent.length → b < s.map.total →
      let v : Recovery := s.store.recovery.getD { source := b, good := i % 64, copied := 0, failed := [] }
      let full : Prop := 256 ≤ s.map.badList.length
      let bad : BlockMap := { s.map with
        blocks := Table.put b .bad s.map.blocks
        badList := if s.map.badList.length < 256 then Table.put b .grown s.map.badList else s.map.badList
        mode := if 256 ≤ s.map.badList.length ∧ s.map.mode = .writable then .readOnly else s.map.mode }
      (∀ c y, bad.allocate r.remaining = some (c, y) → ∃ t, exec q s = .next t ∧ t.map = y ∧
        (full ∧ s.map.mode = .writable → t.events = (s.setFlag .storeReadOnly).events) ∧
        (¬(full ∧ s.map.mode = .writable) → t.events = s.events) ∧
        t.record p = some { r with extent := r.extent.set (i / 64) c, remaining := r.remaining - 1 } ∧
        t.store = { s.store with recovery := some { v with copied := 0, failed := v.failed ++ [b] } } ∧
        (0 < v.good → t.flash.store = some (.copyBack v.source 0 c 0)) ∧
        (v.good = 0 → s.store.bufA.state = .programming →
          t.flash.store = some (.program c (i % 64) s.store.bufA.data)) ∧
        (v.good = 0 → s.store.bufA.state ≠ .programming →
          t.flash.store = some (.program c (i % 64) s.store.bufB.data))) ∧
      (bad.allocate r.remaining = none → ends s q p .noSpace fun t =>
        t.store.recovery = none ∧ t.map.stateOf b = .bad ∧
        (full → s.map.mode = .writable → t.map.mode = .readOnly ∧ t.events.has .storeReadOnly = true) ∧
        ∀ k tl, v.failed ++ [b] = k :: tl → t.flash.store = some (.grownMark k) ∧ t.store.marks = tl)) ∧
    (∀ a q v c f, x.op = .copyBack a q c q → s.store.recovery = some v → v.copied = q →
      let loss : Bool := s.store.loss || f.counts.any (· == SectorCount.uncorrectable)
      let e : StoreEngine := { s.store with loss := loss, recovery := some { v with copied := q + 1 } }
      let claims (op : FlashOp) : Prop := exec (.copyBackDone m f true) s = .next { u with
        store := e, flash := { s.flash with inFlight := none, register := registered f, store := some op } }
      (q + 1 < v.good → claims (.copyBack v.source (q + 1) (r.extent.getD (i / 64) 0) (q + 1))) ∧
      (v.good ≤ q + 1 → s.store.bufA.state = .programming →
        claims (.program (r.extent.getD (i / 64) 0) (i % 64) s.store.bufA.data)) ∧
      (v.good ≤ q + 1 → s.store.bufA.state ≠ .programming →
        claims (.program (r.extent.getD (i / 64) 0) (i % 64) s.store.bufB.data))) ∧
    (∀ b ok, x.op = .grownMark b → s.store.fullOrder = [] ∨ s.store.recovery ≠ none →
      exec (.grownMarkProgramDone m ok) s = .next { u with flash := { s.flash with inFlight := none } })) ∧
  (∀ (m : Moment) (s : State) (x : InFlightOp) (b : Nat) (ok : Bool), s.supply.powered = true →
    s.flash.inFlight = some x → x.claimant = .store → x.op = .grownMark b → s.flash.protectDue = false →
    s.flash.store = none → s.store.recovery = none → s.shot.state ≠ .queueWait →
    s.store.heldStart = false ∨ s.store.stream ≠ .closed →
    let u := s.arrive m
    let i := s.store.pageIndex
    let idle : FlashPort := { s.flash with inFlight := none }
    (∀ k tl, s.store.marks = k :: tl → exec (.grownMarkProgramDone m ok) s = .next { u with
      store := { s.store with marks := tl }, flash := { idle with store := some (.grownMark k) } }) ∧
    (∀ side o n rest p r, s.store.marks = [] → s.store.fullOrder = side :: o → s.store.queue = n :: rest →
      findNumber n s.cat.places = some (p, r) → Canonical s →
      let page : List Byte := (s.store.buf side).data
      (i % 64 ≠ 0 → exec (.grownMarkProgramDone m ok) s = .next { u with
        flash := { idle with store := some (.program (r.extent.getD (i / 64) 0) (i % 64) page) } }) ∧
      (∀ c y, i % 64 = 0 → i / 64 < 48 → s.map.allocate r.remaining = some (c, y) →
        ∃ t, exec (.grownMarkProgramDone m ok) s = .next t ∧ t.map = y ∧ t.store = s.store ∧
          t.record p = some { r with extent := r.extent ++ [c], remaining := r.remaining - 1 } ∧
          t.writer = s.writer.mark (.place p) ∧
          t.flash = { idle with store := some (.program ((r.extent ++ [c]).getD (i / 64) 0) 0 page) }) ∧
      (i % 64 = 0 → s.store.stream ≠ .closed → 48 ≤ i / 64 ∨ s.map.allocate r.remaining = none →
        ends s (.grownMarkProgramDone m ok) p (if 48 ≤ i / 64 then .oversize else .noSpace) fun _ => True))) ∧
  (∀ (m : Moment) (s : State) (x : InFlightOp) (q : Instr) (reg : Option (List Byte × List (List Byte))),
    s.supply.powered = true → s.flash.inFlight = some x → x.claimant = .store → x.discard = true →
    s.flash.protectDue = false → s.shot.state ≠ .queueWait → s.store.heldStart = false ∨ s.store.stream ≠ .closed →
    ((∃ b g d pass, x.op = .program b g d ∧ q = .pageProgramDone m pass ∧ reg = s.flash.register) ∨
      (∃ b g c h src pass, x.op = .copyBack b g c h ∧ q = .copyBackDone m src pass ∧
        reg = some (src.data, (List.range 4).map fun j =>
          Config.sectorCode ((src.data.drop (j * 1024)).take 1024)))) →
    let empty : PageBuffer := { state := .empty, data := [] }
    let e : StoreEngine :=
      if s.store.bufA.state = .programming then { s.store with bufA := empty }
      else if s.store.bufB.state = .programming then { s.store with bufB := empty }
      else s.store
    let idle : FlashPort := { s.flash with inFlight := none, register := reg }
    (s.flash.store ≠ none ∨ s.store.recovery ≠ none ∨ (s.store.marks = [] ∧ s.store.fullOrder = []) →
      exec q s = .next { s.arrive m with store := e, flash := idle }) ∧
    (∀ k tl, s.flash.store = none → s.store.recovery = none → s.store.marks = k :: tl →
      exec q s = .next { s.arrive m with
        store := { e with marks := tl }, flash := { idle with store := some (.grownMark k) } }) ∧
    (∀ n rest p r side o, s.flash.store = none → s.store.recovery = none → s.store.marks = [] →
      s.store.fullOrder = side :: o → (s.store.buf side).state = .full →
      s.store.queue = n :: rest → findNumber n s.cat.places = some (p, r) → Canonical s →
      let i := s.store.pageIndex
      let page : List Byte := (s.store.buf side).data
      (i % 64 ≠ 0 → exec q s = .next { s.arrive m with
        store := e, flash := { idle with store := some (.program (r.extent.getD (i / 64) 0) (i % 64) page) } }) ∧
      (∀ c y, i % 64 = 0 → i / 64 < 48 → s.map.allocate r.remaining = some (c, y) →
        ∃ t, exec q s = .next t ∧ t.map = y ∧ t.store = e ∧
          t.record p = some { r with extent := r.extent ++ [c], remaining := r.remaining - 1 } ∧
          t.writer = s.writer.mark (.place p) ∧
          t.flash = { idle with store := some (.program ((r.extent ++ [c]).getD (i / 64) 0) 0 page) }) ∧
      (i % 64 = 0 → s.store.stream ≠ .closed → 48 ≤ i / 64 ∨ s.map.allocate r.remaining = none →
        ends s q p (if 48 ≤ i / 64 then .oversize else .noSpace) fun _ => True)))

/-! ### The Read Chain -/

/-- CHAIN ADD's checks in their order and the descriptor it appends; CHAIN CANCEL empties the chain, gives every hold
back, drops the read, and owes a CANCELLED marker for a head that has started and whose end has not begun. -/
def Obligations.ChainRequestsAddAndCancel : Prop :=
  ∀ (m : Moment) (s : State), Taking s → Canonical s →
    (∀ n offset length notify,
      let u := taken 10 m s
      let refused (c : Code) : Prop :=
        exec (.chainAdd m n offset length notify) s = .next (u.respond 10 (c, .empty, none))
      (s.map.mode = .preparing → refused .busy) ∧
      (s.map.mode ≠ .preparing →
        n = 0 ∨ 9999 < n ∨ 12582912 ≤ offset ∨ 12582912 < length → refused .badField) ∧
      (s.map.mode ≠ .preparing → 1 ≤ n → n ≤ 9999 → offset < 12582912 → length ≤ 12582912 →
        (16 ≤ s.chain.chain.length → refused .chainFull) ∧
        (s.chain.chain.length < 16 → findNumber n s.cat.places = none → refused .noSuchRecord) ∧
        (s.chain.chain.length < 16 → ∀ p r, findNumber n s.cat.places = some (p, r) →
          (r.state ≠ .stored → refused .wrongState) ∧
          (∀ x, r.state = .stored → r.picture = some x →
            (x.length ≤ offset ∨ (length ≠ 0 ∧ x.length < offset + length) → refused .badField) ∧
            (offset < x.length → length = 0 ∨ offset + length ≤ x.length →
              exec (.chainAdd m n offset length notify) s = .next ({ u with
                cat := { u.cat with places := Table.put p { r with holds := r.holds + 1 } u.cat.places }
                chain := { s.chain with
                  chain := s.chain.chain ++ [
                    ({ number := n, offset := offset, length := if length = 0 then x.length - offset else length
                       notify := notify, position := 0, damage := false } : Descriptor)]
                  run := if s.chain.chain = [] then some .waiting else s.chain.run } }.respond 10
                    (.ok, .chainLength (s.chain.chain.length + 1), none))))))) ∧
    (∃ t, exec (.chainCancel m) s = .next t ∧
      t.link.pending = some { kind := 11, code := .ok, body := .empty, held := none } ∧
      t.chain.chain = [] ∧ t.chain.run = none ∧ t.chain.buffer = none ∧ t.chain.refresh = s.chain.refresh ∧
      t.flash.read = none ∧ (∀ x, t.flash.inFlight = some x → x.claimant = .readChain → x.discard = true) ∧
      t.writer = s.writer ∧ t.map = s.map ∧
      (∀ n p r, findNumber n s.cat.places = some (p, r) → t.record p =
        some { r with holds := r.holds - (s.chain.chain.filter fun d => d.number = n).length }) ∧
      (s.chain.chain = [] → s.chain.run = none → t.chain.owed = s.chain.owed) ∧
      (s.chain.run = some .waiting → s.chain.item = none → t.chain.owed = s.chain.owed) ∧
      (∀ d rest, s.chain.chain = d :: rest →
        s.chain.run = some .needsPage ∨ s.chain.run = some .reading ∨ s.chain.run = some .sending →
        (∀ x o, s.chain.item = some x → x.kind ≠ .finish o) → t.chain.owed = some (d.number, d.notify)) ∧
      (∀ d rest, s.chain.chain = d :: rest → s.chain.run = some .ending → s.chain.item = none →
        t.chain.owed = some (d.number, d.notify)) ∧
      (∀ x o, s.chain.item = some x → x.kind = .finish o → x.live = true → s.chain.run = some .ending →
        t.chain.owed = s.chain.owed))

/-- The Out Lane: the item each run state owes, begun while the lane is ready (R74), and what its sending does to the head
descriptor, the chain, the held record and READ_NOTICE; the bytes of the three items (section 10.4). (WAITING lasts until
the start has been sent, the model's choice, log 45; that a page is asked for also while a read that CHAIN CANCEL
discarded is still in flight, log 62; that the outcome of a DESCRIPTOR_END takes one byte, log 53.) -/
def Obligations.OutLaneItemsDriveTheChain : Prop :=
  ∀ (m : Moment) (s : State), s.supply.powered = true →
    let u := s.arrive m
    let begun (x : OutItem) : Prop :=
      exec (.outLaneItemBegin m) s = .next { u with chain := { s.chain with item := some x, owed := none } }
    (s.chain.item ≠ none ∨ s.supply.powerLow = true ∨ m.outReady = false → exec (.outLaneItemBegin m) s = .next u) ∧
    (s.chain.item = none → s.supply.powerLow = false → m.outReady = true →
      (∀ n k, s.chain.owed = some (n, k) →
        begun { number := n, kind := .finish .cancelled, live := false, notify := k }) ∧
      (∀ d rest, s.chain.owed = none → s.chain.chain = d :: rest →
        (s.chain.run = some .waiting →
          begun { number := d.number, kind := .start d.offset d.length, live := true, notify := d.notify }) ∧
        (∀ b, s.chain.run = some .sending → s.chain.buffer = some b →
          let o := (d.offset + d.position) % 4096
          begun { number := d.number, live := true, notify := d.notify
                  kind := .data ((b.data.drop o).take (min (1024 - o % 1024) (d.length - d.position))) }) ∧
        (s.chain.run = some .ending → begun { number := d.number, live := true, notify := d.notify
                                              kind := .finish (if d.damage then .damagedData else .done) }) ∧
        (s.chain.run = some .needsPage ∨ s.chain.run = some .reading → exec (.outLaneItemBegin m) s = .next u)) ∧
      (s.chain.owed = none → s.chain.chain = [] → exec (.outLaneItemBegin m) s = .next u)) ∧
    (∀ x, s.chain.item = some x →
      let c : ReadChain := { s.chain with item := none }
      (∀ o l d rest p r, x.kind = .start o l → x.live = true → s.chain.chain = d :: rest →
        findNumber d.number s.cat.places = some (p, r) →
        let page := (d.offset + d.position) / 4096
        exec (.descriptorStartSent m) s = .next { u with
          chain := { c with run := some .reading }
          flash := { s.flash with read := some (.pageRead (r.extent.getD (page / 64) 0) (page % 64)) } }) ∧
      (∀ o l, x.kind = .start o l → x.live = false →
        exec (.descriptorStartSent m) s = .next { u with chain := c }) ∧
      (∀ bs d rest p r, x.kind = .data bs → x.live = true → s.chain.chain = d :: rest →
        findNumber d.number s.cat.places = some (p, r) →
        let e : Descriptor := { d with position := d.position + bs.length }
        let page := (e.offset + e.position) / 4096
        (e.length ≤ e.position → exec (.dataItemSent m) s = .next { u with
          chain := { c with chain := e :: rest, buffer := none, run := some .ending } }) ∧
        (e.position < e.length → (e.offset + e.position) % 4096 = 0 → exec (.dataItemSent m) s = .next { u with
          chain := { c with chain := e :: rest, buffer := none, run := some .reading }
          flash := { s.flash with read := some (.pageRead (r.extent.getD (page / 64) 0) (page % 64)) } }) ∧
        (e.position < e.length → (e.offset + e.position) % 4096 ≠ 0 → exec (.dataItemSent m) s = .next { u with
          chain := { c with chain := e :: rest } })) ∧
      (∀ bs, x.kind = .data bs → x.live = false → exec (.dataItemSent m) s = .next { u with chain := c }) ∧
      (∀ o d rest p r, x.kind = .finish o → o ≠ .cancelled → x.live = true → s.chain.chain = d :: rest →
        findNumber d.number s.cat.places = some (p, r) →
        exec (.descriptorEndSent m) s = .next ({ u with
          cat := { s.cat with places := Table.put p { r with holds := r.holds - 1 } s.cat.places }
          chain := { c with chain := rest, buffer := none
                            run := if rest = [] then none else some .waiting } }.setFlagIf x.notify .readNotice)) ∧
      (∀ o, x.kind = .finish o → o ≠ .cancelled → x.live = false →
        exec (.descriptorEndSent m) s = .next ({ u with chain := c }.setFlagIf x.notify .readNotice)) ∧
      (x.kind = .finish .cancelled →
        exec (.cancelledEndSent m) s = .next ({ u with chain := c }.setFlagIf x.notify .readNotice))) ∧
    (∀ (n o l : Nat) (live notify : Bool) (d : List Byte),
      let item (k : ItemKind) : OutItem := { number := n, kind := k, live := live, notify := notify }
      let byte (x : Nat) : Byte := BitVec.ofNat 8 x
      (item (.start o l)).bytes = [60#8, 1#8, byte (n / 256), byte n, byte (o / 16777216), byte (o / 65536),
        byte (o / 256), byte o, byte (l / 16777216), byte (l / 65536), byte (l / 256), byte l] ∧
      (item (.data d)).bytes = [60#8, 2#8, byte (d.length / 256), byte d.length] ++ d ∧
      (item (.finish .done)).bytes = [60#8, 3#8, byte (n / 256), byte n, 0#8] ∧
      (item (.finish .damagedData)).bytes = [60#8, 3#8, byte (n / 256), byte n, 1#8] ∧
      (item (.finish .cancelled)).bytes = [60#8, 3#8, byte (n / 256), byte n, 2#8])

/-- PAGE READ DONE for the head descriptor: the page is buffered, and the correction counts of the sectors that hold a
byte still wanted reach the record: peak, weak mark, unreadable-part mark, WEAK_FOUND. A discarded read does nothing. -/
def Obligations.PageReadsReportToTheRecord : Prop :=
  ∀ (m : Moment) (s : State) (x : InFlightOp) (b g : Nat) (data : PageRead), Canonical s → s.supply.powered = true →
    s.flash.inFlight = some x → x.claimant = .readChain → x.op = .pageRead b g → s.flash.protectDue = false →
    (x.discard = true →
      exec (.pageReadDone m data) s = .next { s.arrive m with flash := { s.flash with inFlight := none } }) ∧
    (x.discard = false → ∀ d rest p r, s.chain.chain = d :: rest → findNumber d.number s.cat.places = some (p, r) →
      let o := (d.offset + d.position) % 4096
      let wanted (i : Nat) : Prop := i * 1024 < min 4096 (o + (d.length - d.position)) ∧ o < (i + 1) * 1024
      let uncorrectable : Prop := ∃ i, wanted i ∧ data.counts[i]? = some SectorCount.uncorrectable
      ∃ t y, exec (.pageReadDone m data) s = .next t ∧ t.record p = some y ∧ (∀ j, j ≠ p → t.record j = s.record j) ∧
        y = { r with peak := y.peak, weak := y.weak, unreadable := y.unreadable } ∧
        r.peak ≤ y.peak ∧ (∀ i k, wanted i → data.counts[i]? = some (.corrected k) → k ≤ y.peak) ∧
        (y.peak = r.peak ∨ ∃ i, wanted i ∧ data.counts[i]? = some (.corrected y.peak)) ∧
        (y.weak = true ↔ r.weak = true ∨ ∃ i k, wanted i ∧ data.counts[i]? = some (.corrected k) ∧ 6 ≤ k) ∧
        (y.unreadable = true ↔ r.unreadable = true ∨ uncorrectable) ∧
        (y = r → t.writer = s.writer) ∧ (y ≠ r → t.writer = s.writer.mark (.place p)) ∧
        (y.weak = true → r.weak = false → t.events = (s.setFlag .weakFound).events) ∧
        (y.weak = r.weak → t.events = s.events) ∧
        t.flash = { s.flash with inFlight := none } ∧
        ∃ e, t.chain = { s.chain with chain := e :: rest, run := some .sending
                                      buffer := some { data := data.data, counts := data.counts } } ∧
          e = { d with damage := e.damage } ∧ (e.damage = true ↔ d.damage = true ∨ uncorrectable))

/-- REFRESH: its checks in their order, BUSY while grown marks of an earlier one wait included; the reservation, hold
and first read it starts with; its page reads and programs, position by position; a failed program's recovery, the
replacement in the refresh extent, the copy-backs, and the grown marks asked for after it (R85); the swap at the end
(R86), and the abandonment on an uncorrectable page or copy-back or with NO BLOCK (R87). With the bad-block list full a
failed block turns a WRITABLE store READ_ONLY and the refresh goes on (R45, R88). A discarded result, as a grown mark
done, leads to the next mark that waits, else to the next page of the refresh now running, if any (R87). (That NO BLOCK
at a position's own allocation abandons too is the model's reading, log 22; that a copy-back both UNCORRECTABLE and FAIL
abandons with no replacement, log 23; that a copy-back leaves the page register the corrected sectors with codes whose
value is free, R30, log 49; that an allocation or replacement with nothing reserved does not mark the place dirty, R4,
log 42, and that an abandonment with nothing reserved left does, log 73.) -/
def Obligations.RefreshCopiesAndSwaps : Prop :=
  (∀ (m : Moment) (s : State) (n : Nat), Taking s → Canonical s →
    let u := taken 12 m s
    let refused (c : Code) : Prop := exec (.refresh m n) s = .next (u.respond 12 (c, .empty, none))
    (s.map.mode = .preparing → refused .busy) ∧
    (s.map.mode ≠ .preparing → n = 0 ∨ 9999 < n → refused .badField) ∧
    (s.map.mode ≠ .preparing → 1 ≤ n → n ≤ 9999 → findNumber n s.cat.places = none → refused .noSuchRecord) ∧
    (s.map.mode ≠ .preparing → 1 ≤ n → n ≤ 9999 → ∀ p r, findNumber n s.cat.places = some (p, r) →
      (r.state ≠ .stored → refused .wrongState) ∧
      (r.state = .stored → s.chain.refresh ≠ none ∨ s.chain.refreshMarks ≠ [] ∨
          (∃ b, s.flash.refresh = some (.grownMark b)) ∨
          (∃ x b, s.flash.inFlight = some x ∧ x.claimant = .refresh ∧ x.op = .grownMark b) → refused .busy) ∧
      (r.state = .stored → s.chain.refresh = none → s.chain.refreshMarks = [] → s.flash.refresh = none →
        (∀ x, s.flash.inFlight = some x → x.claimant ≠ .refresh) →
        (s.map.mode = .readOnly → refused .storeReadOnly) ∧
        (s.map.mode = .unprepared → refused .storeUnprepared) ∧
        (s.map.mode = .writable → s.map.erasedCount < s.map.reserved + r.extent.length → refused .noSpace) ∧
        (s.map.mode = .writable → s.map.reserved + r.extent.length ≤ s.map.erasedCount → ∀ c y x,
          ({ s.map with reserved := s.map.reserved + r.extent.length } : BlockMap).allocate r.extent.length = some (c, y) →
          r.picture = some x →
          ∃ t, exec (.refresh m n) s = .next t ∧ t.map = y ∧
            t.record p = some { r with
              remaining := r.extent.length - 1, holds := r.holds + 1, refreshExtent := some [c] } ∧
            t.chain.refresh = some { number := n, position := 1, page := 0, pages := (x.length + 4095) / 4096
                                     buffer := [], recovery := none } ∧
            t.flash.refresh = some (.pageRead (r.extent.getD 0 0) 0) ∧ t.writer = s.writer.mark (.place p) ∧
            t.link.pending = some { kind := 12, code := .ok, body := .empty, held := none })))) ∧
  (∀ (m : Moment) (s : State) (x : InFlightOp) (f : Refresh) (p : Nat) (r : PicRecord) (ns : List Nat),
    s.supply.powered = true → s.flash.inFlight = some x → x.claimant = .refresh → x.discard = false →
    s.flash.protectDue = false → s.flash.refresh = none → s.chain.refresh = some f → s.chain.refreshMarks = [] →
    findNumber f.number s.cat.places = some (p, r) → r.refreshExtent = some ns → f.recovery = none → Canonical s →
    let u := s.arrive m
    let page := (f.position - 1) * 64 + f.page
    (∀ b g data, x.op = .pageRead b g →
      ((∀ c ∈ data.counts, c ≠ SectorCount.uncorrectable) → exec (.pageReadDone m data) s = .next { u with
        chain := { s.chain with refresh := some { f with buffer := data.data } }
        flash := { s.flash with
          inFlight := none, refresh := some (.program (ns.getD (f.position - 1) 0) f.page data.data) } }) ∧
      (SectorCount.uncorrectable ∈ data.counts → ∃ t, exec (.pageReadDone m data) s = .next t ∧
        t.chain.refresh = none ∧ t.record p = some { r with
          refreshExtent := none, remaining := 0, holds := r.holds - 1, unreadable := true } ∧
        t.writer = s.writer.mark (.place p) ∧
        t.map.reserved = s.map.reserved - r.remaining ∧
        (∀ b ∈ ns, s.map.stateOf b = .inUse → t.map.stateOf b = .dirty .ready) ∧
        t.events = (s.setFlag .maintenanceDone).events)) ∧
    (∀ b g d, x.op = .program b g d →
      (page + 1 < f.pages → f.page + 1 < 64 → exec (.pageProgramDone m true) s = .next { u with
        chain := { s.chain with refresh := some { f with page := f.page + 1 } }
        flash := { s.flash with
          inFlight := none, refresh := some (.pageRead (r.extent.getD (f.position - 1) 0) (f.page + 1)) } }) ∧
      (page + 1 < f.pages → f.page + 1 = 64 →
        (∀ c y, s.map.allocate r.remaining = some (c, y) → ∃ t, exec (.pageProgramDone m true) s = .next t ∧
          t.map = y ∧ t.writer = (if r.remaining = 0 then s.writer else s.writer.mark (.place p)) ∧
          t.record p = some { r with remaining := r.remaining - 1, refreshExtent := some (ns ++ [c]) } ∧
          (∀ j, j ≠ p → t.record j = s.record j) ∧
          t.chain = { s.chain with refresh := some { f with position := f.position + 1, page := 0 } } ∧
          t.flash = { s.flash with
            inFlight := none, refresh := some (.pageRead (r.extent.getD f.position 0) 0) }) ∧
        (s.map.allocate r.remaining = none → ∃ t, exec (.pageProgramDone m true) s = .next t ∧
          t.chain.refresh = none ∧ t.map.reserved = s.map.reserved - r.remaining ∧
          t.writer = s.writer.mark (.place p) ∧
          t.record p = some { r with refreshExtent := none, remaining := 0, holds := r.holds - 1 } ∧
          (∀ b ∈ ns, s.map.stateOf b = .inUse → t.map.stateOf b = .dirty .ready) ∧
          t.events = (s.setFlag .maintenanceDone).events)) ∧
      (f.pages ≤ page + 1 → ∃ t, exec (.pageProgramDone m true) s = .next t ∧ t.chain.refresh = none ∧
        t.record p = some { r with extent := ns, refreshExtent := none, remaining := 0, peak := 0, weak := false
                                   holds := r.holds - 1 } ∧
        t.map.reserved = s.map.reserved - r.remaining ∧ t.writer = s.writer.mark (.place p) ∧
        (∀ b ∈ r.extent, s.map.stateOf b = .inUse → t.map.stateOf b = .dirty (.begins p)) ∧
        t.events = (s.setFlag .maintenanceDone).events))) ∧
  (∀ (m : Moment) (s : State) (x : InFlightOp) (f : Refresh) (p : Nat) (r : PicRecord) (ns : List Nat),
    s.supply.powered = true → s.flash.inFlight = some x → x.claimant = .refresh → x.discard = false →
    s.flash.protectDue = false → s.flash.refresh = none → s.chain.refresh = some f → s.chain.refreshMarks = [] →
    findNumber f.number s.cat.places = some (p, r) → r.refreshExtent = some ns → Canonical s →
    let u := s.arrive m
    let i := f.position - 1
    let b := ns.getD i 0
    let registered (src : CopyRead) : Option (List Byte × List (List Byte)) :=
      some (src.data, (List.range 4).map fun j => Config.sectorCode ((src.data.drop (j * 1024)).take 1024))
    let abandoned (t : State) (w : Writer) (marks : List Nat) : Prop := t.chain.refresh = none ∧
      t.writer = w.mark (.place p) ∧
      t.record p = some { r with refreshExtent := none, remaining := 0, holds := r.holds - 1 } ∧
      t.map.reserved = s.map.reserved - r.remaining ∧
      (∀ k tl, marks = k :: tl → t.flash.refresh = some (.grownMark k) ∧ t.chain.refreshMarks = tl) ∧
      (marks = [] → t.flash.refresh = none ∧ t.chain.refreshMarks = [])
    (∀ q, ((∃ a g d, x.op = .program a g d) ∧ q = .pageProgramDone m false) ∨
        (∃ a g c h src, x.op = .copyBack a g c h ∧ q = .copyBackDone m src false ∧ f.recovery ≠ none ∧
          ∀ k ∈ src.counts, k ≠ SectorCount.uncorrectable) →
      i < ns.length → b < s.map.total →
      let v : Recovery := f.recovery.getD { source := b, good := f.page, copied := 0, failed := [] }
      let bad : BlockMap := { s.map with
        blocks := Table.put b .bad s.map.blocks
        badList := if s.map.badList.length < 256 then Table.put b .grown s.map.badList else s.map.badList
        mode := if 256 ≤ s.map.badList.length ∧ s.map.mode = .writable then .readOnly else s.map.mode }
      let full : Prop := 256 ≤ s.map.badList.length ∧ s.map.mode = .writable
      let w : Writer := if s.map.badList.length < 256 then s.writer.mark .badList else s.writer
      (∀ c y, bad.allocate r.remaining = some (c, y) → ∃ t, exec q s = .next t ∧ t.map = y ∧
        t.writer = (if r.remaining = 0 then w else w.mark (.place p)) ∧
        (full → t.events = (s.setFlag .storeReadOnly).events) ∧ (¬full → t.events = s.events) ∧
        t.record p = some { r with refreshExtent := some (ns.set i c), remaining := r.remaining - 1 } ∧
        t.chain = { s.chain with
          refresh := some { f with recovery := some { v with copied := 0, failed := v.failed ++ [b] } } } ∧
        (0 < v.good → t.flash.refresh = some (.copyBack v.source 0 c 0)) ∧
        (v.good = 0 → t.flash.refresh = some (.program c f.page f.buffer))) ∧
      (bad.allocate r.remaining = none → ∃ t, exec q s = .next t ∧ abandoned t w (v.failed ++ [b]) ∧
        t.map.stateOf b = .bad ∧ t.map.mode = bad.mode ∧
        (full → t.events = ((s.setFlag .storeReadOnly).setFlag .maintenanceDone).events) ∧
        (¬full → t.events = (s.setFlag .maintenanceDone).events))) ∧
    (∀ v a g c h src, x.op = .copyBack a g c h → f.recovery = some v →
      let claims (op : FlashOp) : Prop := exec (.copyBackDone m src true) s = .next { u with
        chain := { s.chain with refresh := some { f with recovery := some { v with copied := v.copied + 1 } } }
        flash := { s.flash with inFlight := none, register := registered src, refresh := some op } }
      ((∀ k ∈ src.counts, k ≠ SectorCount.uncorrectable) →
        (v.copied + 1 < v.good → claims (.copyBack v.source (v.copied + 1) b (v.copied + 1))) ∧
        (v.good ≤ v.copied + 1 → claims (.program b f.page f.buffer))) ∧
      (SectorCount.uncorrectable ∈ src.counts → ∀ pass, ∃ t, exec (.copyBackDone m src pass) s = .next t ∧
        abandoned t s.writer v.failed ∧ t.events = (s.setFlag .maintenanceDone).events)) ∧
    (∀ v a g d k tl, x.op = .program a g d → f.recovery = some v → v.failed = k :: tl → i * 64 + f.page + 1 < f.pages →
      exec (.pageProgramDone m true) s = .next { u with
        chain := { s.chain with
          refreshMarks := tl
          refresh := some { f with
            recovery := none, page := if f.page + 1 = 64 then 0 else f.page + 1
            position := if f.page + 1 = 64 then f.position + 1 else f.position } }
        flash := { s.flash with inFlight := none, refresh := some (.grownMark k) } }) ∧
    (∀ v a g d k tl, x.op = .program a g d → f.recovery = some v → v.failed = k :: tl → f.pages ≤ i * 64 + f.page + 1 →
      ∃ t, exec (.pageProgramDone m true) s = .next t ∧ t.chain.refresh = none ∧
        t.record p = some { r with extent := ns, refreshExtent := none, remaining := 0, peak := 0, weak := false
                                   holds := r.holds - 1 } ∧
        t.map.reserved = s.map.reserved - r.remaining ∧ t.writer = s.writer.mark (.place p) ∧
        (∀ b ∈ r.extent, s.map.stateOf b = .inUse → t.map.stateOf b = .dirty (.begins p)) ∧
        t.flash.refresh = some (.grownMark k) ∧ t.chain.refreshMarks = tl ∧
        t.events = (s.setFlag .maintenanceDone).events)) ∧
  (∀ (m : Moment) (s : State) (x : InFlightOp) (q : Instr) (reg : Option (List Byte × List (List Byte))),
    s.supply.powered = true → s.flash.inFlight = some x → x.claimant = .refresh → s.flash.protectDue = false →
    s.flash.refresh = none →
    (∃ b ok, x.op = .grownMark b ∧ q = .grownMarkProgramDone m ok ∧ reg = s.flash.register) ∨
      (x.discard = true ∧
        ((∃ b g data, x.op = .pageRead b g ∧ q = .pageReadDone m data ∧ reg = s.flash.register) ∨
          (∃ b g d pass, x.op = .program b g d ∧ q = .pageProgramDone m pass ∧ reg = s.flash.register) ∨
          (∃ b g c h src pass, x.op = .copyBack b g c h ∧ q = .copyBackDone m src pass ∧
            reg = some (src.data, (List.range 4).map fun j =>
              Config.sectorCode ((src.data.drop (j * 1024)).take 1024))))) →
    let u := s.arrive m
    let idle : FlashPort := { s.flash with inFlight := none, register := reg }
    (∀ k tl, s.chain.refreshMarks = k :: tl → exec q s = .next { u with
      chain := { s.chain with refreshMarks := tl }, flash := { idle with refresh := some (.grownMark k) } }) ∧
    (s.chain.refreshMarks = [] → s.chain.refresh = none → exec q s = .next { u with flash := idle }) ∧
    (∀ f p r ns, s.chain.refreshMarks = [] → s.chain.refresh = some f → findNumber f.number s.cat.places = some (p, r) →
      r.refreshExtent = some ns → Canonical s →
      (f.page ≠ 0 → exec q s = .next { u with
        flash := { idle with refresh := some (.pageRead (r.extent.getD (f.position - 1) 0) f.page) } }) ∧
      (∀ c y, f.page = 0 → s.map.allocate r.remaining = some (c, y) → ∃ t, exec q s = .next t ∧ t.map = y ∧
        t.record p = some { r with remaining := r.remaining - 1, refreshExtent := some (ns ++ [c]) } ∧
        t.writer = (if r.remaining = 0 then s.writer else s.writer.mark (.place p)) ∧ t.chain = s.chain ∧
        t.flash = { idle with refresh := some (.pageRead (r.extent.getD (f.position - 1) 0) 0) }) ∧
      (f.page = 0 → f.recovery = none → s.map.allocate r.remaining = none → ∃ t, exec q s = .next t ∧
        t.chain.refresh = none ∧ t.map.reserved = s.map.reserved - r.remaining ∧
        t.writer = s.writer.mark (.place p) ∧
        t.record p = some { r with refreshExtent := none, remaining := 0, holds := r.holds - 1 } ∧
        (∀ b ∈ ns, s.map.stateOf b = .inUse → t.map.stateOf b = .dirty .ready) ∧
        t.events = (s.setFlag .maintenanceDone).events)))

/-! ### The Metering Unit -/

/-- METER SETUP's checks and the setup it puts in force; METER LOCK and METER UNLOCK by the lock owner. -/
def Obligations.MeteringRequestsActByTheOwner : Prop :=
  ∀ (m : Moment) (s : State), Taking s →
    let fresh (v : State) : State :=
      if v.meter.owner = .shot then v else { v with meter := { v.meter with exposure := computeExposure v } }
    (∀ x : MeterSetupFields,
      let u := taken 13 m s
      let refused (c : Code) : Prop := exec (.meterSetup m x) s = .next (u.respond 13 (c, .empty, none))
      (s.shot.state ≠ .idle → refused .shotArmed) ∧
      (s.shot.state = .idle →
        x.mode = none ∨ x.pattern = none ∨ x.sensitivity = none ∨
          (∃ b, (x.sensitivity = some (.auto b) ∨ x.sensitivity = some (.fixed b)) ∧ (b < 0 ∨ 18 < b)) ∨
          x.compensation < -9 ∨ 9 < x.compensation ∨ x.av < 6 ∨ 27 < x.av ∨ x.tv < -15 ∨ 36 < x.tv ∨
          (x.mode = some .manual ∧ ∃ b, x.sensitivity = some (.auto b)) → refused .badField) ∧
      (∀ mo p se, s.shot.state = .idle → x.mode = some mo → x.pattern = some p → x.sensitivity = some se →
        (∀ b, se = .auto b ∨ se = .fixed b → 0 ≤ b ∧ b ≤ 18) → -9 ≤ x.compensation → x.compensation ≤ 9 → 6 ≤ x.av →
        x.av ≤ 27 → -15 ≤ x.tv → x.tv ≤ 36 → (mo = .manual → ∀ b, se ≠ .auto b) →
        exec (.meterSetup m x) s = .next ((fresh { u with meter := { u.meter with setup :=
          { mode := mo, pattern := p, sensitivity := se, compensation := x.compensation, av := x.av
            tv := x.tv } } }).respond 13 (.ok, .empty, none)))) ∧
    (let u := taken 14 m s
     (s.meter.state = .noData → exec (.meterLock m) s = .next (u.respond 14 (.notReady, .empty, none))) ∧
     (s.meter.state ≠ .noData →
       (s.meter.owner = .none → exec (.meterLock m) s = .next ((fresh { u with meter :=
         { u.meter with state := .locked, owner := .request } }).respond 14 (.ok, .empty, none))) ∧
       (s.meter.owner = .request → exec (.meterLock m) s = .next (u.respond 14 (.ok, .empty, none))) ∧
       (s.meter.owner = .shot → exec (.meterLock m) s = .next ({ u with meter :=
         { u.meter with note := true } }.respond 14 (.ok, .empty, none))))) ∧
    (let u := taken 15 m s
     (s.meter.owner = .none → exec (.meterUnlock m) s = .next (u.respond 15 (.ok, .empty, none))) ∧
     (s.meter.owner = .shot → exec (.meterUnlock m) s = .next ({ u with meter :=
       { u.meter with note := false } }.respond 15 (.ok, .empty, none))) ∧
     (s.meter.owner = .request → exec (.meterUnlock m) s = .next ((fresh { u with meter := { u.meter with
       state := if u.timers.block = none then .stale else .tracking
       owner := .none, note := false, run := 0 } }).respond 15 (.ok, .empty, none))))

/-- The watches and timers: each command brings the time since the one before (log 1), by which every running one
advances and no stopped one; the data timer pauses while the In Lane's ready line is low (R56). STATISTICS: the block
watch restarts in every state, so that an expiry counts only 500 ms after the last block (R97); LOCKED does nothing
more, NO_DATA and STALE seed the filter, TRACKING and STABLE filter and count the run; the exposure follows but under a
SHOT lock. BLOCK WATCH EXPIRY. The layout of a block (section 10.4). (That a block is measured before the Focus Unit
takes it is the model's choice, log 24, and that the expiry of a stopped watch, or of one below 500 ms, does nothing log
4.) -/
def Obligations.BlocksDriveTheSceneValue : Prop :=
  ∀ (m : Moment) (s : State), s.supply.powered = true →
    let u := s.arrive m
    let on (x : Option Nat) : Option Nat := x.map fun n => n + m.dt
    (u.timers = { block := on s.timers.block, sample := on s.timers.sample
                  data := if inLaneReady s = true then on s.timers.data else s.timers.data
                  stall := on s.timers.stall, brake := on s.timers.brake, pulse := on s.timers.pulse
                  lost := on s.timers.lost, good := on s.timers.good, frame := on s.timers.frame
                  shutter := on s.timers.shutter, confirm := on s.timers.confirm }) ∧
    (∀ body : List Byte,
      LaneOpens 1#8 243 u ∧ s.supply.shutdown ≠ .starting ∨ LaneHolds 1#8 243 u →
      let b := statOf body
      let v := measureBlock u b
      ∃ t, exec (.statistics m body) s = .next t ∧ t.lane = .hunting ∧ t.timers.block = some 0 ∧ t.zoom = s.zoom ∧
        t.steady = s.steady ∧ t.shot = s.shot ∧
        (s.meter.state = .locked → t.meter = s.meter) ∧
        (s.meter.state = .noData ∨ s.meter.state = .stale → t.meter = { s.meter with
          state := .tracking, filtered := some (v * 16), run := 1, last := some v, frame := some b.frame
          exposure := if s.meter.owner = .shot then s.meter.exposure else computeExposure t }) ∧
        (∀ f, s.meter.state = .tracking ∨ s.meter.state = .stable → s.meter.filtered = some f →
          let agrees : Bool := -16 ≤ v * 16 - f && v * 16 - f ≤ 16
          t.meter = { s.meter with
            filtered := some (f + Int.tdiv (v * 16 - f) 4), last := some v, frame := some b.frame
            run := if agrees then min 3 (s.meter.run + 1) else 0
            state := if agrees then (if 2 ≤ s.meter.run then .stable else s.meter.state) else .tracking
            exposure := if s.meter.owner = .shot then s.meter.exposure else computeExposure t })) ∧
    ((∀ x, u.timers.block = some x → x < 500000) → exec (.blockWatchExpiry m) s = .next u) ∧
    (∀ x, u.timers.block = some x → 500000 ≤ x →
      let w : State := { u with timers := { u.timers with block := none } }
      (s.meter.state = .tracking ∨ s.meter.state = .stable →
        ∃ t, exec (.blockWatchExpiry m) s = .next t ∧ t = { w with meter := { s.meter with
          state := .stale, run := 0
          exposure := if s.meter.owner = .shot then s.meter.exposure else computeExposure t } }) ∧
      (s.meter.state = .noData ∨ s.meter.state = .stale ∨ s.meter.state = .locked →
        exec (.blockWatchExpiry m) s = .next w)) ∧
    (∀ body : List Byte,
      let at_ (i : Nat) : Nat := (body.getD i 0#8).toNat
      let b := statOf body
      b.frame = at_ 0 * 256 + at_ 1 ∧ b.live = (if at_ 2 < 128 then (at_ 2 : Int) else (at_ 2 : Int) - 256) ∧
      b.luminance.length = 48 ∧ b.clipped.length = 48 ∧ b.sharpness.length = 48 ∧
      ∀ z, z < 48 → b.luminance[z]? = some (at_ (3 + 2 * z) * 256 + at_ (4 + 2 * z)) ∧
        b.clipped[z]? = some (at_ (99 + z)) ∧
        b.sharpness[z]? = some (at_ (147 + 2 * z) * 256 + at_ (148 + 2 * z)))

/-- R92: the fixed weights of CENTRE, whatever SETTINGS and the block hold. -/
def Obligations.CentreWeightsAreFixed : Prop :=
  (∀ (s : State) (b : StatBlock), s.meter.setup.pattern = .centre → zoneWeights s b = centreWeights) ∧
  centreWeights.length = 48 ∧
  (∀ col, col < 8 → ∀ row, row < 6 → centreWeights[row * 8 + col]? = some
    (if 3 ≤ col ∧ col ≤ 4 ∧ 2 ≤ row ∧ row ≤ 3 then 12 else if 2 ≤ col ∧ col ≤ 5 ∧ 1 ≤ row ∧ row ≤ 4 then 3 else 1)) ∧
  centreWeights.foldl (· + ·) 0 = 116 ∧ (centreWeights.filter (· == 12)).length = 4 ∧
  (centreWeights.filter (· == 3)).length = 12 ∧ (centreWeights.filter (· == 1)).length = 32

/-- MATRIX with its highlight guard over the weights of SETTINGS and the block's clipped fractions, SPOT's rectangle in
every focus state, and the measured value: three times the base-2 logarithm of the weighted mean over the target, to the
nearest third with halves upward, plus the live exposure, limited. -/
def Obligations.MeasurementWeighsZonesAndRounds : Prop :=
  (∀ (w c : List Nat) (z : Nat), z < 48 →
    let guarded (j : Nat) : Nat := if 192 < c.getD j 0 then 2 * w.getD j 0 else w.getD j 0
    ((∃ j, j < 48 ∧ guarded j ≠ 0) → (matrixWeights w c)[z]? = some (guarded z)) ∧
    ((∀ j, j < 48 → guarded j = 0) → (matrixWeights w c)[z]? = some 1)) ∧
  (∀ (s : State) (b : StatBlock), s.meter.setup.pattern = .matrix →
    zoneWeights s b = matrixWeights s.settings.weights b.clipped) ∧
  (∀ (s : State) (b : StatBlock) (z : Nat), z < 48 → s.meter.setup.pattern = .spot →
    let r : Rect := spotRect s.focus
    (zoneWeights s b)[z]? = some
      (if r.firstCol ≤ z % 8 ∧ z % 8 ≤ r.lastCol ∧ r.firstRow ≤ z / 8 ∧ z / 8 ≤ r.lastRow then 1 else 0)) ∧
  (∀ f : Focus,
    let centre : Rect := { firstCol := 3, lastCol := 4, firstRow := 2, lastRow := 3 }
    let measures (a : Nat) : Prop :=
      (∀ x, f.areas.find? (fun y => y.id == a) = some x → spotRect f = x.rect) ∧
      (f.areas.find? (fun y => y.id == a) = none → spotRect f = centre)
    (∀ k a v, f.state = .locked ∨ f.state = .tracking → f.held = some (.lock k a v) → measures a) ∧
    (f.state = .tracking → (∀ k a v, f.held ≠ some (.lock k a v)) → spotRect f = centre) ∧
    (∀ i k a v o, f.state = .approaching → f.approach = some { aim := i, dest := .hold (.lock k a v), owed := o } →
      measures a) ∧
    (∀ i d o, f.state = .approaching → f.approach = some { aim := i, dest := d, owed := o } →
      (∀ k a v, d ≠ .hold (.lock k a v)) → spotRect f = centre) ∧
    (f.state = .unhomed ∨ f.state = .idle ∨ f.state = .scanning ∨ f.state = .failedNoPeak ∨ f.state = .manual →
      spotRect f = centre)) ∧
  (∀ w v : List Nat, weightedSum w v = ((List.range 48).map fun z => w.getD z 0 * v.getD z 0).sum) ∧
  (∀ (s : State) (b : StatBlock),
    let w := zoneWeights s b
    let total := w.foldl (· + ·) 0
    let x := thirdsLog (max (weightedSum w b.luminance) total) (total * s.settings.target) + b.live
    measureBlock s b = if x < -30 then -30 else if 60 < x then 60 else x) ∧
  (∀ (n d : Nat),
    let atLeast (j : Int) : Prop :=
      if 0 ≤ 2 * j - 1 then d ^ 6 * 2 ^ (2 * j - 1).toNat ≤ n ^ 6 else d ^ 6 ≤ n ^ 6 * 2 ^ (1 - 2 * j).toNat
    (-49 < thirdsLog n d → atLeast (thirdsLog n d)) ∧
    (thirdsLog n d < 49 → ¬atLeast (thirdsLog n d + 1)) ∧
    (1 ≤ n → 1 ≤ d → n ≤ 65535 * d → d ≤ 65535 * n → -49 < thirdsLog n d ∧ thirdsLog n d < 49))

/-- The exposure program: absent in NO_DATA and without a table; with neither limit flag the exposure balances; the
flags say on which side it does not; AUTO moves Sv within 0 to 18 and FIXED not at all; MANUAL is the host's own. -/
def Obligations.ExposuresBalanceOrSayWhy : Prop :=
  (∀ s : State, s.meter.state = .noData ∨ s.zoom.working = none → computeExposure s = none) ∧
  (∀ (s : State) (f : Int) (t : List StationEntry) (e : StationEntry), s.meter.state ≠ .noData →
    s.meter.filtered = some f → s.zoom.working = some t → t[s.zoom.current.getD 0]? = some e →
    ∃ c, computeExposure s = some c ∧ c.station = s.zoom.current.getD 0 ∧ c.focal = e.focal ∧
      (c.steadying = true ↔ s.steady.state = .active ∨ s.steady.mode = .shotOnly) ∧
      c.limit = thirdsLog e.focal 1 - (if c.steadying then 9 else 0) ∧
      (c.tv, c.av, c.sv, c.flags) = splitExposure s.meter.setup e c.limit (Int.fdiv (2 * f + 16) 32) ∧
      c.difference = Int.fdiv (2 * f + 16) 32 + c.sv - s.meter.setup.compensation - (c.av + c.tv)) ∧
  (∀ (x : MeterSetup) (e : StationEntry) (lim scene : Int), e.widest ≤ e.narrowest → -15 < lim → lim ≤ 30 →
    (∀ b, x.sensitivity = .auto b ∨ x.sensitivity = .fixed b → 0 ≤ b ∧ b ≤ 18) →
    ∀ tv av sv fl, splitExposure x e lim scene = (tv, av, sv, fl) →
    let off := scene - x.compensation + sv - (av + tv)
    fl.cutShort = false ∧ (fl.slow = true ↔ tv < lim) ∧ (e.widest : Int) ≤ av ∧ av ≤ e.narrowest ∧
    0 ≤ sv ∧ sv ≤ 18 ∧ (∀ b, x.sensitivity = .fixed b → sv = b) ∧
    (x.mode = .manual → fl.bright = false ∧ fl.dark = false ∧ tv = x.tv ∧
      (∀ b, x.sensitivity = .fixed b → sv = b) ∧
      av = (if x.av < e.widest then (e.widest : Int) else if (e.narrowest : Int) < x.av then e.narrowest else x.av)) ∧
    (x.mode ≠ .manual → (fl.bright = true ↔ 0 < off) ∧ (fl.dark = true ↔ off < 0)) ∧
    (x.mode = .program ∨ x.mode = .aperture → -15 ≤ tv ∧ tv ≤ 36 ∧ (fl.bright = true → tv = 36) ∧
      (fl.dark = true → tv = -15)) ∧
    (x.mode = .shutter → tv = x.tv ∧ (fl.bright = true → av = e.narrowest) ∧ (fl.dark = true → av = e.widest)) ∧
    (x.mode = .aperture → av =
      (if x.av < e.widest then (e.widest : Int) else if (e.narrowest : Int) < x.av then e.narrowest else x.av)) ∧
    (∀ b, x.mode = .program → x.sensitivity = .auto b → tv < lim → sv = 18) ∧
    (∀ b, x.mode = .program → x.sensitivity = .auto b → b < sv → av = e.widest ∧ tv ≤ lim) ∧
    (x.mode = .program → (e.widest : Int) < av → 36 ≤ tv) ∧
    (∀ b, x.sensitivity = .auto b → x.mode ≠ .manual → fl.bright = true → sv = 0))

/-! ### The Zoom Drive -/

/-- EXTEND LENS and PARK LENS: their checks and what they begin; the park sensor, the brake watch and the focus homing
reports that lead HOMING to EXTENDING or to PARKED, and PARKING to PARKED: the brake watch counts at 10 ms (R112), a
homing fails after 3,200 steps (R133). In PARKING the homing's report, before the motor's stop or after it, and the stop
begin the retract together, or end it at once on a seen sensor; a failed homing sets FOCUS_HOME and LENS_FAULT and the
park goes on (R125). (That a stop in HOMING sets the count 0 and one in the retract ends it PARKED, whatever the sensor
then reads, is the model's choice, log 16; that the expiry of a stopped watch or of one below its limit, a report with
no homing under way and a reading that is no change do nothing, log 4; that while a homing runs only FOCUS HOME SENSOR
SEEN ends it on the sensor, log 54; that a PARK LENS leaves a motor that is off off until the retract, log 58; that the
brake watch of an arrival runs on, so that a park then waits for it, log 15.) -/
def Obligations.HomingAndParkingEndOnTheSensor : Prop :=
  let parked (t : State) : Prop :=
    t.zoom.state = .parked ∧ t.zoom.count = some 0 ∧ t.zoom.drive = .off ∧ t.events.has .zoomEnded = true
  let retracts (count : Option Int) (t : State) : Prop := t.zoom.state = .parking ∧ t.zoom.retract = true ∧
    t.timers.stall = some 0 ∧
    t.zoom.drive = (match count with | some c => if c ≤ 40 then .wideSlow else .wideFull | none => .wideFull)
  (∀ (m : Moment) (s : State), Taking s →
    (let refused (c : Code) : Prop :=
      exec (.extendLens m) s = .next ((taken 17 m s).respond 17 (c, .empty, none))
     (s.shot.state ≠ .idle → refused .shotArmed) ∧
     (s.shot.state = .idle →
       (s.zoom.state = .stalled → refused .lensFault) ∧
       (s.zoom.state = .homing ∨ s.zoom.state = .extending ∨ s.zoom.state = .moving ∨ s.zoom.state = .braking ∨
         s.zoom.state = .parking → refused .busy) ∧
       (s.zoom.state = .ready ∨ s.zoom.state = .noTableHold → refused .wrongState) ∧
       (s.zoom.state = .unhomed ∨ s.zoom.state = .parked →
         (s.zoom.working = none → refused .noLensTable) ∧
         (s.zoom.working ≠ none → ∃ t, exec (.extendLens m) s = .next t ∧
           t.link.pending = some { kind := 17, code := .ok, body := .empty, held := none } ∧
           (s.lines.park = false → t.zoom.state = .homing ∧ t.zoom.count = none ∧ t.zoom.current = none ∧
             t.zoom.target = none ∧ t.zoom.drive = .wideFull ∧ t.timers.stall = some 0 ∧ t.timers.brake = none) ∧
           (s.lines.park = true → m.focusHome = false → t.zoom.state = .homing ∧ t.zoom.count = some 0 ∧
             t.zoom.stopped = true ∧ t.zoom.drive = .off) ∧
           (s.lines.park = true → m.focusHome = true → s.focus.homing = none → t.zoom.state = .extending) ∧
           (s.focus.homing = none → m.focusHome = false → t.focus.state = .unhomed ∧ t.focus.position = none ∧
             t.focus.homing = some 0) ∧
           (s.focus.homing = none → m.focusHome = true → t.focus.state = .idle ∧ t.focus.position = some 0 ∧
             t.focus.homing = none))))) ∧
    (s.shot.state ≠ .idle →
      exec (.parkLens m) s = .next ((taken 20 m s).respond 20 (.shotArmed, .empty, none))) ∧
    (s.shot.state = .idle → s.zoom.state = .parked ∨ s.zoom.state = .parking →
      exec (.parkLens m) s = .next ((taken 20 m s).respond 20 (.ok, .empty, none))) ∧
    (s.shot.state = .idle → s.zoom.state ≠ .parked → s.zoom.state ≠ .parking →
      m.focusHome = false ∨ s.focus.homing ≠ none ∨ s.timers.brake ≠ none ∨
        (s.zoom.drive ≠ .off ∧ s.zoom.drive ≠ .braked) →
      ∃ t, exec (.parkLens m) s = .next t ∧ t.zoom.state = .parking ∧ t.zoom.target = none ∧ t.zoom.current = none ∧
        t.link.pending = some { kind := 20, code := .ok, body := .empty, held := none } ∧
        (s.zoom.drive ≠ .off → s.zoom.drive ≠ .braked → t.zoom.drive = .braked ∧ t.timers.brake = some 0 ∧
          t.timers.stall = none) ∧
        (s.zoom.drive = .off ∨ s.zoom.drive = .braked → t.zoom.drive = s.zoom.drive ∧ t.timers.stall = none ∧
          t.timers.brake = (s.arrive m).timers.brake ∧ t.zoom.stopped = decide (s.timers.brake = none))) ∧
    (s.shot.state = .idle → s.zoom.state ≠ .parked → s.zoom.state ≠ .parking → m.focusHome = true →
      s.focus.homing = none → s.timers.brake = none → s.zoom.drive = .off ∨ s.zoom.drive = .braked →
      ∃ t, exec (.parkLens m) s = .next t ∧ t.zoom.target = none ∧ t.zoom.current = none ∧
        t.link.pending = some { kind := 20, code := .ok, body := .empty, held := none } ∧
        t.focus.state = .idle ∧ t.focus.position = some 0 ∧ t.focus.homing = none ∧
        (s.lines.park = true → parked t) ∧ (s.lines.park = false → retracts s.zoom.count t))) ∧
  (∀ (m : Moment) (s : State), s.supply.powered = true →
    let u := s.arrive m
    let stopped : Prop := ∃ x, u.timers.brake = some x ∧ 10000 ≤ x
    let ended : Prop := ∃ h, u.focus.homing = some h ∧ 3200 ≤ h
    let extends_ (t : State) : Prop := t.zoom.state = .extending ∧ t.zoom.count = some 0 ∧ t.timers.stall = some 0 ∧
      (t.zoom.drive = .teleSlow ∨ t.zoom.drive = .teleFull)
    (∀ d, s.lines.park = false → s.zoom.state = .homing ∨ s.zoom.state = .parking → s.zoom.drive = d → d ≠ .off →
      d ≠ .braked → exec (.parkSensorChange m true) s = .next { u with
        lines := { u.lines with park := true }, zoom := { s.zoom with drive := .braked }
        timers := { u.timers with stall := none, brake := some 0 } }) ∧
    (exec (.parkSensorChange m s.lines.park) s = .next u) ∧
    (s.lines.park = true →
      exec (.parkSensorChange m false) s = .next { u with lines := { u.lines with park := false } }) ∧
    (¬stopped → exec (.brakeWatchExpiry m) s = .next u) ∧
    (stopped → s.zoom.state = .homing →
      (s.zoom.report = none → exec (.brakeWatchExpiry m) s = .next { u with
        zoom := { s.zoom with count := some 0, stopped := true }, timers := { u.timers with brake := none } }) ∧
      (s.zoom.report = some true → ∃ t, exec (.brakeWatchExpiry m) s = .next t ∧ extends_ t) ∧
      (s.zoom.report = some false → ∃ t, exec (.brakeWatchExpiry m) s = .next t ∧ parked t ∧
        t.zoom.lastFault = .focusHome ∧ t.events.has .lensFault = true)) ∧
    (stopped → s.zoom.state = .parking →
      (s.zoom.retract = true → ∃ t, exec (.brakeWatchExpiry m) s = .next t ∧ parked t) ∧
      (s.zoom.retract = false → s.zoom.report = none → exec (.brakeWatchExpiry m) s = .next { u with
        zoom := { s.zoom with stopped := true }, timers := { u.timers with brake := none } }) ∧
      (s.zoom.retract = false → s.zoom.report ≠ none → s.lines.park = true →
        ∃ t, exec (.brakeWatchExpiry m) s = .next t ∧ parked t) ∧
      (s.zoom.retract = false → s.zoom.report ≠ none → s.lines.park = false →
        ∃ t, exec (.brakeWatchExpiry m) s = .next t ∧ retracts s.zoom.count t)) ∧
    (¬ended → exec (.focusHomingFailed m) s = .next u) ∧
    (s.focus.homing = none → exec (.focusHomeSensorSeen m) s = .next u) ∧
    (s.focus.homing ≠ none →
      (s.zoom.state = .homing → s.zoom.stopped = true →
        (s.zoom.count = some 0 → ∃ t, exec (.focusHomeSensorSeen m) s = .next t ∧ extends_ t ∧
          t.focus.state = .idle ∧ t.focus.position = some 0 ∧ t.focus.homing = none) ∧
        (ended → ∃ t, exec (.focusHomingFailed m) s = .next t ∧ parked t ∧ t.zoom.lastFault = .focusHome ∧
          t.events.has .lensFault = true ∧ t.focus.homing = none)) ∧
      (s.zoom.state = .homing → s.zoom.stopped = false →
        (∃ t, exec (.focusHomeSensorSeen m) s = .next t ∧ t.zoom = { s.zoom with report := some true } ∧
          t.focus.state = .idle ∧ t.focus.position = some 0 ∧ t.focus.homing = none) ∧
        (ended → ∃ t, exec (.focusHomingFailed m) s = .next t ∧ t.zoom = { s.zoom with report := some false } ∧
          t.focus.homing = none)) ∧
      (s.zoom.state = .parking →
        let homed (t : State) : Prop := t.focus.state = .idle ∧ t.focus.position = some 0 ∧ t.focus.homing = none ∧
          t.zoom.lastFault = s.zoom.lastFault ∧ t.events.has .lensFault = s.events.has .lensFault
        let failed (t : State) : Prop := t.focus = { u.focus with homing := none } ∧
          t.zoom.lastFault = .focusHome ∧ t.events.has .lensFault = true
        (s.zoom.stopped = true → s.zoom.retract = false →
          (s.lines.park = true → (∃ t, exec (.focusHomeSensorSeen m) s = .next t ∧ parked t ∧ homed t) ∧
            (ended → ∃ t, exec (.focusHomingFailed m) s = .next t ∧ parked t ∧ failed t)) ∧
          (s.lines.park = false →
            (∃ t, exec (.focusHomeSensorSeen m) s = .next t ∧ retracts s.zoom.count t ∧ homed t) ∧
            (ended → ∃ t, exec (.focusHomingFailed m) s = .next t ∧ retracts s.zoom.count t ∧ failed t))) ∧
        (s.zoom.stopped = false ∨ s.zoom.retract = true →
          (∃ t, exec (.focusHomeSensorSeen m) s = .next t ∧ homed t ∧ t.zoom = { s.zoom with report := some true }) ∧
          (ended → ∃ t, exec (.focusHomingFailed m) s = .next t ∧ failed t ∧
            t.zoom = { s.zoom with report := some false, lastFault := .focusHome })))))

/-- ENCODER PULSE: count and period at every pulse; the stall watch of a driven motor and the brake watch of a braked one
restart, and where a pulse begins the braking the brake watch starts and the stall watch stops (R112); what the new count
makes of EXTENDING, READY, the two legs of a move and a retract. (That the brake watch runs on after the arrivals of R116
and R118 is the model's choice, log 15; that a count already at station 0's or past it when EXTENDING begins is taken as
reached at the next pulse, log 70.) -/
def Obligations.PulsesMoveTheLens : Prop :=
  ∀ (m : Moment) (s : State) (tele : Bool), s.supply.powered = true →
    let u := s.arrive m
    let i : Instr := .encoderPulse m tele
    (∃ t, exec i s = .next t ∧ t.zoom.period = u.timers.pulse ∧ t.timers.pulse = some 0 ∧
      t.zoom.count = s.zoom.count.map (fun c => if tele then c + 1 else c - 1) ∧ t.lines = u.lines ∧
      t.zoom.working = s.zoom.working ∧ t.zoom.staging = s.zoom.staging ∧ t.map = s.map ∧ t.shot = s.shot ∧
      t.steady = s.steady ∧ t.store = s.store ∧ t.chain = s.chain ∧
      let driven (d : Drive) : Prop := d = .teleFull ∨ d = .teleSlow ∨ d = .wideFull ∨ d = .wideSlow
      let restarted : Prop := t.timers.stall = s.timers.stall.map (fun _ => 0) ∧
        t.timers.brake = s.timers.brake.map (fun _ => 0)
      (driven t.zoom.drive → restarted) ∧
      (t.zoom.drive = .braked → driven s.zoom.drive → t.timers.stall = none ∧ t.timers.brake = some 0) ∧
      (t.zoom.drive = .braked → s.zoom.drive = .braked → s.zoom.state ≠ .moving →
        s.zoom.state ≠ .extending ∨ s.zoom.current ≠ none → restarted)) ∧
    (∀ (tab : List StationEntry) (c : Int), s.zoom.working = some tab →
      s.zoom.count = some (if tele then c - 1 else c + 1) → 0 ≤ c → c ≤ 3200 →
      (∀ k e, s.zoom.state = .moving → s.zoom.target = some (k, .approach) → tab[k]? = some e →
        ∃ t, exec i s = .next t ∧
          ((e.count : Int) ≤ c → t.zoom.state = .ready ∧ t.zoom.current = some k ∧ t.zoom.target = none ∧
            t.zoom.drive = .braked ∧ t.timers.stall = none ∧ t.timers.brake = some 0 ∧
            t.events.has .zoomEnded = true) ∧
          (c < (e.count : Int) → t.zoom.state = .moving ∧ t.zoom.target = some (k, .approach) ∧
            t.zoom.drive = if (e.count : Int) - 40 ≤ c then .teleSlow else .teleFull)) ∧
      (∀ k e, s.zoom.state = .moving → s.zoom.target = some (k, .outbound) → tab[k]? = some e →
        ∃ t, exec i s = .next t ∧ t.zoom.target = some (k, .outbound) ∧
          (c ≤ (e.count : Int) - 30 → t.zoom.state = .braking ∧ t.zoom.drive = .braked ∧ t.timers.stall = none ∧
            t.timers.brake = some 0) ∧
          ((e.count : Int) - 30 < c → t.zoom.state = .moving ∧ t.zoom.drive = s.zoom.drive)) ∧
      (∀ k e, s.zoom.state = .ready → s.zoom.current = some k → tab[k]? = some e →
        ∃ t, exec i s = .next t ∧
          ((e.count : Int) - 3 ≤ c → c ≤ e.count + 3 → t.zoom.state = .ready ∧ t.zoom.current = some k) ∧
          (c < (e.count : Int) - 3 ∨ e.count + 3 < c → t.zoom.state = .noTableHold ∧ t.zoom.current = none)) ∧
      (∀ e, s.zoom.state = .extending → s.zoom.current = none → tab[0]? = some e →
        ∃ t, exec i s = .next t ∧
          (c < (e.count : Int) → t.zoom.state = .extending ∧ t.zoom.current = none ∧
            t.zoom.drive = if (e.count : Int) - 40 ≤ c then .teleSlow else .teleFull) ∧
          (∀ p, (e.count : Int) ≤ c → u.focus.position = some p → p ≠ e.cams.getD 0 0 →
            t.zoom.state = .extending ∧ t.zoom.current = some 0 ∧ t.zoom.drive = .braked ∧
            t.timers.brake = some 0 ∧ t.focus.state = .approaching ∧
            t.focus.approach = some { aim := e.cams.getD 0 0, dest := .idle, owed := false }) ∧
          ((e.count : Int) ≤ c → c ≤ e.count + 3 → u.focus.position = some (e.cams.getD 0 0) →
            t.zoom.state = .ready ∧ t.zoom.current = some 0 ∧ t.focus.state = .idle ∧ t.timers.brake = some 0 ∧
            t.events.has .zoomEnded = true)) ∧
      (s.zoom.state = .parking → s.zoom.drive ≠ .off → s.zoom.drive ≠ .braked →
        ∃ t, exec i s = .next t ∧ t.zoom.drive = if c ≤ 40 then .wideSlow else .wideFull))

/-- A range, park sensor or stall fault: the motor off, STALLED, no target or current station, LENS_FAULT and
ZOOM_ENDED, the Focus Unit IDLE (R113, R147); a stall in PARKING ends UNHOMED instead (R125). A motor that has stopped
in BRAKING starts its next leg; the stall watch counts at 40 ms, the brake watch at 10 ms (R112). (That the expiry of a
stopped watch, or of one below its limit, does nothing is the model's choice, log 4; that a motor which stops in READY,
EXTENDING or NO_TABLE_HOLD changes nothing but the watch, log 15.) -/
def Obligations.LensFaultsAndStops : Prop :=
  ∀ (m : Moment) (s : State), s.supply.powered = true →
    let u := s.arrive m
    let stalled : Prop := ∃ x, u.timers.stall = some x ∧ 40000 ≤ x
    let stopped : Prop := ∃ x, u.timers.brake = some x ∧ 10000 ≤ x
    let faults (i : Instr) (c : ZoomFault) : Prop := ∃ t, exec i s = .next t ∧ t.zoom.state = .stalled ∧
      t.zoom.drive = .off ∧ t.zoom.target = none ∧ t.zoom.current = none ∧ t.zoom.lastFault = c ∧
      t.timers.stall = none ∧ t.timers.brake = none ∧ t.events.has .lensFault = true ∧
      t.events.has .zoomEnded = true ∧ t.zoom.working = s.zoom.working ∧
      (s.focus.state = .scanning ∨ s.focus.state = .approaching ∨ s.focus.state = .locked ∨
        s.focus.state = .manual ∨ s.focus.state = .tracking → t.focus.state = .idle ∧ t.focus.held = none ∧
          t.focus.scan = none ∧ t.focus.move = none) ∧
      (s.focus.state = .unhomed ∨ s.focus.state = .idle ∨ s.focus.state = .failedNoPeak → t.focus = u.focus)
    (∀ c, s.zoom.state = .extending ∨ s.zoom.state = .moving ∨ s.zoom.state = .braking ∨ s.zoom.state = .ready ∨
        s.zoom.state = .noTableHold → s.zoom.count = some c →
      (3199 < c → faults (.encoderPulse m true) .range) ∧ (c < 1 → faults (.encoderPulse m false) .range)) ∧
    (s.lines.park = false → s.zoom.state = .extending ∨ s.zoom.state = .moving ∨ s.zoom.state = .braking ∨
        s.zoom.state = .ready ∨ s.zoom.state = .noTableHold → faults (.parkSensorChange m true) .parkSensor) ∧
    (stalled → s.zoom.state = .homing ∨ s.zoom.state = .extending ∨ s.zoom.state = .moving →
      faults (.stallWatchExpiry m) .stall) ∧
    (stalled → s.zoom.state = .parking → exec (.stallWatchExpiry m) s = .next ((({ u with
      zoom := { s.zoom with state := .unhomed, count := none, lastFault := .stall, drive := .off, stopped := false
                            report := none, retract := false }
      timers := { u.timers with stall := none, brake := none } } : State).setFlag .lensFault).setFlag .zoomEnded)) ∧
    (¬stalled → exec (.stallWatchExpiry m) s = .next u) ∧
    (¬stopped → exec (.brakeWatchExpiry m) s = .next u) ∧
    (stopped → s.zoom.state = .ready ∨ s.zoom.state = .extending ∨ s.zoom.state = .noTableHold →
      exec (.brakeWatchExpiry m) s = .next { u with timers := { u.timers with brake := none } }) ∧
    (∀ tab k leg e c, stopped → s.zoom.state = .braking → s.zoom.target = some (k, leg) →
      s.zoom.working = some tab → tab[k]? = some e → s.zoom.count = some c →
      (c < (e.count : Int) → exec (.brakeWatchExpiry m) s = .next { u with
        zoom := { s.zoom with state := .moving, target := some (k, .approach)
                              drive := if (e.count : Int) - 40 ≤ c then .teleSlow else .teleFull }
        timers := { u.timers with stall := some 0, brake := none } }) ∧
      ((e.count : Int) ≤ c → exec (.brakeWatchExpiry m) s = .next { u with
        zoom := { s.zoom with state := .moving, target := some (k, .outbound), drive := .wideFull }
        timers := { u.timers with stall := some 0, brake := none } }))

/-- ZOOM TO and ZOOM STOP: checks, the leg a move starts on, what its beginning does to the focus in each state:
TRACKING of a lock, of a manual class or of an approach to one with its end still owed, a scan cancelled with
ZOOM_MOVED, an approach to FAILED_NO_PEAK ended with NO_PEAK (R145); the new target of a move under way (in BRAKING it
keeps the leg of the move being stopped, the model's choice, log 46). LOAD LENS STATION fills one staged entry; COMMIT
LENS TABLE takes the stations in order and R127's five tests of each in their order, names the first that fails, or
makes the entries the working table and reconciles the position with the nearest station, the lower one on a tie (R128);
a LOCKED or MANUAL focus approaches its class, resolved at the station, on the new cam with no end owed, or keeps it
where no station is near (R147). -/
def Obligations.ZoomRequestsAimTheLens : Prop :=
  ∀ (m : Moment) (s : State), Taking s →
    (∀ k,
      let u := taken 18 m s
      let refused (c : Code) : Prop := exec (.zoomTo m k) s = .next (u.respond 18 (c, .empty, none))
      (47 < k → refused .badField) ∧ (k ≤ 47 → s.shot.state ≠ .idle → refused .shotArmed) ∧
      (k ≤ 47 → s.shot.state = .idle →
        (s.zoom.state = .stalled → refused .lensFault) ∧
        (s.zoom.state = .unhomed ∨ s.zoom.state = .homing ∨ s.zoom.state = .extending ∨ s.zoom.state = .parking ∨
          s.zoom.state = .parked → refused .lensNotReady) ∧
        (s.zoom.state = .ready → s.zoom.current = some k →
          exec (.zoomTo m k) s = .next ((u.setFlag .zoomEnded).respond 18 (.ok, .empty, none))) ∧
        (∀ tab e c, s.zoom.state = .ready ∨ s.zoom.state = .noTableHold → s.zoom.current ≠ some k →
          s.zoom.working = some tab → tab[k]? = some e → s.zoom.count = some c →
          ∃ t, exec (.zoomTo m k) s = .next t ∧ t.zoom.state = .moving ∧ t.timers.stall = some 0 ∧
            t.link.pending = some { kind := 18, code := .ok, body := .empty, held := none } ∧
            (c < (e.count : Int) → t.zoom.target = some (k, .approach) ∧
              t.zoom.drive = if (e.count : Int) - 40 ≤ c then .teleSlow else .teleFull) ∧
            ((e.count : Int) ≤ c → t.zoom.target = some (k, .outbound) ∧ t.zoom.drive = .wideFull) ∧
            (s.focus.state = .unhomed ∨ s.focus.state = .idle ∨ s.focus.state = .failedNoPeak →
              t.focus = u.focus ∧ t.events = s.events) ∧
            (s.focus.state = .locked ∨ s.focus.state = .manual →
              t.focus = { u.focus with state := .tracking, trackOwed := false } ∧ t.events = s.events) ∧
            (s.focus.state = .scanning →
              t.focus = { u.focus with state := .idle, held := none, approach := none, scan := none, move := none
                                       trackOwed := false, lastEnd := .zoomMoved } ∧
              t.timers.sample = none ∧ t.events = (s.setFlag .focusEnded).events) ∧
            (∀ aim h owed, s.focus.state = .approaching →
              s.focus.approach = some { aim := aim, dest := .hold h, owed := owed } →
              t.focus = { u.focus with state := .tracking, held := some h, approach := none, move := none
                                       trackOwed := owed } ∧ t.events = s.events) ∧
            (∀ aim owed, s.focus.state = .approaching →
              s.focus.approach = some { aim := aim, dest := .failed, owed := owed } →
              t.focus = { u.focus with state := .failedNoPeak, held := none, approach := none, scan := none, move := none
                                       trackOwed := false, lastEnd := .noPeak } ∧
              t.events = (s.setFlag .focusEnded).events)) ∧
        (∀ old leg, s.zoom.state = .moving ∨ s.zoom.state = .braking → s.zoom.target = some (old, leg) →
          (old = k → exec (.zoomTo m k) s = .next (u.respond 18 (.ok, .empty, none))) ∧
          (∀ tab e c, old ≠ k → s.zoom.working = some tab → tab[k]? = some e → s.zoom.count = some c →
            ∃ t, exec (.zoomTo m k) s = .next t ∧ t.zoom.target = some (k, leg) ∧
              (s.zoom.state = .moving → leg = .approach → c < (e.count : Int) → t.zoom.state = .moving ∧
                t.zoom.drive = if (e.count : Int) - 40 ≤ c then .teleSlow else .teleFull) ∧
              (s.zoom.state = .moving → leg = .approach → (e.count : Int) ≤ c → t.zoom.state = .braking ∧
                t.zoom.drive = .braked ∧ t.timers.brake = some 0) ∧
              (s.zoom.state = .moving → leg = .outbound → (e.count : Int) - 30 < c → t.zoom.state = .moving) ∧
              (s.zoom.state = .moving → leg = .outbound → c ≤ (e.count : Int) - 30 → t.zoom.state = .braking) ∧
              (s.zoom.state = .braking → t.zoom.state = .braking))))) ∧
    (s.zoom.state ≠ .moving → s.zoom.state ≠ .braking →
      exec (.zoomStop m) s = .next ((taken 19 m s).respond 19 (.ok, .empty, none))) ∧
    (∀ tab k leg c j e, s.zoom.working = some tab → s.zoom.count = some c → s.zoom.target = some (k, leg) →
      tab[j]? = some e → j < 48 →
      s.zoom.state = .moving ∧ leg = .approach ∧ c < (e.count : Int) ∧
          (∀ i x, i < j → tab[i]? = some x → (x.count : Int) ≤ c) ∨
        s.zoom.state = .braking ∧ c < (e.count : Int) ∧
          (∀ i x, i < j → tab[i]? = some x → (x.count : Int) ≤ c) ∨
        s.zoom.state = .moving ∧ leg = .outbound ∧ (e.count : Int) < c ∧
          (∀ i x, i ≤ j → tab[i]? = some x → (x.count : Int) < c) ∧
          (∀ x, tab[j + 1]? = some x → c ≤ (x.count : Int)) →
      ∃ t, exec (.zoomStop m) s = .next t ∧ t.zoom.target = some (j, leg) ∧
        t.link.pending = some { kind := 19, code := .ok, body := .empty, held := none }) ∧
    (∀ tab k leg c e, s.zoom.working = some tab → s.zoom.count = some c → s.zoom.target = some (k, leg) →
      (tab[0]? = some e → s.zoom.state = .moving → leg = .outbound → (∀ x ∈ tab, c ≤ (x.count : Int)) →
        ∃ t, exec (.zoomStop m) s = .next t ∧ t.zoom.target = some (0, .outbound) ∧
          t.link.pending = some { kind := 19, code := .ok, body := .empty, held := none }) ∧
      (tab[47]? = some e → s.zoom.state = .braking → (∀ x ∈ tab, (x.count : Int) ≤ c) →
        ∃ t, exec (.zoomStop m) s = .next t ∧ t.zoom.target = some (47, leg) ∧ t.zoom.state = .braking ∧
          t.link.pending = some { kind := 19, code := .ok, body := .empty, held := none })) ∧
    (∀ k e,
      let u := taken 21 m s
      let good : Prop := 200 ≤ e.count ∧ e.count ≤ 3000 ∧ 24 ≤ e.focal ∧ e.focal ≤ 960 ∧ 6 ≤ e.widest ∧
        e.widest ≤ 27 ∧ 6 ≤ e.narrowest ∧ e.narrowest ≤ 27 ∧ 10 ≤ e.gain ∧ e.gain ≤ 4000 ∧ e.near ≤ 15 ∧
        e.cams.length = e.near + 1 ∧ ∀ x ∈ e.cams, x ≤ 3071
      (k ≤ 47 → good → exec (.loadLensStation m k e) s =
        .next ({ u with zoom := { u.zoom with staging := u.zoom.staging.set k (some e) } }.respond 21
          (.ok, .empty, none))) ∧
      (47 < k ∨ ¬good → exec (.loadLensStation m k e) s = .next (u.respond 21 (.badField, .empty, none)))) ∧
    (let u := taken 22 m s
     let refused (c : Code) : Prop := exec (.commitLensTable m) s = .next (u.respond 22 (c, .empty, none))
     let still : Prop := s.zoom.state ≠ .homing ∧ s.zoom.state ≠ .extending ∧ s.zoom.state ≠ .moving ∧
       s.zoom.state ≠ .braking ∧ s.zoom.state ≠ .parking
     (s.shot.state ≠ .idle → refused .shotArmed) ∧ (s.shot.state = .idle → ¬still → refused .busy) ∧
     (s.shot.state = .idle → still → s.focus.state = .scanning ∨ s.focus.state = .approaching →
       refused .focusBusy) ∧
     let staged (k : Nat) (e : StationEntry) : Prop := s.zoom.staging[k]? = some (some e)
     let fails (k : Nat) : TableTest → Prop
       | .empty => s.zoom.staging[k]? = some none
       | .avOrder => ∃ e, staged k e ∧ e.narrowest < e.widest
       | .camOrder => ∃ e i a b, staged k e ∧ e.cams[i]? = some a ∧ e.cams[i + 1]? = some b ∧ b < a
       | .countOrder => ∃ e y, staged k e ∧ 1 ≤ k ∧ staged (k - 1) y ∧ e.count ≤ y.count
       | .focalOrder => ∃ e y, staged k e ∧ 1 ≤ k ∧ staged (k - 1) y ∧ e.focal < y.focal
     let rank : TableTest → Nat
       | .empty => 0 | .avOrder => 1 | .camOrder => 2 | .countOrder => 3 | .focalOrder => 4
     (s.shot.state = .idle → still → s.focus.state ≠ .scanning → s.focus.state ≠ .approaching →
       (∀ k x, fails k x → (∀ y, rank y < rank x → ¬fails k y) → (∀ j y, j < k → ¬fails j y) →
         exec (.commitLensTable m) s = .next (u.respond 22 (.badField, .badStation k x, none))) ∧
       ((∀ k x, ¬fails k x) → ∃ t, exec (.commitLensTable m) s = .next t ∧
         t.zoom.working = some (s.zoom.staging.filterMap id) ∧ t.zoom.staging = s.zoom.staging ∧
         t.writer = s.writer.mark .lensTable ∧ t.zoom.count = s.zoom.count ∧
         t.link.pending = some { kind := 22, code := .ok, body := .empty, held := none } ∧
         t.events = s.events ∧
         (s.zoom.state ≠ .ready → s.zoom.state ≠ .noTableHold → t.zoom.state = s.zoom.state ∧ t.focus = u.focus) ∧
         (∀ c k e, s.zoom.state = .ready ∨ s.zoom.state = .noTableHold → s.zoom.count = some c → staged k e →
           let d (x : StationEntry) : Nat := (c - (x.count : Int)).natAbs
           (∀ j x, staged j x → d e ≤ d x ∧ (j < k → d e < d x)) →
           (d e ≤ 3 → t.zoom.state = .ready ∧ t.zoom.current = some k ∧
             (s.focus.state ≠ .locked → s.focus.state ≠ .manual → t.focus = u.focus) ∧
             (∀ h p, s.focus.state = .locked ∨ s.focus.state = .manual → s.focus.held = some h →
               u.focus.position = some p →
               let cls : Nat := match h with | .lock c _ _ => min c e.near | .manual c => min c e.near
               let kept : FocusHeld := match h with | .lock _ a v => .lock cls a v | .manual _ => .manual cls
               let aim : Nat := e.cams.getD cls 0
               (p ≠ aim → t.focus = { u.focus with
                 state := .approaching, held := none, scan := none, trackOwed := false
                 approach := some { aim := aim, dest := .hold kept, owed := false }
                 move := some { aim := aim, via := if aim < p ∧ aim ≠ 0 then some (aim - 24) else none } }) ∧
               (p = aim → t.focus = { u.focus with
                 state := (match h with | .lock _ _ _ => .locked | .manual _ => .manual), held := some kept
                 scan := none, trackOwed := false, approach := none, move := none }))) ∧
           (3 < d e → t.zoom.state = .noTableHold ∧ t.zoom.current = none ∧ t.focus = u.focus)))))

/-! ### The Focus Unit -/

/-- FOCUS START, FOCUS RELEASE, FOCUS MODE, SET AREA, CLEAR AREA and SET DISTANCE: their checks in order and their
effects; the move that FOCUS START and SET DISTANCE order, 24 steps past the aimed step first where it goes toward home,
or complete at once (R132). (That an end owed while TRACKING sets no flag at FOCUS RELEASE is the model's choice, log
14.) -/
def Obligations.FocusRequestsScanReleaseAndSet : Prop :=
  ∀ (m : Moment) (s : State), Taking s →
    let move (p aim : Nat) : FocusMove := { aim := aim, via := if aim < p ∧ aim ≠ 0 then some (aim - 24) else none }
    let busy : Prop := s.focus.state = .scanning ∨ s.focus.state = .approaching
    (let u := taken 25 m s
     let refused (c : Code) (g : Option FocusRange) : Prop :=
       exec (.focusStart m g) s = .next (u.respond 25 (c, .empty, none))
     refused .badField none ∧
     ∀ g : FocusRange,
      (s.shot.state ≠ .idle → refused .shotArmed (some g)) ∧
      (s.shot.state = .idle → s.focus.mode = .manual → refused .wrongState (some g)) ∧
      (s.shot.state = .idle → s.focus.mode ≠ .manual →
        (s.zoom.state ≠ .ready ∨ s.focus.state = .unhomed → refused .lensNotReady (some g)) ∧
        (s.zoom.state = .ready → busy ∨ s.focus.state = .tracking → refused .focusBusy (some g)) ∧
        (∀ tab e k, s.zoom.state = .ready → s.focus.state ≠ .unhomed → ¬busy → s.focus.state ≠ .tracking →
          s.zoom.current = some k → s.zoom.working = some tab → tab[k]? = some e →
          let areas : List Area := if (s.focus.areas.filter (·.enabled)) = [] then
            [{ id := 0, rect := { firstCol := 3, lastCol := 4, firstRow := 2, lastRow := 3 }, enabled := true }]
            else s.focus.areas.filter (·.enabled)
          ∃ t x, exec (.focusStart m (some g)) s = .next t ∧ t.focus.state = .scanning ∧ t.focus.scan = some x ∧
            x.first = 0 ∧ x.current = 0 ∧ x.last = min (if g = .normal then 11 else 15) e.near ∧ x.station = k ∧
            x.areas = areas ∧ t.focus.held = none ∧ t.focus.approach = none ∧ t.focus.follow = 0 ∧
            t.focus.curve = areas.map (fun a : Area =>
              ({ id := a.id, samples := List.replicate 16 none, peak := none } : Curve)) ∧
            (∀ p, u.focus.position = some p → p ≠ e.cams.getD 0 0 → x.skip = false ∧
              t.focus.move = some (move p (e.cams.getD 0 0))) ∧
            (u.focus.position = some (e.cams.getD 0 0) → x.skip = true ∧ t.focus.move = none ∧ t.timers.sample = some 0) ∧
            t.link.pending = some { kind := 25, code := .ok, body := .empty, held := none }))) ∧
    (let u := taken 26 m s
     (s.shot.state ≠ .idle → exec (.focusRelease m) s = .next (u.respond 26 (.shotArmed, .empty, none))) ∧
     (s.shot.state = .idle →
       (s.focus.state = .idle ∨ s.focus.state = .unhomed ∨
           (s.focus.state = .approaching ∧ ∃ a, s.focus.approach = some a ∧ a.dest = .idle) →
         exec (.focusRelease m) s = .next (u.respond 26 (.ok, .empty, none))) ∧
       (s.focus.state = .scanning ∨ s.focus.state = .locked ∨ s.focus.state = .failedNoPeak ∨
           s.focus.state = .manual ∨ s.focus.state = .tracking ∨
           (s.focus.state = .approaching ∧ ∃ a, s.focus.approach = some a ∧ a.dest ≠ .idle) →
         ∃ t, exec (.focusRelease m) s = .next t ∧ t.focus.state = .idle ∧ t.focus.held = none ∧
           t.link.pending = some { kind := 26, code := .ok, body := .empty, held := none } ∧
           t.focus.approach = none ∧ t.focus.scan = none ∧ t.focus.move = none ∧ t.timers.sample = none ∧
           t.focus.position = u.focus.position ∧ t.focus.areas = s.focus.areas ∧
           (s.focus.state = .scanning ∨
               (s.focus.state = .approaching ∧ ∃ a, s.focus.approach = some a ∧ a.owed = true) →
             t.focus.lastEnd = .released ∧ t.events = (s.setFlag .focusEnded).events) ∧
           (s.focus.state = .locked ∨ s.focus.state = .failedNoPeak ∨ s.focus.state = .manual ∨
               s.focus.state = .tracking ∨
               (s.focus.state = .approaching ∧ ∃ a, s.focus.approach = some a ∧ a.owed = false) →
             t.focus.lastEnd = s.focus.lastEnd ∧ t.events = s.events)))) ∧
    (let u := taken 27 m s
     let refused (c : Code) (g : Option FocusMode) : Prop :=
       exec (.focusMode m g) s = .next (u.respond 27 (c, .empty, none))
     refused .badField none ∧
     ∀ g : FocusMode,
      (s.shot.state ≠ .idle → refused .shotArmed (some g)) ∧
      (s.shot.state = .idle → busy ∨ s.focus.state = .tracking → refused .focusBusy (some g)) ∧
      (s.shot.state = .idle → ¬busy → s.focus.state ≠ .tracking →
        ∃ t, exec (.focusMode m (some g)) s = .next t ∧ t.focus.mode = g ∧
          t.link.pending = some { kind := 27, code := .ok, body := .empty, held := none } ∧
          (g = s.focus.mode → t.focus = u.focus) ∧
          (g ≠ s.focus.mode → g = .manual ∨ s.focus.mode = .manual → s.focus.state ≠ .unhomed →
            t.focus.state = .idle ∧ (s.focus.state ≠ .idle → t.focus.held = none)) ∧
          (g ≠ .manual → s.focus.mode ≠ .manual → t.focus.state = s.focus.state ∧ t.focus.held = s.focus.held) ∧
          (g ≠ s.focus.mode → g ≠ .manual → s.focus.mode ≠ .manual → s.focus.state ≠ .unhomed →
            s.focus.state ≠ .idle → t.focus = { u.focus with mode := g, follow := 0 }) ∧
          (s.focus.state = .unhomed ∨ s.focus.state = .idle → t.focus = { u.focus with mode := g }))) ∧
    (∀ (id : Nat) (r : Rect) (on : Bool),
      let u := taken 28 m s
      let good : Prop := id ≤ 7 ∧ r.firstCol ≤ r.lastCol ∧ r.lastCol ≤ 7 ∧ r.firstRow ≤ r.lastRow ∧ r.lastRow ≤ 5
      (¬good → exec (.setArea m id r on) s = .next (u.respond 28 (.badField, .empty, none))) ∧
      (good → busy → exec (.setArea m id r on) s = .next (u.respond 28 (.focusBusy, .empty, none))) ∧
      (good → ¬busy → ∃ l : List Area, exec (.setArea m id r on) s =
          .next ({ u with focus := { u.focus with areas := l } }.respond 28 (.ok, .empty, none)) ∧
        ((∀ a ∈ s.focus.areas, a.id ≠ id) → l = s.focus.areas ++ [{ id := id, rect := r, enabled := on }]) ∧
        ((∃ a ∈ s.focus.areas, a.id = id) → l.length = s.focus.areas.length ∧
          ∀ (i : Nat) (a : Area), s.focus.areas[i]? = some a →
            l[i]? = some (if a.id = id then ({ id := id, rect := r, enabled := on } : Area) else a)))) ∧
    (∀ id,
      let u := taken 29 m s
      (7 < id → exec (.clearArea m id) s = .next (u.respond 29 (.badField, .empty, none))) ∧
      (id ≤ 7 → busy → exec (.clearArea m id) s = .next (u.respond 29 (.focusBusy, .empty, none))) ∧
      (id ≤ 7 → ¬busy → exec (.clearArea m id) s = .next ({ u with focus :=
        { u.focus with areas := u.focus.areas.filter fun a => a.id != id } }.respond 29 (.ok, .empty, none)))) ∧
    (∀ k,
      let u := taken 30 m s
      let refused (c : Code) : Prop := exec (.setDistance m k) s = .next (u.respond 30 (c, .empty, none))
      (15 < k → refused .badField) ∧ (k ≤ 15 → s.shot.state ≠ .idle → refused .shotArmed) ∧
      (k ≤ 15 → s.shot.state = .idle → s.focus.mode ≠ .manual → refused .wrongState) ∧
      (k ≤ 15 → s.shot.state = .idle → s.focus.mode = .manual →
        (s.zoom.state ≠ .ready ∨ s.focus.state = .unhomed → refused .lensNotReady) ∧
        (s.zoom.state = .ready → busy ∨ s.focus.state = .tracking → refused .focusBusy) ∧
        (∀ tab e st, s.zoom.state = .ready → s.focus.state ≠ .unhomed → ¬busy → s.focus.state ≠ .tracking →
          s.zoom.current = some st → s.zoom.working = some tab → tab[st]? = some e →
          let c := min k e.near
          ∃ t, exec (.setDistance m k) s = .next t ∧
            t.link.pending = some { kind := 30, code := .ok, body := .cls c, held := none } ∧
            (∀ p, u.focus.position = some p → p ≠ e.cams.getD c 0 → t.focus.state = .approaching ∧
              t.focus.approach = some { aim := e.cams.getD c 0, dest := .hold (.manual c), owed := true } ∧
              t.focus.move = some (move p (e.cams.getD c 0))) ∧
            (u.focus.position = some (e.cams.getD c 0) → t.focus.state = .manual ∧ t.focus.move = none ∧
              t.focus.held = some (.manual c) ∧ t.focus.lastEnd = .distanceSet ∧
              t.events = (s.setFlag .focusEnded).events))))

/-- The focus steps: in a homing they are counted (R133), in a move they bring the lens to the point 24 steps past the
aimed step where it goes there first, then to the aimed step and no further (R132). (That the steps come with a Moment,
that the move then stands at the aimed step until FOCUS MOVE COMPLETE, and that this sets the position to the aimed step
whatever was counted, is the model's choice, log 3.) The scan: each visit orders its move, 24 steps past first where it
goes toward home, and completes at once on the step itself (R132, R138); FOCUS MOVE COMPLETE starts a visit's sampling
and ends an approach (R116, R132, R138, R144); the next block is skipped, the one after it sampled; a peak is confirmed
by its neighbours' margins; the area whose peak is at the highest class wins, the earlier one on a tie (R140); a sample
is the sum of its area's zones (R138); the FOLLOW watch re-scans (R142); TRACKING follows the stations passed and
settles at the one reached (R146); SAMPLE WATCH EXPIRY ends the scan at 500 ms. (That the completion of no move and the
expiry of no watch, or of one below 500 ms, do nothing is the model's choice, log 4.) -/
def Obligations.ScansSampleEveryClass : Prop :=
  (∀ (m : Moment) (s : State), s.supply.powered = true →
    let u := s.arrive m
    let move (p aim : Nat) : FocusMove := { aim := aim, via := if aim < p ∧ aim ≠ 0 then some (aim - 24) else none }
    let visits (t : State) (x : Scan) (p aim : Nat) : Prop :=
      (p ≠ aim → x.skip = false ∧ t.focus.move = some (move p aim)) ∧
      (p = aim → x.skip = true ∧ t.focus.move = none ∧ t.timers.sample = some 0)
    (∀ n, s.focus.homing = some n → u.focus = { s.focus with homing := some (n + m.focusSteps) }) ∧
    (s.focus.homing = none → s.focus.move = none ∨ s.focus.position = none → u.focus = s.focus) ∧
    (∀ p v, s.focus.homing = none → s.focus.position = some p → s.focus.move = some v →
      let n := m.focusSteps
      let stands (q : Nat) (via : Option Nat) : Prop :=
        u.focus = { s.focus with position := some q, move := some { v with via := via } }
      (v.via = none → p ≤ v.aim → stands (min v.aim (p + n)) none) ∧
      (v.via = none → v.aim < p → stands (max v.aim (p - n)) none) ∧
      (∀ w, v.via = some w → n < p - w → stands (p - n) (some w)) ∧
      (∀ w, v.via = some w → p - w ≤ n → stands (min v.aim (w + (n - (p - w)))) none)) ∧
    (s.focus.move = none → exec (.focusMoveComplete m) s = .next u) ∧
    (∀ v, u.focus.move = some v →
      (∀ x, s.focus.state = .scanning → s.focus.scan = some x → exec (.focusMoveComplete m) s = .next { u with
        focus := { u.focus with move := none, position := some v.aim, scan := some { x with skip := true } }
        timers := { u.timers with sample := some 0 } }) ∧
      (∀ a k area v', s.focus.state = .approaching →
        s.focus.approach = some { aim := a, dest := .hold (.lock k area v'), owed := true } →
        exec (.focusMoveComplete m) s = .next ({ u with focus := { u.focus with
          move := none, position := some v.aim, state := .locked, held := some (.lock k area v'), approach := none
          follow := 0, lastEnd := .locked } }.setFlag .focusEnded)) ∧
      (∀ a, s.focus.state = .approaching →
        s.focus.approach = some { aim := a, dest := .failed, owed := true } →
        exec (.focusMoveComplete m) s = .next ({ u with focus := { u.focus with
          move := none, position := some v.aim, state := .failedNoPeak, approach := none
          lastEnd := .noPeak } }.setFlag .focusEnded)) ∧
      (∀ a k, s.focus.state = .approaching →
        s.focus.approach = some { aim := a, dest := .hold (.manual k), owed := true } →
        exec (.focusMoveComplete m) s = .next ({ u with focus := { u.focus with
          move := none, position := some v.aim, state := .manual, held := some (.manual k), approach := none
          lastEnd := .distanceSet } }.setFlag .focusEnded)) ∧
      (∀ a h, s.focus.state = .approaching →
        s.focus.approach = some { aim := a, dest := .hold h, owed := false } →
        exec (.focusMoveComplete m) s = .next { u with focus := { u.focus with
          move := none, position := some v.aim, held := some h, approach := none
          state := match h with | .lock _ _ _ => .locked | .manual _ => .manual } }) ∧
      (∀ a, s.focus.state = .approaching → s.focus.approach = some { aim := a, dest := .idle, owed := false } →
        (s.zoom.state ≠ .extending → exec (.focusMoveComplete m) s = .next { u with focus := { u.focus with
          move := none, position := some v.aim, state := .idle, approach := none } }) ∧
        (∀ tab e c, s.zoom.state = .extending → s.zoom.current = some 0 → s.zoom.working = some tab →
          tab[0]? = some e → s.zoom.count = some c → (e.count : Int) - 3 ≤ c → c ≤ e.count + 3 →
          ∃ t, exec (.focusMoveComplete m) s = .next t ∧ t.zoom.state = .ready ∧ t.zoom.current = some 0 ∧
            t.zoom.lastFault = .none ∧ t.focus.state = .idle ∧ t.events = (s.setFlag .zoomEnded).events)) ∧
      (s.focus.state = .tracking → exec (.focusMoveComplete m) s = .next { u with
        focus := { u.focus with move := none, position := some v.aim } })) ∧
    (∀ x, u.timers.sample = some x → 500000 ≤ x → s.focus.state = .scanning → ∃ t, exec (.sampleWatchExpiry m) s = .next t ∧
      t.focus.state = .idle ∧ t.focus.scan = none ∧ t.focus.move = none ∧ t.focus.lastEnd = .noStatistics ∧
      t.timers.sample = none ∧ t.events = (s.setFlag .focusEnded).events) ∧
    ((∀ x, u.timers.sample = some x → x < 500000) ∨ s.focus.state ≠ .scanning → exec (.sampleWatchExpiry m) s = .next u) ∧
    (∀ body x, LaneOpens 1#8 243 u → s.supply.shutdown ≠ .starting → s.focus.state = .scanning → s.focus.scan = some x →
      (s.focus.move = none → x.skip = true → ∃ t, exec (.statistics m body) s = .next t ∧
        t.focus = { u.focus with scan := some { x with skip := false } } ∧ t.timers.sample = some 0) ∧
      (∀ v, u.focus.move = some v → ∃ t, exec (.statistics m body) s = .next t ∧ t.focus = u.focus) ∧
      (s.focus.move = none → x.skip = false →
        ∃ t, exec (.statistics m body) s = .next t ∧
          t.focus.curve = s.focus.curve.map (fun c => c.sample x.first x.current
            (zoneSum (areaRect x.areas c.id) (statOf body).sharpness)) ∧
          (x.current < x.last → (∃ c ∈ t.focus.curve, c.peak = none) →
            t.focus.state = .scanning ∧ ∃ y, t.focus.scan = some y ∧
              y = { x with current := x.current + 1, skip := y.skip } ∧
              ∀ tab e p, s.zoom.working = some tab → tab[x.station]? = some e → u.focus.position = some p →
                visits t y p (e.cams.getD (x.current + 1) 0) ∧
                (p ≠ e.cams.getD (x.current + 1) 0 → t.timers.sample = none)) ∧
          (x.last ≤ x.current ∨ (∀ c ∈ t.focus.curve, c.peak ≠ none) → t.focus.state ≠ .scanning ∧
            ∀ tab e p, s.zoom.working = some tab → tab[x.station]? = some e → u.focus.position = some p →
            (∀ (i : Nat) (c : Curve) k v, t.focus.curve[i]? = some c → c.peak = some k → c.samples[k]? = some (some v) →
              (∀ (j : Nat) (y : Curve) n, t.focus.curve[j]? = some y → y.peak = some n → n ≤ k ∧ (j < i → n < k)) →
              (p ≠ e.cams.getD k 0 → t.focus.state = .approaching ∧ t.focus.approach =
                some { aim := e.cams.getD k 0, dest := .hold (.lock k c.id v), owed := true } ∧
                t.focus.move = some (move p (e.cams.getD k 0))) ∧
              (p = e.cams.getD k 0 → t.focus.state = .locked ∧ t.focus.held = some (.lock k c.id v) ∧
                t.focus.follow = 0 ∧ t.focus.lastEnd = .locked)) ∧
            ((∀ c ∈ t.focus.curve, c.peak = none) →
              (p ≠ e.cams.getD 0 0 → t.focus.state = .approaching ∧
                t.focus.approach = some { aim := e.cams.getD 0 0, dest := .failed, owed := true } ∧
                t.focus.move = some (move p (e.cams.getD 0 0))) ∧
              (p = e.cams.getD 0 0 → t.focus.state = .failedNoPeak ∧ t.focus.lastEnd = .noPeak))))) ∧
    (∀ body k a v, LaneOpens 1#8 243 u → s.supply.shutdown ≠ .starting → s.focus.state = .locked →
      s.focus.held = some (.lock k a v) →
      let sum : Nat := zoneSum (areaRect s.focus.areas a) (statOf body).sharpness
      (s.focus.mode ≠ .follow ∨ s.zoom.state ≠ .ready ∨ s.focus.suspended = true →
        ∃ t, exec (.statistics m body) s = .next t ∧ t.focus = u.focus) ∧
      (∀ tab e st, s.focus.mode = .follow → s.zoom.state = .ready → s.focus.suspended = false →
        s.zoom.current = some st → s.zoom.working = some tab → tab[st]? = some e →
        (5 * v ≤ 8 * sum → ∃ t, exec (.statistics m body) s = .next t ∧ t.focus = { u.focus with follow := 0 }) ∧
        (8 * sum < 5 * v → s.focus.follow ≠ 3 → ∃ t, exec (.statistics m body) s = .next t ∧
          t.focus = { u.focus with follow := s.focus.follow + 1 }) ∧
        (8 * sum < 5 * v → s.focus.follow = 3 →
          let areas : List Area := if (s.focus.areas.filter (·.enabled)) = [] then
            [{ id := 0, rect := { firstCol := 3, lastCol := 4, firstRow := 2, lastRow := 3 }, enabled := true }]
            else s.focus.areas.filter (·.enabled)
          ∃ t x, exec (.statistics m body) s = .next t ∧ t.focus.state = .scanning ∧ t.focus.held = none ∧
            t.focus.follow = 0 ∧ t.focus.scan = some x ∧ x.first = k - 2 ∧ x.current = k - 2 ∧
            x.last = min (k + 2) e.near ∧ x.station = st ∧ x.areas = areas ∧
            t.focus.curve = areas.map (fun a : Area =>
              ({ id := a.id, samples := List.replicate 16 none, peak := none } : Curve)) ∧
            ∀ p, u.focus.position = some p → visits t x p (e.cams.getD (k - 2) 0)))) ∧
    (∀ tele tab j e h (c : Int), s.zoom.state = .moving → s.focus.state = .tracking → s.focus.held = some h →
      s.zoom.working = some tab → tab[j]? = some e → c = (e.count : Int) →
      s.zoom.count = some (if tele then c - 1 else c + 1) → c ≤ 3200 →
      (∀ i y, i < j → tab[i]? = some y → y.count ≠ e.count) →
      let kept : FocusHeld := match h with
        | .lock k a v => .lock (min k e.near) a v
        | .manual k => .manual (min k e.near)
      let aim : Nat := match kept with | .lock k _ _ => e.cams.getD k 0 | .manual k => e.cams.getD k 0
      let passes : Prop := ∃ t, exec (.encoderPulse m tele) s = .next t ∧ t.focus.state = .tracking ∧
        t.focus.held = some kept ∧ t.focus.trackOwed = s.focus.trackOwed ∧
        ∀ p, u.focus.position = some p → (p ≠ aim → t.focus.move = some { aim := aim, via := none }) ∧
          (p = aim → t.focus.move = none)
      (∀ k y, s.zoom.target = some (k, .outbound) → tab[k]? = some y → passes) ∧
      (∀ k y, s.zoom.target = some (k, .approach) → tab[k]? = some y → c < (y.count : Int) → passes) ∧
      (s.zoom.target = some (j, .approach) → ∃ t, exec (.encoderPulse m tele) s = .next t ∧
        ∀ p, u.focus.position = some p →
          (p ≠ aim → t.focus.state = .approaching ∧
            t.focus.approach = some { aim := aim, dest := .hold kept, owed := s.focus.trackOwed } ∧
            t.focus.move = some (move p aim)) ∧
          (p = aim → t.focus.move = none ∧ t.focus.held = some kept ∧
            t.focus.state = match kept with | .lock _ _ _ => .locked | .manual _ => .manual)))) ∧
  (∀ (c : Curve) (first k v : Nat), k < c.samples.length →
    let margin (peak n : Nat) : Prop := n + max 1 (peak / 16) ≤ peak
    (c.sample first k v).samples[k]? = some (some v) ∧
    (∀ j, j ≠ k → (c.sample first k v).samples[j]? = c.samples[j]?) ∧
    (∀ p, c.peak = some p → (c.sample first k v).peak = some p) ∧
    (c.peak = none → k = first → (c.sample first k v).peak = none) ∧
    (∀ w, c.peak = none → first < k → c.samples[k - 1]? = some (some w) →
      (k = first + 1 → ((c.sample first k v).peak = some (k - 1) ↔ margin w v)) ∧
      (∀ y, first + 1 < k → c.samples[k - 2]? = some (some y) →
        ((c.sample first k v).peak = some (k - 1) ↔ margin w v ∧ margin w y)))) ∧
  (∀ (r : Rect) (v : List Nat), zoneSum r v = (((List.range 48).filter fun z => decide (r.firstCol ≤ z % 8 ∧
    z % 8 ≤ r.lastCol ∧ r.firstRow ≤ z / 8 ∧ z / 8 ≤ r.lastRow)).map fun z => v.getD z 0).sum) ∧
  (∀ (l : List Area) (id : Nat),
    (∀ a, l.find? (fun y => y.id == id) = some a → areaRect l id = a.rect) ∧
    (l.find? (fun y => y.id == id) = none →
      areaRect l id = { firstCol := 3, lastCol := 4, firstRow := 2, lastRow := 3 }))

/-! ### The Stabilizer -/

/-- STEADY MODE; the gyro receiver byte by byte: the hunt for the start marker 126, the six bytes of a frame whatever
their values, after the sixth the hunt again (R150; the bytes come with a Moment, a frame that they complete goes to
R151 at its row, the first to complete first, and one over 500 µs takes no more of them until its timeout drops it, log
56), its broken and late frames; the three tests of a good frame; the 256 frames of a start and its bias; a good frame
in ACTIVE and HOLD (R162); the loss of the gyro; the layout of a gyro frame (section 10.4). The gain is read afresh at
every good frame of ACTIVE and HOLD (R123, R160): between two stations it is interpolated and rounded with halves
upward, outside them it is the nearer end's, and where the Zoom Drive offers none it is 0 (R123). (That it is taken at a
good frame in OFF, STARTING and FAULT too, a frame R151 does not use, is the model's choice, log 38; that a broken or
late frame finds nothing to drop while the receiver hunts, a marker finds a frame already begun, and a frame other than
the one begun does nothing, log 20; that the expiry of a stopped lost watch, or of one below 10 ms, does nothing, log
4.) -/
def Obligations.StabilizerStartsMeasuresAndLoses : Prop :=
  (∀ (m : Moment) (s : State), Taking s →
    let u := taken 33 m s
    exec (.steadyMode m none) s = .next (u.respond 33 (.badField, .empty, none)) ∧
    ∀ x : SteadyMode,
      (s.shot.state ≠ .idle → exec (.steadyMode m (some x)) s = .next (u.respond 33 (.shotArmed, .empty, none))) ∧
      (s.shot.state = .idle → ∃ t, exec (.steadyMode m (some x)) s = .next t ∧ t.steady.mode = x ∧
        t.link.pending = some { kind := 33, code := .ok, body := .empty, held := none } ∧
        (x = .on → s.steady.state = .off ∨ s.steady.state = .fault → t.steady.state = .starting ∧
          t.steady.progress = 0 ∧ t.steady.pitch = resetAxis ∧ t.steady.yaw = resetAxis ∧ t.steady.pitchSum = 0 ∧
          t.steady.yawSum = 0 ∧ t.timers.lost = some 0) ∧
        (x = .on → s.steady.state ≠ .off → s.steady.state ≠ .fault → t.steady = { s.steady with mode := x }) ∧
        (x ≠ .on → t.steady.state = .off ∧ t.timers.lost = none ∧
          t.steady.pitch = { s.steady.pitch with target := 0, clip := false, pan := false, panOn := 0, panOff := 0 } ∧
          t.steady.yaw = { s.steady.yaw with target := 0, clip := false, pan := false, panOn := 0, panOff := 0 }))) ∧
  (∀ (m : Moment) (s : State), s.supply.powered = true →
    let u := s.arrive m
    let miss : Steady := { s.steady with discarded := min 65535 (s.steady.discarded + 1) }
    let dropped : State := { u with gyro := { u.gyro with phase := .hunting }, steady := miss }
    let handed : GyroReceiver := match u.gyro.whole with
      | _ :: rest => { u.gyro with whole := rest }
      | [] => { phase := .hunting, whole := [] }
    let onward (h rest : List Byte) : GyroReceiver := gyroAfter { m with dt := 0, gyro := rest }
      { s with gyro := { phase := .hunting, whole := s.gyro.whole ++ [h] } }
    (s.supply.shutdown = .starting → u.gyro = s.gyro) ∧
    (s.supply.shutdown ≠ .starting →
      (∀ pass : List Byte, s.gyro.phase = .hunting → (∀ x ∈ pass, x ≠ 126#8) →
        (m.gyro = pass → u.gyro = s.gyro) ∧
        (∀ h, m.gyro = pass ++ 126#8 :: h → h.length < 6 → u.gyro = { s.gyro with phase := .assembling h 0 }) ∧
        (∀ h rest, m.gyro = pass ++ 126#8 :: (h ++ rest) → h.length = 6 → u.gyro = onward h rest)) ∧
      (∀ h t, s.gyro.phase = .assembling h t →
        (t + m.dt ≤ 500 → h.length + m.gyro.length < 6 →
          u.gyro = { s.gyro with phase := .assembling (h ++ m.gyro) (t + m.dt) }) ∧
        (∀ x rest, t + m.dt ≤ 500 → h.length < 6 → m.gyro = x ++ rest → h.length + x.length = 6 →
          u.gyro = onward (h ++ x) rest) ∧
        (500 < t + m.dt → u.gyro = { s.gyro with phase := .assembling h (t + m.dt) }))) ∧
    (s.supply.shutdown ≠ .starting → u.gyro.phase = .hunting →
      exec (.gyroStartMarker m) s = .next { u with gyro := { u.gyro with phase := .assembling [] 0 } }) ∧
    (s.supply.shutdown = .starting → exec (.gyroStartMarker m) s = .next u ∧
      ∀ bytes, exec (.gyroFrame m bytes) s = .next u) ∧
    (∀ h t, u.gyro.phase = .assembling h t → exec (.gyroStartMarker m) s = .next u ∧
      exec (.gyroFrameBroken m) s = .next dropped ∧
      (500 ≤ t → exec (.gyroFrameTimeout m) s = .next dropped) ∧
      (t < 500 → exec (.gyroFrameTimeout m) s = .next u)) ∧
    (u.gyro.phase = .hunting → exec (.gyroFrameBroken m) s = .next u ∧ exec (.gyroFrameTimeout m) s = .next u) ∧
    (∀ bytes h t, u.gyro.whole = [] → u.gyro.phase = .assembling h t → s.supply.shutdown ≠ .starting →
      (∀ rest, h ++ rest = bytes → 500 < t → exec (.gyroFrame m bytes) s = .next dropped) ∧
      ((∀ rest, h ++ rest ≠ bytes) → exec (.gyroFrame m bytes) s = .next u)) ∧
    (∀ bytes h rest, u.gyro.whole = h :: rest → h ≠ bytes → exec (.gyroFrame m bytes) s = .next u) ∧
    (∀ bytes, s.supply.shutdown ≠ .starting → GyroOpens bytes u →
      let g := gyroOf bytes
      let good : Prop := g.checkOk = true ∧ (∀ t, u.timers.good = some t → 750 ≤ t) ∧ s.steady.lastSeq ≠ some g.seq
      let counted (x : Steady) : Steady :=
        { x with good := min 65535 (s.steady.good + 1), lastSeq := some g.seq
                 gain := offeredGain s.zoom }
      (¬good → exec (.gyroFrame m bytes) s = .next { u with gyro := handed, steady := miss }) ∧
      (good → s.steady.state = .off ∨ s.steady.state = .fault → exec (.gyroFrame m bytes) s = .next { u with
        gyro := handed, steady := counted s.steady, timers := { u.timers with good := some 0 } }) ∧
      (good → s.steady.state = .starting → s.steady.progress < 255 → exec (.gyroFrame m bytes) s = .next { u with
        steady := counted { s.steady with
          progress := s.steady.progress + 1, pitchSum := s.steady.pitchSum + g.pitch
          yawSum := s.steady.yawSum + g.yaw }
        gyro := handed
        timers := { u.timers with good := some 0, lost := some 0 } }) ∧
      (good → s.steady.state = .starting → s.steady.progress = 255 → s.shot.state ≠ .waitSteady →
        ∃ t, exec (.gyroFrame m bytes) s = .next t ∧ t.steady.state = .active ∧ t.steady.progress = 256 ∧
          t.gyro = handed ∧
          t.steady.pitch = { s.steady.pitch with bias := some (roundHalfAway (s.steady.pitchSum + g.pitch) 256) } ∧
          t.steady.yaw = { s.steady.yaw with bias := some (roundHalfAway (s.steady.yawSum + g.yaw) 256) }) ∧
      (good → s.steady.state = .active ∨ s.steady.state = .hold →
        let gap := match s.steady.lastSeq with | none => 1 | some l => (g.seq + 256 - l) % 256
        let p := if gap ≤ 4 then gap else 1
        let gain := offeredGain s.zoom
        let hold : Bool := s.steady.state == .hold
        ∃ t, exec (.gyroFrame m bytes) s = .next t ∧ t.steady.state = s.steady.state ∧
          t.steady.pitch = s.steady.pitch.integrate hold p g.pitch gain ∧
          t.steady.yaw = s.steady.yaw.integrate hold p g.yaw gain ∧ t.steady.gain = gain ∧
          t.steady.longGap = (if gap ≤ 4 then s.steady.longGap else min 65535 (s.steady.longGap + 1)) ∧
          t.steady.good = min 65535 (s.steady.good + 1) ∧ t.steady.lastSeq = some g.seq ∧
          t.timers.good = some 0 ∧ t.timers.lost = some 0 ∧ t.gyro = handed ∧
          (s.steady.state = .active → t.steady.session = s.steady.session) ∧
          (∀ e, s.steady.state = .hold → s.steady.session = some e → t.steady.session = some { e with
            peak := max e.peak (max t.steady.pitch.target.natAbs t.steady.yaw.target.natAbs)
            clipSeen := e.clipSeen || t.steady.pitch.clip || t.steady.yaw.clip }))) ∧
    ((∀ x, u.timers.lost = some x → x < 10000) → exec (.gyroLost m) s = .next u) ∧
    (∀ x, u.timers.lost = some x → 10000 ≤ x → s.shot.state ≠ .waitSteady → ∃ t, exec (.gyroLost m) s = .next t ∧
      t.steady.state = .fault ∧ t.steady.progress = 0 ∧ t.steady.pitch.target = 0 ∧ t.steady.yaw.target = 0 ∧
      t.steady.pitch.clip = false ∧ t.steady.yaw.clip = false ∧ t.timers.lost = none ∧
      t.events = (s.setFlag .steadyFault).events ∧
      (∀ e, s.steady.state = .hold → s.steady.session = some e →
        t.steady.session = some { e with outcome := .lost }))) ∧
  (∀ a b c d e f : Byte,
    let signed (x : Nat) : Int := if x < 32768 then (x : Int) else (x : Int) - 65536
    let g := gyroOf [a, b, c, d, e, f]
    g.seq = a.toNat ∧ g.pitch = signed (b.toNat * 256 + c.toNat) ∧ g.yaw = signed (d.toNat * 256 + e.toNat) ∧
    (g.checkOk = true ↔ a + b + c + d + e + f = 0#8)) ∧
  (∀ z : Zoom,
    let offers : Prop := z.state = .extending ∨ z.state = .ready ∨ z.state = .moving ∨ z.state = .braking ∨
      z.state = .noTableHold
    (¬offers ∨ z.count = none ∨ z.working = none → offeredGain z = 0) ∧
    (∀ (c : Int) (t : List StationEntry), offers → z.count = some c → z.working = some t →
      (∀ (i j : Nat) (a b : StationEntry), i < j → t[i]? = some a → t[j]? = some b → a.count < b.count) →
      (∀ a, t[0]? = some a → c < (a.count : Int) → offeredGain z = a.gain) ∧
      (∀ (i : Nat) (a b : StationEntry), t[i]? = some a → t[i + 1]? = some b → (a.count : Int) ≤ c → c < (b.count : Int) →
        let run : Int := (b.count : Int) - a.count
        let rise : Int := ((b.gain : Int) - a.gain) * (c - a.count)
        offeredGain z = a.gain + Int.fdiv (2 * rise + run) (2 * run)) ∧
      (∀ a, t.getLast? = some a → (a.count : Int) ≤ c → offeredGain z = a.gain)))

/-- One good frame on one axis: the limited angle, the leak outside HOLD, the pan detector, and the target, the nearest
hundredth with halves away from zero, limited to 1,000 either way with the clip mark. -/
def Obligations.AxesIntegrateLeakAndClip : Prop :=
  ∀ (hold : Bool) (p : Nat) (rate gain : Int) (a : Axis),
    let r := a.integrate hold p rate gain
    let c := rate - a.bias.getD 0
    let sum := a.angle + c * p
    let adv := if sum < -33554431 then -33554431 else if 33554431 < sum then 33554431 else sum
    r.bias = a.bias ∧
    r.angle = (if hold then adv else adv - Int.tdiv adv (if a.pan then 16 else 1024)) ∧
    -33554431 ≤ r.angle ∧ r.angle ≤ 33554431 ∧ -1000 ≤ r.target ∧ r.target ≤ 1000 ∧
    (∃ q : Int, 2 * (r.angle * gain - 100000 * q).natAbs ≤ 100000 ∧
      (2 * (r.angle * gain - 100000 * q).natAbs = 100000 → (r.angle * gain).natAbs < (100000 * q).natAbs) ∧
      r.target = (if q < -1000 then -1000 else if 1000 < q then 1000 else q) ∧
      (r.clip = true ↔ 1000 < q.natAbs)) ∧
    (a.pan = true →
      (c.natAbs < 500 → a.panOff + 1 = 50 → r.pan = false ∧ r.panOn = 0 ∧ r.panOff = 0) ∧
      (c.natAbs < 500 → a.panOff + 1 ≠ 50 → r.pan = true ∧ r.panOff = a.panOff + 1) ∧
      (500 ≤ c.natAbs → r.pan = true ∧ r.panOff = 0)) ∧
    (a.pan = false →
      (2000 < c.natAbs → a.panOn + 1 = 100 → r.pan = true ∧ r.panOn = 0 ∧ r.panOff = 0) ∧
      (2000 < c.natAbs → a.panOn + 1 ≠ 100 → r.pan = false ∧ r.panOn = a.panOn + 1) ∧
      (c.natAbs ≤ 2000 → r.pan = false ∧ r.panOn = 0))

/-! ### The Shot Sequencer -/

/-- SHOT SETUP, ARM and DISARM: the checks in their order; the records, with exposure, station and focus outcome (R169),
reservation, metering lock and burst of an ARM; what a DISARM ends, the RESERVED records it releases, in EXPOSING and
CLOSING too, and an exposure whose shutter already reads closed (R173, R180). (That the run count is 0 also where the end
of the SHOT lock leaves the metering STALE is the model's choice, log 72.) -/
def Obligations.ShotsArmAndDisarm : Prop :=
  (∀ (m : Moment) (s : State), Taking s →
    (∀ x : ShotSetupFields,
      let u := taken 35 m s
      (s.shot.state ≠ .idle → exec (.shotSetup m x) s = .next (u.respond 35 (.shotArmed, .empty, none))) ∧
      (s.shot.state = .idle → x.policy = none ∨ x.trigger = none ∨ x.count = 0 ∨ 8 < x.count ∨ x.interval < 100 ∨
          2000 < x.interval → exec (.shotSetup m x) s = .next (u.respond 35 (.badField, .empty, none))) ∧
      (∀ p g, s.shot.state = .idle → x.policy = some p → x.trigger = some g → 1 ≤ x.count → x.count ≤ 8 →
        100 ≤ x.interval → x.interval ≤ 2000 → exec (.shotSetup m x) s = .next ({ u with
          shot := { u.shot with setup := { count := x.count, interval := x.interval, policy := p, trigger := g } }
          }.respond 35 (.ok, .empty, none)))) ∧
    (let u := taken 36 m s
     let refused (c : Code) : Prop := exec (.arm m) s = .next (u.respond 36 (c, .empty, none))
     let n := s.shot.setup.count
     (s.shot.state = .fault → refused .shutterFault) ∧
     (s.shot.state ≠ .fault → s.shot.state ≠ .idle → refused .busy) ∧
     (s.shot.state = .idle →
       (s.map.mode = .preparing → refused .busy) ∧ (s.map.mode = .unprepared → refused .storeUnprepared) ∧
       (s.map.mode = .readOnly → refused .storeReadOnly) ∧
       (s.map.mode = .writable → 8 ≤ s.store.queue.length → refused .busy) ∧
       (s.map.mode = .writable → s.store.queue.length < 8 →
         (s.zoom.state ≠ .ready → refused .lensNotReady) ∧
         (s.zoom.state = .ready → s.focus.state = .scanning ∨ s.focus.state = .approaching → refused .focusBusy) ∧
         (s.zoom.state = .ready → s.focus.state ≠ .scanning → s.focus.state ≠ .approaching →
           (s.shot.setup.policy = .focusFirst → s.focus.state ≠ .locked → s.focus.state ≠ .manual →
             refused .notReady) ∧
           (s.shot.setup.policy = .releaseFirst ∨ s.focus.state = .locked ∨ s.focus.state = .manual →
             (s.meter.state = .noData → refused .notReady) ∧
             (s.meter.state ≠ .noData → 1024 - s.cat.places.length < n → refused .catalogueFull) ∧
             (s.meter.state ≠ .noData → n ≤ 1024 - s.cat.places.length →
               (s.map.erasedCount < s.map.reserved + n * s.settings.reservation → refused .noSpace) ∧
               (∀ e, s.map.reserved + n * s.settings.reservation ≤ s.map.erasedCount → Canonical s →
                 computeExposure { u with meter := { u.meter with state := .locked, owner := .shot } } = some e →
                 let group := if n = 1 then 0 else if 255 ≤ s.shot.lastGroup then 1 else s.shot.lastGroup + 1
                 ∃ t numbers, exec (.arm m) s = .next t ∧ numbers.length = n ∧
                   t.shot = { s.shot with
                     state := .armed, lastGroup := if n = 1 then s.shot.lastGroup else group
                     burst := some { group := group, count := n, numbers := numbers, next := 1, released := false
                                     disarmed := false, tv := e.tv, av := e.av } } ∧
                   t.link.pending = some { kind := 36, code := .ok, held := none
                                           body := .armed group numbers e.tv e.av e.sv e.flags } ∧
                   t.meter = { s.meter with state := .locked, owner := .shot, exposure := some e
                                            note := decide (s.meter.owner = .request) } ∧
                   t.map = { s.map with reserved := s.map.reserved + n * s.settings.reservation } ∧
                   t.focus.suspended = true ∧ Item.counter ∈ t.writer.queue ∧
                   (s.steady.mode = .shotOnly → s.steady.state = .off → t.steady.state = .starting) ∧
                   (∀ i k, numbers[i]? = some k → ∃ p r a, t.record p = some r ∧ s.record p = none ∧
                     r.number = some k ∧ r.state = .reserved ∧ r.remaining = s.settings.reservation ∧
                     r.armed = some a ∧ a.group = group ∧ a.index = i + 1 ∧ a.exposure.tv = e.tv ∧
                     a.exposure.av = e.av ∧ a.exposure.sv = e.sv ∧ a.flags = e.flags ∧
                     a.exposure.compensation = s.meter.setup.compensation ∧
                     a.exposure.mode = s.meter.setup.mode ∧ a.exposure.pattern = s.meter.setup.pattern ∧
                     (∀ v, s.meter.filtered = some v → a.exposure.scene = Int.fdiv (2 * v + 16) 32) ∧
                     a.station = s.zoom.current.getD 0 ∧
                     (∀ c ar v, s.focus.state = .locked → s.focus.held = some (.lock c ar v) →
                       a.focus = .locked c ar) ∧
                     (∀ c, s.focus.state = .manual → s.focus.held = some (.manual c) → a.focus = .manual c) ∧
                     (s.focus.state ≠ .locked → s.focus.state ≠ .manual → a.focus = .notLocked) ∧
                     Item.place p ∈ t.writer.queue) ∧
                   (∀ p r, s.record p = some r → t.record p = some r))))))))) ∧
  (∀ (m : Moment) (s : State), Taking s →
    let u := taken 38 m s
    (s.shot.state = .idle → exec (.disarm m) s = .next (u.respond 38 (.ok, .empty, none))) ∧
    (s.shot.state = .preparing → exec (.disarm m) s = .next ({ u with shot := { u.shot with
      burst := u.shot.burst.map fun b : Burst => { b with disarmed := true } } }.respond 38 (.ok, .empty, none))) ∧
    (s.shot.state = .armed ∨ s.shot.state = .waitSteady ∨ s.shot.state = .interval ∨ s.shot.state = .queueWait ∨
        s.shot.state = .fault → ∃ t, exec (.disarm m) s = .next t ∧ t.shot.state = .idle ∧ t.shot.burst = none ∧
      t.shot.exposure = none ∧ t.timers.frame = none ∧ t.focus.suspended = false ∧
      t.events = (s.setFlag .burstEnded).events ∧ t.shot.setup = s.shot.setup ∧
      t.link.pending = some { kind := 38, code := .ok, body := .empty, held := none } ∧
      (s.meter.owner = .shot → s.meter.note = false → t.meter.owner = .none ∧ t.meter.run = 0 ∧
        t.meter.state = if u.timers.block = none then .stale else .tracking) ∧
      (s.meter.owner = .shot → s.meter.note = true → t.meter.owner = .request ∧ t.meter.note = false ∧
        t.meter.state = s.meter.state) ∧
      (∀ b k p r, Canonical s → s.shot.burst = some b → b.numbers = [k] → findNumber k s.cat.places = some (p, r) →
        (r.state = .reserved → t.record p = none ∧ t.map.reserved = s.map.reserved - r.remaining ∧
          t.writer = s.writer.mark (.place p)) ∧
        (r.state ≠ .reserved → t.record p = some r ∧ t.map = s.map))) ∧
    (∀ b, Canonical s → s.shot.burst = some b → s.shot.state ≠ .idle → s.shot.state ≠ .preparing →
      s.shot.state ≠ .exposing ∨ m.shutterClosed = false →
      ∃ t, exec (.disarm m) s = .next t ∧
        (∀ k p r, k ∈ b.numbers → findNumber k s.cat.places = some (p, r) →
          (r.state = .reserved → t.record p = none ∧ Item.place p ∈ t.writer.queue) ∧
          (r.state ≠ .reserved → t.record p = some r)) ∧
        (∀ j y, s.record j = some y → (∀ k ∈ b.numbers, findNumber k s.cat.places ≠ some (j, y)) →
          t.record j = some y) ∧
        (b.numbers.Nodup → t.map.reserved = s.map.reserved -
          (((b.numbers.filterMap fun k => findNumber k s.cat.places).filter fun e => e.2.state == .reserved).map
            (·.2.remaining)).sum)) ∧
    (∀ b x p r total, Canonical s → s.shot.state = .exposing → s.shot.burst = some b → s.shot.exposure = some x →
      m.shutterClosed = true → u.timers.shutter = some total → findNumber x.number s.cat.places = some (p, r) →
      r.state = .exposing →
      ∃ t y, exec (.disarm m) s = .next t ∧ t.shot.state = .idle ∧ t.shot.burst = none ∧ t.shot.exposure = none ∧
        t.shot.lastMeasured = some total ∧ t.shot.lastLatency = some 0 ∧ t.store.queue = s.store.queue ++ [x.number] ∧
        t.record p = some y ∧ y.state = .awaiting ∧ y.measured = some total ∧
        y.armed = r.armed.map (fun a => { a with flags := { a.flags with cutShort := true } }) ∧
        (∀ k q z, k ∈ b.numbers → k ≠ x.number → findNumber k s.cat.places = some (q, z) → z.state = .reserved →
          t.record q = none) ∧
        t.events = ((s.setFlag .shotEnded).setFlag .burstEnded).events ∧
        t.link.pending = some { kind := 38, code := .ok, body := .empty, held := none }) ∧
    (∀ b x, s.shot.state = .exposing → s.shot.burst = some b → s.shot.exposure = some x →
      m.shutterClosed = false → ∃ t, exec (.disarm m) s = .next t ∧ t.shot = { s.shot with
        state := .closing, burst := some { b with disarmed := true }
        exposure := some { x with cutShort := true, closedAt := u.timers.shutter } } ∧ t.timers.confirm = some 0) ∧
    (∀ b, s.shot.state = .closing → s.shot.burst = some b → ∃ t, exec (.disarm m) s = .next t ∧
      t.shot = { s.shot with burst := some { b with disarmed := true } } ∧
      t.link.pending = some { kind := 38, code := .ok, body := .empty, held := none }))

/-- A frame begins at TRIGGER, at RELEASE falling, when the next frame is due, when the queue falls below 8 in
QUEUE_WAIT by END TAKEN, ABANDON, PICTURE ABORT or DATA TIMEOUT (R177), a PICTURE_START held till then included, and at
the end of an iris move or of the iris's start-up run (R166, R171): it waits for the Stabilizer, until its start ends
(R153, R156), then for the iris, then exposes: record, lines, timers, session; where the learned delay is not below the
exposure time the close command is due at once, and a sensor that already reads closed confirms it (R172, R173). A
disarmed one ends the burst (R180). The other edges and moves. (That FRAME DUE outside INTERVAL or before the interval
has passed and IRIS MOVE COMPLETE with the iris at rest do nothing is the model's choice, log 4; that a RELEASE row is
an edge whatever level is held, log 65; that a gyro frame whose bytes a Moment completed ends a start at its row, log
56.) -/
def Obligations.FramesWaitAndExpose : Prop :=
  ∀ (m : Moment) (s : State), s.supply.powered = true →
    let u := s.arrive m
    let due : Prop := ∃ f, u.timers.frame = some f ∧ 1000 * s.shot.setup.interval ≤ f
    (Taking s → s.shot.state ≠ .armed →
      exec (.trigger m) s = .next ((taken 37 m s).respond 37 (.wrongState, .empty, none))) ∧
    (Taking s → s.shot.state = .armed → ∃ t, exec (.trigger m) s = .next t ∧
      t.link.pending = some { kind := 37, code := .ok, body := .empty, held := none }) ∧
    (∀ (b : Burst) (p : Nat) (r : PicRecord), Canonical s → s.shot.burst = some b →
      findNumber (b.numbers.getD (b.next - 1) 0) s.cat.places = some (p, r) →
      let exposing (t : State) : Prop :=
        t.shot.burst = some { b with next := b.next + 1 } ∧ t.timers.frame = some 0 ∧ t.timers.shutter = some 0 ∧
        t.record p = some { r with state := .exposing, focusStep := u.focus.position } ∧
        (∀ j, j ≠ p → t.record j = s.record j) ∧ t.writer = s.writer.mark (.place p) ∧
        (s.shot.learned < exposureTime b.tv → t.shot.state = .exposing ∧ t.shot.exposure = some
          { number := b.numbers.getD (b.next - 1) 0, tv := b.tv, av := b.av, closedAt := none, cutShort := false }) ∧
        (exposureTime b.tv ≤ s.shot.learned → t.shot.state = .closing ∧ t.timers.confirm = some 0 ∧
          t.shot.exposure = some { number := b.numbers.getD (b.next - 1) 0, tv := b.tv, av := b.av
                                   closedAt := some 0, cutShort := false }) ∧
        (s.steady.state = .active → t.steady.state = .hold ∧ t.steady.session = some {
          outcome := .steady, peak := max s.steady.pitch.target.natAbs s.steady.yaw.target.natAbs
          clipSeen := s.steady.pitch.clip || s.steady.yaw.clip }) ∧
        (s.steady.state = .fault → t.steady.session = some { outcome := .lost, peak := 0, clipSeen := false }) ∧
        (s.steady.state = .off → t.steady.session = some { outcome := .off, peak := 0, clipSeen := false })
      let outcome : SteadyOutcome × Nat := match s.steady.state with
        | .active => (if s.steady.pitch.clip || s.steady.yaw.clip then .clipped else .steady,
            max s.steady.pitch.target.natAbs s.steady.yaw.target.natAbs)
        | .fault => (.lost, 0)
        | _ => (.off, 0)
      let confirmed (t : State) : Prop :=
        t.record p = some { r with
          state := .awaiting, focusStep := u.focus.position, measured := some 0, steady := some outcome.1
          peakShift := some outcome.2 } ∧
        t.store.queue = s.store.queue ++ [b.numbers.getD (b.next - 1) 0] ∧ t.shot.exposure = none ∧
        t.shot.lastMeasured = some 0 ∧ t.shot.lastLatency = some 0 ∧ t.timers.shutter = none ∧
        t.timers.confirm = none ∧
        (b.next < b.count → b.released = false → t.shot.state = .interval ∧
          t.events = (s.setFlag .shotEnded).events) ∧
        (b.count ≤ b.next ∨ b.released = true → t.shot.state = .idle ∧
          t.events = ((s.setFlag .shotEnded).setFlag .burstEnded).events)
      let closedOpen : Prop := m.shutterClosed = false ∨ s.shot.learned < exposureTime b.tv
      let closedAtOnce : Prop := m.shutterClosed = true ∧ exposureTime b.tv ≤ s.shot.learned ∧
        s.supply.powerLow = false ∧ s.steady.kept = none
      let frame (i : Instr) : Prop :=
        (s.steady.state = .starting → ∃ t, exec i s = .next t ∧ t.shot = { s.shot with state := .waitSteady }) ∧
        (s.steady.state ≠ .starting →
          (∀ a, s.shot.iris = .at a → a ≠ b.av → ∃ t, exec i s = .next t ∧
            t.shot = { s.shot with state := .preparing, iris := .moving b.av }) ∧
          (∀ a, s.shot.iris = .startRun ∨ s.shot.iris = .moving a → ∃ t, exec i s = .next t ∧
            t.shot = { s.shot with state := .preparing }) ∧
          (s.shot.iris = .at b.av → b.disarmed = false →
            (closedOpen → ∃ t, exec i s = .next t ∧ exposing t) ∧
            (closedAtOnce → ∃ t, exec i s = .next t ∧ confirmed t)))
      (Taking s → s.shot.state = .armed → frame (.trigger m)) ∧
      (s.shot.state = .armed → s.supply.powerLow = false → frame (.releaseFalling m)) ∧
      (s.shot.state = .interval → due → s.store.queue.length < 8 → frame (.frameDue m)) ∧
      (s.shot.state = .preparing → s.shot.iris = .startRun → b.av ≠ 6 →
        exec (.irisMoveComplete m) s = .next { u with shot := { s.shot with iris := .moving b.av } }) ∧
      (s.shot.state = .preparing → s.shot.iris = .moving b.av ∨ (s.shot.iris = .startRun ∧ b.av = 6) →
        b.disarmed = false →
        (closedOpen → ∃ t, exec (.irisMoveComplete m) s = .next t ∧ t.shot.iris = .at b.av ∧ exposing t) ∧
        (closedAtOnce → ∃ t, exec (.irisMoveComplete m) s = .next t ∧ t.shot.iris = .at b.av ∧ confirmed t)) ∧
      (s.shot.state = .preparing → s.shot.iris = .moving b.av ∨ (s.shot.iris = .startRun ∧ b.av = 6) →
        b.disarmed = true →
        ∃ t, exec (.irisMoveComplete m) s = .next t ∧ t.shot.state = .idle ∧
          t.events = (s.setFlag .burstEnded).events)) ∧
    (∀ (b : Burst) (p : Nat) (r : PicRecord), Canonical s → s.shot.burst = some b → b.disarmed = false →
      findNumber (b.numbers.getD (b.next - 1) 0) s.cat.places = some (p, r) →
      let goesOn (i : Instr) : Prop :=
        (∀ a, s.shot.iris = .at a → a ≠ b.av → ∃ t, exec i s = .next t ∧
          t.shot = { s.shot with state := .preparing, iris := .moving b.av }) ∧
        (∀ a, s.shot.iris = .startRun ∨ s.shot.iris = .moving a → ∃ t, exec i s = .next t ∧
          t.shot = { s.shot with state := .preparing }) ∧
        (s.shot.iris = .at b.av → m.shutterClosed = false ∨ s.shot.learned < exposureTime b.tv →
          ∃ t, exec i s = .next t ∧
          t.shot.burst = some { b with next := b.next + 1 } ∧ t.timers.frame = some 0 ∧ t.timers.shutter = some 0 ∧
          t.record p = some { r with state := .exposing, focusStep := u.focus.position } ∧
          (t.shot.state = .exposing ∨ t.shot.state = .closing))
      (∀ bytes, s.shot.state = .waitSteady → s.steady.state = .starting → s.steady.progress = 255 →
        s.supply.shutdown ≠ .starting → GyroOpens bytes u → (gyroOf bytes).checkOk = true →
        (∀ x, u.timers.good = some x → 750 ≤ x) →
        s.steady.lastSeq ≠ some (gyroOf bytes).seq → goesOn (.gyroFrame m bytes)) ∧
      (∀ x, s.shot.state = .waitSteady → s.steady.state = .starting → u.timers.lost = some x → 10000 ≤ x →
        goesOn (.gyroLost m)) ∧
      let shrunk (i : Instr) : Prop :=
        (s.steady.state = .starting → ∃ t, exec i s = .next t ∧ t.shot = { s.shot with state := .waitSteady }) ∧
        (s.steady.state ≠ .starting → goesOn i)
      (∀ n q y, Taking s → s.shot.state = .queueWait → s.store.heldStart = false ∨
          (removeFirst n s.store.queue).head? ≠ some (b.numbers.getD (b.next - 1) 0) → s.store.fullOrder = [] →
        s.map.mode ≠ .preparing → 1 ≤ n → n ≤ 9999 → findNumber n s.cat.places = some (q, y) →
        y.state = .awaiting ∨ y.state = .storing → b.numbers.getD (b.next - 1) 0 ≠ n →
        (removeFirst n s.store.queue).length < 8 → shrunk (.abandon m n)) ∧
      (∀ n rest, s.shot.state = .queueWait →
        s.store.heldStart = false ∨ rest.head? ≠ some (b.numbers.getD (b.next - 1) 0) → s.store.stream ≠ .closed →
        s.store.queue = n :: rest → rest.length < 8 → b.numbers.getD (b.next - 1) 0 ≠ n →
        (s.supply.shutdown ≠ .starting → LaneOpens 5#8 0 u ∨ LaneHolds 5#8 0 u → shrunk (.pictureAbort m)) ∧
        (∀ x, s.store.stream = .opened → u.timers.data = some x → 2000000 ≤ x → shrunk (.dataTimeout m))) ∧
      (∀ x n rest, s.shot.state = .queueWait → s.store.stream = .ending → s.store.bufA.state = .empty →
        s.store.bufB.state = .empty → s.store.heldEnd = some x → s.store.queue = n :: rest → rest.length < 8 →
        b.numbers.getD (b.next - 1) 0 ≠ n →
        s.store.heldStart = false ∨ rest.head? ≠ some (b.numbers.getD (b.next - 1) 0) → s.store.fullOrder = [] →
        shrunk (.endTaken m))) ∧
    (s.shot.state = .interval → due → 8 ≤ s.store.queue.length →
      exec (.frameDue m) s = .next { u with shot := { s.shot with state := .queueWait } }) ∧
    (s.shot.state ≠ .interval ∨ (1 ≤ s.shot.setup.interval ∧ ¬due) → exec (.frameDue m) s = .next u) ∧
    (s.shot.state ≠ .armed → exec (.releaseFalling m) s = .next { u with lines := { u.lines with release := false } }) ∧
    (s.shot.setup.trigger = .press ∨ s.shot.state = .armed ∨ s.shot.state = .idle ∨ s.shot.state = .fault →
      exec (.releaseRising m) s = .next { u with lines := { u.lines with release := true } }) ∧
    (s.shot.setup.trigger = .held → s.supply.powerLow = false →
      (s.shot.state = .waitSteady ∨ s.shot.state = .preparing ∨ s.shot.state = .exposing ∨
          s.shot.state = .closing → exec (.releaseRising m) s = .next { u with
        lines := { u.lines with release := true }
        shot := { s.shot with burst := s.shot.burst.map fun b : Burst => { b with released := true } } }) ∧
      (s.shot.state = .interval ∨ s.shot.state = .queueWait → ∃ t, exec (.releaseRising m) s = .next t ∧
        t.shot.state = .idle ∧ t.lines.release = true ∧ t.events = (s.setFlag .burstEnded).events)) ∧
    (∀ a, s.shot.iris = .at a → exec (.irisMoveComplete m) s = .next u) ∧
    (s.shot.state ≠ .preparing →
      (s.shot.iris = .startRun → exec (.irisMoveComplete m) s = .next { u with shot := { s.shot with iris := .at 6 } }) ∧
      (∀ a, s.shot.iris = .moving a →
        exec (.irisMoveComplete m) s = .next { u with shot := { s.shot with iris := .at a } }))

/-- The end of an exposure: the close command when it is due, the exposure time less the learned delay after EXPOSE
(R172), the closure confirmed, by the sensor in CLOSING or at the close command where it already reads closed (R173)
(measured time, latency, learned delay, the record AWAITING at the queue's tail, the session's outcome (R163), the next
frame, due at once where the frame timer has already reached the interval (R176), its own close command due at once where
the learned delay is not below the exposure time and confirmed by the sensor that still reads closed (R172, R173), or the
return to IDLE, which releases the records still RESERVED (R6, R179)), or 50 ms without it, with the session's outcome and
peak shift in the record and the learned delay kept (R174); after POWER_LOW the record fails with POWER either way
(R181); and the exposure time of a Tv, to the nearest microsecond with halves upward. (That CLOSE COMMAND DUE outside
EXPOSING or before it is due, SHUTTER CLOSED outside CLOSING and SHUTTER TIMEOUT there or before 50 ms do nothing is the
model's choice, log 4.) -/
def Obligations.ExposuresCloseOrTimeOut : Prop :=
  (∀ (m : Moment) (s : State) (x : InHand), s.supply.powered = true → s.shot.exposure = some x →
    let u := s.arrive m
    let due : Prop := ∃ t, u.timers.shutter = some t ∧ exposureTime x.tv - s.shot.learned ≤ t
    let late : Prop := ∃ t, u.timers.confirm = some t ∧ 50000 ≤ t
    let outcome : SteadyOutcome × Nat := match s.steady.kept, s.steady.session with
      | some k, _ => k
      | none, none => (.off, 0)
      | none, some e => (if e.outcome = .off then .off else if e.outcome = .lost then .lost
          else if e.clipSeen then .clipped else .steady, e.peak)
    (s.shot.state = .exposing → due → m.shutterClosed = false → exec (.closeCommandDue m) s = .next { u with
      shot := { s.shot with state := .closing, exposure := some { x with closedAt := u.timers.shutter } }
      timers := { u.timers with confirm := some 0 } }) ∧
    (s.shot.state ≠ .exposing ∨ ¬due → exec (.closeCommandDue m) s = .next u) ∧
    (s.shot.state ≠ .closing → exec (.shutterClosed m) s = .next u) ∧
    (s.shot.state ≠ .closing ∨ ¬late → exec (.shutterTimeout m) s = .next u) ∧
    (∀ (b : Burst) (p : Nat) (r : PicRecord) (total at_ : Nat) (i : Instr), Canonical s →
      (s.shot.state = .closing ∧ i = .shutterClosed m ∧ x.closedAt = some at_) ∨
        (s.shot.state = .exposing ∧ due ∧ m.shutterClosed = true ∧ i = .closeCommandDue m ∧ at_ = total) →
      s.supply.powerLow = false → s.shot.burst = some b → findNumber x.number s.cat.places = some (p, r) →
      u.timers.shutter = some total →
      let latency : Nat := total - at_
      ∃ t, exec i s = .next t ∧
        (b.numbers.getD (b.next - 1) 0 ≠ x.number ∨ b.count < b.next → t.record p = some { r with
          state := .awaiting, measured := some total, steady := some outcome.1, peakShift := some outcome.2
          armed := if x.cutShort then r.armed.map (fun a => { a with flags := { a.flags with cutShort := true } })
            else r.armed }) ∧
        (b.next ≤ b.count → b.disarmed = false → b.released = false →
          (∀ f, u.timers.frame = some f → f < 1000 * s.shot.setup.interval) →
          1 ≤ s.shot.setup.interval → t.shot.state = .interval ∧ t.store.queue = s.store.queue ++ [x.number] ∧
          t.shot.lastMeasured = some total ∧ t.shot.lastLatency = some latency ∧
          (t.shot.learned : Int) = (let q := Int.fdiv (2 * (3 * s.shot.learned + latency) + 4) 8
            if q < 1000 then 1000 else if 20000 < q then 20000 else q) ∧
          t.shot.exposure = none ∧ t.timers.shutter = none ∧ t.timers.confirm = none ∧
          t.events = (s.setFlag .shotEnded).events ∧
          (s.steady.state = .hold → t.steady.state = .active) ∧ t.steady.session = none) ∧
        (∀ f, b.next ≤ b.count → b.disarmed = false → b.released = false → u.timers.frame = some f →
          1000 * s.shot.setup.interval ≤ f →
          let learned : Int := (let q := Int.fdiv (2 * (3 * s.shot.learned + latency) + 4) 8
            if q < 1000 then 1000 else if 20000 < q then 20000 else q)
          (7 ≤ s.store.queue.length ∨ s.steady.state = .starting ∨ s.shot.iris ≠ .at b.av ∨
              learned < exposureTime b.tv →
            t.events = (s.setFlag .shotEnded).events ∧ t.store.queue = s.store.queue ++ [x.number]) ∧
          (7 ≤ s.store.queue.length → t.shot.state = .queueWait ∧ t.shot.burst = some b ∧ t.shot.exposure = none) ∧
          (s.store.queue.length < 7 →
            (s.steady.state = .starting → t.shot.state = .waitSteady ∧ t.shot.burst = some b) ∧
            (s.steady.state ≠ .starting →
              (∀ a, s.shot.iris = .at a → a ≠ b.av → t.shot.state = .preparing ∧ t.shot.iris = .moving b.av) ∧
              (∀ a, s.shot.iris = .startRun ∨ s.shot.iris = .moving a → t.shot.state = .preparing) ∧
              (∀ q y, s.shot.iris = .at b.av → learned < exposureTime b.tv →
                findNumber (b.numbers.getD (b.next - 1) 0) s.cat.places = some (q, y) → q ≠ p →
                t.shot.state = .exposing ∧ t.shot.burst = some { b with next := b.next + 1 } ∧
                t.timers.frame = some 0 ∧ t.timers.shutter = some 0 ∧
                t.record q = some { y with state := .exposing, focusStep := u.focus.position } ∧
                t.shot.exposure = some { number := b.numbers.getD (b.next - 1) 0, tv := b.tv, av := b.av
                                         closedAt := none, cutShort := false }) ∧
              (∀ q y, s.shot.iris = .at b.av → (exposureTime b.tv : Int) ≤ learned →
                findNumber (b.numbers.getD (b.next - 1) 0) s.cat.places = some (q, y) → q ≠ p →
                let next : SteadyOutcome × Nat := match s.steady.state with
                  | .active | .hold => (if s.steady.pitch.clip || s.steady.yaw.clip then .clipped else .steady,
                      max s.steady.pitch.target.natAbs s.steady.yaw.target.natAbs)
                  | .fault => (.lost, 0)
                  | _ => (.off, 0)
                t.record q = some { y with
                  state := .awaiting, focusStep := u.focus.position, measured := some 0, steady := some next.1
                  peakShift := some next.2 } ∧
                t.store.queue = s.store.queue ++ [x.number, b.numbers.getD (b.next - 1) 0] ∧
                t.shot.exposure = none ∧ t.shot.lastMeasured = some 0 ∧ t.shot.lastLatency = some 0 ∧
                (b.next < b.count → t.shot.state = .interval ∧ t.events = (s.setFlag .shotEnded).events) ∧
                (b.next = b.count → t.shot.state = .idle ∧
                  t.events = ((s.setFlag .shotEnded).setFlag .burstEnded).events))))) ∧
        (b.count < b.next ∨ b.disarmed = true ∨ b.released = true →
          t.shot.state = .idle ∧ t.shot.burst = none ∧ t.store.queue = s.store.queue ++ [x.number] ∧
          t.events = ((s.setFlag .shotEnded).setFlag .burstEnded).events ∧
          ∀ k q y, k ∈ b.numbers → k ≠ x.number → findNumber k s.cat.places = some (q, y) → y.state = .reserved →
            t.record q = none)) ∧
    (∀ (b : Burst) (p : Nat) (r : PicRecord), Canonical s → s.shot.state = .closing → s.supply.powerLow = false →
      s.shot.burst = some b → findNumber x.number s.cat.places = some (p, r) → late →
      ∃ t y, exec (.shutterTimeout m) s = .next t ∧ t.shot.state = .fault ∧ t.shot.exposure = none ∧
        t.record p = some y ∧ y.state = .failed ∧ y.cause = some .shutter ∧ y.measured = none ∧ y.remaining = 0 ∧
        y.steady = some outcome.1 ∧ y.peakShift = some outcome.2 ∧ t.steady.session = none ∧ t.steady.kept = none ∧
        (s.steady.state = .hold → t.steady.state = .active) ∧ t.shot.learned = s.shot.learned ∧
        t.shot.lastLatency = s.shot.lastLatency ∧ t.shot.lastMeasured = s.shot.lastMeasured ∧
        (b.numbers = [x.number] → t.map.reserved = s.map.reserved - r.remaining) ∧ t.store.queue = s.store.queue ∧
        (∀ k q z, k ∈ b.numbers → k ≠ x.number → findNumber k s.cat.places = some (q, z) → z.state = .reserved →
          t.record q = none) ∧
        t.events = ((s.setFlag .shotEnded).setFlag .shutterFault).events ∧
        t.timers.shutter = none ∧ t.timers.confirm = none) ∧
    (∀ (p : Nat) (r : PicRecord) (total : Nat), Canonical s → s.shot.state = .closing → s.supply.powerLow = true →
      findNumber x.number s.cat.places = some (p, r) → u.timers.shutter = some total →
      let failed (i : Instr) (measured : Option Nat) : Prop := ∃ t y, exec i s = .next t ∧ t.shot.state = .idle ∧
        t.shot.burst = none ∧ t.record p = some y ∧ y.state = .failed ∧ y.cause = some .power ∧
        y.measured = measured ∧ y.steady = some outcome.1 ∧ y.peakShift = some outcome.2 ∧
        y.armed = r.armed ∧ y.remaining = 0 ∧ y.extent = [] ∧ t.store.queue = s.store.queue ∧
        t.events = ((s.setFlag .shotEnded).setFlag .burstEnded).events
      failed (.shutterClosed m) (some total) ∧ (late → failed (.shutterTimeout m) none))) ∧
  (∀ n : Nat,
    (n ≤ 36 → (2 * exposureTime n - 1) ^ 3 * 2 ^ n ≤ 8 * 10 ^ 18 ∧ 8 * 10 ^ 18 < (2 * exposureTime n + 1) ^ 3 * 2 ^ n) ∧
    (n ≤ 15 → (2 * exposureTime (-n) - 1) ^ 3 ≤ 8 * 10 ^ 18 * 2 ^ n ∧
      8 * 10 ^ 18 * 2 ^ n < (2 * exposureTime (-n) + 1) ^ 3))
end

