-- ==== Sys2Proof/Laws/State.lean ====
section
/-! SUPPORT. What each small update of State does to each field: one simp set per update, every equation by rfl, so that
no later proof unfolds a record update. -/

namespace Sys2Proof.Machine

variable (s : State)

@[simp] theorem State.arrive_timers (m : Moment) : (s.arrive m).timers = s.timers.advance m.dt (inLaneReady s) := rfl

@[simp] theorem State.arrive_lines (m : Moment) :
    (s.arrive m).lines =
      { s.lines with
        shutterClosed := sensorRead m s, focusHome := m.focusHome, outReady := m.outReady } := rfl

/-- Outside CLOSING every command brings the sensor's reading (R173). -/
theorem sensorRead_of_ne (h : s.shot.state ≠ .closing) (m : Moment) : sensorRead m s = m.shutterClosed := by
  simp [sensorRead, h]

/-- In CLOSING the reading stands (R173). -/
theorem sensorRead_closing (h : s.shot.state = .closing) (m : Moment) : sensorRead m s = s.lines.shutterClosed := by
  simp [sensorRead, h]

@[simp] theorem State.arrive_link (m : Moment) : (s.arrive m).link = s.link.clock m.clocked := rfl

@[simp] theorem Link.clock_pending (l : Link) (b : List Byte) : (l.clock b).pending = l.pending := rfl

@[simp] theorem Link.clock_condition (l : Link) (b : List Byte) : (l.clock b).condition = l.condition := rfl

@[simp] theorem Link.clock_clockedOut (l : Link) (b : List Byte) : (l.clock b).clockedOut = l.outAfter b.length := rfl

@[simp] theorem Link.clock_receiver (l : Link) (b : List Byte) : (l.clock b).receiver = l.received b := rfl

/-- With no response pending nothing is clocked out (R186). -/
@[simp] theorem Link.outAfter_none {l : Link} (h : l.pending = none) (n : Nat) : l.outAfter n = l.clockedOut := by
  simp [Link.outAfter, h]

@[simp] theorem State.arrive_focus (m : Moment) : (s.arrive m).focus = s.focus.steps m.focusSteps := rfl

@[simp] theorem State.arrive_lane (m : Moment) :
    (s.arrive m).lane = m.lane.foldl (LaneReceiver.takeByte s) s.lane := rfl

@[simp] theorem State.arrive_gyro (m : Moment) : (s.arrive m).gyro = gyroAfter m s := rfl

/-- Without bytes on the gyro line only its time passes (R150). -/
theorem gyroAfter_of_nil {m : Moment} (h : m.gyro = []) (hr : gyroRuns s = true) :
    gyroAfter m s = s.gyro.advance m.dt := by simp [gyroAfter, h, hr]

/-- Without bytes on the In Lane its receiver stays as it is (R193). -/
theorem State.arrive_lane_of_nil {m : Moment} (h : m.lane = []) : (s.arrive m).lane = s.lane := by simp [h]

@[simp] theorem State.arrive_frame (m : Moment) :
    (s.arrive m).pending = s.pending ∧ (s.arrive m).supply = s.supply ∧ (s.arrive m).events = s.events ∧
    (s.arrive m).memory = s.memory ∧ (s.arrive m).writer = s.writer ∧
    (s.arrive m).cat = s.cat ∧ (s.arrive m).settings = s.settings ∧ (s.arrive m).map = s.map ∧
    (s.arrive m).flash = s.flash ∧ (s.arrive m).store = s.store ∧
    (s.arrive m).chain = s.chain ∧ (s.arrive m).meter = s.meter ∧ (s.arrive m).zoom = s.zoom ∧
    (s.arrive m).steady = s.steady ∧ (s.arrive m).shot = s.shot :=
  ⟨rfl, rfl, rfl, rfl, rfl, rfl, rfl, rfl, rfl, rfl, rfl, rfl, rfl, rfl, rfl⟩

@[simp] theorem State.setFlag_events (f : EventFlag) :
    (s.setFlag f).events =
      { s.events with flags := s.events.flags ||| f.word } := rfl

@[simp] theorem State.setFlag_frame (f : EventFlag) :
    (s.setFlag f).pending = s.pending ∧ (s.setFlag f).timers = s.timers ∧ (s.setFlag f).lines = s.lines ∧
    (s.setFlag f).supply = s.supply ∧ (s.setFlag f).link = s.link ∧ (s.setFlag f).memory = s.memory ∧
    (s.setFlag f).writer = s.writer ∧ (s.setFlag f).cat = s.cat ∧ (s.setFlag f).settings = s.settings ∧
    (s.setFlag f).map = s.map ∧ (s.setFlag f).flash = s.flash ∧ (s.setFlag f).lane = s.lane ∧
    (s.setFlag f).gyro = s.gyro ∧
    (s.setFlag f).store = s.store ∧ (s.setFlag f).chain = s.chain ∧ (s.setFlag f).meter = s.meter ∧
    (s.setFlag f).zoom = s.zoom ∧ (s.setFlag f).focus = s.focus ∧ (s.setFlag f).steady = s.steady ∧
    (s.setFlag f).shot = s.shot :=
  ⟨rfl, rfl, rfl, rfl, rfl, rfl, rfl, rfl, rfl, rfl, rfl, rfl, rfl, rfl, rfl, rfl, rfl, rfl, rfl, rfl⟩

@[simp] theorem State.markDirty_writer (i : Item) : (s.markDirty i).writer = s.writer.mark i := rfl

@[simp] theorem State.markDirty_frame (i : Item) :
    (s.markDirty i).pending = s.pending ∧ (s.markDirty i).timers = s.timers ∧ (s.markDirty i).lines = s.lines ∧
    (s.markDirty i).supply = s.supply ∧ (s.markDirty i).events = s.events ∧ (s.markDirty i).link = s.link ∧
    (s.markDirty i).memory = s.memory ∧ (s.markDirty i).cat = s.cat ∧ (s.markDirty i).settings = s.settings ∧
    (s.markDirty i).map = s.map ∧ (s.markDirty i).flash = s.flash ∧ (s.markDirty i).lane = s.lane ∧
    (s.markDirty i).gyro = s.gyro ∧
    (s.markDirty i).store = s.store ∧ (s.markDirty i).chain = s.chain ∧ (s.markDirty i).meter = s.meter ∧
    (s.markDirty i).zoom = s.zoom ∧ (s.markDirty i).focus = s.focus ∧ (s.markDirty i).steady = s.steady ∧
    (s.markDirty i).shot = s.shot :=
  ⟨rfl, rfl, rfl, rfl, rfl, rfl, rfl, rfl, rfl, rfl, rfl, rfl, rfl, rfl, rfl, rfl, rfl, rfl, rfl, rfl⟩

@[simp] theorem State.markAll_writer (is : List Item) :
    (s.markAll is).writer =
      is.foldl (fun w i => w.mark i) s.writer := rfl

@[simp] theorem State.markAll_frame (is : List Item) :
    (s.markAll is).pending = s.pending ∧ (s.markAll is).timers = s.timers ∧ (s.markAll is).lines = s.lines ∧
    (s.markAll is).supply = s.supply ∧ (s.markAll is).events = s.events ∧ (s.markAll is).link = s.link ∧
    (s.markAll is).memory = s.memory ∧ (s.markAll is).cat = s.cat ∧ (s.markAll is).settings = s.settings ∧
    (s.markAll is).map = s.map ∧ (s.markAll is).flash = s.flash ∧ (s.markAll is).lane = s.lane ∧
    (s.markAll is).gyro = s.gyro ∧
    (s.markAll is).store = s.store ∧ (s.markAll is).chain = s.chain ∧ (s.markAll is).meter = s.meter ∧
    (s.markAll is).zoom = s.zoom ∧ (s.markAll is).focus = s.focus ∧ (s.markAll is).steady = s.steady ∧
    (s.markAll is).shot = s.shot :=
  ⟨rfl, rfl, rfl, rfl, rfl, rfl, rfl, rfl, rfl, rfl, rfl, rfl, rfl, rfl, rfl, rfl, rfl, rfl, rfl, rfl⟩

@[simp] theorem State.setRecord_cat (p : Nat) (r : PicRecord) :
    (s.setRecord p r).cat =
      { s.cat with places := Table.put p r s.cat.places } := rfl

@[simp] theorem State.setRecord_frame (p : Nat) (r : PicRecord) :
    (s.setRecord p r).pending = s.pending ∧ (s.setRecord p r).timers = s.timers ∧ (s.setRecord p r).lines = s.lines ∧
    (s.setRecord p r).supply = s.supply ∧ (s.setRecord p r).events = s.events ∧ (s.setRecord p r).link = s.link ∧
    (s.setRecord p r).memory = s.memory ∧ (s.setRecord p r).writer = s.writer ∧
    (s.setRecord p r).settings = s.settings ∧ (s.setRecord p r).map = s.map ∧ (s.setRecord p r).flash = s.flash ∧
    (s.setRecord p r).lane = s.lane ∧ (s.setRecord p r).gyro = s.gyro ∧ (s.setRecord p r).store = s.store ∧
    (s.setRecord p r).chain = s.chain ∧
    (s.setRecord p r).meter = s.meter ∧ (s.setRecord p r).zoom = s.zoom ∧ (s.setRecord p r).focus = s.focus ∧
    (s.setRecord p r).steady = s.steady ∧ (s.setRecord p r).shot = s.shot :=
  ⟨rfl, rfl, rfl, rfl, rfl, rfl, rfl, rfl, rfl, rfl, rfl, rfl, rfl, rfl, rfl, rfl, rfl, rfl, rfl, rfl⟩

@[simp] theorem State.claim_writer (p : Nat) (r : PicRecord) : (s.claim p r).writer = s.writer.mark (.place p) := rfl

@[simp] theorem State.claim_cat (p : Nat) (r : PicRecord) :
    (s.claim p r).cat =
      { s.cat with places := Table.put p r s.cat.places } := rfl

@[simp] theorem State.claim_frame (p : Nat) (r : PicRecord) :
    (s.claim p r).pending = s.pending ∧ (s.claim p r).timers = s.timers ∧ (s.claim p r).lines = s.lines ∧
    (s.claim p r).supply = s.supply ∧ (s.claim p r).events = s.events ∧ (s.claim p r).link = s.link ∧
    (s.claim p r).memory = s.memory ∧ (s.claim p r).settings = s.settings ∧ (s.claim p r).map = s.map ∧
    (s.claim p r).flash = s.flash ∧ (s.claim p r).lane = s.lane ∧ (s.claim p r).gyro = s.gyro ∧
    (s.claim p r).store = s.store ∧
    (s.claim p r).chain = s.chain ∧ (s.claim p r).meter = s.meter ∧ (s.claim p r).zoom = s.zoom ∧
    (s.claim p r).focus = s.focus ∧ (s.claim p r).steady = s.steady ∧ (s.claim p r).shot = s.shot :=
  ⟨rfl, rfl, rfl, rfl, rfl, rfl, rfl, rfl, rfl, rfl, rfl, rfl, rfl, rfl, rfl, rfl, rfl, rfl, rfl⟩

@[simp] theorem State.claimChanged_writer (p : Nat) (r r' : PicRecord) :
    (s.claimChanged p r r').writer = if r'.durable = r.durable then s.writer else s.writer.mark (.place p) := by
  unfold State.claimChanged
  split <;> rfl

@[simp] theorem State.claimChanged_cat (p : Nat) (r r' : PicRecord) :
    (s.claimChanged p r r').cat =
      { s.cat with places := Table.put p r' s.cat.places } := by
  unfold State.claimChanged
  split <;> rfl

@[simp] theorem State.claimChanged_frame (p : Nat) (r r' : PicRecord) :
    let t : State := s.claimChanged p r r'
    t.pending = s.pending ∧ t.timers = s.timers ∧ t.lines = s.lines ∧ t.supply = s.supply ∧ t.events = s.events ∧
    t.link = s.link ∧ t.memory = s.memory ∧ t.settings = s.settings ∧ t.map = s.map ∧ t.flash = s.flash ∧
    t.lane = s.lane ∧ t.gyro = s.gyro ∧ t.store = s.store ∧ t.chain = s.chain ∧ t.meter = s.meter ∧ t.zoom = s.zoom ∧
    t.focus = s.focus ∧ t.steady = s.steady ∧ t.shot = s.shot := by
  unfold State.claimChanged
  split <;> simp

@[simp] theorem State.dropRecord_cat (p : Nat) :
    (s.dropRecord p).cat =
      { s.cat with places := Table.erase p s.cat.places } := rfl

@[simp] theorem State.dropRecord_frame (p : Nat) :
    (s.dropRecord p).pending = s.pending ∧ (s.dropRecord p).timers = s.timers ∧ (s.dropRecord p).lines = s.lines ∧
    (s.dropRecord p).supply = s.supply ∧ (s.dropRecord p).events = s.events ∧ (s.dropRecord p).link = s.link ∧
    (s.dropRecord p).memory = s.memory ∧ (s.dropRecord p).writer = s.writer ∧ (s.dropRecord p).settings = s.settings ∧
    (s.dropRecord p).map = s.map ∧ (s.dropRecord p).flash = s.flash ∧ (s.dropRecord p).lane = s.lane ∧
    (s.dropRecord p).gyro = s.gyro ∧
    (s.dropRecord p).store = s.store ∧ (s.dropRecord p).chain = s.chain ∧ (s.dropRecord p).meter = s.meter ∧
    (s.dropRecord p).zoom = s.zoom ∧ (s.dropRecord p).focus = s.focus ∧ (s.dropRecord p).steady = s.steady ∧
    (s.dropRecord p).shot = s.shot :=
  ⟨rfl, rfl, rfl, rfl, rfl, rfl, rfl, rfl, rfl, rfl, rfl, rfl, rfl, rfl, rfl, rfl, rfl, rfl, rfl, rfl⟩

@[simp] theorem State.onMap_map (f : BlockMap → BlockMap) : (s.onMap f).map = f s.map := rfl

@[simp] theorem State.onMap_frame (f : BlockMap → BlockMap) :
    (s.onMap f).pending = s.pending ∧ (s.onMap f).timers = s.timers ∧ (s.onMap f).lines = s.lines ∧
    (s.onMap f).supply = s.supply ∧ (s.onMap f).events = s.events ∧ (s.onMap f).link = s.link ∧
    (s.onMap f).memory = s.memory ∧ (s.onMap f).writer = s.writer ∧ (s.onMap f).cat = s.cat ∧
    (s.onMap f).settings = s.settings ∧ (s.onMap f).flash = s.flash ∧ (s.onMap f).lane = s.lane ∧
    (s.onMap f).gyro = s.gyro ∧
    (s.onMap f).store = s.store ∧ (s.onMap f).chain = s.chain ∧ (s.onMap f).meter = s.meter ∧
    (s.onMap f).zoom = s.zoom ∧ (s.onMap f).focus = s.focus ∧ (s.onMap f).steady = s.steady ∧
    (s.onMap f).shot = s.shot :=
  ⟨rfl, rfl, rfl, rfl, rfl, rfl, rfl, rfl, rfl, rfl, rfl, rfl, rfl, rfl, rfl, rfl, rfl, rfl, rfl, rfl⟩

@[simp] theorem State.onFlash_flash (f : FlashPort → FlashPort) : (s.onFlash f).flash = f s.flash := rfl

@[simp] theorem State.onFlash_frame (f : FlashPort → FlashPort) :
    (s.onFlash f).pending = s.pending ∧ (s.onFlash f).timers = s.timers ∧ (s.onFlash f).lines = s.lines ∧
    (s.onFlash f).supply = s.supply ∧ (s.onFlash f).events = s.events ∧ (s.onFlash f).link = s.link ∧
    (s.onFlash f).memory = s.memory ∧ (s.onFlash f).writer = s.writer ∧ (s.onFlash f).cat = s.cat ∧
    (s.onFlash f).settings = s.settings ∧ (s.onFlash f).map = s.map ∧ (s.onFlash f).lane = s.lane ∧
    (s.onFlash f).gyro = s.gyro ∧
    (s.onFlash f).store = s.store ∧ (s.onFlash f).chain = s.chain ∧ (s.onFlash f).meter = s.meter ∧
    (s.onFlash f).zoom = s.zoom ∧ (s.onFlash f).focus = s.focus ∧ (s.onFlash f).steady = s.steady ∧
    (s.onFlash f).shot = s.shot :=
  ⟨rfl, rfl, rfl, rfl, rfl, rfl, rfl, rfl, rfl, rfl, rfl, rfl, rfl, rfl, rfl, rfl, rfl, rfl, rfl, rfl⟩

@[simp] theorem State.onStore_store (f : StoreEngine → StoreEngine) : (s.onStore f).store = f s.store := rfl

@[simp] theorem State.onStore_frame (f : StoreEngine → StoreEngine) :
    (s.onStore f).pending = s.pending ∧ (s.onStore f).timers = s.timers ∧ (s.onStore f).lines = s.lines ∧
    (s.onStore f).supply = s.supply ∧ (s.onStore f).events = s.events ∧ (s.onStore f).link = s.link ∧
    (s.onStore f).memory = s.memory ∧ (s.onStore f).writer = s.writer ∧ (s.onStore f).cat = s.cat ∧
    (s.onStore f).settings = s.settings ∧ (s.onStore f).map = s.map ∧ (s.onStore f).flash = s.flash ∧
    (s.onStore f).lane = s.lane ∧ (s.onStore f).gyro = s.gyro ∧ (s.onStore f).chain = s.chain ∧
    (s.onStore f).meter = s.meter ∧
    (s.onStore f).zoom = s.zoom ∧ (s.onStore f).focus = s.focus ∧ (s.onStore f).steady = s.steady ∧
    (s.onStore f).shot = s.shot :=
  ⟨rfl, rfl, rfl, rfl, rfl, rfl, rfl, rfl, rfl, rfl, rfl, rfl, rfl, rfl, rfl, rfl, rfl, rfl, rfl, rfl⟩

@[simp] theorem State.onChain_chain (f : ReadChain → ReadChain) : (s.onChain f).chain = f s.chain := rfl

@[simp] theorem State.onChain_frame (f : ReadChain → ReadChain) :
    (s.onChain f).pending = s.pending ∧ (s.onChain f).timers = s.timers ∧ (s.onChain f).lines = s.lines ∧
    (s.onChain f).supply = s.supply ∧ (s.onChain f).events = s.events ∧ (s.onChain f).link = s.link ∧
    (s.onChain f).memory = s.memory ∧ (s.onChain f).writer = s.writer ∧ (s.onChain f).cat = s.cat ∧
    (s.onChain f).settings = s.settings ∧ (s.onChain f).map = s.map ∧ (s.onChain f).flash = s.flash ∧
    (s.onChain f).lane = s.lane ∧ (s.onChain f).gyro = s.gyro ∧ (s.onChain f).store = s.store ∧
    (s.onChain f).meter = s.meter ∧
    (s.onChain f).zoom = s.zoom ∧ (s.onChain f).focus = s.focus ∧ (s.onChain f).steady = s.steady ∧
    (s.onChain f).shot = s.shot :=
  ⟨rfl, rfl, rfl, rfl, rfl, rfl, rfl, rfl, rfl, rfl, rfl, rfl, rfl, rfl, rfl, rfl, rfl, rfl, rfl, rfl⟩

@[simp] theorem State.onFocus_focus (f : Focus → Focus) : (s.onFocus f).focus = f s.focus := rfl

@[simp] theorem State.onFocus_frame (f : Focus → Focus) :
    (s.onFocus f).pending = s.pending ∧ (s.onFocus f).timers = s.timers ∧ (s.onFocus f).lines = s.lines ∧
    (s.onFocus f).supply = s.supply ∧ (s.onFocus f).events = s.events ∧ (s.onFocus f).link = s.link ∧
    (s.onFocus f).memory = s.memory ∧ (s.onFocus f).writer = s.writer ∧ (s.onFocus f).cat = s.cat ∧
    (s.onFocus f).settings = s.settings ∧ (s.onFocus f).map = s.map ∧ (s.onFocus f).flash = s.flash ∧
    (s.onFocus f).lane = s.lane ∧ (s.onFocus f).gyro = s.gyro ∧ (s.onFocus f).store = s.store ∧
    (s.onFocus f).chain = s.chain ∧
    (s.onFocus f).meter = s.meter ∧ (s.onFocus f).zoom = s.zoom ∧ (s.onFocus f).steady = s.steady ∧
    (s.onFocus f).shot = s.shot :=
  ⟨rfl, rfl, rfl, rfl, rfl, rfl, rfl, rfl, rfl, rfl, rfl, rfl, rfl, rfl, rfl, rfl, rfl, rfl, rfl, rfl⟩

@[simp] theorem State.onZoom_zoom (f : Zoom → Zoom) : (s.onZoom f).zoom = f s.zoom := rfl

@[simp] theorem State.onZoom_frame (f : Zoom → Zoom) :
    (s.onZoom f).pending = s.pending ∧ (s.onZoom f).timers = s.timers ∧ (s.onZoom f).lines = s.lines ∧
    (s.onZoom f).supply = s.supply ∧ (s.onZoom f).events = s.events ∧ (s.onZoom f).link = s.link ∧
    (s.onZoom f).memory = s.memory ∧ (s.onZoom f).writer = s.writer ∧ (s.onZoom f).cat = s.cat ∧
    (s.onZoom f).settings = s.settings ∧ (s.onZoom f).map = s.map ∧ (s.onZoom f).flash = s.flash ∧
    (s.onZoom f).lane = s.lane ∧ (s.onZoom f).gyro = s.gyro ∧ (s.onZoom f).store = s.store ∧
    (s.onZoom f).chain = s.chain ∧
    (s.onZoom f).meter = s.meter ∧ (s.onZoom f).focus = s.focus ∧ (s.onZoom f).steady = s.steady ∧
    (s.onZoom f).shot = s.shot :=
  ⟨rfl, rfl, rfl, rfl, rfl, rfl, rfl, rfl, rfl, rfl, rfl, rfl, rfl, rfl, rfl, rfl, rfl, rfl, rfl, rfl⟩

@[simp] theorem State.onShot_shot (f : Shot → Shot) : (s.onShot f).shot = f s.shot := rfl

@[simp] theorem State.onShot_frame (f : Shot → Shot) :
    (s.onShot f).pending = s.pending ∧ (s.onShot f).timers = s.timers ∧ (s.onShot f).lines = s.lines ∧
    (s.onShot f).supply = s.supply ∧ (s.onShot f).events = s.events ∧ (s.onShot f).link = s.link ∧
    (s.onShot f).memory = s.memory ∧ (s.onShot f).writer = s.writer ∧ (s.onShot f).cat = s.cat ∧
    (s.onShot f).settings = s.settings ∧ (s.onShot f).map = s.map ∧ (s.onShot f).flash = s.flash ∧
    (s.onShot f).lane = s.lane ∧ (s.onShot f).gyro = s.gyro ∧ (s.onShot f).store = s.store ∧
    (s.onShot f).chain = s.chain ∧
    (s.onShot f).meter = s.meter ∧ (s.onShot f).zoom = s.zoom ∧ (s.onShot f).focus = s.focus ∧
    (s.onShot f).steady = s.steady :=
  ⟨rfl, rfl, rfl, rfl, rfl, rfl, rfl, rfl, rfl, rfl, rfl, rfl, rfl, rfl, rfl, rfl, rfl, rfl, rfl, rfl⟩

@[simp] theorem State.respond_link (k : Nat) (a : Answer) :
    (s.respond k a).link =
      { s.link with pending := some { kind := k, code := a.1, body := a.2.1, held := a.2.2 }, clockedOut := 0 } := rfl

@[simp] theorem State.respond_frame (k : Nat) (a : Answer) :
    (s.respond k a).pending = s.pending ∧ (s.respond k a).timers = s.timers ∧ (s.respond k a).lines = s.lines ∧
    (s.respond k a).supply = s.supply ∧ (s.respond k a).events = s.events ∧ (s.respond k a).memory = s.memory ∧
    (s.respond k a).writer = s.writer ∧ (s.respond k a).cat = s.cat ∧ (s.respond k a).settings = s.settings ∧
    (s.respond k a).map = s.map ∧ (s.respond k a).flash = s.flash ∧ (s.respond k a).lane = s.lane ∧
    (s.respond k a).gyro = s.gyro ∧
    (s.respond k a).store = s.store ∧ (s.respond k a).chain = s.chain ∧ (s.respond k a).meter = s.meter ∧
    (s.respond k a).zoom = s.zoom ∧ (s.respond k a).focus = s.focus ∧ (s.respond k a).steady = s.steady ∧
    (s.respond k a).shot = s.shot :=
  ⟨rfl, rfl, rfl, rfl, rfl, rfl, rfl, rfl, rfl, rfl, rfl, rfl, rfl, rfl, rfl, rfl, rfl, rfl, rfl, rfl⟩

@[simp] theorem State.hunt_link : (s.hunt).link = { s.link with receiver := .hunting } := rfl

@[simp] theorem State.hunt_frame :
    (s.hunt).pending = s.pending ∧ (s.hunt).timers = s.timers ∧ (s.hunt).lines = s.lines ∧
    (s.hunt).supply = s.supply ∧ (s.hunt).events = s.events ∧ (s.hunt).memory = s.memory ∧
    (s.hunt).writer = s.writer ∧ (s.hunt).cat = s.cat ∧ (s.hunt).settings = s.settings ∧ (s.hunt).map = s.map ∧
    (s.hunt).flash = s.flash ∧ (s.hunt).lane = s.lane ∧ (s.hunt).gyro = s.gyro ∧ (s.hunt).store = s.store ∧
    (s.hunt).chain = s.chain ∧
    (s.hunt).meter = s.meter ∧ (s.hunt).zoom = s.zoom ∧ (s.hunt).focus = s.focus ∧ (s.hunt).steady = s.steady ∧
    (s.hunt).shot = s.shot :=
  ⟨rfl, rfl, rfl, rfl, rfl, rfl, rfl, rfl, rfl, rfl, rfl, rfl, rfl, rfl, rfl, rfl, rfl, rfl, rfl, rfl⟩

@[simp] theorem State.dropSnapshot_cat : (s.dropSnapshot).cat = { s.cat with snapshot := none } := rfl

@[simp] theorem State.dropSnapshot_frame :
    (s.dropSnapshot).pending = s.pending ∧ (s.dropSnapshot).timers = s.timers ∧ (s.dropSnapshot).lines = s.lines ∧
    (s.dropSnapshot).supply = s.supply ∧ (s.dropSnapshot).events = s.events ∧ (s.dropSnapshot).link = s.link ∧
    (s.dropSnapshot).memory = s.memory ∧ (s.dropSnapshot).writer = s.writer ∧ (s.dropSnapshot).settings = s.settings ∧
    (s.dropSnapshot).map = s.map ∧ (s.dropSnapshot).flash = s.flash ∧ (s.dropSnapshot).lane = s.lane ∧
    (s.dropSnapshot).gyro = s.gyro ∧
    (s.dropSnapshot).store = s.store ∧ (s.dropSnapshot).chain = s.chain ∧ (s.dropSnapshot).meter = s.meter ∧
    (s.dropSnapshot).zoom = s.zoom ∧ (s.dropSnapshot).focus = s.focus ∧ (s.dropSnapshot).steady = s.steady ∧
    (s.dropSnapshot).shot = s.shot :=
  ⟨rfl, rfl, rfl, rfl, rfl, rfl, rfl, rfl, rfl, rfl, rfl, rfl, rfl, rfl, rfl, rfl, rfl, rfl, rfl, rfl⟩

@[simp] theorem State.onPending_link (f : Response → Response) :
    (s.onPending f).link =
      { s.link with pending := s.link.pending.map f } := rfl

@[simp] theorem State.onPending_frame (f : Response → Response) :
    (s.onPending f).pending = s.pending ∧ (s.onPending f).timers = s.timers ∧ (s.onPending f).lines = s.lines ∧
    (s.onPending f).supply = s.supply ∧ (s.onPending f).events = s.events ∧ (s.onPending f).memory = s.memory ∧
    (s.onPending f).writer = s.writer ∧ (s.onPending f).cat = s.cat ∧ (s.onPending f).settings = s.settings ∧
    (s.onPending f).map = s.map ∧ (s.onPending f).flash = s.flash ∧ (s.onPending f).lane = s.lane ∧
    (s.onPending f).gyro = s.gyro ∧
    (s.onPending f).store = s.store ∧ (s.onPending f).chain = s.chain ∧ (s.onPending f).meter = s.meter ∧
    (s.onPending f).zoom = s.zoom ∧ (s.onPending f).focus = s.focus ∧ (s.onPending f).steady = s.steady ∧
    (s.onPending f).shot = s.shot :=
  ⟨rfl, rfl, rfl, rfl, rfl, rfl, rfl, rfl, rfl, rfl, rfl, rfl, rfl, rfl, rfl, rfl, rfl, rfl, rfl, rfl⟩

@[simp] theorem State.beginWrite_writer (c : Copy) :
    (s.beginWrite c).writer =
      { s.writer with inFlight := some c } := rfl

@[simp] theorem State.beginWrite_frame (c : Copy) :
    (s.beginWrite c).pending = s.pending ∧ (s.beginWrite c).timers = s.timers ∧ (s.beginWrite c).lines = s.lines ∧
    (s.beginWrite c).supply = s.supply ∧ (s.beginWrite c).events = s.events ∧ (s.beginWrite c).link = s.link ∧
    (s.beginWrite c).memory = s.memory ∧ (s.beginWrite c).cat = s.cat ∧ (s.beginWrite c).settings = s.settings ∧
    (s.beginWrite c).map = s.map ∧ (s.beginWrite c).flash = s.flash ∧ (s.beginWrite c).lane = s.lane ∧
    (s.beginWrite c).gyro = s.gyro ∧
    (s.beginWrite c).store = s.store ∧ (s.beginWrite c).chain = s.chain ∧ (s.beginWrite c).meter = s.meter ∧
    (s.beginWrite c).zoom = s.zoom ∧ (s.beginWrite c).focus = s.focus ∧ (s.beginWrite c).steady = s.steady ∧
    (s.beginWrite c).shot = s.shot :=
  ⟨rfl, rfl, rfl, rfl, rfl, rfl, rfl, rfl, rfl, rfl, rfl, rfl, rfl, rfl, rfl, rfl, rfl, rfl, rfl, rfl⟩

@[simp] theorem State.laneHeader_lane (k : Byte) (n : Nat) : (s.laneHeader k n).lane = laneHeaded s k n := rfl

@[simp] theorem State.laneHeader_frame (k : Byte) (n : Nat) :
    (s.laneHeader k n).pending = s.pending ∧ (s.laneHeader k n).timers = s.timers ∧
    (s.laneHeader k n).lines = s.lines ∧ (s.laneHeader k n).supply = s.supply ∧
    (s.laneHeader k n).events = s.events ∧ (s.laneHeader k n).link = s.link ∧
    (s.laneHeader k n).memory = s.memory ∧ (s.laneHeader k n).writer = s.writer ∧ (s.laneHeader k n).cat = s.cat ∧
    (s.laneHeader k n).settings = s.settings ∧ (s.laneHeader k n).map = s.map ∧
    (s.laneHeader k n).flash = s.flash ∧ (s.laneHeader k n).store = s.store ∧ (s.laneHeader k n).chain = s.chain ∧
    (s.laneHeader k n).meter = s.meter ∧ (s.laneHeader k n).zoom = s.zoom ∧ (s.laneHeader k n).focus = s.focus ∧
    (s.laneHeader k n).steady = s.steady ∧ (s.laneHeader k n).shot = s.shot :=
  ⟨rfl, rfl, rfl, rfl, rfl, rfl, rfl, rfl, rfl, rfl, rfl, rfl, rfl, rfl, rfl, rfl, rfl, rfl, rfl⟩

@[simp] theorem State.laneFree_lane : (s.laneFree).lane = .hunting := rfl

@[simp] theorem State.laneFree_frame :
    (s.laneFree).pending = s.pending ∧ (s.laneFree).timers = s.timers ∧ (s.laneFree).lines = s.lines ∧
    (s.laneFree).supply = s.supply ∧ (s.laneFree).events = s.events ∧ (s.laneFree).link = s.link ∧
    (s.laneFree).memory = s.memory ∧ (s.laneFree).writer = s.writer ∧ (s.laneFree).cat = s.cat ∧
    (s.laneFree).settings = s.settings ∧ (s.laneFree).map = s.map ∧ (s.laneFree).flash = s.flash ∧
    (s.laneFree).store = s.store ∧ (s.laneFree).chain = s.chain ∧ (s.laneFree).meter = s.meter ∧
    (s.laneFree).zoom = s.zoom ∧ (s.laneFree).focus = s.focus ∧ (s.laneFree).steady = s.steady ∧
    (s.laneFree).shot = s.shot :=
  ⟨rfl, rfl, rfl, rfl, rfl, rfl, rfl, rfl, rfl, rfl, rfl, rfl, rfl, rfl, rfl, rfl, rfl, rfl, rfl⟩

@[simp] theorem State.itemGone_chain : (s.itemGone).chain = { s.chain with item := none } := rfl

@[simp] theorem State.itemGone_frame :
    (s.itemGone).pending = s.pending ∧ (s.itemGone).timers = s.timers ∧ (s.itemGone).lines = s.lines ∧
    (s.itemGone).supply = s.supply ∧ (s.itemGone).events = s.events ∧ (s.itemGone).link = s.link ∧
    (s.itemGone).memory = s.memory ∧ (s.itemGone).writer = s.writer ∧ (s.itemGone).cat = s.cat ∧
    (s.itemGone).settings = s.settings ∧ (s.itemGone).map = s.map ∧ (s.itemGone).flash = s.flash ∧
    (s.itemGone).lane = s.lane ∧ (s.itemGone).gyro = s.gyro ∧ (s.itemGone).store = s.store ∧
    (s.itemGone).meter = s.meter ∧
    (s.itemGone).zoom = s.zoom ∧ (s.itemGone).focus = s.focus ∧ (s.itemGone).steady = s.steady ∧
    (s.itemGone).shot = s.shot :=
  ⟨rfl, rfl, rfl, rfl, rfl, rfl, rfl, rfl, rfl, rfl, rfl, rfl, rfl, rfl, rfl, rfl, rfl, rfl, rfl, rfl⟩

@[simp] theorem State.zoomDrive_timers (d : Drive) :
    (s.zoomDrive d).timers =
      { s.timers with stall := some 0, brake := none } := rfl

@[simp] theorem State.zoomDrive_zoom (d : Drive) : (s.zoomDrive d).zoom = { s.zoom with drive := d } := rfl

@[simp] theorem State.zoomDrive_frame (d : Drive) :
    (s.zoomDrive d).pending = s.pending ∧ (s.zoomDrive d).lines = s.lines ∧ (s.zoomDrive d).supply = s.supply ∧
    (s.zoomDrive d).events = s.events ∧ (s.zoomDrive d).link = s.link ∧ (s.zoomDrive d).memory = s.memory ∧
    (s.zoomDrive d).writer = s.writer ∧ (s.zoomDrive d).cat = s.cat ∧ (s.zoomDrive d).settings = s.settings ∧
    (s.zoomDrive d).map = s.map ∧ (s.zoomDrive d).flash = s.flash ∧ (s.zoomDrive d).lane = s.lane ∧
    (s.zoomDrive d).gyro = s.gyro ∧
    (s.zoomDrive d).store = s.store ∧ (s.zoomDrive d).chain = s.chain ∧ (s.zoomDrive d).meter = s.meter ∧
    (s.zoomDrive d).focus = s.focus ∧ (s.zoomDrive d).steady = s.steady ∧ (s.zoomDrive d).shot = s.shot :=
  ⟨rfl, rfl, rfl, rfl, rfl, rfl, rfl, rfl, rfl, rfl, rfl, rfl, rfl, rfl, rfl, rfl, rfl, rfl, rfl⟩

@[simp] theorem State.zoomBrake_timers : (s.zoomBrake).timers = { s.timers with stall := none, brake := some 0 } := rfl

@[simp] theorem State.zoomBrake_zoom : (s.zoomBrake).zoom = { s.zoom with drive := .braked } := rfl

@[simp] theorem State.zoomBrake_frame :
    (s.zoomBrake).pending = s.pending ∧ (s.zoomBrake).lines = s.lines ∧ (s.zoomBrake).supply = s.supply ∧
    (s.zoomBrake).events = s.events ∧ (s.zoomBrake).link = s.link ∧ (s.zoomBrake).memory = s.memory ∧
    (s.zoomBrake).writer = s.writer ∧ (s.zoomBrake).cat = s.cat ∧ (s.zoomBrake).settings = s.settings ∧
    (s.zoomBrake).map = s.map ∧ (s.zoomBrake).flash = s.flash ∧ (s.zoomBrake).lane = s.lane ∧
    (s.zoomBrake).gyro = s.gyro ∧
    (s.zoomBrake).store = s.store ∧ (s.zoomBrake).chain = s.chain ∧ (s.zoomBrake).meter = s.meter ∧
    (s.zoomBrake).focus = s.focus ∧ (s.zoomBrake).steady = s.steady ∧ (s.zoomBrake).shot = s.shot :=
  ⟨rfl, rfl, rfl, rfl, rfl, rfl, rfl, rfl, rfl, rfl, rfl, rfl, rfl, rfl, rfl, rfl, rfl, rfl, rfl⟩

@[simp] theorem State.zoomRest_timers (d : Drive) :
    (s.zoomRest d).timers =
      { s.timers with stall := none, brake := none } := rfl

@[simp] theorem State.zoomRest_zoom (d : Drive) : (s.zoomRest d).zoom = { s.zoom with drive := d } := rfl

@[simp] theorem State.zoomRest_frame (d : Drive) :
    (s.zoomRest d).pending = s.pending ∧ (s.zoomRest d).lines = s.lines ∧ (s.zoomRest d).supply = s.supply ∧
    (s.zoomRest d).events = s.events ∧ (s.zoomRest d).link = s.link ∧ (s.zoomRest d).memory = s.memory ∧
    (s.zoomRest d).writer = s.writer ∧ (s.zoomRest d).cat = s.cat ∧ (s.zoomRest d).settings = s.settings ∧
    (s.zoomRest d).map = s.map ∧ (s.zoomRest d).flash = s.flash ∧ (s.zoomRest d).lane = s.lane ∧
    (s.zoomRest d).gyro = s.gyro ∧
    (s.zoomRest d).store = s.store ∧ (s.zoomRest d).chain = s.chain ∧ (s.zoomRest d).meter = s.meter ∧
    (s.zoomRest d).focus = s.focus ∧ (s.zoomRest d).steady = s.steady ∧ (s.zoomRest d).shot = s.shot :=
  ⟨rfl, rfl, rfl, rfl, rfl, rfl, rfl, rfl, rfl, rfl, rfl, rfl, rfl, rfl, rfl, rfl, rfl, rfl, rfl⟩

@[simp] theorem State.gyroDiscard_steady :
    (s.gyroDiscard).steady =
      { s.steady with discarded := countUp s.steady.discarded } := rfl

@[simp] theorem State.gyroDiscard_frame :
    (s.gyroDiscard).pending = s.pending ∧ (s.gyroDiscard).timers = s.timers ∧ (s.gyroDiscard).lines = s.lines ∧
    (s.gyroDiscard).supply = s.supply ∧ (s.gyroDiscard).events = s.events ∧ (s.gyroDiscard).link = s.link ∧
    (s.gyroDiscard).memory = s.memory ∧ (s.gyroDiscard).writer = s.writer ∧ (s.gyroDiscard).cat = s.cat ∧
    (s.gyroDiscard).settings = s.settings ∧ (s.gyroDiscard).map = s.map ∧ (s.gyroDiscard).flash = s.flash ∧
    (s.gyroDiscard).lane = s.lane ∧ (s.gyroDiscard).gyro = s.gyro ∧ (s.gyroDiscard).store = s.store ∧
    (s.gyroDiscard).chain = s.chain ∧
    (s.gyroDiscard).meter = s.meter ∧ (s.gyroDiscard).zoom = s.zoom ∧ (s.gyroDiscard).focus = s.focus ∧
    (s.gyroDiscard).shot = s.shot :=
  ⟨rfl, rfl, rfl, rfl, rfl, rfl, rfl, rfl, rfl, rfl, rfl, rfl, rfl, rfl, rfl, rfl, rfl, rfl, rfl, rfl⟩

@[simp] theorem State.gyroAt_gyro (p : GyroPhase) : (s.gyroAt p).gyro = { s.gyro with phase := p } := rfl

@[simp] theorem State.gyroAt_frame (p : GyroPhase) :
    (s.gyroAt p).pending = s.pending ∧ (s.gyroAt p).timers = s.timers ∧ (s.gyroAt p).lines = s.lines ∧
    (s.gyroAt p).supply = s.supply ∧ (s.gyroAt p).events = s.events ∧ (s.gyroAt p).link = s.link ∧
    (s.gyroAt p).memory = s.memory ∧ (s.gyroAt p).writer = s.writer ∧ (s.gyroAt p).cat = s.cat ∧
    (s.gyroAt p).settings = s.settings ∧ (s.gyroAt p).map = s.map ∧ (s.gyroAt p).flash = s.flash ∧
    (s.gyroAt p).lane = s.lane ∧ (s.gyroAt p).store = s.store ∧ (s.gyroAt p).chain = s.chain ∧
    (s.gyroAt p).meter = s.meter ∧ (s.gyroAt p).zoom = s.zoom ∧ (s.gyroAt p).focus = s.focus ∧
    (s.gyroAt p).steady = s.steady ∧ (s.gyroAt p).shot = s.shot :=
  ⟨rfl, rfl, rfl, rfl, rfl, rfl, rfl, rfl, rfl, rfl, rfl, rfl, rfl, rfl, rfl, rfl, rfl, rfl, rfl, rfl⟩

@[simp] theorem State.gyroHand_gyro : (s.gyroHand).gyro = s.gyro.handed := rfl

@[simp] theorem State.gyroHand_frame :
    (s.gyroHand).pending = s.pending ∧ (s.gyroHand).timers = s.timers ∧ (s.gyroHand).lines = s.lines ∧
    (s.gyroHand).supply = s.supply ∧ (s.gyroHand).events = s.events ∧ (s.gyroHand).link = s.link ∧
    (s.gyroHand).memory = s.memory ∧ (s.gyroHand).writer = s.writer ∧ (s.gyroHand).cat = s.cat ∧
    (s.gyroHand).settings = s.settings ∧ (s.gyroHand).map = s.map ∧ (s.gyroHand).flash = s.flash ∧
    (s.gyroHand).lane = s.lane ∧ (s.gyroHand).store = s.store ∧ (s.gyroHand).chain = s.chain ∧
    (s.gyroHand).meter = s.meter ∧ (s.gyroHand).zoom = s.zoom ∧ (s.gyroHand).focus = s.focus ∧
    (s.gyroHand).steady = s.steady ∧ (s.gyroHand).shot = s.shot :=
  ⟨rfl, rfl, rfl, rfl, rfl, rfl, rfl, rfl, rfl, rfl, rfl, rfl, rfl, rfl, rfl, rfl, rfl, rfl, rfl, rfl⟩

/-! ### What a taken request finds -/

@[simp] theorem taken_frame (k : Nat) (m : Moment) :
    (taken k m s).pending = s.pending ∧ (taken k m s).supply = s.supply ∧ (taken k m s).events = s.events ∧
    (taken k m s).memory = s.memory ∧ (taken k m s).writer = s.writer ∧ (taken k m s).settings = s.settings ∧
    (taken k m s).map = s.map ∧ (taken k m s).flash = s.flash ∧
    (taken k m s).store = s.store ∧ (taken k m s).chain = s.chain ∧ (taken k m s).meter = s.meter ∧
    (taken k m s).zoom = s.zoom ∧ (taken k m s).steady = s.steady ∧ (taken k m s).shot = s.shot := by
  unfold taken
  split <;> simp

@[simp] theorem taken_places (k : Nat) (m : Moment) :
    (taken k m s).cat.places = s.cat.places ∧ (taken k m s).cat.counter = s.cat.counter := by
  unfold taken
  split <;> simp

@[simp] theorem taken_arrival (k : Nat) (m : Moment) :
    (taken k m s).timers = (s.arrive m).timers ∧ (taken k m s).lines = (s.arrive m).lines ∧
      (taken k m s).focus = (s.arrive m).focus ∧ (taken k m s).lane = (s.arrive m).lane := by
  unfold taken
  split <;> simp

@[simp] theorem taken_link (k : Nat) (m : Moment) :
    (taken k m s).link = { s.link.clock m.clocked with receiver := .hunting } := by
  unfold taken
  split <;> simp

@[simp] theorem State.clock_link (b : List Byte) : (s.clock b).link = s.link.clock b := rfl

@[simp] theorem State.clock_frame (b : List Byte) :
    (s.clock b).pending = s.pending ∧ (s.clock b).timers = s.timers ∧ (s.clock b).lines = s.lines ∧
    (s.clock b).supply = s.supply ∧ (s.clock b).events = s.events ∧ (s.clock b).memory = s.memory ∧
    (s.clock b).writer = s.writer ∧ (s.clock b).cat = s.cat ∧ (s.clock b).settings = s.settings ∧
    (s.clock b).map = s.map ∧ (s.clock b).flash = s.flash ∧ (s.clock b).lane = s.lane ∧ (s.clock b).gyro = s.gyro ∧
    (s.clock b).store = s.store ∧
    (s.clock b).chain = s.chain ∧ (s.clock b).meter = s.meter ∧ (s.clock b).zoom = s.zoom ∧
    (s.clock b).focus = s.focus ∧ (s.clock b).steady = s.steady ∧ (s.clock b).shot = s.shot :=
  ⟨rfl, rfl, rfl, rfl, rfl, rfl, rfl, rfl, rfl, rfl, rfl, rfl, rfl, rfl, rfl, rfl, rfl, rfl, rfl, rfl⟩

@[simp] theorem State.flashRegister_flash (d : List Byte) :
    (s.flashRegister d).flash = { s.flash with register := some (d, pageCodes d) } := rfl

@[simp] theorem State.flashRegister_frame (d : List Byte) :
    (s.flashRegister d).pending = s.pending ∧ (s.flashRegister d).timers = s.timers ∧
    (s.flashRegister d).lines = s.lines ∧ (s.flashRegister d).supply = s.supply ∧
    (s.flashRegister d).events = s.events ∧ (s.flashRegister d).link = s.link ∧
    (s.flashRegister d).memory = s.memory ∧ (s.flashRegister d).writer = s.writer ∧ (s.flashRegister d).cat = s.cat ∧
    (s.flashRegister d).settings = s.settings ∧ (s.flashRegister d).map = s.map ∧ (s.flashRegister d).lane = s.lane ∧
    (s.flashRegister d).gyro = s.gyro ∧
    (s.flashRegister d).store = s.store ∧ (s.flashRegister d).chain = s.chain ∧ (s.flashRegister d).meter = s.meter ∧
    (s.flashRegister d).zoom = s.zoom ∧ (s.flashRegister d).focus = s.focus ∧ (s.flashRegister d).steady = s.steady ∧
    (s.flashRegister d).shot = s.shot :=
  ⟨rfl, rfl, rfl, rfl, rfl, rfl, rfl, rfl, rfl, rfl, rfl, rfl, rfl, rfl, rfl, rfl, rfl, rfl, rfl, rfl⟩

/-- Of the operations granted only a page program gives the page register anything (R29). -/
@[simp] theorem State.flashLoad_of_ne {op : FlashOp} (h : ∀ b p d, op ≠ .program b p d) : s.flashLoad op = s := by
  cases op <;> first | rfl | exact absurd rfl (h _ _ _)

@[simp] theorem State.flashLoad_program (b p : Nat) (d : List Byte) : s.flashLoad (.program b p d) = s.flashRegister d := rfl

/-- A ready response's bytes go out with those clocked, up to its last (R186). -/
theorem Link.outAfter_ready {l : Link} {r : Response} (h : l.pending = some r) (hr : r.held = none) (n : Nat) :
    l.outAfter n = min r.beforeLast (l.clockedOut + n) := by
  simp [Link.outAfter, h, hr]

/-- A held response keeps its count (R186). -/
theorem Link.outAfter_held {l : Link} {r : Response} {x : HeldBy} (h : l.pending = some r) (hr : r.held = some x)
    (n : Nat) : l.outAfter n = l.clockedOut := by
  simp [Link.outAfter, h, hr]

end Sys2Proof.Machine
end

