-- ==== Sys2Proof/Laws/Apart.lean ====
section
/-! SUPPORT. What the operations of the Event Set, the Metering Unit, the Stabilizer, the Focus Unit and the Zoom Drive
leave alone: the supply, the link, Record Memory and its Writer, the catalogue, the Block Map, the flash and picture
ports, the Store Engine, the Read Chain and the Shot Sequencer. -/

namespace Sys2Proof.Machine

variable (s : State)

@[simp] theorem State.setFlagIf_apart (c : Bool) (f : EventFlag) :
    (s.setFlagIf c f).pending = s.pending ∧ (s.setFlagIf c f).supply = s.supply ∧ (s.setFlagIf c f).link = s.link ∧
    (s.setFlagIf c f).memory = s.memory ∧ (s.setFlagIf c f).writer = s.writer ∧ (s.setFlagIf c f).cat = s.cat ∧
    (s.setFlagIf c f).settings = s.settings ∧ (s.setFlagIf c f).map = s.map ∧ (s.setFlagIf c f).flash = s.flash ∧
    (s.setFlagIf c f).lane = s.lane ∧ (s.setFlagIf c f).gyro = s.gyro ∧ (s.setFlagIf c f).store = s.store ∧
    (s.setFlagIf c f).chain = s.chain ∧
    (s.setFlagIf c f).shot = s.shot := by
  unfold State.setFlagIf
  (repeat' split) <;> simp

@[simp] theorem State.meterInput_apart :
    s.meterInput.pending = s.pending ∧ s.meterInput.supply = s.supply ∧ s.meterInput.link = s.link ∧
    s.meterInput.memory = s.memory ∧ s.meterInput.writer = s.writer ∧ s.meterInput.cat = s.cat ∧
    s.meterInput.settings = s.settings ∧ s.meterInput.map = s.map ∧ s.meterInput.flash = s.flash ∧
    s.meterInput.lane = s.lane ∧ s.meterInput.gyro = s.gyro ∧ s.meterInput.store = s.store ∧
    s.meterInput.chain = s.chain ∧
    s.meterInput.shot = s.shot := by
  unfold State.meterInput
  (repeat' split) <;> simp

@[simp] theorem State.meterBlock_apart (b : StatBlock) :
    (s.meterBlock b).pending = s.pending ∧ (s.meterBlock b).supply = s.supply ∧ (s.meterBlock b).link = s.link ∧
    (s.meterBlock b).memory = s.memory ∧ (s.meterBlock b).writer = s.writer ∧ (s.meterBlock b).cat = s.cat ∧
    (s.meterBlock b).settings = s.settings ∧ (s.meterBlock b).map = s.map ∧ (s.meterBlock b).flash = s.flash ∧
    (s.meterBlock b).lane = s.lane ∧ (s.meterBlock b).gyro = s.gyro ∧ (s.meterBlock b).store = s.store ∧
    (s.meterBlock b).chain = s.chain ∧
    (s.meterBlock b).shot = s.shot := by
  unfold State.meterBlock
  dsimp only
  (repeat' split) <;> simp

@[simp] theorem State.meterUnlocked_apart :
    s.meterUnlocked.pending = s.pending ∧ s.meterUnlocked.supply = s.supply ∧ s.meterUnlocked.link = s.link ∧
    s.meterUnlocked.memory = s.memory ∧ s.meterUnlocked.writer = s.writer ∧ s.meterUnlocked.cat = s.cat ∧
    s.meterUnlocked.settings = s.settings ∧ s.meterUnlocked.map = s.map ∧ s.meterUnlocked.flash = s.flash ∧
    s.meterUnlocked.lane = s.lane ∧ s.meterUnlocked.gyro = s.gyro ∧ s.meterUnlocked.store = s.store ∧
    s.meterUnlocked.chain = s.chain ∧
    s.meterUnlocked.shot = s.shot := by
  unfold State.meterUnlocked
  (repeat' split) <;> simp

@[simp] theorem State.meterShotLock_apart :
    s.meterShotLock.pending = s.pending ∧ s.meterShotLock.supply = s.supply ∧ s.meterShotLock.link = s.link ∧
    s.meterShotLock.memory = s.memory ∧ s.meterShotLock.writer = s.writer ∧ s.meterShotLock.cat = s.cat ∧
    s.meterShotLock.settings = s.settings ∧ s.meterShotLock.map = s.map ∧ s.meterShotLock.flash = s.flash ∧
    s.meterShotLock.lane = s.lane ∧ s.meterShotLock.gyro = s.gyro ∧ s.meterShotLock.store = s.store ∧
    s.meterShotLock.chain = s.chain ∧
    s.meterShotLock.shot = s.shot := by
  unfold State.meterShotLock
  (repeat' split) <;> simp

@[simp] theorem State.meterShotEnd_apart :
    s.meterShotEnd.pending = s.pending ∧ s.meterShotEnd.supply = s.supply ∧ s.meterShotEnd.link = s.link ∧
    s.meterShotEnd.memory = s.memory ∧ s.meterShotEnd.writer = s.writer ∧ s.meterShotEnd.cat = s.cat ∧
    s.meterShotEnd.settings = s.settings ∧ s.meterShotEnd.map = s.map ∧ s.meterShotEnd.flash = s.flash ∧
    s.meterShotEnd.lane = s.lane ∧ s.meterShotEnd.gyro = s.gyro ∧ s.meterShotEnd.store = s.store ∧
    s.meterShotEnd.chain = s.chain ∧
    s.meterShotEnd.shot = s.shot := by
  unfold State.meterShotEnd
  (repeat' split) <;> simp

@[simp] theorem State.gyroTake_apart (g : GyroFields) :
    (s.gyroTake g).pending = s.pending ∧ (s.gyroTake g).supply = s.supply ∧ (s.gyroTake g).link = s.link ∧
    (s.gyroTake g).memory = s.memory ∧ (s.gyroTake g).writer = s.writer ∧ (s.gyroTake g).cat = s.cat ∧
    (s.gyroTake g).settings = s.settings ∧ (s.gyroTake g).map = s.map ∧ (s.gyroTake g).flash = s.flash ∧
    (s.gyroTake g).lane = s.lane ∧ (s.gyroTake g).gyro = s.gyro ∧ (s.gyroTake g).store = s.store ∧
    (s.gyroTake g).chain = s.chain ∧
    (s.gyroTake g).shot = s.shot := by
  unfold State.gyroTake
  dsimp only
  (repeat' split) <;> simp

@[simp] theorem State.steadyOff_apart :
    s.steadyOff.pending = s.pending ∧ s.steadyOff.supply = s.supply ∧ s.steadyOff.link = s.link ∧
    s.steadyOff.memory = s.memory ∧ s.steadyOff.writer = s.writer ∧ s.steadyOff.cat = s.cat ∧
    s.steadyOff.settings = s.settings ∧ s.steadyOff.map = s.map ∧ s.steadyOff.flash = s.flash ∧
    s.steadyOff.lane = s.lane ∧ s.steadyOff.gyro = s.gyro ∧ s.steadyOff.store = s.store ∧ s.steadyOff.chain = s.chain ∧
    s.steadyOff.shot = s.shot := by
  unfold State.steadyOff
  (repeat' split) <;> simp

@[simp] theorem State.steadyStart_apart :
    s.steadyStart.pending = s.pending ∧ s.steadyStart.supply = s.supply ∧ s.steadyStart.link = s.link ∧
    s.steadyStart.memory = s.memory ∧ s.steadyStart.writer = s.writer ∧ s.steadyStart.cat = s.cat ∧
    s.steadyStart.settings = s.settings ∧ s.steadyStart.map = s.map ∧ s.steadyStart.flash = s.flash ∧
    s.steadyStart.lane = s.lane ∧ s.steadyStart.gyro = s.gyro ∧ s.steadyStart.store = s.store ∧
    s.steadyStart.chain = s.chain ∧
    s.steadyStart.shot = s.shot := by
  unfold State.steadyStart
  (repeat' split) <;> simp

@[simp] theorem State.steadyLost_apart :
    s.steadyLost.pending = s.pending ∧ s.steadyLost.supply = s.supply ∧ s.steadyLost.link = s.link ∧
    s.steadyLost.memory = s.memory ∧ s.steadyLost.writer = s.writer ∧ s.steadyLost.cat = s.cat ∧
    s.steadyLost.settings = s.settings ∧ s.steadyLost.map = s.map ∧ s.steadyLost.flash = s.flash ∧
    s.steadyLost.lane = s.lane ∧ s.steadyLost.gyro = s.gyro ∧ s.steadyLost.store = s.store ∧
    s.steadyLost.chain = s.chain ∧
    s.steadyLost.shot = s.shot := by
  unfold State.steadyLost
  (repeat' split) <;> simp

@[simp] theorem State.steadyArmed_apart :
    s.steadyArmed.pending = s.pending ∧ s.steadyArmed.supply = s.supply ∧ s.steadyArmed.link = s.link ∧
    s.steadyArmed.memory = s.memory ∧ s.steadyArmed.writer = s.writer ∧ s.steadyArmed.cat = s.cat ∧
    s.steadyArmed.settings = s.settings ∧ s.steadyArmed.map = s.map ∧ s.steadyArmed.flash = s.flash ∧
    s.steadyArmed.lane = s.lane ∧ s.steadyArmed.gyro = s.gyro ∧ s.steadyArmed.store = s.store ∧
    s.steadyArmed.chain = s.chain ∧
    s.steadyArmed.shot = s.shot := by
  unfold State.steadyArmed
  (repeat' split) <;> simp

@[simp] theorem State.steadyShotEnd_apart :
    s.steadyShotEnd.pending = s.pending ∧ s.steadyShotEnd.supply = s.supply ∧ s.steadyShotEnd.link = s.link ∧
    s.steadyShotEnd.memory = s.memory ∧ s.steadyShotEnd.writer = s.writer ∧ s.steadyShotEnd.cat = s.cat ∧
    s.steadyShotEnd.settings = s.settings ∧ s.steadyShotEnd.map = s.map ∧ s.steadyShotEnd.flash = s.flash ∧
    s.steadyShotEnd.lane = s.lane ∧ s.steadyShotEnd.gyro = s.gyro ∧ s.steadyShotEnd.store = s.store ∧
    s.steadyShotEnd.chain = s.chain ∧
    s.steadyShotEnd.shot = s.shot := by
  unfold State.steadyShotEnd
  (repeat' split) <;> simp

@[simp] theorem State.steadyOpen_apart :
    s.steadyOpen.pending = s.pending ∧ s.steadyOpen.supply = s.supply ∧ s.steadyOpen.link = s.link ∧
    s.steadyOpen.memory = s.memory ∧ s.steadyOpen.writer = s.writer ∧ s.steadyOpen.cat = s.cat ∧
    s.steadyOpen.settings = s.settings ∧ s.steadyOpen.map = s.map ∧ s.steadyOpen.flash = s.flash ∧
    s.steadyOpen.lane = s.lane ∧ s.steadyOpen.gyro = s.gyro ∧ s.steadyOpen.store = s.store ∧
    s.steadyOpen.chain = s.chain ∧
    s.steadyOpen.shot = s.shot := by
  unfold State.steadyOpen
  (repeat' split) <;> simp

@[simp] theorem State.steadyClose_apart :
    s.steadyClose.pending = s.pending ∧ s.steadyClose.supply = s.supply ∧ s.steadyClose.link = s.link ∧
    s.steadyClose.memory = s.memory ∧ s.steadyClose.writer = s.writer ∧ s.steadyClose.cat = s.cat ∧
    s.steadyClose.settings = s.settings ∧ s.steadyClose.map = s.map ∧ s.steadyClose.flash = s.flash ∧
    s.steadyClose.lane = s.lane ∧ s.steadyClose.gyro = s.gyro ∧ s.steadyClose.store = s.store ∧
    s.steadyClose.chain = s.chain ∧
    s.steadyClose.shot = s.shot := by
  unfold State.steadyClose
  (repeat' split) <;> simp

@[simp] theorem State.steadyPowerLow_apart :
    s.steadyPowerLow.pending = s.pending ∧ s.steadyPowerLow.supply = s.supply ∧ s.steadyPowerLow.link = s.link ∧
    s.steadyPowerLow.memory = s.memory ∧ s.steadyPowerLow.writer = s.writer ∧ s.steadyPowerLow.cat = s.cat ∧
    s.steadyPowerLow.settings = s.settings ∧ s.steadyPowerLow.map = s.map ∧ s.steadyPowerLow.flash = s.flash ∧
    s.steadyPowerLow.lane = s.lane ∧ s.steadyPowerLow.gyro = s.gyro ∧ s.steadyPowerLow.store = s.store ∧
    s.steadyPowerLow.chain = s.chain ∧
    s.steadyPowerLow.shot = s.shot := by
  unfold State.steadyPowerLow
  (repeat' split) <;> simp

@[simp] theorem State.gyroDrop_apart :
    s.gyroDrop.pending = s.pending ∧ s.gyroDrop.supply = s.supply ∧ s.gyroDrop.link = s.link ∧
    s.gyroDrop.memory = s.memory ∧ s.gyroDrop.writer = s.writer ∧ s.gyroDrop.cat = s.cat ∧
    s.gyroDrop.settings = s.settings ∧ s.gyroDrop.map = s.map ∧ s.gyroDrop.flash = s.flash ∧
    s.gyroDrop.lane = s.lane ∧ s.gyroDrop.store = s.store ∧ s.gyroDrop.chain = s.chain ∧ s.gyroDrop.shot = s.shot := by
  unfold State.gyroDrop
  (repeat' split) <;> simp

@[simp] theorem State.focusEnded_apart (c : EndCause) :
    (s.focusEnded c).pending = s.pending ∧ (s.focusEnded c).supply = s.supply ∧ (s.focusEnded c).link = s.link ∧
    (s.focusEnded c).memory = s.memory ∧ (s.focusEnded c).writer = s.writer ∧ (s.focusEnded c).cat = s.cat ∧
    (s.focusEnded c).settings = s.settings ∧ (s.focusEnded c).map = s.map ∧ (s.focusEnded c).flash = s.flash ∧
    (s.focusEnded c).lane = s.lane ∧ (s.focusEnded c).gyro = s.gyro ∧ (s.focusEnded c).store = s.store ∧
    (s.focusEnded c).chain = s.chain ∧
    (s.focusEnded c).shot = s.shot := by
  unfold State.focusEnded
  (repeat' split) <;> simp

@[simp] theorem State.focusEndedIf_apart (owed : Bool) (c : EndCause) :
    (s.focusEndedIf owed c).pending = s.pending ∧ (s.focusEndedIf owed c).supply = s.supply ∧
    (s.focusEndedIf owed c).link = s.link ∧ (s.focusEndedIf owed c).memory = s.memory ∧
    (s.focusEndedIf owed c).writer = s.writer ∧ (s.focusEndedIf owed c).cat = s.cat ∧
    (s.focusEndedIf owed c).settings = s.settings ∧ (s.focusEndedIf owed c).map = s.map ∧
    (s.focusEndedIf owed c).flash = s.flash ∧ (s.focusEndedIf owed c).lane = s.lane ∧
    (s.focusEndedIf owed c).gyro = s.gyro ∧
    (s.focusEndedIf owed c).store = s.store ∧ (s.focusEndedIf owed c).chain = s.chain ∧
    (s.focusEndedIf owed c).shot = s.shot := by
  unfold State.focusEndedIf
  (repeat' split) <;> simp

@[simp] theorem State.approachDone_apart (a : Approach) :
    (s.approachDone a).1.pending = s.pending ∧ (s.approachDone a).1.supply = s.supply ∧
    (s.approachDone a).1.link = s.link ∧ (s.approachDone a).1.memory = s.memory ∧
    (s.approachDone a).1.writer = s.writer ∧ (s.approachDone a).1.cat = s.cat ∧
    (s.approachDone a).1.settings = s.settings ∧ (s.approachDone a).1.map = s.map ∧
    (s.approachDone a).1.flash = s.flash ∧ (s.approachDone a).1.lane = s.lane ∧ (s.approachDone a).1.gyro = s.gyro ∧
    (s.approachDone a).1.store = s.store ∧
    (s.approachDone a).1.chain = s.chain ∧ (s.approachDone a).1.shot = s.shot := by
  unfold State.approachDone
  (repeat' split) <;> simp

@[simp] theorem State.focusArrive_apart :
    (s.focusArrive).1.pending = s.pending ∧ (s.focusArrive).1.supply = s.supply ∧ (s.focusArrive).1.link = s.link ∧
    (s.focusArrive).1.memory = s.memory ∧ (s.focusArrive).1.writer = s.writer ∧ (s.focusArrive).1.cat = s.cat ∧
    (s.focusArrive).1.settings = s.settings ∧ (s.focusArrive).1.map = s.map ∧ (s.focusArrive).1.flash = s.flash ∧
    (s.focusArrive).1.lane = s.lane ∧ (s.focusArrive).1.gyro = s.gyro ∧ (s.focusArrive).1.store = s.store ∧
    (s.focusArrive).1.chain = s.chain ∧
    (s.focusArrive).1.shot = s.shot := by
  unfold State.focusArrive
  (repeat' split) <;> simp

@[simp] theorem State.focusMoveTo_apart (direct : Bool) (aim : Nat) :
    (s.focusMoveTo direct aim).1.pending = s.pending ∧ (s.focusMoveTo direct aim).1.supply = s.supply ∧
    (s.focusMoveTo direct aim).1.link = s.link ∧ (s.focusMoveTo direct aim).1.memory = s.memory ∧
    (s.focusMoveTo direct aim).1.writer = s.writer ∧ (s.focusMoveTo direct aim).1.cat = s.cat ∧
    (s.focusMoveTo direct aim).1.settings = s.settings ∧ (s.focusMoveTo direct aim).1.map = s.map ∧
    (s.focusMoveTo direct aim).1.flash = s.flash ∧ (s.focusMoveTo direct aim).1.lane = s.lane ∧
    (s.focusMoveTo direct aim).1.gyro = s.gyro ∧
    (s.focusMoveTo direct aim).1.store = s.store ∧ (s.focusMoveTo direct aim).1.chain = s.chain ∧
    (s.focusMoveTo direct aim).1.shot = s.shot := by
  unfold State.focusMoveTo
  (repeat' split) <;> simp

@[simp] theorem State.beginApproach_apart (aim : Nat) (dest : FocusDest) (owed : Bool) :
    (s.beginApproach aim dest owed).1.pending = s.pending ∧ (s.beginApproach aim dest owed).1.supply = s.supply ∧
    (s.beginApproach aim dest owed).1.link = s.link ∧ (s.beginApproach aim dest owed).1.memory = s.memory ∧
    (s.beginApproach aim dest owed).1.writer = s.writer ∧ (s.beginApproach aim dest owed).1.cat = s.cat ∧
    (s.beginApproach aim dest owed).1.settings = s.settings ∧ (s.beginApproach aim dest owed).1.map = s.map ∧
    (s.beginApproach aim dest owed).1.flash = s.flash ∧ (s.beginApproach aim dest owed).1.lane = s.lane ∧
    (s.beginApproach aim dest owed).1.gyro = s.gyro ∧
    (s.beginApproach aim dest owed).1.store = s.store ∧ (s.beginApproach aim dest owed).1.chain = s.chain ∧
    (s.beginApproach aim dest owed).1.shot = s.shot := by
  unfold State.beginApproach
  (repeat' split) <;> simp

@[simp] theorem State.focusDrop_apart (x : FocusState) :
    (s.focusDrop x).pending = s.pending ∧ (s.focusDrop x).supply = s.supply ∧ (s.focusDrop x).link = s.link ∧
    (s.focusDrop x).memory = s.memory ∧ (s.focusDrop x).writer = s.writer ∧ (s.focusDrop x).cat = s.cat ∧
    (s.focusDrop x).settings = s.settings ∧ (s.focusDrop x).map = s.map ∧ (s.focusDrop x).flash = s.flash ∧
    (s.focusDrop x).lane = s.lane ∧ (s.focusDrop x).gyro = s.gyro ∧ (s.focusDrop x).store = s.store ∧
    (s.focusDrop x).chain = s.chain ∧
    (s.focusDrop x).shot = s.shot := by
  unfold State.focusDrop
  (repeat' split) <;> simp

@[simp] theorem State.focusHomed_apart :
    s.focusHomed.pending = s.pending ∧ s.focusHomed.supply = s.supply ∧ s.focusHomed.link = s.link ∧
    s.focusHomed.memory = s.memory ∧ s.focusHomed.writer = s.writer ∧ s.focusHomed.cat = s.cat ∧
    s.focusHomed.settings = s.settings ∧ s.focusHomed.map = s.map ∧ s.focusHomed.flash = s.flash ∧
    s.focusHomed.lane = s.lane ∧ s.focusHomed.gyro = s.gyro ∧ s.focusHomed.store = s.store ∧
    s.focusHomed.chain = s.chain ∧
    s.focusHomed.shot = s.shot := by
  unfold State.focusHomed
  (repeat' split) <;> simp

@[simp] theorem State.focusHome_apart :
    (s.focusHome).1.pending = s.pending ∧ (s.focusHome).1.supply = s.supply ∧ (s.focusHome).1.link = s.link ∧
    (s.focusHome).1.memory = s.memory ∧ (s.focusHome).1.writer = s.writer ∧ (s.focusHome).1.cat = s.cat ∧
    (s.focusHome).1.settings = s.settings ∧ (s.focusHome).1.map = s.map ∧ (s.focusHome).1.flash = s.flash ∧
    (s.focusHome).1.lane = s.lane ∧ (s.focusHome).1.gyro = s.gyro ∧ (s.focusHome).1.store = s.store ∧
    (s.focusHome).1.chain = s.chain ∧
    (s.focusHome).1.shot = s.shot := by
  unfold State.focusHome
  (repeat' split) <;> simp

@[simp] theorem State.focusGoTo_apart (step : Nat) :
    (s.focusGoTo step).1.pending = s.pending ∧ (s.focusGoTo step).1.supply = s.supply ∧
    (s.focusGoTo step).1.link = s.link ∧ (s.focusGoTo step).1.memory = s.memory ∧
    (s.focusGoTo step).1.writer = s.writer ∧ (s.focusGoTo step).1.cat = s.cat ∧
    (s.focusGoTo step).1.settings = s.settings ∧ (s.focusGoTo step).1.map = s.map ∧
    (s.focusGoTo step).1.flash = s.flash ∧ (s.focusGoTo step).1.lane = s.lane ∧ (s.focusGoTo step).1.gyro = s.gyro ∧
    (s.focusGoTo step).1.store = s.store ∧
    (s.focusGoTo step).1.chain = s.chain ∧ (s.focusGoTo step).1.shot = s.shot := by
  unfold State.focusGoTo
  (repeat' split) <;> simp

@[simp] theorem State.scanVisit_apart (k : Nat) :
    (s.scanVisit k).pending = s.pending ∧ (s.scanVisit k).supply = s.supply ∧ (s.scanVisit k).link = s.link ∧
    (s.scanVisit k).memory = s.memory ∧ (s.scanVisit k).writer = s.writer ∧ (s.scanVisit k).cat = s.cat ∧
    (s.scanVisit k).settings = s.settings ∧ (s.scanVisit k).map = s.map ∧ (s.scanVisit k).flash = s.flash ∧
    (s.scanVisit k).lane = s.lane ∧ (s.scanVisit k).gyro = s.gyro ∧ (s.scanVisit k).store = s.store ∧
    (s.scanVisit k).chain = s.chain ∧
    (s.scanVisit k).shot = s.shot := by
  unfold State.scanVisit
  (repeat' split) <;> simp

@[simp] theorem State.scanBegin_apart (station first last : Nat) :
    (s.scanBegin station first last).pending = s.pending ∧ (s.scanBegin station first last).supply = s.supply ∧
    (s.scanBegin station first last).link = s.link ∧ (s.scanBegin station first last).memory = s.memory ∧
    (s.scanBegin station first last).writer = s.writer ∧ (s.scanBegin station first last).cat = s.cat ∧
    (s.scanBegin station first last).settings = s.settings ∧ (s.scanBegin station first last).map = s.map ∧
    (s.scanBegin station first last).flash = s.flash ∧ (s.scanBegin station first last).lane = s.lane ∧
    (s.scanBegin station first last).gyro = s.gyro ∧
    (s.scanBegin station first last).store = s.store ∧ (s.scanBegin station first last).chain = s.chain ∧
    (s.scanBegin station first last).shot = s.shot := by
  unfold State.scanBegin
  (repeat' split) <;> simp

@[simp] theorem State.scanStop_apart (x : Scan) :
    (s.scanStop x).pending = s.pending ∧ (s.scanStop x).supply = s.supply ∧ (s.scanStop x).link = s.link ∧
    (s.scanStop x).memory = s.memory ∧ (s.scanStop x).writer = s.writer ∧ (s.scanStop x).cat = s.cat ∧
    (s.scanStop x).settings = s.settings ∧ (s.scanStop x).map = s.map ∧ (s.scanStop x).flash = s.flash ∧
    (s.scanStop x).lane = s.lane ∧ (s.scanStop x).gyro = s.gyro ∧ (s.scanStop x).store = s.store ∧
    (s.scanStop x).chain = s.chain ∧
    (s.scanStop x).shot = s.shot := by
  unfold State.scanStop
  (repeat' split) <;> simp

@[simp] theorem State.scanSample_apart (x : Scan) (b : StatBlock) :
    (s.scanSample x b).pending = s.pending ∧ (s.scanSample x b).supply = s.supply ∧ (s.scanSample x b).link = s.link ∧
    (s.scanSample x b).memory = s.memory ∧ (s.scanSample x b).writer = s.writer ∧ (s.scanSample x b).cat = s.cat ∧
    (s.scanSample x b).settings = s.settings ∧ (s.scanSample x b).map = s.map ∧ (s.scanSample x b).flash = s.flash ∧
    (s.scanSample x b).lane = s.lane ∧ (s.scanSample x b).gyro = s.gyro ∧ (s.scanSample x b).store = s.store ∧
    (s.scanSample x b).chain = s.chain ∧
    (s.scanSample x b).shot = s.shot := by
  unfold State.scanSample
  dsimp only
  (repeat' split) <;> simp

@[simp] theorem State.followBlock_apart (b : StatBlock) :
    (s.followBlock b).pending = s.pending ∧ (s.followBlock b).supply = s.supply ∧ (s.followBlock b).link = s.link ∧
    (s.followBlock b).memory = s.memory ∧ (s.followBlock b).writer = s.writer ∧ (s.followBlock b).cat = s.cat ∧
    (s.followBlock b).settings = s.settings ∧ (s.followBlock b).map = s.map ∧ (s.followBlock b).flash = s.flash ∧
    (s.followBlock b).lane = s.lane ∧ (s.followBlock b).gyro = s.gyro ∧ (s.followBlock b).store = s.store ∧
    (s.followBlock b).chain = s.chain ∧
    (s.followBlock b).shot = s.shot := by
  unfold State.followBlock
  (repeat' split) <;> simp

@[simp] theorem State.focusBlock_apart (b : StatBlock) :
    (s.focusBlock b).pending = s.pending ∧ (s.focusBlock b).supply = s.supply ∧ (s.focusBlock b).link = s.link ∧
    (s.focusBlock b).memory = s.memory ∧ (s.focusBlock b).writer = s.writer ∧ (s.focusBlock b).cat = s.cat ∧
    (s.focusBlock b).settings = s.settings ∧ (s.focusBlock b).map = s.map ∧ (s.focusBlock b).flash = s.flash ∧
    (s.focusBlock b).lane = s.lane ∧ (s.focusBlock b).gyro = s.gyro ∧ (s.focusBlock b).store = s.store ∧
    (s.focusBlock b).chain = s.chain ∧
    (s.focusBlock b).shot = s.shot := by
  unfold State.focusBlock
  (repeat' split) <;> simp

@[simp] theorem State.focusMotionBegins_apart :
    s.focusMotionBegins.pending = s.pending ∧ s.focusMotionBegins.supply = s.supply ∧
    s.focusMotionBegins.link = s.link ∧ s.focusMotionBegins.memory = s.memory ∧
    s.focusMotionBegins.writer = s.writer ∧ s.focusMotionBegins.cat = s.cat ∧
    s.focusMotionBegins.settings = s.settings ∧ s.focusMotionBegins.map = s.map ∧
    s.focusMotionBegins.flash = s.flash ∧ s.focusMotionBegins.lane = s.lane ∧ s.focusMotionBegins.gyro = s.gyro ∧
    s.focusMotionBegins.store = s.store ∧
    s.focusMotionBegins.chain = s.chain ∧ s.focusMotionBegins.shot = s.shot := by
  unfold State.focusMotionBegins
  (repeat' split) <;> simp

@[simp] theorem State.focusPassed_apart (st : Nat) :
    (s.focusPassed st).pending = s.pending ∧ (s.focusPassed st).supply = s.supply ∧ (s.focusPassed st).link = s.link ∧
    (s.focusPassed st).memory = s.memory ∧ (s.focusPassed st).writer = s.writer ∧ (s.focusPassed st).cat = s.cat ∧
    (s.focusPassed st).settings = s.settings ∧ (s.focusPassed st).map = s.map ∧ (s.focusPassed st).flash = s.flash ∧
    (s.focusPassed st).lane = s.lane ∧ (s.focusPassed st).gyro = s.gyro ∧ (s.focusPassed st).store = s.store ∧
    (s.focusPassed st).chain = s.chain ∧
    (s.focusPassed st).shot = s.shot := by
  unfold State.focusPassed
  (repeat' split) <;> simp

@[simp] theorem State.focusResettle_apart (st : Nat) (owed : Bool) :
    (s.focusResettle st owed).pending = s.pending ∧ (s.focusResettle st owed).supply = s.supply ∧
    (s.focusResettle st owed).link = s.link ∧ (s.focusResettle st owed).memory = s.memory ∧
    (s.focusResettle st owed).writer = s.writer ∧ (s.focusResettle st owed).cat = s.cat ∧
    (s.focusResettle st owed).settings = s.settings ∧ (s.focusResettle st owed).map = s.map ∧
    (s.focusResettle st owed).flash = s.flash ∧ (s.focusResettle st owed).lane = s.lane ∧
    (s.focusResettle st owed).gyro = s.gyro ∧
    (s.focusResettle st owed).store = s.store ∧ (s.focusResettle st owed).chain = s.chain ∧
    (s.focusResettle st owed).shot = s.shot := by
  unfold State.focusResettle
  (repeat' split) <;> simp

@[simp] theorem State.focusArrived_apart (st : Nat) :
    (s.focusArrived st).pending = s.pending ∧ (s.focusArrived st).supply = s.supply ∧
    (s.focusArrived st).link = s.link ∧ (s.focusArrived st).memory = s.memory ∧
    (s.focusArrived st).writer = s.writer ∧ (s.focusArrived st).cat = s.cat ∧
    (s.focusArrived st).settings = s.settings ∧ (s.focusArrived st).map = s.map ∧
    (s.focusArrived st).flash = s.flash ∧ (s.focusArrived st).lane = s.lane ∧ (s.focusArrived st).gyro = s.gyro ∧
    (s.focusArrived st).store = s.store ∧
    (s.focusArrived st).chain = s.chain ∧ (s.focusArrived st).shot = s.shot := by
  unfold State.focusArrived
  (repeat' split) <;> simp

@[simp] theorem State.focusFault_apart :
    s.focusFault.pending = s.pending ∧ s.focusFault.supply = s.supply ∧ s.focusFault.link = s.link ∧
    s.focusFault.memory = s.memory ∧ s.focusFault.writer = s.writer ∧ s.focusFault.cat = s.cat ∧
    s.focusFault.settings = s.settings ∧ s.focusFault.map = s.map ∧ s.focusFault.flash = s.flash ∧
    s.focusFault.lane = s.lane ∧ s.focusFault.gyro = s.gyro ∧ s.focusFault.store = s.store ∧
    s.focusFault.chain = s.chain ∧
    s.focusFault.shot = s.shot := by
  unfold State.focusFault
  (repeat' split) <;> simp

@[simp] theorem State.focusCommit_apart (st : Nat) :
    (s.focusCommit st).pending = s.pending ∧ (s.focusCommit st).supply = s.supply ∧ (s.focusCommit st).link = s.link ∧
    (s.focusCommit st).memory = s.memory ∧ (s.focusCommit st).writer = s.writer ∧ (s.focusCommit st).cat = s.cat ∧
    (s.focusCommit st).settings = s.settings ∧ (s.focusCommit st).map = s.map ∧ (s.focusCommit st).flash = s.flash ∧
    (s.focusCommit st).lane = s.lane ∧ (s.focusCommit st).gyro = s.gyro ∧ (s.focusCommit st).store = s.store ∧
    (s.focusCommit st).chain = s.chain ∧
    (s.focusCommit st).shot = s.shot := by
  unfold State.focusCommit
  (repeat' split) <;> simp

@[simp] theorem State.focusArmed_apart :
    s.focusArmed.pending = s.pending ∧ s.focusArmed.supply = s.supply ∧ s.focusArmed.link = s.link ∧
    s.focusArmed.memory = s.memory ∧ s.focusArmed.writer = s.writer ∧ s.focusArmed.cat = s.cat ∧
    s.focusArmed.settings = s.settings ∧ s.focusArmed.map = s.map ∧ s.focusArmed.flash = s.flash ∧
    s.focusArmed.lane = s.lane ∧ s.focusArmed.gyro = s.gyro ∧ s.focusArmed.store = s.store ∧
    s.focusArmed.chain = s.chain ∧
    s.focusArmed.shot = s.shot := by
  unfold State.focusArmed
  (repeat' split) <;> simp

@[simp] theorem State.focusShotEnd_apart :
    s.focusShotEnd.pending = s.pending ∧ s.focusShotEnd.supply = s.supply ∧ s.focusShotEnd.link = s.link ∧
    s.focusShotEnd.memory = s.memory ∧ s.focusShotEnd.writer = s.writer ∧ s.focusShotEnd.cat = s.cat ∧
    s.focusShotEnd.settings = s.settings ∧ s.focusShotEnd.map = s.map ∧ s.focusShotEnd.flash = s.flash ∧
    s.focusShotEnd.lane = s.lane ∧ s.focusShotEnd.gyro = s.gyro ∧ s.focusShotEnd.store = s.store ∧
    s.focusShotEnd.chain = s.chain ∧
    s.focusShotEnd.shot = s.shot := by
  unfold State.focusShotEnd
  (repeat' split) <;> simp

@[simp] theorem State.focusPowerLow_apart :
    s.focusPowerLow.pending = s.pending ∧ s.focusPowerLow.supply = s.supply ∧ s.focusPowerLow.link = s.link ∧
    s.focusPowerLow.memory = s.memory ∧ s.focusPowerLow.writer = s.writer ∧ s.focusPowerLow.cat = s.cat ∧
    s.focusPowerLow.settings = s.settings ∧ s.focusPowerLow.map = s.map ∧ s.focusPowerLow.flash = s.flash ∧
    s.focusPowerLow.lane = s.lane ∧ s.focusPowerLow.gyro = s.gyro ∧ s.focusPowerLow.store = s.store ∧
    s.focusPowerLow.chain = s.chain ∧
    s.focusPowerLow.shot = s.shot := by
  unfold State.focusPowerLow
  (repeat' split) <;> simp

@[simp] theorem State.setFocusMode_apart (x : FocusMode) :
    (s.setFocusMode x).pending = s.pending ∧ (s.setFocusMode x).supply = s.supply ∧ (s.setFocusMode x).link = s.link ∧
    (s.setFocusMode x).memory = s.memory ∧ (s.setFocusMode x).writer = s.writer ∧ (s.setFocusMode x).cat = s.cat ∧
    (s.setFocusMode x).settings = s.settings ∧ (s.setFocusMode x).map = s.map ∧ (s.setFocusMode x).flash = s.flash ∧
    (s.setFocusMode x).lane = s.lane ∧ (s.setFocusMode x).gyro = s.gyro ∧ (s.setFocusMode x).store = s.store ∧
    (s.setFocusMode x).chain = s.chain ∧
    (s.setFocusMode x).shot = s.shot := by
  unfold State.setFocusMode
  (repeat' split) <;> simp

@[simp] theorem State.zoomFault_apart (c : ZoomFault) :
    (s.zoomFault c).pending = s.pending ∧ (s.zoomFault c).supply = s.supply ∧ (s.zoomFault c).link = s.link ∧
    (s.zoomFault c).memory = s.memory ∧ (s.zoomFault c).writer = s.writer ∧ (s.zoomFault c).cat = s.cat ∧
    (s.zoomFault c).settings = s.settings ∧ (s.zoomFault c).map = s.map ∧ (s.zoomFault c).flash = s.flash ∧
    (s.zoomFault c).lane = s.lane ∧ (s.zoomFault c).gyro = s.gyro ∧ (s.zoomFault c).store = s.store ∧
    (s.zoomFault c).chain = s.chain ∧
    (s.zoomFault c).shot = s.shot := by
  unfold State.zoomFault
  (repeat' split) <;> simp

@[simp] theorem State.zoomHoldCheck_apart :
    s.zoomHoldCheck.pending = s.pending ∧ s.zoomHoldCheck.supply = s.supply ∧ s.zoomHoldCheck.link = s.link ∧
    s.zoomHoldCheck.memory = s.memory ∧ s.zoomHoldCheck.writer = s.writer ∧ s.zoomHoldCheck.cat = s.cat ∧
    s.zoomHoldCheck.settings = s.settings ∧ s.zoomHoldCheck.map = s.map ∧ s.zoomHoldCheck.flash = s.flash ∧
    s.zoomHoldCheck.lane = s.lane ∧ s.zoomHoldCheck.gyro = s.gyro ∧ s.zoomHoldCheck.store = s.store ∧
    s.zoomHoldCheck.chain = s.chain ∧
    s.zoomHoldCheck.shot = s.shot := by
  unfold State.zoomHoldCheck
  (repeat' split) <;> simp

@[simp] theorem State.zoomApproach_apart (k : Nat) (target count : Int) :
    (s.zoomApproach k target count).pending = s.pending ∧ (s.zoomApproach k target count).supply = s.supply ∧
    (s.zoomApproach k target count).link = s.link ∧ (s.zoomApproach k target count).memory = s.memory ∧
    (s.zoomApproach k target count).writer = s.writer ∧ (s.zoomApproach k target count).cat = s.cat ∧
    (s.zoomApproach k target count).settings = s.settings ∧ (s.zoomApproach k target count).map = s.map ∧
    (s.zoomApproach k target count).flash = s.flash ∧ (s.zoomApproach k target count).lane = s.lane ∧
    (s.zoomApproach k target count).gyro = s.gyro ∧
    (s.zoomApproach k target count).store = s.store ∧ (s.zoomApproach k target count).chain = s.chain ∧
    (s.zoomApproach k target count).shot = s.shot := by
  unfold State.zoomApproach
  (repeat' split) <;> simp

@[simp] theorem State.zoomOutbound_apart (k : Nat) :
    (s.zoomOutbound k).pending = s.pending ∧ (s.zoomOutbound k).supply = s.supply ∧ (s.zoomOutbound k).link = s.link ∧
    (s.zoomOutbound k).memory = s.memory ∧ (s.zoomOutbound k).writer = s.writer ∧ (s.zoomOutbound k).cat = s.cat ∧
    (s.zoomOutbound k).settings = s.settings ∧ (s.zoomOutbound k).map = s.map ∧ (s.zoomOutbound k).flash = s.flash ∧
    (s.zoomOutbound k).lane = s.lane ∧ (s.zoomOutbound k).gyro = s.gyro ∧ (s.zoomOutbound k).store = s.store ∧
    (s.zoomOutbound k).chain = s.chain ∧
    (s.zoomOutbound k).shot = s.shot := by
  unfold State.zoomOutbound
  (repeat' split) <;> simp

@[simp] theorem State.zoomLeg_apart (k : Nat) :
    (s.zoomLeg k).pending = s.pending ∧ (s.zoomLeg k).supply = s.supply ∧ (s.zoomLeg k).link = s.link ∧
    (s.zoomLeg k).memory = s.memory ∧ (s.zoomLeg k).writer = s.writer ∧ (s.zoomLeg k).cat = s.cat ∧
    (s.zoomLeg k).settings = s.settings ∧ (s.zoomLeg k).map = s.map ∧ (s.zoomLeg k).flash = s.flash ∧
    (s.zoomLeg k).lane = s.lane ∧ (s.zoomLeg k).gyro = s.gyro ∧ (s.zoomLeg k).store = s.store ∧
    (s.zoomLeg k).chain = s.chain ∧
    (s.zoomLeg k).shot = s.shot := by
  unfold State.zoomLeg
  (repeat' split) <;> simp

@[simp] theorem State.zoomArrive_apart (k : Nat) :
    (s.zoomArrive k).pending = s.pending ∧ (s.zoomArrive k).supply = s.supply ∧ (s.zoomArrive k).link = s.link ∧
    (s.zoomArrive k).memory = s.memory ∧ (s.zoomArrive k).writer = s.writer ∧ (s.zoomArrive k).cat = s.cat ∧
    (s.zoomArrive k).settings = s.settings ∧ (s.zoomArrive k).map = s.map ∧ (s.zoomArrive k).flash = s.flash ∧
    (s.zoomArrive k).lane = s.lane ∧ (s.zoomArrive k).gyro = s.gyro ∧ (s.zoomArrive k).store = s.store ∧
    (s.zoomArrive k).chain = s.chain ∧
    (s.zoomArrive k).shot = s.shot := by
  unfold State.zoomArrive
  (repeat' split) <;> simp

@[simp] theorem State.zoomPassed_apart (c : Int) :
    (s.zoomPassed c).pending = s.pending ∧ (s.zoomPassed c).supply = s.supply ∧ (s.zoomPassed c).link = s.link ∧
    (s.zoomPassed c).memory = s.memory ∧ (s.zoomPassed c).writer = s.writer ∧ (s.zoomPassed c).cat = s.cat ∧
    (s.zoomPassed c).settings = s.settings ∧ (s.zoomPassed c).map = s.map ∧ (s.zoomPassed c).flash = s.flash ∧
    (s.zoomPassed c).lane = s.lane ∧ (s.zoomPassed c).gyro = s.gyro ∧ (s.zoomPassed c).store = s.store ∧
    (s.zoomPassed c).chain = s.chain ∧
    (s.zoomPassed c).shot = s.shot := by
  unfold State.zoomPassed
  (repeat' split) <;> simp

@[simp] theorem State.zoomMoved_apart (c : Int) :
    (s.zoomMoved c).pending = s.pending ∧ (s.zoomMoved c).supply = s.supply ∧ (s.zoomMoved c).link = s.link ∧
    (s.zoomMoved c).memory = s.memory ∧ (s.zoomMoved c).writer = s.writer ∧ (s.zoomMoved c).cat = s.cat ∧
    (s.zoomMoved c).settings = s.settings ∧ (s.zoomMoved c).map = s.map ∧ (s.zoomMoved c).flash = s.flash ∧
    (s.zoomMoved c).lane = s.lane ∧ (s.zoomMoved c).gyro = s.gyro ∧ (s.zoomMoved c).store = s.store ∧
    (s.zoomMoved c).chain = s.chain ∧
    (s.zoomMoved c).shot = s.shot := by
  unfold State.zoomMoved
  (repeat' split) <;> simp

@[simp] theorem State.zoomParked_apart :
    s.zoomParked.pending = s.pending ∧ s.zoomParked.supply = s.supply ∧ s.zoomParked.link = s.link ∧
    s.zoomParked.memory = s.memory ∧ s.zoomParked.writer = s.writer ∧ s.zoomParked.cat = s.cat ∧
    s.zoomParked.settings = s.settings ∧ s.zoomParked.map = s.map ∧ s.zoomParked.flash = s.flash ∧
    s.zoomParked.lane = s.lane ∧ s.zoomParked.gyro = s.gyro ∧ s.zoomParked.store = s.store ∧
    s.zoomParked.chain = s.chain ∧
    s.zoomParked.shot = s.shot := by
  unfold State.zoomParked
  (repeat' split) <;> simp

@[simp] theorem State.zoomRetract_apart :
    s.zoomRetract.pending = s.pending ∧ s.zoomRetract.supply = s.supply ∧ s.zoomRetract.link = s.link ∧
    s.zoomRetract.memory = s.memory ∧ s.zoomRetract.writer = s.writer ∧ s.zoomRetract.cat = s.cat ∧
    s.zoomRetract.settings = s.settings ∧ s.zoomRetract.map = s.map ∧ s.zoomRetract.flash = s.flash ∧
    s.zoomRetract.lane = s.lane ∧ s.zoomRetract.gyro = s.gyro ∧ s.zoomRetract.store = s.store ∧
    s.zoomRetract.chain = s.chain ∧
    s.zoomRetract.shot = s.shot := by
  unfold State.zoomRetract
  (repeat' split) <;> simp

@[simp] theorem State.zoomHomed_apart (focusOk : Bool) :
    (s.zoomHomed focusOk).pending = s.pending ∧ (s.zoomHomed focusOk).supply = s.supply ∧
    (s.zoomHomed focusOk).link = s.link ∧ (s.zoomHomed focusOk).memory = s.memory ∧
    (s.zoomHomed focusOk).writer = s.writer ∧ (s.zoomHomed focusOk).cat = s.cat ∧
    (s.zoomHomed focusOk).settings = s.settings ∧ (s.zoomHomed focusOk).map = s.map ∧
    (s.zoomHomed focusOk).flash = s.flash ∧ (s.zoomHomed focusOk).lane = s.lane ∧ (s.zoomHomed focusOk).gyro = s.gyro ∧
    (s.zoomHomed focusOk).store = s.store ∧ (s.zoomHomed focusOk).chain = s.chain ∧
    (s.zoomHomed focusOk).shot = s.shot := by
  unfold State.zoomHomed
  (repeat' split) <;> simp

@[simp] theorem State.zoomReport_apart (focusOk : Bool) :
    (s.zoomReport focusOk).pending = s.pending ∧ (s.zoomReport focusOk).supply = s.supply ∧
    (s.zoomReport focusOk).link = s.link ∧ (s.zoomReport focusOk).memory = s.memory ∧
    (s.zoomReport focusOk).writer = s.writer ∧ (s.zoomReport focusOk).cat = s.cat ∧
    (s.zoomReport focusOk).settings = s.settings ∧ (s.zoomReport focusOk).map = s.map ∧
    (s.zoomReport focusOk).flash = s.flash ∧ (s.zoomReport focusOk).lane = s.lane ∧
    (s.zoomReport focusOk).gyro = s.gyro ∧
    (s.zoomReport focusOk).store = s.store ∧ (s.zoomReport focusOk).chain = s.chain ∧
    (s.zoomReport focusOk).shot = s.shot := by
  unfold State.zoomReport
  dsimp only
  (repeat' split) <;> simp

@[simp] theorem State.zoomAskHome_apart :
    s.zoomAskHome.pending = s.pending ∧ s.zoomAskHome.supply = s.supply ∧ s.zoomAskHome.link = s.link ∧
    s.zoomAskHome.memory = s.memory ∧ s.zoomAskHome.writer = s.writer ∧ s.zoomAskHome.cat = s.cat ∧
    s.zoomAskHome.settings = s.settings ∧ s.zoomAskHome.map = s.map ∧ s.zoomAskHome.flash = s.flash ∧
    s.zoomAskHome.lane = s.lane ∧ s.zoomAskHome.gyro = s.gyro ∧ s.zoomAskHome.store = s.store ∧
    s.zoomAskHome.chain = s.chain ∧
    s.zoomAskHome.shot = s.shot := by
  have e : s.zoomAskHome = if s.focusHome.2 then s.focusHome.1.zoomReport true else s.focusHome.1 := rfl
  rw [e]
  split <;> simp

@[simp] theorem State.zoomStepReached_apart :
    s.zoomStepReached.pending = s.pending ∧ s.zoomStepReached.supply = s.supply ∧ s.zoomStepReached.link = s.link ∧
    s.zoomStepReached.memory = s.memory ∧ s.zoomStepReached.writer = s.writer ∧ s.zoomStepReached.cat = s.cat ∧
    s.zoomStepReached.settings = s.settings ∧ s.zoomStepReached.map = s.map ∧ s.zoomStepReached.flash = s.flash ∧
    s.zoomStepReached.lane = s.lane ∧ s.zoomStepReached.gyro = s.gyro ∧ s.zoomStepReached.store = s.store ∧
    s.zoomStepReached.chain = s.chain ∧
    s.zoomStepReached.shot = s.shot := by
  unfold State.zoomStepReached
  (repeat' split) <;> simp

@[simp] theorem State.zoomExtended_apart :
    s.zoomExtended.pending = s.pending ∧ s.zoomExtended.supply = s.supply ∧ s.zoomExtended.link = s.link ∧
    s.zoomExtended.memory = s.memory ∧ s.zoomExtended.writer = s.writer ∧ s.zoomExtended.cat = s.cat ∧
    s.zoomExtended.settings = s.settings ∧ s.zoomExtended.map = s.map ∧ s.zoomExtended.flash = s.flash ∧
    s.zoomExtended.lane = s.lane ∧ s.zoomExtended.gyro = s.gyro ∧ s.zoomExtended.store = s.store ∧
    s.zoomExtended.chain = s.chain ∧
    s.zoomExtended.shot = s.shot := by
  have e : s.zoomExtended =
      (let x := (s.zoomBrake.onZoom fun z => { z with current := some 0, target := none }).meterInput
       let y := x.focusGoTo (camOf x 0 0)
       if y.2 then y.1.zoomStepReached else y.1) := rfl
  rw [e]
  dsimp only
  split <;> simp

@[simp] theorem State.zoomCount_apart (tele : Bool) :
    (s.zoomCount tele).pending = s.pending ∧ (s.zoomCount tele).supply = s.supply ∧ (s.zoomCount tele).link = s.link ∧
    (s.zoomCount tele).memory = s.memory ∧ (s.zoomCount tele).writer = s.writer ∧ (s.zoomCount tele).cat = s.cat ∧
    (s.zoomCount tele).settings = s.settings ∧ (s.zoomCount tele).map = s.map ∧ (s.zoomCount tele).flash = s.flash ∧
    (s.zoomCount tele).lane = s.lane ∧ (s.zoomCount tele).gyro = s.gyro ∧ (s.zoomCount tele).store = s.store ∧
    (s.zoomCount tele).chain = s.chain ∧
    (s.zoomCount tele).shot = s.shot := by
  unfold State.zoomCount
  (repeat' split) <;> simp

@[simp] theorem State.zoomPulse_apart :
    s.zoomPulse.pending = s.pending ∧ s.zoomPulse.supply = s.supply ∧ s.zoomPulse.link = s.link ∧
    s.zoomPulse.memory = s.memory ∧ s.zoomPulse.writer = s.writer ∧ s.zoomPulse.cat = s.cat ∧
    s.zoomPulse.settings = s.settings ∧ s.zoomPulse.map = s.map ∧ s.zoomPulse.flash = s.flash ∧
    s.zoomPulse.lane = s.lane ∧ s.zoomPulse.gyro = s.gyro ∧ s.zoomPulse.store = s.store ∧ s.zoomPulse.chain = s.chain ∧
    s.zoomPulse.shot = s.shot := by
  unfold State.zoomPulse
  dsimp only
  (repeat' split) <;> simp

@[simp] theorem State.zoomParkSeen_apart :
    s.zoomParkSeen.pending = s.pending ∧ s.zoomParkSeen.supply = s.supply ∧ s.zoomParkSeen.link = s.link ∧
    s.zoomParkSeen.memory = s.memory ∧ s.zoomParkSeen.writer = s.writer ∧ s.zoomParkSeen.cat = s.cat ∧
    s.zoomParkSeen.settings = s.settings ∧ s.zoomParkSeen.map = s.map ∧ s.zoomParkSeen.flash = s.flash ∧
    s.zoomParkSeen.lane = s.lane ∧ s.zoomParkSeen.gyro = s.gyro ∧ s.zoomParkSeen.store = s.store ∧
    s.zoomParkSeen.chain = s.chain ∧
    s.zoomParkSeen.shot = s.shot := by
  unfold State.zoomParkSeen
  (repeat' split) <;> simp

@[simp] theorem State.zoomStopped_apart :
    s.zoomStopped.pending = s.pending ∧ s.zoomStopped.supply = s.supply ∧ s.zoomStopped.link = s.link ∧
    s.zoomStopped.memory = s.memory ∧ s.zoomStopped.writer = s.writer ∧ s.zoomStopped.cat = s.cat ∧
    s.zoomStopped.settings = s.settings ∧ s.zoomStopped.map = s.map ∧ s.zoomStopped.flash = s.flash ∧
    s.zoomStopped.lane = s.lane ∧ s.zoomStopped.gyro = s.gyro ∧ s.zoomStopped.store = s.store ∧
    s.zoomStopped.chain = s.chain ∧
    s.zoomStopped.shot = s.shot := by
  unfold State.zoomStopped
  dsimp only
  (repeat' split) <;> simp

@[simp] theorem State.zoomPowerLow_apart :
    s.zoomPowerLow.pending = s.pending ∧ s.zoomPowerLow.supply = s.supply ∧ s.zoomPowerLow.link = s.link ∧
    s.zoomPowerLow.memory = s.memory ∧ s.zoomPowerLow.writer = s.writer ∧ s.zoomPowerLow.cat = s.cat ∧
    s.zoomPowerLow.settings = s.settings ∧ s.zoomPowerLow.map = s.map ∧ s.zoomPowerLow.flash = s.flash ∧
    s.zoomPowerLow.lane = s.lane ∧ s.zoomPowerLow.gyro = s.gyro ∧ s.zoomPowerLow.store = s.store ∧
    s.zoomPowerLow.chain = s.chain ∧
    s.zoomPowerLow.shot = s.shot := by
  unfold State.zoomPowerLow
  (repeat' split) <;> simp

@[simp] theorem State.zoomExtend_apart :
    s.zoomExtend.pending = s.pending ∧ s.zoomExtend.supply = s.supply ∧ s.zoomExtend.link = s.link ∧
    s.zoomExtend.memory = s.memory ∧ s.zoomExtend.writer = s.writer ∧ s.zoomExtend.cat = s.cat ∧
    s.zoomExtend.settings = s.settings ∧ s.zoomExtend.map = s.map ∧ s.zoomExtend.flash = s.flash ∧
    s.zoomExtend.lane = s.lane ∧ s.zoomExtend.gyro = s.gyro ∧ s.zoomExtend.store = s.store ∧
    s.zoomExtend.chain = s.chain ∧
    s.zoomExtend.shot = s.shot := by
  unfold State.zoomExtend
  dsimp only
  (repeat' split) <;> simp

@[simp] theorem State.zoomRetarget_apart (k : Nat) :
    (s.zoomRetarget k).pending = s.pending ∧ (s.zoomRetarget k).supply = s.supply ∧ (s.zoomRetarget k).link = s.link ∧
    (s.zoomRetarget k).memory = s.memory ∧ (s.zoomRetarget k).writer = s.writer ∧ (s.zoomRetarget k).cat = s.cat ∧
    (s.zoomRetarget k).settings = s.settings ∧ (s.zoomRetarget k).map = s.map ∧ (s.zoomRetarget k).flash = s.flash ∧
    (s.zoomRetarget k).lane = s.lane ∧ (s.zoomRetarget k).gyro = s.gyro ∧ (s.zoomRetarget k).store = s.store ∧
    (s.zoomRetarget k).chain = s.chain ∧
    (s.zoomRetarget k).shot = s.shot := by
  unfold State.zoomRetarget
  dsimp only
  (repeat' split) <;> simp

@[simp] theorem State.zoomPark_apart :
    s.zoomPark.pending = s.pending ∧ s.zoomPark.supply = s.supply ∧ s.zoomPark.link = s.link ∧
    s.zoomPark.memory = s.memory ∧ s.zoomPark.writer = s.writer ∧ s.zoomPark.cat = s.cat ∧
    s.zoomPark.settings = s.settings ∧ s.zoomPark.map = s.map ∧ s.zoomPark.flash = s.flash ∧
    s.zoomPark.lane = s.lane ∧ s.zoomPark.gyro = s.gyro ∧ s.zoomPark.store = s.store ∧ s.zoomPark.chain = s.chain ∧
    s.zoomPark.shot = s.shot := by
  unfold State.zoomPark
  dsimp only
  (repeat' split) <;> simp

@[simp] theorem State.zoomReconcile_apart (t : List StationEntry) :
    (s.zoomReconcile t).pending = s.pending ∧ (s.zoomReconcile t).supply = s.supply ∧
    (s.zoomReconcile t).link = s.link ∧ (s.zoomReconcile t).memory = s.memory ∧
    (s.zoomReconcile t).writer = s.writer ∧ (s.zoomReconcile t).cat = s.cat ∧
    (s.zoomReconcile t).settings = s.settings ∧ (s.zoomReconcile t).map = s.map ∧
    (s.zoomReconcile t).flash = s.flash ∧ (s.zoomReconcile t).lane = s.lane ∧ (s.zoomReconcile t).gyro = s.gyro ∧
    (s.zoomReconcile t).store = s.store ∧
    (s.zoomReconcile t).chain = s.chain ∧ (s.zoomReconcile t).shot = s.shot := by
  unfold State.zoomReconcile
  (repeat' split) <;> simp

end Sys2Proof.Machine
end

