-- ==== Sys2Proof/Laws/Aside.lean ====
section
/-! SUPPORT. What the Focus Unit's operations leave alone besides: the Zoom Drive, the Stabilizer, the Metering Unit, the
lines and every timer but the sample watch; and what `meterInput` leaves alone. -/

namespace Sys2Proof.Machine

variable (s : State)

@[simp] theorem State.meterInput_aside :
    s.meterInput.zoom = s.zoom ∧ s.meterInput.steady = s.steady ∧ s.meterInput.focus = s.focus ∧
    s.meterInput.lines = s.lines ∧ s.meterInput.timers = s.timers ∧ s.meterInput.events = s.events := by
  unfold State.meterInput
  split <;> simp

@[simp] theorem State.setFlagIf_aside (c : Bool) (f : EventFlag) :
    (s.setFlagIf c f).zoom = s.zoom ∧ (s.setFlagIf c f).steady = s.steady ∧ (s.setFlagIf c f).meter = s.meter ∧
    (s.setFlagIf c f).focus = s.focus ∧ (s.setFlagIf c f).lines = s.lines ∧ (s.setFlagIf c f).timers = s.timers := by
  unfold State.setFlagIf
  split <;> simp

@[simp] theorem State.focusEnded_aside (c : EndCause) :
    (s.focusEnded c).zoom = s.zoom ∧ (s.focusEnded c).steady = s.steady ∧ (s.focusEnded c).meter = s.meter ∧
    (s.focusEnded c).lines = s.lines ∧ (s.focusEnded c).timers.block = s.timers.block ∧
    (s.focusEnded c).timers.data = s.timers.data ∧ (s.focusEnded c).timers.stall = s.timers.stall ∧
    (s.focusEnded c).timers.brake = s.timers.brake ∧ (s.focusEnded c).timers.pulse = s.timers.pulse ∧
    (s.focusEnded c).timers.lost = s.timers.lost ∧ (s.focusEnded c).timers.good = s.timers.good ∧
    (s.focusEnded c).timers.frame = s.timers.frame ∧ (s.focusEnded c).timers.shutter = s.timers.shutter ∧
    (s.focusEnded c).timers.confirm = s.timers.confirm := by
  unfold State.focusEnded
  (repeat' split) <;> simp

@[simp] theorem State.focusEndedIf_aside (owed : Bool) (c : EndCause) :
    (s.focusEndedIf owed c).zoom = s.zoom ∧ (s.focusEndedIf owed c).steady = s.steady ∧
    (s.focusEndedIf owed c).meter = s.meter ∧ (s.focusEndedIf owed c).lines = s.lines ∧
    (s.focusEndedIf owed c).timers.block = s.timers.block ∧ (s.focusEndedIf owed c).timers.data = s.timers.data ∧
    (s.focusEndedIf owed c).timers.stall = s.timers.stall ∧ (s.focusEndedIf owed c).timers.brake = s.timers.brake ∧
    (s.focusEndedIf owed c).timers.pulse = s.timers.pulse ∧ (s.focusEndedIf owed c).timers.lost = s.timers.lost ∧
    (s.focusEndedIf owed c).timers.good = s.timers.good ∧ (s.focusEndedIf owed c).timers.frame = s.timers.frame ∧
    (s.focusEndedIf owed c).timers.shutter = s.timers.shutter ∧
    (s.focusEndedIf owed c).timers.confirm = s.timers.confirm := by
  unfold State.focusEndedIf
  (repeat' split) <;> simp

@[simp] theorem State.approachDone_aside (a : Approach) :
    (s.approachDone a).1.zoom = s.zoom ∧ (s.approachDone a).1.steady = s.steady ∧
    (s.approachDone a).1.meter = s.meter ∧ (s.approachDone a).1.lines = s.lines ∧
    (s.approachDone a).1.timers.block = s.timers.block ∧ (s.approachDone a).1.timers.data = s.timers.data ∧
    (s.approachDone a).1.timers.stall = s.timers.stall ∧ (s.approachDone a).1.timers.brake = s.timers.brake ∧
    (s.approachDone a).1.timers.pulse = s.timers.pulse ∧ (s.approachDone a).1.timers.lost = s.timers.lost ∧
    (s.approachDone a).1.timers.good = s.timers.good ∧ (s.approachDone a).1.timers.frame = s.timers.frame ∧
    (s.approachDone a).1.timers.shutter = s.timers.shutter ∧ (s.approachDone a).1.timers.confirm = s.timers.confirm := by
  unfold State.approachDone
  (repeat' split) <;> simp

@[simp] theorem State.focusArrive_aside :
    (s.focusArrive).1.zoom = s.zoom ∧ (s.focusArrive).1.steady = s.steady ∧ (s.focusArrive).1.meter = s.meter ∧
    (s.focusArrive).1.lines = s.lines ∧ (s.focusArrive).1.timers.block = s.timers.block ∧
    (s.focusArrive).1.timers.data = s.timers.data ∧ (s.focusArrive).1.timers.stall = s.timers.stall ∧
    (s.focusArrive).1.timers.brake = s.timers.brake ∧ (s.focusArrive).1.timers.pulse = s.timers.pulse ∧
    (s.focusArrive).1.timers.lost = s.timers.lost ∧ (s.focusArrive).1.timers.good = s.timers.good ∧
    (s.focusArrive).1.timers.frame = s.timers.frame ∧ (s.focusArrive).1.timers.shutter = s.timers.shutter ∧
    (s.focusArrive).1.timers.confirm = s.timers.confirm := by
  unfold State.focusArrive
  (repeat' split) <;> simp

@[simp] theorem State.focusMoveTo_aside (direct : Bool) (aim : Nat) :
    (s.focusMoveTo direct aim).1.zoom = s.zoom ∧ (s.focusMoveTo direct aim).1.steady = s.steady ∧
    (s.focusMoveTo direct aim).1.meter = s.meter ∧ (s.focusMoveTo direct aim).1.lines = s.lines ∧
    (s.focusMoveTo direct aim).1.timers.block = s.timers.block ∧
    (s.focusMoveTo direct aim).1.timers.data = s.timers.data ∧
    (s.focusMoveTo direct aim).1.timers.stall = s.timers.stall ∧
    (s.focusMoveTo direct aim).1.timers.brake = s.timers.brake ∧
    (s.focusMoveTo direct aim).1.timers.pulse = s.timers.pulse ∧
    (s.focusMoveTo direct aim).1.timers.lost = s.timers.lost ∧
    (s.focusMoveTo direct aim).1.timers.good = s.timers.good ∧
    (s.focusMoveTo direct aim).1.timers.frame = s.timers.frame ∧
    (s.focusMoveTo direct aim).1.timers.shutter = s.timers.shutter ∧
    (s.focusMoveTo direct aim).1.timers.confirm = s.timers.confirm := by
  unfold State.focusMoveTo
  (repeat' split) <;> simp

@[simp] theorem State.beginApproach_aside (aim : Nat) (dest : FocusDest) (owed : Bool) :
    (s.beginApproach aim dest owed).1.zoom = s.zoom ∧ (s.beginApproach aim dest owed).1.steady = s.steady ∧
    (s.beginApproach aim dest owed).1.meter = s.meter ∧ (s.beginApproach aim dest owed).1.lines = s.lines ∧
    (s.beginApproach aim dest owed).1.timers.block = s.timers.block ∧
    (s.beginApproach aim dest owed).1.timers.data = s.timers.data ∧
    (s.beginApproach aim dest owed).1.timers.stall = s.timers.stall ∧
    (s.beginApproach aim dest owed).1.timers.brake = s.timers.brake ∧
    (s.beginApproach aim dest owed).1.timers.pulse = s.timers.pulse ∧
    (s.beginApproach aim dest owed).1.timers.lost = s.timers.lost ∧
    (s.beginApproach aim dest owed).1.timers.good = s.timers.good ∧
    (s.beginApproach aim dest owed).1.timers.frame = s.timers.frame ∧
    (s.beginApproach aim dest owed).1.timers.shutter = s.timers.shutter ∧
    (s.beginApproach aim dest owed).1.timers.confirm = s.timers.confirm := by
  unfold State.beginApproach
  (repeat' split) <;> simp

@[simp] theorem State.focusDrop_aside (x : FocusState) :
    (s.focusDrop x).zoom = s.zoom ∧ (s.focusDrop x).steady = s.steady ∧ (s.focusDrop x).meter = s.meter ∧
    (s.focusDrop x).lines = s.lines ∧ (s.focusDrop x).timers.block = s.timers.block ∧
    (s.focusDrop x).timers.data = s.timers.data ∧ (s.focusDrop x).timers.stall = s.timers.stall ∧
    (s.focusDrop x).timers.brake = s.timers.brake ∧ (s.focusDrop x).timers.pulse = s.timers.pulse ∧
    (s.focusDrop x).timers.lost = s.timers.lost ∧ (s.focusDrop x).timers.good = s.timers.good ∧
    (s.focusDrop x).timers.frame = s.timers.frame ∧ (s.focusDrop x).timers.shutter = s.timers.shutter ∧
    (s.focusDrop x).timers.confirm = s.timers.confirm := by
  unfold State.focusDrop
  (repeat' split) <;> simp

@[simp] theorem State.focusHomed_aside :
    s.focusHomed.zoom = s.zoom ∧ s.focusHomed.steady = s.steady ∧ s.focusHomed.meter = s.meter ∧
    s.focusHomed.lines = s.lines ∧ s.focusHomed.timers.block = s.timers.block ∧
    s.focusHomed.timers.data = s.timers.data ∧ s.focusHomed.timers.stall = s.timers.stall ∧
    s.focusHomed.timers.brake = s.timers.brake ∧ s.focusHomed.timers.pulse = s.timers.pulse ∧
    s.focusHomed.timers.lost = s.timers.lost ∧ s.focusHomed.timers.good = s.timers.good ∧
    s.focusHomed.timers.frame = s.timers.frame ∧ s.focusHomed.timers.shutter = s.timers.shutter ∧
    s.focusHomed.timers.confirm = s.timers.confirm := by
  unfold State.focusHomed
  (repeat' split) <;> simp

@[simp] theorem State.focusHome_aside :
    (s.focusHome).1.zoom = s.zoom ∧ (s.focusHome).1.steady = s.steady ∧ (s.focusHome).1.meter = s.meter ∧
    (s.focusHome).1.lines = s.lines ∧ (s.focusHome).1.timers.block = s.timers.block ∧
    (s.focusHome).1.timers.data = s.timers.data ∧ (s.focusHome).1.timers.stall = s.timers.stall ∧
    (s.focusHome).1.timers.brake = s.timers.brake ∧ (s.focusHome).1.timers.pulse = s.timers.pulse ∧
    (s.focusHome).1.timers.lost = s.timers.lost ∧ (s.focusHome).1.timers.good = s.timers.good ∧
    (s.focusHome).1.timers.frame = s.timers.frame ∧ (s.focusHome).1.timers.shutter = s.timers.shutter ∧
    (s.focusHome).1.timers.confirm = s.timers.confirm := by
  unfold State.focusHome
  (repeat' split) <;> simp

@[simp] theorem State.focusGoTo_aside (step : Nat) :
    (s.focusGoTo step).1.zoom = s.zoom ∧ (s.focusGoTo step).1.steady = s.steady ∧
    (s.focusGoTo step).1.meter = s.meter ∧ (s.focusGoTo step).1.lines = s.lines ∧
    (s.focusGoTo step).1.timers.block = s.timers.block ∧ (s.focusGoTo step).1.timers.data = s.timers.data ∧
    (s.focusGoTo step).1.timers.stall = s.timers.stall ∧ (s.focusGoTo step).1.timers.brake = s.timers.brake ∧
    (s.focusGoTo step).1.timers.pulse = s.timers.pulse ∧ (s.focusGoTo step).1.timers.lost = s.timers.lost ∧
    (s.focusGoTo step).1.timers.good = s.timers.good ∧ (s.focusGoTo step).1.timers.frame = s.timers.frame ∧
    (s.focusGoTo step).1.timers.shutter = s.timers.shutter ∧ (s.focusGoTo step).1.timers.confirm = s.timers.confirm := by
  unfold State.focusGoTo
  (repeat' split) <;> simp

@[simp] theorem State.scanVisit_aside (k : Nat) :
    (s.scanVisit k).zoom = s.zoom ∧ (s.scanVisit k).steady = s.steady ∧ (s.scanVisit k).meter = s.meter ∧
    (s.scanVisit k).lines = s.lines ∧ (s.scanVisit k).timers.block = s.timers.block ∧
    (s.scanVisit k).timers.data = s.timers.data ∧ (s.scanVisit k).timers.stall = s.timers.stall ∧
    (s.scanVisit k).timers.brake = s.timers.brake ∧ (s.scanVisit k).timers.pulse = s.timers.pulse ∧
    (s.scanVisit k).timers.lost = s.timers.lost ∧ (s.scanVisit k).timers.good = s.timers.good ∧
    (s.scanVisit k).timers.frame = s.timers.frame ∧ (s.scanVisit k).timers.shutter = s.timers.shutter ∧
    (s.scanVisit k).timers.confirm = s.timers.confirm := by
  unfold State.scanVisit
  (repeat' split) <;> simp

@[simp] theorem State.scanBegin_aside (station first last : Nat) :
    (s.scanBegin station first last).zoom = s.zoom ∧ (s.scanBegin station first last).steady = s.steady ∧
    (s.scanBegin station first last).meter = s.meter ∧ (s.scanBegin station first last).lines = s.lines ∧
    (s.scanBegin station first last).timers.block = s.timers.block ∧
    (s.scanBegin station first last).timers.data = s.timers.data ∧
    (s.scanBegin station first last).timers.stall = s.timers.stall ∧
    (s.scanBegin station first last).timers.brake = s.timers.brake ∧
    (s.scanBegin station first last).timers.pulse = s.timers.pulse ∧
    (s.scanBegin station first last).timers.lost = s.timers.lost ∧
    (s.scanBegin station first last).timers.good = s.timers.good ∧
    (s.scanBegin station first last).timers.frame = s.timers.frame ∧
    (s.scanBegin station first last).timers.shutter = s.timers.shutter ∧
    (s.scanBegin station first last).timers.confirm = s.timers.confirm := by
  unfold State.scanBegin
  (repeat' split) <;> simp

@[simp] theorem State.scanStop_aside (x : Scan) :
    (s.scanStop x).zoom = s.zoom ∧ (s.scanStop x).steady = s.steady ∧ (s.scanStop x).meter = s.meter ∧
    (s.scanStop x).lines = s.lines ∧ (s.scanStop x).timers.block = s.timers.block ∧
    (s.scanStop x).timers.data = s.timers.data ∧ (s.scanStop x).timers.stall = s.timers.stall ∧
    (s.scanStop x).timers.brake = s.timers.brake ∧ (s.scanStop x).timers.pulse = s.timers.pulse ∧
    (s.scanStop x).timers.lost = s.timers.lost ∧ (s.scanStop x).timers.good = s.timers.good ∧
    (s.scanStop x).timers.frame = s.timers.frame ∧ (s.scanStop x).timers.shutter = s.timers.shutter ∧
    (s.scanStop x).timers.confirm = s.timers.confirm := by
  unfold State.scanStop
  (repeat' split) <;> simp

@[simp] theorem State.scanSample_aside (x : Scan) (b : StatBlock) :
    (s.scanSample x b).zoom = s.zoom ∧ (s.scanSample x b).steady = s.steady ∧ (s.scanSample x b).meter = s.meter ∧
    (s.scanSample x b).lines = s.lines ∧ (s.scanSample x b).timers.block = s.timers.block ∧
    (s.scanSample x b).timers.data = s.timers.data ∧ (s.scanSample x b).timers.stall = s.timers.stall ∧
    (s.scanSample x b).timers.brake = s.timers.brake ∧ (s.scanSample x b).timers.pulse = s.timers.pulse ∧
    (s.scanSample x b).timers.lost = s.timers.lost ∧ (s.scanSample x b).timers.good = s.timers.good ∧
    (s.scanSample x b).timers.frame = s.timers.frame ∧ (s.scanSample x b).timers.shutter = s.timers.shutter ∧
    (s.scanSample x b).timers.confirm = s.timers.confirm := by
  unfold State.scanSample
  dsimp only
  (repeat' split) <;> simp

@[simp] theorem State.followBlock_aside (b : StatBlock) :
    (s.followBlock b).zoom = s.zoom ∧ (s.followBlock b).steady = s.steady ∧ (s.followBlock b).meter = s.meter ∧
    (s.followBlock b).lines = s.lines ∧ (s.followBlock b).timers.block = s.timers.block ∧
    (s.followBlock b).timers.data = s.timers.data ∧ (s.followBlock b).timers.stall = s.timers.stall ∧
    (s.followBlock b).timers.brake = s.timers.brake ∧ (s.followBlock b).timers.pulse = s.timers.pulse ∧
    (s.followBlock b).timers.lost = s.timers.lost ∧ (s.followBlock b).timers.good = s.timers.good ∧
    (s.followBlock b).timers.frame = s.timers.frame ∧ (s.followBlock b).timers.shutter = s.timers.shutter ∧
    (s.followBlock b).timers.confirm = s.timers.confirm := by
  unfold State.followBlock
  (repeat' split) <;> simp

@[simp] theorem State.focusBlock_aside (b : StatBlock) :
    (s.focusBlock b).zoom = s.zoom ∧ (s.focusBlock b).steady = s.steady ∧ (s.focusBlock b).meter = s.meter ∧
    (s.focusBlock b).lines = s.lines ∧ (s.focusBlock b).timers.block = s.timers.block ∧
    (s.focusBlock b).timers.data = s.timers.data ∧ (s.focusBlock b).timers.stall = s.timers.stall ∧
    (s.focusBlock b).timers.brake = s.timers.brake ∧ (s.focusBlock b).timers.pulse = s.timers.pulse ∧
    (s.focusBlock b).timers.lost = s.timers.lost ∧ (s.focusBlock b).timers.good = s.timers.good ∧
    (s.focusBlock b).timers.frame = s.timers.frame ∧ (s.focusBlock b).timers.shutter = s.timers.shutter ∧
    (s.focusBlock b).timers.confirm = s.timers.confirm := by
  unfold State.focusBlock
  (repeat' split) <;> simp

@[simp] theorem State.focusMotionBegins_aside :
    s.focusMotionBegins.zoom = s.zoom ∧ s.focusMotionBegins.steady = s.steady ∧ s.focusMotionBegins.meter = s.meter ∧
    s.focusMotionBegins.lines = s.lines ∧ s.focusMotionBegins.timers.block = s.timers.block ∧
    s.focusMotionBegins.timers.data = s.timers.data ∧ s.focusMotionBegins.timers.stall = s.timers.stall ∧
    s.focusMotionBegins.timers.brake = s.timers.brake ∧ s.focusMotionBegins.timers.pulse = s.timers.pulse ∧
    s.focusMotionBegins.timers.lost = s.timers.lost ∧ s.focusMotionBegins.timers.good = s.timers.good ∧
    s.focusMotionBegins.timers.frame = s.timers.frame ∧ s.focusMotionBegins.timers.shutter = s.timers.shutter ∧
    s.focusMotionBegins.timers.confirm = s.timers.confirm := by
  unfold State.focusMotionBegins
  (repeat' split) <;> simp

@[simp] theorem State.focusPassed_aside (st : Nat) :
    (s.focusPassed st).zoom = s.zoom ∧ (s.focusPassed st).steady = s.steady ∧ (s.focusPassed st).meter = s.meter ∧
    (s.focusPassed st).lines = s.lines ∧ (s.focusPassed st).timers.block = s.timers.block ∧
    (s.focusPassed st).timers.data = s.timers.data ∧ (s.focusPassed st).timers.stall = s.timers.stall ∧
    (s.focusPassed st).timers.brake = s.timers.brake ∧ (s.focusPassed st).timers.pulse = s.timers.pulse ∧
    (s.focusPassed st).timers.lost = s.timers.lost ∧ (s.focusPassed st).timers.good = s.timers.good ∧
    (s.focusPassed st).timers.frame = s.timers.frame ∧ (s.focusPassed st).timers.shutter = s.timers.shutter ∧
    (s.focusPassed st).timers.confirm = s.timers.confirm := by
  unfold State.focusPassed
  (repeat' split) <;> simp

@[simp] theorem State.focusResettle_aside (st : Nat) (owed : Bool) :
    (s.focusResettle st owed).zoom = s.zoom ∧ (s.focusResettle st owed).steady = s.steady ∧
    (s.focusResettle st owed).meter = s.meter ∧ (s.focusResettle st owed).lines = s.lines ∧
    (s.focusResettle st owed).timers.block = s.timers.block ∧ (s.focusResettle st owed).timers.data = s.timers.data ∧
    (s.focusResettle st owed).timers.stall = s.timers.stall ∧
    (s.focusResettle st owed).timers.brake = s.timers.brake ∧
    (s.focusResettle st owed).timers.pulse = s.timers.pulse ∧ (s.focusResettle st owed).timers.lost = s.timers.lost ∧
    (s.focusResettle st owed).timers.good = s.timers.good ∧ (s.focusResettle st owed).timers.frame = s.timers.frame ∧
    (s.focusResettle st owed).timers.shutter = s.timers.shutter ∧
    (s.focusResettle st owed).timers.confirm = s.timers.confirm := by
  unfold State.focusResettle
  (repeat' split) <;> simp

@[simp] theorem State.focusArrived_aside (st : Nat) :
    (s.focusArrived st).zoom = s.zoom ∧ (s.focusArrived st).steady = s.steady ∧ (s.focusArrived st).meter = s.meter ∧
    (s.focusArrived st).lines = s.lines ∧ (s.focusArrived st).timers.block = s.timers.block ∧
    (s.focusArrived st).timers.data = s.timers.data ∧ (s.focusArrived st).timers.stall = s.timers.stall ∧
    (s.focusArrived st).timers.brake = s.timers.brake ∧ (s.focusArrived st).timers.pulse = s.timers.pulse ∧
    (s.focusArrived st).timers.lost = s.timers.lost ∧ (s.focusArrived st).timers.good = s.timers.good ∧
    (s.focusArrived st).timers.frame = s.timers.frame ∧ (s.focusArrived st).timers.shutter = s.timers.shutter ∧
    (s.focusArrived st).timers.confirm = s.timers.confirm := by
  unfold State.focusArrived
  (repeat' split) <;> simp

@[simp] theorem State.focusFault_aside :
    s.focusFault.zoom = s.zoom ∧ s.focusFault.steady = s.steady ∧ s.focusFault.meter = s.meter ∧
    s.focusFault.lines = s.lines ∧ s.focusFault.timers.block = s.timers.block ∧
    s.focusFault.timers.data = s.timers.data ∧ s.focusFault.timers.stall = s.timers.stall ∧
    s.focusFault.timers.brake = s.timers.brake ∧ s.focusFault.timers.pulse = s.timers.pulse ∧
    s.focusFault.timers.lost = s.timers.lost ∧ s.focusFault.timers.good = s.timers.good ∧
    s.focusFault.timers.frame = s.timers.frame ∧ s.focusFault.timers.shutter = s.timers.shutter ∧
    s.focusFault.timers.confirm = s.timers.confirm := by
  unfold State.focusFault
  (repeat' split) <;> simp

@[simp] theorem State.focusCommit_aside (st : Nat) :
    (s.focusCommit st).zoom = s.zoom ∧ (s.focusCommit st).steady = s.steady ∧ (s.focusCommit st).meter = s.meter ∧
    (s.focusCommit st).lines = s.lines ∧ (s.focusCommit st).timers.block = s.timers.block ∧
    (s.focusCommit st).timers.data = s.timers.data ∧ (s.focusCommit st).timers.stall = s.timers.stall ∧
    (s.focusCommit st).timers.brake = s.timers.brake ∧ (s.focusCommit st).timers.pulse = s.timers.pulse ∧
    (s.focusCommit st).timers.lost = s.timers.lost ∧ (s.focusCommit st).timers.good = s.timers.good ∧
    (s.focusCommit st).timers.frame = s.timers.frame ∧ (s.focusCommit st).timers.shutter = s.timers.shutter ∧
    (s.focusCommit st).timers.confirm = s.timers.confirm := by
  unfold State.focusCommit
  (repeat' split) <;> simp

@[simp] theorem State.focusArmed_aside :
    s.focusArmed.zoom = s.zoom ∧ s.focusArmed.steady = s.steady ∧ s.focusArmed.meter = s.meter ∧
    s.focusArmed.lines = s.lines ∧ s.focusArmed.timers.block = s.timers.block ∧
    s.focusArmed.timers.data = s.timers.data ∧ s.focusArmed.timers.stall = s.timers.stall ∧
    s.focusArmed.timers.brake = s.timers.brake ∧ s.focusArmed.timers.pulse = s.timers.pulse ∧
    s.focusArmed.timers.lost = s.timers.lost ∧ s.focusArmed.timers.good = s.timers.good ∧
    s.focusArmed.timers.frame = s.timers.frame ∧ s.focusArmed.timers.shutter = s.timers.shutter ∧
    s.focusArmed.timers.confirm = s.timers.confirm := by
  unfold State.focusArmed
  (repeat' split) <;> simp

@[simp] theorem State.focusShotEnd_aside :
    s.focusShotEnd.zoom = s.zoom ∧ s.focusShotEnd.steady = s.steady ∧ s.focusShotEnd.meter = s.meter ∧
    s.focusShotEnd.lines = s.lines ∧ s.focusShotEnd.timers.block = s.timers.block ∧
    s.focusShotEnd.timers.data = s.timers.data ∧ s.focusShotEnd.timers.stall = s.timers.stall ∧
    s.focusShotEnd.timers.brake = s.timers.brake ∧ s.focusShotEnd.timers.pulse = s.timers.pulse ∧
    s.focusShotEnd.timers.lost = s.timers.lost ∧ s.focusShotEnd.timers.good = s.timers.good ∧
    s.focusShotEnd.timers.frame = s.timers.frame ∧ s.focusShotEnd.timers.shutter = s.timers.shutter ∧
    s.focusShotEnd.timers.confirm = s.timers.confirm := by
  unfold State.focusShotEnd
  (repeat' split) <;> simp

@[simp] theorem State.focusPowerLow_aside :
    s.focusPowerLow.zoom = s.zoom ∧ s.focusPowerLow.steady = s.steady ∧ s.focusPowerLow.meter = s.meter ∧
    s.focusPowerLow.lines = s.lines ∧ s.focusPowerLow.timers.block = s.timers.block ∧
    s.focusPowerLow.timers.data = s.timers.data ∧ s.focusPowerLow.timers.stall = s.timers.stall ∧
    s.focusPowerLow.timers.brake = s.timers.brake ∧ s.focusPowerLow.timers.pulse = s.timers.pulse ∧
    s.focusPowerLow.timers.lost = s.timers.lost ∧ s.focusPowerLow.timers.good = s.timers.good ∧
    s.focusPowerLow.timers.frame = s.timers.frame ∧ s.focusPowerLow.timers.shutter = s.timers.shutter ∧
    s.focusPowerLow.timers.confirm = s.timers.confirm := by
  unfold State.focusPowerLow
  (repeat' split) <;> simp

@[simp] theorem State.setFocusMode_aside (x : FocusMode) :
    (s.setFocusMode x).zoom = s.zoom ∧ (s.setFocusMode x).steady = s.steady ∧ (s.setFocusMode x).meter = s.meter ∧
    (s.setFocusMode x).lines = s.lines ∧ (s.setFocusMode x).timers.block = s.timers.block ∧
    (s.setFocusMode x).timers.data = s.timers.data ∧ (s.setFocusMode x).timers.stall = s.timers.stall ∧
    (s.setFocusMode x).timers.brake = s.timers.brake ∧ (s.setFocusMode x).timers.pulse = s.timers.pulse ∧
    (s.setFocusMode x).timers.lost = s.timers.lost ∧ (s.setFocusMode x).timers.good = s.timers.good ∧
    (s.setFocusMode x).timers.frame = s.timers.frame ∧ (s.setFocusMode x).timers.shutter = s.timers.shutter ∧
    (s.setFocusMode x).timers.confirm = s.timers.confirm := by
  unfold State.setFocusMode
  (repeat' split) <;> simp

end Sys2Proof.Machine
end

