-- ==== Sys2Proof/Laws/Link.lean ====
section
/-! SUPPORT. What an event and a request answer, said once: with power an event's effect on the arrived state, a taken
request's answer, the early refusals, and the frames that are passed over or discarded. -/

namespace Sys2Proof.Machine

variable {s : State}

/-! ### Bytes on data in -/

/-- A byte neither makes a link pass bytes over nor ends that (R185). -/
theorem LinkReceiver.takeByte_overlong (p : Bool) (r : LinkReceiver) (b : Byte) :
    r.takeByte p b = .overlong ↔ r = .overlong := by
  cases r <;> simp only [LinkReceiver.takeByte] <;> (try split) <;> simp

/-- A frame that began while a response was pending stays one; another becomes one only where one is pending (R186). -/
theorem LinkReceiver.takeByte_late (p : Bool) (r : LinkReceiver) (b : Byte) :
    (r.late = true → (r.takeByte p b).late = true) ∧ (r.late = false → p = false → (r.takeByte p b).late = false) := by
  cases r <;> simp only [LinkReceiver.takeByte] <;> (try split) <;> simp_all [LinkReceiver.late]

/-- The bytes a command brings leave a link that passes bytes over as it is, and no other becomes one (R185). -/
theorem Link.received_overlong (l : Link) (bs : List Byte) : l.received bs = .overlong ↔ l.receiver = .overlong := by
  unfold Link.received
  cases l.condition with
  | silent => exact Iff.rfl
  | listening =>
    generalize l.receiver = r
    induction bs generalizing r with
    | nil => exact Iff.rfl
    | cons b t ih => exact (ih _).trans (LinkReceiver.takeByte_overlong _ _ _)

/-- The bytes a command brings leave a frame that began while a response was pending one (R186). -/
theorem Link.received_late {l : Link} (h : l.receiver.late = true) (bs : List Byte) : (l.received bs).late = true := by
  unfold Link.received
  cases l.condition with
  | silent => exact h
  | listening =>
    revert h
    generalize l.receiver = r
    induction bs generalizing r with
    | nil => exact id
    | cons b t ih => exact fun h => ih _ ((LinkReceiver.takeByte_late _ _ _).1 h)

/-- With no response pending no frame becomes a late one (R186). -/
theorem Link.received_timely {l : Link} (hp : l.pending = none) (h : l.receiver.late = false) (bs : List Byte) :
    (l.received bs).late = false := by
  unfold Link.received
  cases l.condition with
  | silent => exact h
  | listening =>
    revert h
    generalize l.receiver = r
    induction bs generalizing r with
    | nil => exact id
    | cons b t ih => exact fun h => ih _ ((LinkReceiver.takeByte_late _ _ _).2 h (by simp [hp]))

/-- A link that takes frames still takes them when a command arrives. -/
theorem Listening.arrive (h : Listening s) (m : Moment) : Listening (s.arrive m) :=
  ⟨h.1, h.2.1, h.2.2.1, fun he => h.2.2.2.1 ((s.link.received_overlong m.clocked).1 he),
    Link.received_timely h.2.2.1 h.2.2.2.2 m.clocked⟩

/-! ### Events and requests -/

/-- With power an event is its effect on the arrived state. -/
theorem event_powered (h : s.supply.powered = true) (m : Moment) (f : State → State) :
    event m f s = .next (f (s.arrive m)) := by simp [event, h]

/-- Without power an event has no effect. -/
theorem event_unpowered (h : s.supply.powered = false) (m : Moment) (f : State → State) : event m f s = .next s := by
  simp [event, h]

/-- What the gate makes of a frame while the link takes frames. -/
theorem frameGate_takes (h : Listening s) (f : State → State) : frameGate f s = f s.hunt := by
  obtain ⟨_, hc, hp, hr, hl⟩ := h
  unfold frameGate
  cases hrec : s.link.receiver with
  | overlong => exact absurd hrec hr
  | hunting => simp [hc, hp]
  | receiving l b =>
    cases l with
    | true => simp [hrec, LinkReceiver.late] at hl
    | false => simp [hc, hp]

/-- What the gate makes of a frame that finds a response pending. -/
theorem frameGate_late (hc : s.link.condition = .listening) (hr : s.link.receiver ≠ .overlong)
    (hd : s.link.pending ≠ none ∨ s.link.receiver.late = true) (f : State → State) :
    frameGate f s = s.hunt.setFlag .linkOrder := by
  have hi : s.link.pending ≠ none → s.link.pending.isSome = true := by
    intro h
    cases hq : s.link.pending <;> simp_all
  unfold frameGate
  cases hrec : s.link.receiver with
  | overlong => exact absurd hrec hr
  | hunting =>
    rcases hd with hd | hd
    · simp [hc, hi hd]
    · simp [hrec, LinkReceiver.late] at hd
  | receiving l b =>
    cases l
    · rcases hd with hd | hd
      · simp [hc, hi hd]
      · simp [hrec, LinkReceiver.late] at hd
    · simp [hc]

/-- What the gate of a SILENT link makes of a frame. -/
theorem frameGate_silent (hc : s.link.condition = .silent) (hr : s.link.receiver ≠ .overlong) (f : State → State) :
    frameGate f s = s.hunt := by
  unfold frameGate
  cases hrec : s.link.receiver with
  | overlong => exact absurd hrec hr
  | hunting => simp [hc]
  | receiving l b => cases l <;> simp [hc]

/-- A frame that the link takes is handled once the link hunts again. -/
theorem frameGate_listening (h : Listening s) (m : Moment) (f : State → State) :
    frameGate f (s.arrive m) = f (s.arrive m).hunt := frameGate_takes (h.arrive m) f

/-- A request while the link listens reaches the dispatch. -/
theorem request_listening (h : Listening s) (k : Nat) (m : Moment) (owner : State → State × Answer) :
    request k m owner s = .next (dispatch k owner (s.arrive m).hunt) := by
  rw [request, event_powered h.1, frameGate_listening h]

/-- The dispatch, said over what a taken request finds. -/
theorem request_dispatch (h : Listening s) (k : Nat) (m : Moment) (owner : State → State × Answer) :
    request k m owner s = .next
      (match earlyRefusal k (taken k m s) with
       | some c => (taken k m s).respond k (refuse c)
       | none => (owner (taken k m s)).1.respond k (owner (taken k m s)).2) := by
  rw [request_listening h]
  rfl

theorem earlyRefusal_taken (k : Nat) (m : Moment) : earlyRefusal k (taken k m s) = earlyRefusal k s := by
  simp [earlyRefusal]

/-- A request that reaches its owner answers what the owner answers. -/
theorem request_taking (h : Taking s) (k : Nat) (m : Moment) (owner : State → State × Answer) :
    request k m owner s = .next ((owner (taken k m s)).1.respond k (owner (taken k m s)).2) := by
  obtain ⟨hl, h1, h2, h3⟩ := h
  rw [request_dispatch hl, earlyRefusal_taken]
  have he : earlyRefusal k s = none := by simp [earlyRefusal, h1, h2, h3]
  rw [he]

/-- A request turned away before its owner's checks answers that refusal alone. -/
theorem request_refused (h : Listening s) {k : Nat} {c : Code} (hc : earlyRefusal k s = some c) (m : Moment)
    (owner : State → State × Answer) :
    request k m owner s = .next ((taken k m s).respond k (refuse c)) := by
  rw [request_dispatch h, earlyRefusal_taken, hc]

/-- A request that finds a response pending is discarded with LINK_ORDER. -/
theorem request_discarded (hp : s.supply.powered = true) (hc : s.link.condition = .listening)
    (hr : s.link.receiver ≠ .overlong) (hd : s.link.pending ≠ none ∨ s.link.receiver.late = true) (k : Nat)
    (m : Moment) (owner : State → State × Answer) :
    request k m owner s = .next ((s.arrive m).hunt.setFlag .linkOrder) := by
  rw [request, event_powered hp, frameGate_late (s := s.arrive m) hc
    (fun he => hr ((s.link.received_overlong m.clocked).1 he)) (hd.imp id fun h => Link.received_late h m.clocked)]

/-- A SILENT link passes a frame over. -/
theorem request_silent (hp : s.supply.powered = true) (hc : s.link.condition = .silent)
    (hr : s.link.receiver ≠ .overlong) (k : Nat) (m : Moment) (owner : State → State × Answer) :
    request k m owner s = .next (s.arrive m).hunt := by
  rw [request, event_powered hp, frameGate_silent (s := s.arrive m) hc
    (fun he => hr ((s.link.received_overlong m.clocked).1 he))]

end Sys2Proof.Machine
end

