-- ==== Sys2Proof/Laws/Table.lean ====
section
/-! SUPPORT. The sparse tables: reading after a write, and the canonical form every table operation keeps. -/

namespace Sys2Proof.Machine

/-! ### Reading -/

@[simp] theorem Table.get_nil (k : Nat) : Table.get k ([] : List (Nat × α)) = none := rfl

@[simp] theorem Table.get_put_same (k : Nat) (v : α) (t : List (Nat × α)) : Table.get k (Table.put k v t) = some v := by
  induction t with
  | nil => simp [Table.put, Table.get]
  | cons e t ih =>
    obtain ⟨j, w⟩ := e
    simp only [Table.put]
    split
    · simp [Table.get]
    · split
      · simp [Table.get]
      · simp_all [Table.get]

theorem Table.get_put_other {j k : Nat} (h : j ≠ k) (v : α) (t : List (Nat × α)) :
    Table.get j (Table.put k v t) = Table.get j t := by
  induction t with
  | nil => simp [Table.put, Table.get, Ne.symm h]
  | cons e t ih => grind [Table.put, Table.get]

theorem Table.get_erase_other {j k : Nat} (h : j ≠ k) (t : List (Nat × α)) :
    Table.get j (Table.erase k t) = Table.get j t := by
  induction t with
  | nil => rfl
  | cons e t ih => grind [Table.erase, Table.get]

theorem Table.get_mem {k : Nat} {v : α} {t : List (Nat × α)} (h : Table.get k t = some v) : (k, v) ∈ t := by
  induction t with
  | nil => cases h
  | cons e t ih =>
    obtain ⟨i, w⟩ := e
    simp only [Table.get] at h
    split at h
    · simp_all
    · exact List.mem_cons_of_mem _ (ih h)

/-! ### The canonical form -/

theorem Table.wf_cons (ok : α → Bool) (k : Nat) (v : α) (t : List (Nat × α)) :
    Table.wf ok ((k, v) :: t) = true ↔ ok v = true ∧ (∀ e ∈ t, k < e.1) ∧ Table.wf ok t = true := by
  induction t generalizing k v with
  | nil => simp [Table.wf]
  | cons e t ih =>
    obtain ⟨j, w⟩ := e
    rw [Table.wf]
    constructor
    · intro h
      simp only [Bool.and_eq_true, decide_eq_true_eq] at h
      obtain ⟨⟨hv, hk⟩, hw⟩ := h
      refine ⟨hv, ?_, hw⟩
      intro e he
      rcases List.mem_cons.mp he with rfl | he
      · exact hk
      · exact Nat.lt_trans hk (((ih j w).mp hw).2.1 e he)
    · rintro ⟨hv, hk, hw⟩
      simp only [Bool.and_eq_true, decide_eq_true_eq]
      exact ⟨⟨hv, hk (j, w) (by simp)⟩, hw⟩

theorem Table.mem_put {e : Nat × α} {k : Nat} {v : α} {t : List (Nat × α)} (h : e ∈ Table.put k v t) :
    e = (k, v) ∨ e ∈ t := by
  induction t with
  | nil => simpa [Table.put] using h
  | cons x t ih => grind [Table.put]

theorem Table.mem_erase {e : Nat × α} {k : Nat} {t : List (Nat × α)} (h : e ∈ Table.erase k t) : e ∈ t := by
  induction t with
  | nil => simp [Table.erase] at h
  | cons x t ih =>
    obtain ⟨i, w⟩ := x
    simp only [Table.erase] at h
    split at h
    · exact List.mem_cons_of_mem _ h
    · simp only [List.mem_cons] at h ⊢
      exact h.imp id ih

/-- A put keeps the canonical form. -/
theorem Table.wf_put {ok : α → Bool} {k : Nat} {v : α} {t : List (Nat × α)} (hv : ok v = true)
    (h : Table.wf ok t = true) : Table.wf ok (Table.put k v t) = true := by
  induction t with
  | nil => simp [Table.put, Table.wf, hv]
  | cons e t ih =>
    obtain ⟨j, w⟩ := e
    have hc := (Table.wf_cons ok j w t).mp h
    simp only [Table.put]
    split
    · rename_i hkj
      refine (Table.wf_cons ok k v _).mpr ⟨hv, ?_, h⟩
      intro e he
      rcases List.mem_cons.mp he with rfl | he
      · exact hkj
      · exact Nat.lt_trans hkj (hc.2.1 e he)
    · split
      · rename_i _ hjk
        subst hjk
        exact (Table.wf_cons ok j v t).mpr ⟨hv, hc.2.1, hc.2.2⟩
      · rename_i h1 h2
        refine (Table.wf_cons ok j w _).mpr ⟨hc.1, ?_, ih hc.2.2⟩
        intro e he
        rcases Table.mem_put he with rfl | he
        · show j < k
          omega
        · exact hc.2.1 e he

/-- An erase keeps the canonical form. -/
theorem Table.wf_erase {ok : α → Bool} {k : Nat} {t : List (Nat × α)} (h : Table.wf ok t = true) :
    Table.wf ok (Table.erase k t) = true := by
  induction t with
  | nil => rfl
  | cons e t ih =>
    obtain ⟨j, w⟩ := e
    have hc := (Table.wf_cons ok j w t).mp h
    simp only [Table.erase]
    split
    · exact hc.2.2
    · exact (Table.wf_cons ok j w _).mpr ⟨hc.1, fun e he => hc.2.1 e (Table.mem_erase he), ih hc.2.2⟩

theorem Table.length_put (k : Nat) (v : α) (t : List (Nat × α)) : (Table.put k v t).length ≤ t.length + 1 := by
  induction t with
  | nil => simp [Table.put]
  | cons e t ih =>
    obtain ⟨j, w⟩ := e
    simp only [Table.put]
    split
    · simp
    · split <;> simp
      exact ih

/-- After an erase the key reads as unlisted. -/
theorem Table.get_erase_same {ok : α → Bool} {k : Nat} {t : List (Nat × α)} (h : Table.wf ok t = true) :
    Table.get k (Table.erase k t) = none := by
  induction t with
  | nil => rfl
  | cons e t ih =>
    obtain ⟨j, w⟩ := e
    have hc := (Table.wf_cons ok j w t).mp h
    simp only [Table.erase]
    split
    · rename_i hjk
      subst hjk
      cases hg : Table.get j t with
      | none => rfl
      | some x => exact absurd (hc.2.1 _ (Table.get_mem hg)) (Nat.lt_irrefl _)
    · rename_i hjk
      simp [Table.get, hjk, ih hc.2.2]

/-- Changing values alone keeps keys and order. -/
theorem Table.wf_map {ok : α → Bool} {f : α → α} {t : List (Nat × α)} (hf : ∀ v, ok v = true → ok (f v) = true)
    (h : Table.wf ok t = true) : Table.wf ok (t.map fun e => (e.1, f e.2)) = true := by
  induction t with
  | nil => rfl
  | cons e t ih =>
    obtain ⟨j, w⟩ := e
    have hc := (Table.wf_cons ok j w t).mp h
    refine (Table.wf_cons ok j (f w) _).mpr ⟨hf w hc.1, ?_, ih hc.2.2⟩
    intro e he
    obtain ⟨x, hx, rfl⟩ := List.mem_map.mp he
    exact hc.2.1 x hx

/-! ### Canonical tables with bounded keys -/

theorem tableOk_nil (n : Nat) (ok : α → Bool) : tableOk n ok [] := ⟨rfl, by simp⟩

theorem tableOk_put {n k : Nat} {ok : α → Bool} {v : α} {t : List (Nat × α)} (h : tableOk n ok t) (hk : k < n)
    (hv : ok v = true) : tableOk n ok (Table.put k v t) :=
  ⟨Table.wf_put hv h.1, fun _ he => (Table.mem_put he).elim (fun x => x ▸ hk) (h.2 _)⟩

theorem tableOk_erase {n k : Nat} {ok : α → Bool} {t : List (Nat × α)} (h : tableOk n ok t) :
    tableOk n ok (Table.erase k t) := ⟨Table.wf_erase h.1, fun _ he => h.2 _ (Table.mem_erase he)⟩

theorem tableOk_map {n : Nat} {ok : α → Bool} {f : α → α} {t : List (Nat × α)}
    (hf : ∀ v, ok v = true → ok (f v) = true) (h : tableOk n ok t) :
    tableOk n ok (t.map fun e => (e.1, f e.2)) := by
  refine ⟨Table.wf_map hf h.1, ?_⟩
  intro e he
  obtain ⟨x, hx, rfl⟩ := List.mem_map.mp he
  exact h.2 x hx

theorem tableOk_get {n k : Nat} {ok : α → Bool} {v : α} {t : List (Nat × α)} (h : tableOk n ok t)
    (hg : Table.get k t = some v) : k < n := h.2 _ (Table.get_mem hg)

/-! ### Numbers -/

theorem findNumber_mem {n p : Nat} {r : PicRecord} {t : List (Nat × PicRecord)} (h : findNumber n t = some (p, r)) :
    (p, r) ∈ t ∧ r.number = some n := by
  induction t with
  | nil => cases h
  | cons e t ih =>
    obtain ⟨q, x⟩ := e
    simp only [findNumber] at h
    split at h
    · rename_i hx
      cases h
      exact ⟨by simp, hx⟩
    · exact ⟨List.mem_cons_of_mem _ (ih h).1, (ih h).2⟩

theorem freePlaceFrom_lt {t : List (Nat × PicRecord)} {f p q : Nat} (h : freePlaceFrom t f p = some q) :
    q < p + f ∧ Table.get q t = none := by
  induction f generalizing p with
  | zero => cases h
  | succ f ih =>
    simp only [freePlaceFrom] at h
    split at h
    · rename_i hp
      cases h
      exact ⟨by omega, by simpa using hp⟩
    · have := ih h
      exact ⟨by omega, this.2⟩

/-- The lowest FREE place is a place of the catalogue and is FREE (R5). -/
theorem lowestFree_spec {t : List (Nat × PicRecord)} {p : Nat} (h : lowestFree t = some p) :
    p < Config.placeCount ∧ Table.get p t = none := by
  have := freePlaceFrom_lt h
  exact ⟨by omega, this.2⟩

end Sys2Proof.Machine
end

