-- ==== Sys2Proof/Laws/Keeps.lean ====
section
/-! SUPPORT. The invariant through the shared operations: tables, write queue, block map, records. -/

namespace Sys2Proof.Machine

/-- The invariant, and the queue of waiting commands untouched. -/
def Kept (q : List Instr) (s : State) : Prop := s.pending = q ∧ Canonical s

variable {q : List Instr} {s : State}

/-! ### Parts -/

theorem Kept.places (h : Kept q s) : tableOk Config.placeCount anyValue s.cat.places := h.2.1
theorem Kept.memory (h : Kept q s) : memoryOk s.memory := h.2.2.1
theorem Kept.writer (h : Kept q s) : writerOk s.writer := h.2.2.2.1
theorem Kept.map (h : Kept q s) : mapOk s.map := h.2.2.2.2.1
theorem Kept.chain (h : Kept q s) : s.chain.chain.length ≤ Config.maxChain := h.2.2.2.2.2

/-- The invariant from its parts. -/
theorem Kept.of (hq : s.pending = q) (hp : tableOk Config.placeCount anyValue s.cat.places) (hm : memoryOk s.memory)
    (hw : writerOk s.writer) (hb : mapOk s.map) (hc : s.chain.chain.length ≤ Config.maxChain) : Kept q s :=
  ⟨hq, hp, hm, hw, hb, hc⟩

/-! ### Write queue -/

theorem Writer.mark_ok {w : Writer} {i : Item} (h : writerOk w) (hi : i.ok) : writerOk (w.mark i) := by
  unfold Writer.mark
  split
  · exact h
  · rename_i hc
    obtain ⟨hn, ho, hf⟩ := h
    refine ⟨?_, ?_, hf⟩
    · have hc' : i ∉ w.queue := by simpa using hc
      exact List.nodup_append.mpr ⟨hn, by simp, fun a ha b hb => by simp at hb; rintro rfl; exact hc' (hb ▸ ha)⟩
    · intro j hj
      rcases List.mem_append.mp hj with hj | hj
      · exact ho j hj
      · rw [List.mem_singleton.mp hj]
        exact hi

theorem Writer.markAll_ok {is : List Item} {w : Writer} (h : writerOk w) (hi : ∀ i ∈ is, i.ok) :
    writerOk (is.foldl (fun w i => w.mark i) w) := by
  induction is generalizing w with
  | nil => exact h
  | cons i is ih =>
    exact ih (Writer.mark_ok h (hi i (by simp))) fun j hj => hi j (List.mem_cons_of_mem _ hj)

theorem State.markDirty_kept (h : Kept q s) {i : Item} (hi : i.ok) : Kept q (s.markDirty i) :=
  Kept.of h.1 h.places h.memory (Writer.mark_ok h.writer hi) h.map h.chain

theorem State.markAll_kept (h : Kept q s) {is : List Item} (hi : ∀ i ∈ is, i.ok) : Kept q (s.markAll is) :=
  Kept.of h.1 h.places h.memory (Writer.markAll_ok h.writer hi) h.map h.chain

/-! ### Places -/

theorem Kept.record_lt (h : Kept q s) {p : Nat} {r : PicRecord} (hr : s.record p = some r) : p < Config.placeCount :=
  tableOk_get h.places hr

theorem Kept.number_lt (h : Kept q s) {n p : Nat} {r : PicRecord} (hr : findNumber n s.cat.places = some (p, r)) :
    p < Config.placeCount := h.places.2 _ (findNumber_mem hr).1

theorem State.setRecord_kept (h : Kept q s) {p : Nat} (hp : p < Config.placeCount) (r : PicRecord) :
    Kept q (s.setRecord p r) :=
  Kept.of h.1 (tableOk_put h.places hp rfl) h.memory h.writer h.map h.chain

theorem State.claim_kept (h : Kept q s) {p : Nat} (hp : p < Config.placeCount) (r : PicRecord) :
    Kept q (s.claim p r) := State.markDirty_kept (State.setRecord_kept h hp r) hp

theorem State.claimChanged_kept (h : Kept q s) {p : Nat} (hp : p < Config.placeCount) (r r' : PicRecord) :
    Kept q (s.claimChanged p r r') := by
  unfold State.claimChanged
  split
  · exact State.setRecord_kept h hp r'
  · exact State.claim_kept h hp r'

theorem State.dropRecord_kept (h : Kept q s) (p : Nat) : Kept q (s.dropRecord p) :=
  Kept.of h.1 (tableOk_erase h.places) h.memory h.writer h.map h.chain

theorem State.onNumber_kept (h : Kept q s) (n : Nat) {f : Nat → PicRecord → State → State}
    (hf : ∀ p r, p < Config.placeCount → Kept q (f p r s)) : Kept q (s.onNumber n f) := by
  unfold State.onNumber
  split
  · rename_i p r hr
    exact hf p r (h.number_lt hr)
  · exact h

/-! ### Block Map -/

theorem BlockMap.setState_ok {m : BlockMap} (h : mapOk m) (b : Nat) (x : BlockState) : mapOk (m.setState b x) := by
  unfold BlockMap.setState
  split
  · rename_i hb
    split
    · exact ⟨tableOk_erase h.1, h.2⟩
    · rename_i hx
      exact ⟨tableOk_put h.1 hb (by simp [hx]), h.2⟩
  · exact h

theorem BlockMap.setState_total (m : BlockMap) (b : Nat) (x : BlockState) : (m.setState b x).total = m.total := by
  unfold BlockMap.setState
  split <;> rfl

theorem BlockMap.returnAll_ok {m : BlockMap} (h : mapOk m) (w : ReturnWait) (bs : List Nat) :
    mapOk (m.returnAll w bs) := by
  unfold BlockMap.returnAll
  induction bs generalizing m with
  | nil => exact h
  | cons b bs ih =>
    refine ih ?_
    show mapOk (m.returnOne w b)
    unfold BlockMap.returnOne
    split
    · exact BlockMap.setState_ok h b _
    · exact h

theorem BlockMap.release_ok {m : BlockMap} (h : mapOk m) (n : Nat) : mapOk (m.release n) := h

theorem BlockMap.reserve_ok {m : BlockMap} (h : mapOk m) (n : Nat) : mapOk (m.reserve n) := h

theorem BlockMap.allocate_ok {m m' : BlockMap} (h : mapOk m) {n b : Nat} (ha : m.allocate n = some (b, m')) :
    mapOk m' := by
  unfold BlockMap.allocate at ha
  split at ha
  · split at ha
    · cases ha
      exact BlockMap.setState_ok h _ _
    · cases ha
  · cases ha

theorem State.onMap_kept (h : Kept q s) {f : BlockMap → BlockMap} (hf : mapOk (f s.map)) : Kept q (s.onMap f) :=
  Kept.of h.1 h.places h.memory h.writer hf h.chain

theorem badListOk_put {l : List (Nat × BadKind)} (h : badListOk l) (hl : l.length < Config.maxBad) (b : Nat)
    (k : BadKind) : badListOk (Table.put b k l) :=
  ⟨Table.wf_put rfl h.1, Nat.le_trans (Table.length_put b k l) hl⟩

theorem State.makeBad_kept (h : Kept q s) (b : Nat) (k : BadKind) : Kept q (s.makeBad b k) := by
  have h1 : Kept q (s.onMap (·.setState b .bad)) := State.onMap_kept h (BlockMap.setState_ok h.map b _)
  unfold State.makeBad
  dsimp only
  split
  · rename_i hl
    refine State.markDirty_kept (i := .badList) ?_ trivial
    exact Kept.of h1.1 h1.places h1.memory h1.writer ⟨h1.map.1, badListOk_put h1.map.2 hl b k⟩ h1.chain
  · split
    · exact h1
    · exact h1

theorem State.allocateFor_kept (h : Kept q s) (p : Nat) (place : Nat → PicRecord → PicRecord) :
    Kept q (s.allocateFor p place).1 := by
  unfold State.allocateFor
  split
  · exact h
  · rename_i r hr
    split
    · exact h
    · rename_i b m hm
      exact State.claimChanged_kept (s := { s with map := m })
        (Kept.of h.1 h.places h.memory h.writer (BlockMap.allocate_ok h.map hm) h.chain) (h.record_lt hr) _ _

/-- The same for an allocation whose answer is known. -/
theorem State.allocateFor_kept_of (h : Kept q s) {p : Nat} {place : Nat → PicRecord → PicRecord} {t : State}
    {b : Option Nat} (ht : s.allocateFor p place = (t, b)) : Kept q t := by
  have := State.allocateFor_kept h p place
  rw [ht] at this
  exact this

theorem State.replaceBlock_kept (h : Kept q s) (p i failed : Nat) (inRefresh : Bool) :
    Kept q (s.replaceBlock p i failed inRefresh).1 := by
  have h1 := State.makeBad_kept h failed .grown
  unfold State.replaceBlock
  dsimp only
  split
  · rename_i t b ht
    exact State.allocateFor_kept_of h1 ht
  · split
    · rename_i r hr
      exact State.claimChanged_kept h1 (h1.record_lt hr) _ _
    · exact h1

theorem State.replaceBlock_kept_of (h : Kept q s) {p i failed : Nat} {inRefresh : Bool} {t : State} {b : Option Nat}
    (ht : s.replaceBlock p i failed inRefresh = (t, b)) : Kept q t := by
  have := State.replaceBlock_kept h p i failed inRefresh
  rw [ht] at this
  exact this

/-! ### Records -/

theorem State.freePlace_kept (h : Kept q s) (p : Nat) : Kept q (s.freePlace p) := by
  unfold State.freePlace
  split
  · exact h
  · rename_i r hr
    refine State.markDirty_kept (i := .place p) (State.dropRecord_kept (State.onMap_kept h ?_) p) (h.record_lt hr)
    exact BlockMap.returnAll_ok (BlockMap.returnAll_ok (BlockMap.release_ok h.map _) _ _) _ _

theorem foldl_kept {f : State → α → State} (hf : ∀ t a, Kept q t → Kept q (f t a)) (l : List α) (h : Kept q s) :
    Kept q (l.foldl f s) := by
  induction l generalizing s with
  | nil => exact h
  | cons a l ih => exact ih (hf s a h)

theorem State.freePlaces_kept (h : Kept q s) (ps : List Nat) : Kept q (s.freePlaces ps) :=
  foldl_kept (fun _ p ht => State.freePlace_kept ht p) ps h

theorem State.failPlace_kept (h : Kept q s) (p : Nat) (c : FailCause) : Kept q (s.failPlace p c) := by
  unfold State.failPlace
  split
  · exact h
  · rename_i r hr
    exact State.claim_kept (State.onMap_kept h (BlockMap.returnAll_ok (BlockMap.release_ok h.map _) _ _))
      (h.record_lt hr) _

theorem State.releaseReserved_kept (h : Kept q s) (n : Nat) : Kept q (s.releaseReserved n) := by
  refine State.onNumber_kept h n fun p r _ => ?_
  split
  · exact State.freePlace_kept h p
  · exact h

theorem State.addHold_kept (h : Kept q s) (p : Nat) : Kept q (s.addHold p) := by
  unfold State.addHold
  split
  · rename_i r hr
    exact State.setRecord_kept h (h.record_lt hr) _
  · exact h

theorem State.dropHold_kept (h : Kept q s) (n : Nat) : Kept q (s.dropHold n) :=
  State.onNumber_kept h n fun _ _ hp => State.setRecord_kept h hp _

theorem State.createRecord_kept (h : Kept q s) (a : ArmFields) (n : Nat) : Kept q (s.createRecord a n).1 := by
  unfold State.createRecord
  split
  · exact h
  · rename_i p hp
    refine State.markDirty_kept (i := .place p) ?_ (lowestFree_spec hp).1
    exact Kept.of h.1 (tableOk_put h.places (lowestFree_spec hp).1 rfl) h.memory h.writer h.map h.chain

theorem State.createBurst_kept (a : ArmFields) (n k i : Nat) {s : State} (h : Kept q s) :
    Kept q (State.createBurst a n k i s).1 := by
  induction k generalizing i s with
  | zero => exact h
  | succ k ih => exact ih (i + 1) (State.createRecord_kept h { a with index := i } n)

end Sys2Proof.Machine
end

