-- ==== Sys2Proof/Laws/KeepsStore.lean ====
section
/-! SUPPORT. The invariant through the Shot Sequencer, the Flash Port and the Store Engine. -/

namespace Sys2Proof.Machine

variable {q : List Instr} {s t : State}

/-- The invariant reads the queue of commands and six parts of the state. -/
theorem Kept.same (h : Kept q s)
    (e : t.pending = s.pending ∧ t.memory = s.memory ∧ t.writer = s.writer ∧ t.cat.places = s.cat.places ∧
      t.map.total = s.map.total ∧ t.map.blocks = s.map.blocks ∧ t.map.badList = s.map.badList ∧
      t.chain.chain = s.chain.chain) : Kept q t := by
  obtain ⟨e1, e2, e3, e4, e5, e6, e7, e8⟩ := e
  refine Kept.of (e1 ▸ h.1) (e4 ▸ h.places) (e2 ▸ h.memory) (e3 ▸ h.writer) ?_ (e8 ▸ h.chain)
  have := h.map
  unfold mapOk at this ⊢
  rw [e5, e6, e7]
  exact this

theorem Kept.arrive (h : Kept q s) (m : Moment) : Kept q (s.arrive m) := h.same (by simp)
theorem Kept.setFlag (h : Kept q s) (f : EventFlag) : Kept q (s.setFlag f) := h.same (by simp)
theorem Kept.setFlagIf (h : Kept q s) (c : Bool) (f : EventFlag) : Kept q (s.setFlagIf c f) := h.same (by simp)
theorem Kept.onShot (h : Kept q s) (f : Shot → Shot) : Kept q (s.onShot f) := h.same (by simp)
theorem Kept.onBurst (h : Kept q s) (f : Burst → Burst) : Kept q (s.onBurst f) := h.onShot _
theorem Kept.onFlash (h : Kept q s) (f : FlashPort → FlashPort) : Kept q (s.onFlash f) := h.same (by simp)
theorem Kept.onStore (h : Kept q s) (f : StoreEngine → StoreEngine) : Kept q (s.onStore f) := h.same (by simp)
theorem Kept.onFocus (h : Kept q s) (f : Focus → Focus) : Kept q (s.onFocus f) := h.same (by simp)
theorem Kept.onZoom (h : Kept q s) (f : Zoom → Zoom) : Kept q (s.onZoom f) := h.same (by simp)
theorem Kept.respond (h : Kept q s) (k : Nat) (a : Answer) : Kept q (s.respond k a) := h.same (by simp)
theorem Kept.hunt (h : Kept q s) : Kept q s.hunt := h.same (by simp)
theorem Kept.dropSnapshot (h : Kept q s) : Kept q s.dropSnapshot := h.same (by simp)
theorem Kept.timers (h : Kept q s) (x : Timers) : Kept q { s with timers := x } := h.same (by simp)
theorem Kept.store (h : Kept q s) (x : StoreEngine) : Kept q { s with store := x } := h.same (by simp)
theorem Kept.lines (h : Kept q s) (x : Lines) : Kept q { s with lines := x } := h.same (by simp)

/-! ### Shot Sequencer -/

theorem State.shotRelease_kept (h : Kept q s) : Kept q s.shotRelease := by
  unfold State.shotRelease
  split
  · exact foldl_kept (fun _ n ht => State.releaseReserved_kept ht n) _ h
  · exact h

theorem State.shotIdle_kept (h : Kept q s) : Kept q s.shotIdle := by
  have h1 := State.shotRelease_kept h
  exact h1.same (by simp [State.shotIdle])

theorem State.shotEndFrame_kept (h : Kept q s) : Kept q s.shotEndFrame := h.same (by simp [State.shotEndFrame])

theorem State.shotFail_kept (h : Kept q s) (n : Nat) (m : Option Nat) (c : FailCause) : Kept q (s.shotFail n m c) :=
  State.onNumber_kept (State.shotEndFrame_kept h) n fun p _ hp =>
    State.failPlace_kept (State.setRecord_kept (State.shotEndFrame_kept h) hp _) p c

theorem State.shotAwait_kept (h : Kept q s) (n m : Nat) (c : Bool) : Kept q (s.shotAwait n m c) := by
  have h2 : Kept q (s.shotEndFrame.onNumber n fun p r t =>
      t.claim p ((r.exposed (some m) (steadyResult s.steady)).awaiting c)) :=
    State.onNumber_kept (State.shotEndFrame_kept h) n fun _ _ hp => State.claim_kept (State.shotEndFrame_kept h) hp _
  exact h2.same (by simp [State.shotAwait])

theorem State.shotNext_kept (h : Kept q s) : Kept q s.shotNext := by
  unfold State.shotNext
  split
  · split
    · exact State.shotIdle_kept h
    · exact h.onShot _
  · exact State.shotIdle_kept h

theorem State.shotConfirm_kept (h : Kept q s) : Kept q s.shotConfirm := by
  unfold State.shotConfirm
  split
  · rename_i e _
    refine State.shotNext_kept (Kept.setFlag ?_ _)
    split
    · exact State.shotFail_kept (h.onShot _) _ _ _
    · exact State.shotAwait_kept (h.onShot _) _ _ _
  · exact h

theorem State.shotClose_kept (h : Kept q s) : Kept q s.shotClose := by
  unfold State.shotClose
  dsimp only
  split
  · exact State.shotConfirm_kept ((h.onShot _).timers _)
  · exact (h.onShot _).timers _

theorem State.shotExpose_kept (h : Kept q s) (n : Nat) : Kept q (s.shotExpose n) :=
  State.onNumber_kept h n fun _ _ hp => State.claim_kept h hp _

theorem State.shotStart_kept (h : Kept q s) : Kept q s.shotStart := by
  unfold State.shotStart
  split
  · rename_i b _
    have h1 := (((State.shotExpose_kept h (nth b.numbers (b.next - 1))).onShot fun x =>
      { x with state := .exposing, burst := some { b with next := b.next + 1 }
               exposure := some { number := nth b.numbers (b.next - 1), tv := b.tv, av := b.av, closedAt := none
                                  cutShort := false } }))
    dsimp only
    split
    · exact State.shotClose_kept (h1.same (by simp))
    · exact h1.same (by simp)
  · exact h

theorem State.shotPrepared_kept (h : Kept q s) : Kept q s.shotPrepared := by
  unfold State.shotPrepared
  split
  · exact State.shotIdle_kept h
  · exact State.shotStart_kept h

theorem State.irisToBurst_kept (h : Kept q s) : Kept q s.irisToBurst := by
  unfold State.irisToBurst
  split
  · split
    · exact State.shotPrepared_kept h
    · exact h.onShot _
  · exact h

theorem State.shotPrepare_kept (h : Kept q s) : Kept q s.shotPrepare := State.irisToBurst_kept (h.onShot _)

theorem State.shotFrame_kept (h : Kept q s) : Kept q s.shotFrame := by
  unfold State.shotFrame
  split
  · exact h.onShot _
  · exact State.shotPrepare_kept h

theorem State.shotDue_kept (h : Kept q s) : Kept q s.shotDue := by
  unfold State.shotDue
  split
  · exact State.shotFrame_kept h
  · exact h.onShot _

theorem State.shotDueCheck_kept (h : Kept q s) : Kept q s.shotDueCheck := by
  unfold State.shotDueCheck
  split
  · exact State.shotDue_kept h
  · exact h

theorem State.shotQueueShrunk_kept (h : Kept q s) : Kept q s.shotQueueShrunk := by
  unfold State.shotQueueShrunk
  split
  · exact State.shotFrame_kept h
  · exact h

theorem State.shotSteadyReady_kept (h : Kept q s) : Kept q s.shotSteadyReady := by
  unfold State.shotSteadyReady
  split
  · exact State.shotPrepare_kept h
  · exact h

theorem State.shotDisarm_kept (h : Kept q s) : Kept q s.shotDisarm := by
  unfold State.shotDisarm
  split
  all_goals first
    | exact h
    | exact State.shotIdle_kept h
    | exact h.onBurst _
    | exact (State.shotRelease_kept h).onBurst _
    | exact State.shotClose_kept (((State.shotRelease_kept h).onBurst _).onShot _)

theorem State.shotArm_kept (h : Kept q s) (e : Computed) : Kept q (s.shotArm e).1 := by
  have h1 := State.createBurst_kept (armFields s (burstGroup s.shot) e) s.settings.reservation s.shot.setup.count 1 h
  have h2 := State.onMap_kept (f := (·.reserve (s.shot.setup.count * s.settings.reservation)))
    (State.markDirty_kept h1 (i := .counter) trivial) (BlockMap.reserve_ok (State.markDirty_kept h1 (i := .counter) trivial).map _)
  exact Kept.same (s := (((State.createBurst (armFields s (burstGroup s.shot) e) s.settings.reservation
    s.shot.setup.count 1 s).1.markDirty .counter).onMap (·.reserve (s.shot.setup.count * s.settings.reservation)))) h2
    (by simp [State.shotArm])

theorem State.shotTimeout_kept (h : Kept q s) : Kept q s.shotTimeout := by
  unfold State.shotTimeout
  split
  · split
    · exact State.shotIdle_kept ((State.shotFail_kept h _ _ _).setFlag _)
    · exact (((State.shotRelease_kept (State.shotFail_kept h _ _ _)).onShot _).setFlag _).setFlag _
  · exact h

theorem State.gyroGoodFrame_kept (h : Kept q s) (g : GyroFields) : Kept q (s.gyroGoodFrame g) := by
  have h1 : Kept q (s.gyroTake g) := h.same (by simp)
  unfold State.gyroGoodFrame
  dsimp only
  split
  · exact State.shotSteadyReady_kept h1
  · exact h1

/-! ### Flash Port -/

theorem State.flashAsk_kept (h : Kept q s) (c : Claimant) (op : FlashOp) : Kept q (s.flashAsk c op) := h.onFlash _

theorem State.flashWithdraw_kept (h : Kept q s) (c : Claimant) : Kept q (s.flashWithdraw c) := by
  unfold State.flashWithdraw
  split
  · exact h.onFlash _
  · exact h

theorem State.flashDiscard_kept (h : Kept q s) (c : Claimant) : Kept q (s.flashDiscard c) := h.onFlash _

theorem State.flashSettle_kept (h : Kept q s) : Kept q s.flashSettle := by
  unfold State.flashSettle
  split
  · exact h.onFlash _
  · exact h

theorem State.flashProtect_kept (h : Kept q s) : Kept q s.flashProtect := State.flashSettle_kept (h.onFlash _)

theorem State.flashFollowMode_kept (h : Kept q s) : Kept q s.flashFollowMode := by
  unfold State.flashFollowMode
  split
  · exact h
  · exact h.onFlash _

theorem State.flashRegister_kept (h : Kept q s) (data : List Byte) : Kept q (s.flashRegister data) := h.onFlash _

theorem State.flashLoad_kept (h : Kept q s) (op : FlashOp) : Kept q (s.flashLoad op) := by
  unfold State.flashLoad
  split
  · exact State.flashRegister_kept h _
  · exact h

theorem State.flashGrant_kept (h : Kept q s) (c : Claimant) (op : FlashOp) (mid : MiddleGrant) :
    Kept q (s.flashGrant c op mid) := by
  unfold State.flashGrant
  dsimp only
  split
  · exact (State.flashLoad_kept (h.onFlash _) _).store _
  · exact State.flashLoad_kept (h.onFlash _) _

theorem flashResult_kept (h : Kept q s) {kind : FlashOp → Bool} {f : InFlightOp → State → State}
    (hf : ∀ x t, Kept q t → Kept q (f x t)) : Kept q (flashResult kind f s) := by
  unfold flashResult
  split
  · split
    · exact hf _ _ (State.flashSettle_kept (h.onFlash _))
    · exact h
  · exact h

/-! ### Store Engine -/

theorem State.storeStart_kept (h : Kept q s) : Kept q s.storeStart := by
  unfold State.storeStart
  split
  · exact h.setFlag _
  · exact ((State.onNumber_kept h _ fun _ _ hp => State.claim_kept h hp _).onStore _).timers _

theorem State.storeHeldStart_kept (h : Kept q s) : Kept q s.storeHeldStart := by
  unfold State.storeHeldStart
  split
  · exact State.storeStart_kept (h.onStore _)
  · exact h

theorem State.storeWithdraw_kept (h : Kept q s) (b : Bool) : Kept q (s.storeWithdraw b) := by
  unfold State.storeWithdraw
  split
  · split
    · exact h
    · exact State.flashWithdraw_kept h _
  · exact h

theorem State.storeClose_kept (h : Kept q s) : Kept q s.storeClose :=
  ((State.flashDiscard_kept (State.storeWithdraw_kept h false) .store).onStore _).timers _

theorem State.storeFail_kept (h : Kept q s) (n : Nat) (c : FailCause) : Kept q (s.storeFail n c) := by
  have h1 := (State.onNumber_kept h n (f := fun p _ s => s.failPlace p c) fun p _ _ => State.failPlace_kept h p c).onStore
    fun e => { e with queue := removeFirst n e.queue }
  unfold State.storeFail
  dsimp only
  refine Kept.setFlag ?_ _
  split
  · exact State.storeClose_kept h1
  · exact h1

theorem State.storeFailBound_kept (h : Kept q s) (c : FailCause) : Kept q (s.storeFailBound c) := by
  unfold State.storeFailBound
  split
  · exact State.storeFail_kept h _ c
  · exact h

theorem State.storeAskProgram_kept (h : Kept q s) (d : List Byte) : Kept q (s.storeAskProgram d) := by
  unfold State.storeAskProgram
  split
  · exact h.onFlash _
  · exact h

theorem State.storeProgram_kept (h : Kept q s) (d : List Byte) : Kept q (s.storeProgram d) := by
  unfold State.storeProgram
  split
  · exact State.storeAskProgram_kept h d
  · split
    · exact State.storeFailBound_kept h _
    · split
      · split
        · rename_i ht
          exact State.storeAskProgram_kept (State.allocateFor_kept_of h ht) d
        · exact State.storeFailBound_kept h _
      · exact h

theorem State.storeKick_kept (h : Kept q s) : Kept q s.storeKick := by
  unfold State.storeKick
  split
  · exact h
  · split
    · exact (h.onStore _).onFlash _
    · exact State.storeProgram_kept h _
    · exact h

theorem State.storeGoOn_kept (h : Kept q s) : Kept q s.storeGoOn :=
  State.shotQueueShrunk_kept (State.storeHeldStart_kept (State.storeKick_kept h))

theorem State.storeRecoverNext_kept (h : Kept q s) (r : Recovery) : Kept q (s.storeRecoverNext r) := by
  unfold State.storeRecoverNext
  dsimp only
  split
  · split
    · exact (h.onStore _).onFlash _
    · exact h.onStore _
  · exact State.storeAskProgram_kept (h.onStore _) _

theorem State.storeReplace_kept (h : Kept q s) : Kept q s.storeReplace := by
  unfold State.storeReplace
  split
  · dsimp only
    split
    · rename_i ht
      exact State.storeRecoverNext_kept (State.replaceBlock_kept_of h ht) _
    · rename_i ht
      exact State.storeGoOn_kept (State.storeFailBound_kept ((State.replaceBlock_kept_of h ht).onStore _) _)
  · exact h

theorem State.storeProgramDone_kept (h : Kept q s) (d p : Bool) : Kept q (s.storeProgramDone d p) := by
  unfold State.storeProgramDone
  split
  · exact State.storeGoOn_kept (h.onStore _)
  · split
    · exact State.storeGoOn_kept (h.onStore _)
    · exact State.storeReplace_kept h

theorem State.storeCopyDone_kept (h : Kept q s) (d : Bool) (cs : List SectorCount) (p : Bool) :
    Kept q (s.storeCopyDone d cs p) := by
  have h1 : Kept q (if anyUncorrectable cs then s.onStore fun e => { e with loss := true } else s) := by
    split
    · exact h.onStore _
    · exact h
  unfold State.storeCopyDone
  split
  · exact State.storeGoOn_kept (h.onStore _)
  · dsimp only
    split
    · split
      · exact State.storeRecoverNext_kept h1 _
      · exact State.storeReplace_kept h1
    · exact h1

theorem State.storeStored_kept (h : Kept q s) (x : EndFields) (n : Nat) : Kept q (s.storeStored x n) :=
  ((State.onNumber_kept h n fun _ r hp =>
    State.claim_kept (State.onMap_kept h (BlockMap.release_ok h.map r.remaining)) hp _).onStore _).setFlag _

theorem State.storeEnd_kept (h : Kept q s) : Kept q s.storeEnd := by
  unfold State.storeEnd
  split
  · refine State.storeGoOn_kept ?_
    split
    · exact State.storeStored_kept h _ _
    · exact State.storeFailBound_kept h _
  · exact h

theorem State.storePowerLow_kept (h : Kept q s) : Kept q s.storePowerLow := by
  have h1 := foldl_kept (f := fun s n => s.onNumber n fun p _ s => s.failPlace p .power)
    (fun t n ht => State.onNumber_kept ht n fun p _ _ => State.failPlace_kept ht p .power) s.store.queue h
  exact ((State.storeWithdraw_kept (State.storeClose_kept h1) true).onStore _).setFlagIf _ _

end Sys2Proof.Machine
end

