-- ==== Sys2Proof/Laws/KeepsRead.lean ====
section
/-! SUPPORT. The invariant through the Read Chain, refresh, the Block Map's own work and the In Lane. -/

namespace Sys2Proof.Machine

variable {q : List Instr} {s t : State}

/-- A change of the Read Chain that lengthens the chain beyond 16 at no time keeps the invariant. -/
theorem Kept.onChain (h : Kept q s) {f : ReadChain → ReadChain} (hf : (f s.chain).chain.length ≤ Config.maxChain) :
    Kept q (s.onChain f) := Kept.of h.1 h.places h.memory h.writer h.map hf

/-! ### Read Chain -/

theorem State.onHead_kept (h : Kept q s) (f : Descriptor → Descriptor) : Kept q (s.onHead f) := by
  refine h.onChain ?_
  have := h.chain
  revert this
  dsimp only
  cases s.chain.chain <;> simp

theorem State.chainAskPage_kept (h : Kept q s) : Kept q s.chainAskPage := by
  unfold State.chainAskPage
  split
  · split
    · exact (h.onChain h.chain).onFlash _
    · exact h
  · exact h

theorem State.chainReport_kept (h : Kept q s) (n : Nat) (cs : List SectorCount) : Kept q (s.chainReport n cs) := by
  refine State.onNumber_kept h n fun p r hp => ?_
  dsimp only
  split
  · exact h
  · exact (State.claim_kept h hp _).setFlagIf _ _

theorem State.chainPageRead_kept (h : Kept q s) (x : PageRead) : Kept q (s.chainPageRead x) := by
  unfold State.chainPageRead
  split
  · have h1 := fun d cs f => State.onHead_kept (State.chainReport_kept h d cs) f
    exact (h1 _ _ _).onChain (h1 _ _ _).chain
  · exact h

theorem State.itemGone_kept (h : Kept q s) : Kept q s.itemGone := h.onChain h.chain

theorem State.chainSent_kept (h : Kept q s) (n : Nat) : Kept q (s.chainSent n) := by
  have h1 := State.onHead_kept h fun d => { d with position := d.position + n }
  unfold State.chainSent
  dsimp only
  split
  · split
    · exact h1.onChain h1.chain
    · split
      · exact State.chainAskPage_kept (h1.onChain h1.chain)
      · exact h1
  · exact h1

theorem State.dropHold_chain (s : State) (n : Nat) : (s.dropHold n).chain = s.chain := by
  unfold State.dropHold State.onNumber
  split <;> rfl

theorem State.chainPop_kept (h : Kept q s) : Kept q s.chainPop := by
  unfold State.chainPop
  split
  · rename_i d l hl
    refine (State.dropHold_kept h d.number).onChain ?_
    have := h.chain
    rw [hl] at this
    exact Nat.le_of_succ_le this
  · exact h

theorem State.chainAppend_kept (h : Kept q s) (p n o l : Nat) (b : Bool) (hl : s.chain.chain.length < Config.maxChain) :
    Kept q (s.chainAppend p n o l b) := by
  refine (State.addHold_kept h p).onChain ?_
  have e : (s.addHold p).chain = s.chain := by
    unfold State.addHold
    split <;> rfl
  rw [e]
  simpa using Nat.succ_le_of_lt hl

theorem State.chainEmpty_kept (h : Kept q s) (owed : Option (Nat × Bool)) : Kept q (s.chainEmpty owed) := by
  have h1 := foldl_kept (f := fun (s : State) (d : Descriptor) => s.dropHold d.number)
    (fun t d ht => State.dropHold_kept ht d.number) s.chain.chain h
  exact State.flashDiscard_kept (State.flashWithdraw_kept (h1.onChain (Nat.zero_le _)) _) _

/-! ### Refresh -/

theorem State.refreshOver_kept (h : Kept q s) : Kept q s.refreshOver :=
  State.flashDiscard_kept (State.flashWithdraw_kept (h.onChain h.chain) _) _

theorem refreshRecord_lt (h : Kept q s) {p : Nat} {r : PicRecord} (hr : refreshRecord s = some (p, r)) :
    p < Config.placeCount := by
  unfold refreshRecord at hr
  split at hr
  · exact h.number_lt hr
  · cases hr

theorem State.refreshDrop_kept (h : Kept q s) (u : Bool) : Kept q (s.refreshDrop u) := by
  unfold State.refreshDrop
  split
  · rename_i p r hr
    exact State.refreshOver_kept (State.claim_kept
      (State.onMap_kept h (BlockMap.returnAll_ok (BlockMap.release_ok h.map _) _ _)) (refreshRecord_lt h hr) _)
  · exact State.refreshOver_kept h

theorem State.refreshMarkNext_kept (h : Kept q s) : Kept q s.refreshMarkNext := by
  unfold State.refreshMarkNext
  split
  · exact (h.onChain h.chain).onFlash _
  · exact h

theorem State.refreshAbandon_kept (h : Kept q s) (u : Bool) : Kept q (s.refreshAbandon u) :=
  (State.refreshMarkNext_kept (State.refreshDrop_kept h u)).setFlag _

theorem State.refreshRead_kept (h : Kept q s) : Kept q s.refreshRead := by
  unfold State.refreshRead
  split
  · dsimp only
    split
    · split
      · rename_i ht
        exact (State.allocateFor_kept_of h ht).onFlash _
      · exact State.refreshAbandon_kept h _
    · exact h.onFlash _
  · exact h

theorem State.refreshKick_kept (h : Kept q s) : Kept q s.refreshKick := by
  unfold State.refreshKick
  split
  · split
    · exact State.refreshMarkNext_kept h
    · exact State.refreshRead_kept h
  · exact h

theorem State.onRefresh_kept (h : Kept q s) (f : Refresh → Refresh) : Kept q (s.onRefresh f) := h.onChain h.chain

theorem State.refreshAskProgram_kept (h : Kept q s) : Kept q s.refreshAskProgram := by
  unfold State.refreshAskProgram
  split
  · exact h.onFlash _
  · exact h

theorem State.refreshPageRead_kept (h : Kept q s) (x : PageRead) : Kept q (s.refreshPageRead x) := by
  unfold State.refreshPageRead
  split
  · exact State.refreshAbandon_kept h _
  · exact State.refreshAskProgram_kept (State.onRefresh_kept h _)

theorem State.refreshComplete_kept (h : Kept q s) : Kept q s.refreshComplete := by
  unfold State.refreshComplete
  split
  · rename_i p r hr
    exact (State.refreshMarkNext_kept (State.refreshOver_kept (State.claim_kept
      (State.onMap_kept h (BlockMap.returnAll_ok (BlockMap.release_ok h.map _) _ _))
      (refreshRecord_lt h hr) _))).setFlag _
  · exact h

theorem State.refreshRecovered_kept (h : Kept q s) : Kept q s.refreshRecovered := h.onChain h.chain

theorem State.refreshRecoverNext_kept (h : Kept q s) (v : Recovery) : Kept q (s.refreshRecoverNext v) := by
  have h1 := State.onRefresh_kept h fun r => { r with recovery := some v }
  unfold State.refreshRecoverNext
  dsimp only
  split
  · split
    · exact h1.onFlash _
    · exact h1
  · exact State.refreshAskProgram_kept h1

theorem State.refreshReplace_kept (h : Kept q s) : Kept q s.refreshReplace := by
  unfold State.refreshReplace
  split
  · dsimp only
    split
    · rename_i ht
      exact State.refreshRecoverNext_kept (State.replaceBlock_kept_of h ht) _
    · rename_i ht
      exact State.refreshAbandon_kept (State.onRefresh_kept (State.replaceBlock_kept_of h ht) _) _
  · exact h

theorem State.refreshProgramDone_kept (h : Kept q s) (p : Bool) : Kept q (s.refreshProgramDone p) := by
  have h1 := State.refreshRecovered_kept h
  unfold State.refreshProgramDone
  split
  · split
    · dsimp only
      split
      · exact State.refreshKick_kept (State.onRefresh_kept h1 _)
      · exact State.refreshComplete_kept h1
    · exact State.refreshReplace_kept h
  · exact h

theorem State.refreshCopyDone_kept (h : Kept q s) (cs : List SectorCount) (p : Bool) :
    Kept q (s.refreshCopyDone cs p) := by
  unfold State.refreshCopyDone
  split
  · split
    · exact State.refreshAbandon_kept h _
    · split
      · exact State.refreshRecoverNext_kept h _
      · exact State.refreshReplace_kept h
  · exact h

theorem State.refreshStart_kept (h : Kept q s) {p : Nat} (hp : p < Config.placeCount) (r : PicRecord) :
    Kept q (s.refreshStart p r) := by
  have h1 := State.claim_kept (State.onMap_kept h (f := (·.reserve r.extent.length)) (BlockMap.reserve_ok h.map _)) hp
    { r with remaining := r.extent.length, holds := r.holds + 1, refreshExtent := some [] }
  exact State.refreshKick_kept (h1.onChain h1.chain)

theorem State.chainPowerLow_kept (h : Kept q s) : Kept q s.chainPowerLow := by
  have h1 := State.chainEmpty_kept h none
  have h2 := h1.onChain (f := fun c => { c with item := c.item.map fun x => { x with notify := false } }) h1.chain
  have h3 : Kept q (if ((s.chainEmpty none).onChain fun c =>
      { c with item := c.item.map fun x => { x with notify := false } }).chain.refresh.isSome then
      ((s.chainEmpty none).onChain fun c =>
        { c with item := c.item.map fun x => { x with notify := false } }).refreshDrop false
      else ((s.chainEmpty none).onChain fun c => { c with item := c.item.map fun x => { x with notify := false } })) := by
    split
    · exact State.refreshDrop_kept h2 _
    · exact h2
  have h4 := State.flashWithdraw_kept h3 .refresh
  exact h4.onChain h4.chain

/-! ### Prepare and background work -/

theorem State.preparePhase_kept (h : Kept q s) (x : Option PreparePhase) : Kept q (s.preparePhase x) :=
  State.onMap_kept h h.map

theorem State.backgroundDrop_kept (h : Kept q s) : Kept q s.backgroundDrop :=
  State.flashDiscard_kept (State.flashWithdraw_kept (State.onMap_kept h h.map) _) _

theorem State.prepareBegin_kept (h : Kept q s) : Kept q s.prepareBegin := by
  have h1 := State.backgroundDrop_kept h
  have h2 := State.onMap_kept (f := fun m =>
    { m with mode := .preparing, identity := none, prepare := some (.identityNone false) }) h1 h1.map
  have h3 := State.markAll_kept (State.markDirty_kept h2 (i := .identity) trivial) (is := allPlaces.map Item.place) (by
    intro i hi
    obtain ⟨p, hp, rfl⟩ := List.mem_map.mp hi
    exact List.mem_range.mp hp)
  have h4 := fun ps => State.freePlaces_kept h3 ps
  exact State.flashFollowMode_kept (State.onMap_kept (h4 _) ⟨tableOk_nil _ _, (h4 _).map.2⟩)

theorem State.prepareAsk_kept (h : Kept q s) (x : PreparePhase) (op : FlashOp) : Kept q (s.prepareAsk x op) :=
  (State.preparePhase_kept h _).onFlash _

theorem State.prepareUnprepared_kept (h : Kept q s) : Kept q s.prepareUnprepared :=
  State.flashFollowMode_kept (State.onMap_kept h h.map)

theorem badListOk_nil : badListOk [] := ⟨rfl, Nat.zero_le _⟩

theorem State.prepareTooMany_kept (h : Kept q s) : Kept q s.prepareTooMany :=
  (State.prepareUnprepared_kept (State.markDirty_kept
    (State.onMap_kept h ⟨tableOk_nil _ _, badListOk_nil⟩) (i := .badList) trivial)).setFlagIf _ _

theorem State.prepareBad_kept (h : Kept q s) (hl : s.map.badList.length < Config.maxBad) (b : Nat) (k : BadKind) :
    Kept q (s.prepareBad b k) := by
  refine State.markDirty_kept (State.onMap_kept h ?_) (i := .badList) trivial
  exact ⟨(BlockMap.setState_ok h.map b .bad).1, badListOk_put h.map.2 hl b k⟩

theorem State.prepareErase_kept (h : Kept q s) (b : Nat) : Kept q (s.prepareErase b) := by
  unfold State.prepareErase
  split
  · exact State.prepareAsk_kept h _ _
  · exact State.markDirty_kept (State.onMap_kept h h.map) (i := .identity) trivial

theorem State.prepareScanNext_kept (h : Kept q s) (b : Nat) : Kept q (s.prepareScanNext b) := by
  unfold State.prepareScanNext
  split
  · exact State.prepareAsk_kept h _ _
  · exact State.prepareErase_kept (State.markDirty_kept h (i := .badList) trivial) _

theorem State.prepareScanned_kept (h : Kept q s) {b : Nat} {x : PageRead} (ht : s.prepareScanned b x = some t) :
    Kept q t := by
  unfold State.prepareScanned at ht
  split at ht
  · cases ht
    exact State.onMap_kept h (BlockMap.setState_ok h.map b _)
  · split at ht
    · rename_i hl
      cases ht
      exact State.prepareBad_kept h hl b _
    · cases ht

theorem State.prepareErased_kept (h : Kept q s) {b : Nat} {p : Bool} (ht : s.prepareErased b p = some t) :
    Kept q t := by
  unfold State.prepareErased at ht
  split at ht
  · cases ht
    exact State.onMap_kept h (BlockMap.setState_ok h.map b _)
  · split at ht
    · rename_i hl
      cases ht
      exact State.prepareBad_kept h hl b _
    · cases ht

theorem State.prepareStopped_kept (h : Kept q s) : Kept q s.prepareStopped := by
  unfold State.prepareStopped
  split
  · exact State.preparePhase_kept h _
  · exact h

theorem State.prepareRead_kept (h : Kept q s) (b : Nat) (x : PageRead) : Kept q (s.prepareRead b x) := by
  unfold State.prepareRead
  split
  · exact State.prepareTooMany_kept h
  · rename_i t ht
    have h1 := State.prepareScanned_kept h ht
    split
    · exact State.prepareStopped_kept h1
    · exact State.prepareScanNext_kept h1 b

theorem State.prepareEraseDone_kept (h : Kept q s) (b : Nat) (p : Bool) : Kept q (s.prepareEraseDone b p) := by
  unfold State.prepareEraseDone
  split
  · exact State.prepareTooMany_kept h
  · rename_i t ht
    have h1 := State.prepareErased_kept h ht
    split
    · exact State.prepareStopped_kept h1
    · split
      · exact State.prepareErase_kept h1 _
      · exact State.prepareAsk_kept h1 _ _

theorem State.prepareMarked_kept (h : Kept q s) (b : Nat) : Kept q (s.prepareMarked b) := by
  unfold State.prepareMarked
  split
  · exact State.prepareStopped_kept h
  · exact State.prepareErase_kept h _

theorem State.preparePowerLow_kept (h : Kept q s) : Kept q s.preparePowerLow := by
  unfold State.preparePowerLow
  split
  · have h1 : ∀ x, Kept q ((s.onMap fun m =>
        { m with mode := .unprepared, total := 0, blocks := [], prepare := x }).flashWithdraw .prepare) :=
      fun x => State.flashWithdraw_kept (State.onMap_kept h ⟨tableOk_nil _ _, h.map.2⟩) .prepare
    dsimp only
    split <;> split
    · exact State.markDirty_kept (State.onMap_kept (h1 _) (h1 _).map) (i := .identity) trivial
    · exact h1 _
    · exact State.markDirty_kept (State.onMap_kept (h1 _) (h1 _).map) (i := .identity) trivial
    · exact h1 _
  · exact h

theorem State.backgroundAsk_kept (h : Kept q s) (b : Nat) (x : BackPhase) (op : FlashOp) :
    Kept q (s.backgroundAsk b x op) := (State.onMap_kept h h.map).onFlash _

theorem State.backgroundDone_kept (h : Kept q s) : Kept q s.backgroundDone := State.onMap_kept h h.map

theorem State.backgroundNext_kept (h : Kept q s) (b : Nat) (x : BackPhase) (op : FlashOp) :
    Kept q (s.backgroundNext b x op) := by
  unfold State.backgroundNext
  split
  · exact State.backgroundAsk_kept h _ _ _
  · exact State.backgroundDone_kept h

theorem State.backgroundErased_kept (h : Kept q s) (b : Nat) (p : Bool) : Kept q (s.backgroundErased b p) := by
  have h1 := State.backgroundDone_kept h
  unfold State.backgroundErased
  dsimp only
  split
  · exact State.onMap_kept h1 (BlockMap.setState_ok h1.map b _)
  · have h2 := State.makeBad_kept h1 b .grown
    split
    · exact h2.onFlash _
    · exact h2

theorem State.backgroundRead_kept (h : Kept q s) (x : PageRead) : Kept q (s.backgroundRead x) := by
  have h1 := State.backgroundDone_kept h
  unfold State.backgroundRead
  split
  · split
    · exact State.makeBad_kept h1 _ _
    · exact State.backgroundNext_kept h _ _ _
  · split
    · exact State.onMap_kept h1 (BlockMap.setState_ok h1.map _ _)
    · exact State.backgroundNext_kept h _ _ _
  · exact h

theorem pageReadResult_kept (r : PageRead) (x : InFlightOp) (t : State) (h : Kept q t) :
    Kept q (pageReadResult r x t) := by
  unfold pageReadResult
  (repeat' split) <;> first
    | exact h
    | exact State.chainPageRead_kept h _
    | exact State.refreshKick_kept h
    | exact State.refreshPageRead_kept h _
    | exact State.prepareRead_kept h _ _
    | exact State.backgroundRead_kept h _

/-! ### In Lane -/

theorem State.laneFree_kept (h : Kept q s) : Kept q s.laneFree := h.same (by simp)

theorem laneBlock_kept (h : Kept q s) (k : Byte) (n : Nat) {f : State → State} (hf : ∀ t, Kept q t → Kept q (f t)) :
    Kept q (laneBlock k n f s) := by
  unfold laneBlock
  (repeat' split) <;> first
    | exact h
    | exact State.laneFree_kept h
    | exact hf _ (State.laneFree_kept h)
    | exact hf _ h

theorem State.pictureStart_kept (h : Kept q s) : Kept q s.pictureStart := by
  unfold State.pictureStart
  split
  · exact h
  · split
    · exact State.storeStart_kept h
    · exact State.storeGoOn_kept (State.storeStart_kept (State.storeFailBound_kept h _))
    · split
      · exact h.setFlag _
      · exact h.onStore _

theorem State.pictureDataBad_kept (h : Kept q s) : Kept q s.pictureDataBad := by
  unfold State.pictureDataBad
  split
  · exact State.storeGoOn_kept (State.storeFailBound_kept h _)
  · exact h

theorem State.pictureData_kept (h : Kept q s) (b : List Byte) : Kept q (s.pictureData b) := by
  unfold State.pictureData
  split
  · exact State.pictureDataBad_kept h
  · split
    · exact State.storeGoOn_kept ((h.onStore _).timers _)
    · exact h

theorem State.pictureEnd_kept (h : Kept q s) (x : EndFields) : Kept q (s.pictureEnd x) := by
  unfold State.pictureEnd
  split
  · exact State.storeGoOn_kept ((h.onStore _).timers _)
  · exact h

end Sys2Proof.Machine
end

