-- ==== Sys2Proof/Laws/KeepsPower.lean ====
section
/-! SUPPORT. The invariant through start-up, POWER_LOW, the Record Writer and the lens table's commit, and what an event
or a request needs to keep it. -/

namespace Sys2Proof.Machine

variable {q : List Instr} {s t : State}

/-! ### Record Memory -/

theorem RecordMemory.write_ok {m : RecordMemory} (h : memoryOk m) {c : Copy} (hc : c.ok) : memoryOk (m.write c) := by
  cases c with
  | place p r =>
    cases r with
    | none => exact ⟨tableOk_erase h.1, h.2⟩
    | some r => exact ⟨tableOk_put h.1 hc rfl, h.2⟩
  | badList l => exact ⟨h.1, fun l' e => by cases e; exact hc⟩
  | _ => exact h

theorem RecordMemory.tear_ok {m : RecordMemory} (h : memoryOk m) {c : Copy} (hc : c.ok) : memoryOk (m.tear c) := by
  cases c with
  | place p r => exact ⟨tableOk_put h.1 hc rfl, h.2⟩
  | badList l => exact ⟨h.1, fun l' e => by cases e⟩
  | _ => exact h

theorem memoryAfterCut_ok (h : Kept q s) : memoryOk (memoryAfterCut s) := by
  unfold memoryAfterCut
  split
  · rename_i c hc
    exact RecordMemory.tear_ok h.memory (h.writer.2.2 c hc)
  · exact h.memory

/-! ### Start-up -/

theorem writerOk_empty : writerOk { queue := [], inFlight := none } :=
  ⟨List.nodup_nil, fun _ hi => absurd hi (by simp), fun _ hc => absurd hc (by simp)⟩

theorem rebuildPlaces_mem (total : Nat) (l : List (Nat × Durable PicRecord)) :
    (∀ e ∈ (rebuildPlaces total l).1, ∃ x ∈ l, x.1 = e.1) ∧ (∀ p ∈ (rebuildPlaces total l).2, ∃ x ∈ l, x.1 = p) := by
  induction l with
  | nil => simp [rebuildPlaces]
  | cons e l ih =>
    obtain ⟨p, d⟩ := e
    obtain ⟨i1, i2⟩ := ih
    unfold rebuildPlaces
    dsimp only
    split
    · constructor
      · intro e he
        obtain ⟨x, hx, hxe⟩ := i1 e he
        exact ⟨x, List.mem_cons_of_mem _ hx, hxe⟩
      · intro e he
        rcases List.mem_cons.mp he with rfl | he
        · exact ⟨_, List.mem_cons_self, rfl⟩
        · obtain ⟨x, hx, hxe⟩ := i2 e he
          exact ⟨x, List.mem_cons_of_mem _ hx, hxe⟩
    · constructor
      · intro e he
        rcases List.mem_cons.mp he with rfl | he
        · exact ⟨_, List.mem_cons_self, rfl⟩
        · obtain ⟨x, hx, hxe⟩ := i1 e he
          exact ⟨x, List.mem_cons_of_mem _ hx, hxe⟩
      · intro e he
        split at he
        · obtain ⟨x, hx, hxe⟩ := i2 e he
          exact ⟨x, List.mem_cons_of_mem _ hx, hxe⟩
        · rcases List.mem_cons.mp he with rfl | he
          · exact ⟨_, List.mem_cons_self, rfl⟩
          · obtain ⟨x, hx, hxe⟩ := i2 e he
            exact ⟨x, List.mem_cons_of_mem _ hx, hxe⟩

theorem rebuildPlaces_ok {n total : Nat} {l : List (Nat × Durable PicRecord)} (h : tableOk n anyValue l) :
    tableOk n anyValue (rebuildPlaces total l).1 := by
  refine ⟨?_, fun e he => ?_⟩
  · have hw := h.1
    clear h
    induction l with
    | nil => rfl
    | cons e l ih =>
      obtain ⟨p, d⟩ := e
      have hc := (Table.wf_cons anyValue p d l).mp hw
      have := ih hc.2.2
      unfold rebuildPlaces
      dsimp only
      split
      · exact this
      · refine (Table.wf_cons _ _ _ _).mpr ⟨rfl, fun e he => ?_, this⟩
        obtain ⟨x, hx, hxe⟩ := (rebuildPlaces_mem total l).1 e he
        exact hxe ▸ hc.2.1 x hx
  · obtain ⟨x, hx, hxe⟩ := (rebuildPlaces_mem total l).1 e he
    exact hxe ▸ h.2 x hx

theorem settleBlocks_mem (taken : List Nat) (l : List (Nat × PicRecord)) :
    (settleBlocks taken l).1.map (·.1) = l.map (·.1) ∧ ∀ p ∈ (settleBlocks taken l).2.1, ∃ x ∈ l, x.1 = p := by
  induction l generalizing taken with
  | nil => simp [settleBlocks]
  | cons e l ih =>
    obtain ⟨p, r⟩ := e
    unfold settleBlocks
    dsimp only
    split
    · split
      · refine ⟨by simp [(ih taken).1], fun j hj => ?_⟩
        rcases List.mem_cons.mp hj with rfl | hj
        · exact ⟨_, List.mem_cons_self, rfl⟩
        · obtain ⟨x, hx, hxe⟩ := (ih taken).2 j hj
          exact ⟨x, List.mem_cons_of_mem _ hx, hxe⟩
      · refine ⟨by simp [(ih (taken ++ r.extent)).1], fun j hj => ?_⟩
        obtain ⟨x, hx, hxe⟩ := (ih (taken ++ r.extent)).2 j hj
        exact ⟨x, List.mem_cons_of_mem _ hx, hxe⟩
    · refine ⟨by simp [(ih taken).1], fun j hj => ?_⟩
      obtain ⟨x, hx, hxe⟩ := (ih taken).2 j hj
      exact ⟨x, List.mem_cons_of_mem _ hx, hxe⟩

/-- A canonical table with any values on the same keys is canonical. -/
theorem tableOk_keys {n : Nat} {l : List (Nat × α)} {l' : List (Nat × β)} (h : tableOk n anyValue l)
    (e : l'.map (·.1) = l.map (·.1)) : tableOk n anyValue l' := by
  induction l generalizing l' with
  | nil =>
    cases l' with
    | nil => exact tableOk_nil _ _
    | cons => simp at e
  | cons x l ih =>
    cases l' with
    | nil => simp at e
    | cons y l' =>
      obtain ⟨p, v⟩ := x
      obtain ⟨p', v'⟩ := y
      simp only [List.map_cons, List.cons.injEq] at e
      obtain ⟨rfl, e⟩ := e
      have hc := (Table.wf_cons anyValue p' v l).mp h.1
      have hi := ih ⟨hc.2.2, fun e he => h.2 e (List.mem_cons_of_mem _ he)⟩ e
      refine ⟨(Table.wf_cons _ _ _ _).mpr ⟨rfl, fun z hz => ?_, hi.1⟩, fun z hz => ?_⟩
      · have : z.1 ∈ l.map (·.1) := e ▸ List.mem_map_of_mem hz
        obtain ⟨x, hx, hxe⟩ := List.mem_map.mp this
        exact hxe ▸ hc.2.1 x hx
      · rcases List.mem_cons.mp hz with rfl | hz
        · exact h.2 (p', v) (by simp)
        · exact hi.2 z hz

theorem setStates_ok {m : BlockMap} (h : mapOk m) (l : List α) (b : α → Nat) (x : BlockState) :
    mapOk (l.foldl (fun m e => m.setState (b e) x) m) := by
  induction l generalizing m with
  | nil => exact h
  | cons e l ih => exact ih (BlockMap.setState_ok h _ _)

theorem rebuiltMap_ok {m : RecordMemory} (h : memoryOk m) (kept : List Nat) : mapOk (rebuiltMap m kept) := by
  unfold rebuiltMap
  dsimp only
  refine setStates_ok (setStates_ok ⟨tableOk_nil _ _, ?_⟩ _ _ _) kept id _
  cases hb : m.badList with
  | good l => exact h.2 l hb
  | torn => exact badListOk_nil

theorem startUpDirty_ok {m : RecordMemory} {changed damaged : List Nat} {c : Bool}
    (h1 : ∀ p ∈ changed, p < Config.placeCount) (h2 : ∀ p ∈ damaged, p < Config.placeCount) :
    ∀ i ∈ startUpDirty m changed c damaged, i.ok := by
  intro i hi
  unfold startUpDirty at hi
  simp only [List.mem_append, List.mem_map] at hi
  rcases hi with ((hi | ⟨p, hp, rfl⟩) | hi) | ⟨p, hp, rfl⟩
  · cases hs : m.settings <;> simp [hs] at hi
    subst hi
    trivial
  · exact h1 p hp
  · cases c <;> simp at hi
    subst hi
    trivial
  · exact h2 p hp

theorem State.resetPart_kept (h : Kept q s) (k : ResetCause) : Kept q (s.resetPart k) := by
  have hm := memoryAfterCut_ok h
  unfold State.resetPart
  dsimp only
  have hp := rebuildPlaces_ok (total := identityTotal (memoryAfterCut s).identity) hm.1
  have hc := (rebuildPlaces_mem (identityTotal (memoryAfterCut s).identity) (memoryAfterCut s).places).2
  have hs := settleBlocks_mem [] (rebuildPlaces (identityTotal (memoryAfterCut s).identity) (memoryAfterCut s).places).1
  refine State.markAll_kept ?_ (startUpDirty_ok ?_ ?_)
  · exact Kept.of h.1 (tableOk_keys hp hs.1) hm writerOk_empty (rebuiltMap_ok hm _) (Nat.zero_le _)
  · intro p hp'
    obtain ⟨x, hx, rfl⟩ := hc p hp'
    exact hm.1.2 x hx
  · intro p hp'
    obtain ⟨x, hx, rfl⟩ := hs.2 p hp'
    exact hp.2 x hx

/-- Right after reset the invariant holds of the factory-fresh part. -/
theorem factory_parts : memoryOk factoryMemory ∧ mapOk State.reset.map ∧ writerOk State.reset.writer :=
  ⟨⟨tableOk_nil _ _, fun l e => by cases e; exact badListOk_nil⟩, ⟨tableOk_nil _ _, badListOk_nil⟩,
    writerOk_empty⟩

theorem powerLost_kept (h : Kept q s) : Kept q { State.reset with
    pending := s.pending, lines := s.lines, memory := memoryAfterCut s
    supply := { State.reset.supply with powered := false } } :=
  Kept.of h.1 (tableOk_nil _ _) (memoryAfterCut_ok h) factory_parts.2.2 factory_parts.2.1 (Nat.zero_le _)

/-! ### POWER_LOW and the end of start-up -/

theorem State.takePowerLow_kept (h : Kept q s) : Kept q s.takePowerLow := by
  have h0 : Kept q ({ s with supply := { s.supply with powerLow := true, shutdown := .draining } }.setFlag .powerLow) :=
    h.same (by simp)
  have h1 := State.preparePowerLow_kept (State.chainPowerLow_kept (State.storePowerLow_kept (State.shotDisarm_kept h0)))
  exact State.flashProtect_kept (h1.same (by simp))

theorem State.startUpEnd_kept (h : Kept q s) : Kept q s.startUpEnd := by
  have h0 : Kept q { s with
      memory := { s.memory with mark := .good .running }
      writer := { s.writer with inFlight := none }
      supply := { s.supply with shutdown := .running }
      shot := { s.shot with iris := .startRun } } :=
    Kept.of h.1 h.places h.memory ⟨h.writer.1, h.writer.2.1, fun c hc => absurd hc (by simp)⟩ h.map h.chain
  have h1 := (State.flashFollowMode_kept h0).setFlag .started
  unfold State.startUpEnd
  dsimp only
  split
  · exact State.takePowerLow_kept h1
  · exact h1

/-! ### The Record Writer -/

theorem State.onPending_kept (h : Kept q s) (f : Response → Response) : Kept q (s.onPending f) := h.same (by simp)

theorem copyOf_ok (h : Kept q s) {i : Item} (hi : i.ok) : (copyOf s i).ok := by
  cases i <;> first | exact hi | exact h.map.2 | trivial

theorem BlockMap.mapStates_ok {m : BlockMap} (h : mapOk m) {f : BlockState → BlockState}
    (hf : ∀ v, (v != .unchecked) = true → (f v != .unchecked) = true) : mapOk (m.mapStates f) :=
  ⟨tableOk_map hf h.1, h.2⟩

theorem BlockState.onBegin_listed (p : Nat) (v : BlockState) (h : (v != .unchecked) = true) :
    (v.onBegin p != .unchecked) = true := by
  unfold BlockState.onBegin
  split
  · split <;> rfl
  · exact h

theorem BlockState.onComplete_listed (p : Nat) (v : BlockState) (h : (v != .unchecked) = true) :
    (v.onComplete p != .unchecked) = true := by
  unfold BlockState.onComplete
  split
  · split <;> rfl
  · exact h

theorem BlockMap.writeBegins_ok {m : BlockMap} (h : mapOk m) (i : Item) : mapOk (m.writeBegins i) := by
  cases i <;> first | exact BlockMap.mapStates_ok h (BlockState.onBegin_listed _) | exact h

theorem BlockMap.writeCompletes_ok {m : BlockMap} (h : mapOk m) (i : Item) : mapOk (m.writeCompletes i) := by
  cases i <;> first | exact BlockMap.mapStates_ok h (BlockState.onComplete_listed _) | exact h

/-- The head item's write begins. -/
theorem writeBegins_kept (h : Kept q s) {i : Item} {l : List Item} (hl : s.writer.queue = i :: l) :
    Kept q (((({ s with writer := { s.writer with queue := l } } : State).beginWrite (copyOf s i)).onPending
      (heldBegin i)).onMap (·.writeBegins i)) := by
  have hi : i.ok := h.writer.2.1 i (by simp [hl])
  have hn := h.writer.1
  rw [hl] at hn
  refine State.onMap_kept ?_ (BlockMap.writeBegins_ok h.map i)
  refine Kept.of h.1 h.places h.memory ⟨(List.nodup_cons.mp hn).2, fun j hj => ?_, fun c hc => ?_⟩ h.map h.chain
  · exact h.writer.2.1 j (by rw [hl]; exact List.mem_cons_of_mem _ hj)
  · cases hc
    exact copyOf_ok h hi

/-- The mark's write begins. -/
theorem beginMark_kept (h : Kept q s) (k : Mark) : Kept q (s.beginWrite (.mark k)) :=
  Kept.of h.1 h.places h.memory ⟨h.writer.1, h.writer.2.1, fun c hc => by cases hc; trivial⟩ h.map h.chain

theorem writeDone_kept (h : Kept q s) {c : Copy} (hc : s.writer.inFlight = some c) :
    Kept q { s with memory := s.memory.write c, writer := { s.writer with inFlight := none } } :=
  Kept.of h.1 h.places (RecordMemory.write_ok h.memory (h.writer.2.2 c hc))
    ⟨h.writer.1, h.writer.2.1, fun c hc => absurd hc (by simp)⟩ h.map h.chain

theorem State.markDone_kept (h : Kept q s) : Kept q s.markDone := h.same (by simp [State.markDone])

/-! ### The lens table -/

theorem State.zoomReconcile_kept (h : Kept q s) (l : List StationEntry) : Kept q (s.zoomReconcile l) := h.same (by simp)

theorem State.zoomCommit_kept (h : Kept q s) : Kept q s.zoomCommit := by
  have h0 := State.markDirty_kept (h.onZoom fun z => { z with working := some (s.zoom.staging.filterMap id) })
    (i := .lensTable) trivial
  unfold State.zoomCommit
  dsimp only
  (repeat' split) <;> first
    | exact h0.same (by simp)
    | exact ((State.zoomReconcile_kept h0 _).same (by simp))

/-! ### Events and requests -/

/-- An event keeps what its effect keeps. -/
theorem event_kept (h : Kept q s) (m : Moment) {f : State → State} (hf : ∀ t, Kept q t → Kept q (f t))
    (ht : event m f s = .next t) : Kept q t := by
  unfold event at ht
  split at ht <;> cases ht
  · exact hf _ (h.arrive m)
  · exact h

theorem frameGate_kept (h : Kept q s) {f : State → State} (hf : ∀ t, Kept q t → Kept q (f t)) :
    Kept q (frameGate f s) := by
  unfold frameGate
  (repeat' split) <;> first
    | exact h
    | exact h.hunt
    | exact h.hunt.setFlag _
    | exact hf _ h.hunt

/-- A request keeps what its owner keeps. -/
theorem request_kept (h : Kept q s) (k : Nat) (m : Moment) {owner : State → State × Answer}
    (hf : ∀ t, Kept q t → Kept q (owner t).1) (ht : request k m owner s = .next t) : Kept q t := by
  refine event_kept h m (fun u hu => frameGate_kept hu fun v hv => ?_) ht
  have hv' : Kept q (if k = nextPartKind then v else v.dropSnapshot) := by
    split
    · exact hv
    · exact hv.dropSnapshot
  unfold dispatch
  dsimp only
  split
  · exact hv'.respond _ _
  · exact (hf _ hv').respond _ _

end Sys2Proof.Machine
end

