-- ==== Sys2Proof/Laws/Blocks.lean ====
section
/-! SUPPORT. What the Block Map's and the Catalogue's shared operations do: states after a change, returned blocks, a
freed place, the blocks that stand in records, the numbers found. -/

namespace Sys2Proof.Machine

/-! ### Tables in canonical form -/

/-- In a canonical table an entry is what its key reads. -/
theorem Table.get_of_mem {ok : α → Bool} {t : List (Nat × α)} (h : Table.wf ok t = true) {k : Nat} {v : α}
    (hm : (k, v) ∈ t) : Table.get k t = some v := by
  induction t with
  | nil => cases hm
  | cons e t ih =>
    obtain ⟨j, w⟩ := e
    have hc := (Table.wf_cons ok j w t).mp h
    simp only [Table.get]
    rcases List.mem_cons.mp hm with he | he
    · cases he
      simp
    · have : j < k := hc.2.1 _ he
      have hne : j ≠ k := by omega
      simp [hne, ih hc.2.2 he]

/-- Taking off a key that is not listed changes nothing. -/
theorem Table.erase_of_get {k : Nat} {t : List (Nat × α)} (h : Table.get k t = none) : Table.erase k t = t := by
  induction t with
  | nil => rfl
  | cons e t ih =>
    obtain ⟨j, w⟩ := e
    simp only [Table.get] at h
    simp only [Table.erase]
    split at h
    · cases h
    · rename_i hj
      simp [hj, ih h]

theorem Table.length_le {ok : α → Bool} {n : Nat} {t : List (Nat × α)} (h : tableOk n ok t) : t.length ≤ n := by
  have : ∀ (t : List (Nat × α)) (lo : Nat), Table.wf ok t = true → (∀ e ∈ t, e.1 < n) → (∀ e ∈ t, lo ≤ e.1) → lo ≤ n →
      t.length + lo ≤ n := by
    intro t
    induction t with
    | nil => intro lo _ _ _ h; simpa using h
    | cons e t ih =>
      intro lo hw hn hlo hle
      obtain ⟨j, w⟩ := e
      have hc := (Table.wf_cons ok j w t).mp hw
      have h1 : j < n := hn (j, w) (by simp)
      have h2 : lo ≤ j := hlo (j, w) (by simp)
      have := ih (j + 1) hc.2.2 (fun e he => hn e (List.mem_cons_of_mem _ he)) (fun e he => hc.2.1 e he) h1
      simp only [List.length_cons]
      omega
  simpa using this t 0 h.1 h.2 (fun _ _ => Nat.zero_le _) (Nat.zero_le _)

/-! ### Block states -/

theorem BlockMap.stateOf_setState {m : BlockMap} (h : mapOk m) {b : Nat} (hb : b < m.total) (x : BlockState) (j : Nat) :
    (m.setState b x).stateOf j = if j = b then x else m.stateOf j := by
  unfold BlockMap.setState BlockMap.stateOf
  rw [if_pos hb]
  dsimp only
  split
  · rename_i hx
    split
    · rename_i hj
      rw [hj, Table.get_erase_same h.1.1, hx]
      rfl
    · rename_i hj
      rw [Table.get_erase_other hj]
  · split
    · rename_i hj
      rw [hj, Table.get_put_same]
      rfl
    · rename_i hj
      rw [Table.get_put_other hj]

/-- A block that reads other than UNCHECKED is known. -/
theorem BlockMap.listed_lt {m : BlockMap} (h : mapOk m) {b : Nat} (hb : m.stateOf b ≠ .unchecked) : b < m.total := by
  unfold BlockMap.stateOf at hb
  cases hg : Table.get b m.blocks with
  | none => exact absurd (by rw [hg]; rfl) hb
  | some x => exact tableOk_get h.1 hg

theorem BlockMap.returnAll_other {m : BlockMap} (w : ReturnWait) {bs : List Nat} {j : Nat} (hj : j ∉ bs) :
    (m.returnAll w bs).stateOf j = m.stateOf j := by
  unfold BlockMap.returnAll
  induction bs generalizing m with
  | nil => rfl
  | cons b bs ih =>
    have h1 : j ≠ b := fun e => hj (by simp [e])
    have h2 : j ∉ bs := fun e => hj (by simp [e])
    refine (ih h2).trans ?_
    show (m.returnOne w b).stateOf j = _
    unfold BlockMap.returnOne
    split
    · unfold BlockMap.setState
      split
      · unfold BlockMap.stateOf
        dsimp only
        split
        · rw [Table.get_erase_other h1]
        · rw [Table.get_put_other h1]
      · rfl
    · rfl

theorem BlockMap.returnOne_state {m : BlockMap} (h : mapOk m) (w : ReturnWait) (b j : Nat) :
    (m.returnOne w b).stateOf j = if j = b ∧ m.stateOf b = .inUse then .dirty w else m.stateOf j := by
  unfold BlockMap.returnOne
  split
  · rename_i hb
    rw [BlockMap.stateOf_setState h (BlockMap.listed_lt h (by rw [hb]; simp))]
    by_cases hj : j = b <;> simp [hj, hb]
  · rename_i hb
    by_cases hj : j = b <;> simp [hj, hb]

/-- Each returned IN_USE block is DIRTY and waits as given (R39). -/
theorem BlockMap.returnAll_inUse {m : BlockMap} (h : mapOk m) (w : ReturnWait) {bs : List Nat} {j : Nat} (hj : j ∈ bs)
    (hi : m.stateOf j = .inUse) : (m.returnAll w bs).stateOf j = .dirty w := by
  unfold BlockMap.returnAll
  induction bs generalizing m with
  | nil => cases hj
  | cons b bs ih =>
    show (BlockMap.returnAll w bs (m.returnOne w b)).stateOf j = _
    have hk : mapOk (m.returnOne w b) := BlockMap.returnAll_ok h w [b]
    by_cases hjb : j = b
    · subst hjb
      have h1 : (m.returnOne w j).stateOf j = .dirty w := by
        rw [BlockMap.returnOne_state h]
        simp [hi]
      by_cases hin : j ∈ bs
      · have : ∀ (bs : List Nat) (m : BlockMap), mapOk m → m.stateOf j = .dirty w →
            (BlockMap.returnAll w bs m).stateOf j = .dirty w := by
          intro bs
          induction bs with
          | nil => intro m _ h; exact h
          | cons c bs ih2 =>
            intro m hm h
            refine ih2 (m.returnOne w c) (BlockMap.returnAll_ok hm w [c]) ?_
            rw [BlockMap.returnOne_state hm]
            split
            · rfl
            · exact h
        exact this bs _ hk h1
      · rw [BlockMap.returnAll_other w hin]
        exact h1
    · have hin : j ∈ bs := by
        rcases List.mem_cons.mp hj with e | e
        · exact absurd e hjb
        · exact e
      refine ih hk hin ?_
      rw [BlockMap.returnOne_state h]
      simp [hjb, hi]

theorem BlockMap.mapStates_state (m : BlockMap) (f : BlockState → BlockState) (hf : f .unchecked = .unchecked) (b : Nat) :
    (m.mapStates f).stateOf b = f (m.stateOf b) := by
  unfold BlockMap.mapStates BlockMap.stateOf
  dsimp only
  have : ∀ t : List (Nat × BlockState),
      (Table.get b (t.map fun e => (e.1, f e.2))).getD .unchecked = f ((Table.get b t).getD .unchecked) := by
    intro t
    induction t with
    | nil => simp [Table.get, hf]
    | cons e t ih =>
      obtain ⟨j, x⟩ := e
      simp only [List.map_cons, Table.get]
      split
      · rfl
      · exact ih
  exact this m.blocks

/-! ### A freed place -/

theorem State.record_claim (s : State) (p j : Nat) (r : PicRecord) :
    (s.claim p r).record j = if j = p then some r else s.record j := by
  unfold State.record
  rw [State.claim_cat]
  dsimp only
  split
  · rename_i h
    rw [h, Table.get_put_same]
  · rename_i h
    rw [Table.get_put_other h]

theorem State.record_setRecord (s : State) (p j : Nat) (r : PicRecord) :
    (s.setRecord p r).record j = if j = p then some r else s.record j := State.record_claim s p j r

theorem State.record_claimChanged (s : State) (p j : Nat) (r r' : PicRecord) :
    (s.claimChanged p r r').record j = if j = p then some r' else s.record j := by
  unfold State.claimChanged
  split
  · exact State.record_setRecord s p j r'
  · exact State.record_claim s p j r'

/-! ### An allocation into a record -/

/-- All that an allocation for a record does when a block is handed out (R37). -/
theorem State.allocateFor_some {s t : State} {p b : Nat} {place : Nat → PicRecord → PicRecord}
    (h : s.allocateFor p place = (t, some b)) :
    ∃ r m, s.record p = some r ∧ s.map.allocate r.remaining = some (b, m) ∧
      t = { s with map := m }.claimChanged p r (place b { r with remaining := r.remaining - 1 }) := by
  unfold State.allocateFor at h
  split at h
  · cases h
  · rename_i r hr
    split at h
    · cases h
    · rename_i c m hm
      cases h
      exact ⟨r, m, hr, hm, rfl⟩

/-- NO BLOCK changes nothing (R37). -/
theorem State.allocateFor_none {s t : State} {p : Nat} {place : Nat → PicRecord → PicRecord}
    (h : s.allocateFor p place = (t, none)) :
    t = s ∧ ∀ r, s.record p = some r → s.map.allocate r.remaining = none := by
  unfold State.allocateFor at h
  split at h
  · rename_i hr
    cases h
    exact ⟨rfl, fun r h => by simp [hr] at h⟩
  · rename_i r hr
    split at h
    · rename_i hm
      cases h
      refine ⟨rfl, fun x hx => ?_⟩
      cases hr.symm.trans hx
      exact hm
    · cases h

/-- A block put into the refresh extent changes what Record Memory keeps only through the reservation (R4, R85). -/
theorem PicRecord.onRefresh_durable (f : List Nat → List Nat) (r : PicRecord) :
    (PicRecord.onRefresh f { r with remaining := r.remaining - 1 }).durable = r.durable ↔ r.remaining = 0 := by
  simp only [PicRecord.onRefresh, PicRecord.durable, PicRecord.mk.injEq, and_true, true_and]
  omega

theorem PicRecord.appendRefresh_durable (b : Nat) (r : PicRecord) :
    (PicRecord.appendRefresh b { r with remaining := r.remaining - 1 }).durable = r.durable ↔ r.remaining = 0 :=
  PicRecord.onRefresh_durable (· ++ [b]) r

/-- A block put at the tail of the extent list always changes what Record Memory keeps (R59). -/
theorem PicRecord.appendExtent_durable (b n : Nat) (r : PicRecord) :
    (PicRecord.appendExtent b { r with remaining := n }).durable ≠ r.durable := by
  simp [PicRecord.appendExtent, PicRecord.durable]

/-! ### The blocks that stand in records -/

/-- What stands in a canonical table stands at one key or in the rest. -/
theorem Table.flatMap_erase {ok : α → Bool} (f : α → List Nat) {k : Nat} {v : α} {t : List (Nat × α)}
    (hw : Table.wf ok t = true) (hg : Table.get k t = some v) :
    (t.flatMap fun e => f e.2).Perm (f v ++ (Table.erase k t).flatMap fun e => f e.2) := by
  induction t with
  | nil => cases hg
  | cons e t ih =>
    obtain ⟨j, w⟩ := e
    simp only [Table.get, Table.erase] at hg ⊢
    split at hg
    · cases hg
      rename_i hj
      simp [hj]
    · rename_i hj
      simp only [hj, if_false, List.flatMap_cons]
      refine ((ih ((Table.wf_cons ok j w t).mp hw).2.2 hg).append_left (f w)).trans ?_
      rw [← List.append_assoc, ← List.append_assoc]
      exact List.perm_append_comm.append_right _

/-- A change at one key changes what stands there alone. -/
theorem Table.flatMap_put {ok : α → Bool} (f : α → List Nat) (k : Nat) (v : α) {t : List (Nat × α)}
    (hw : Table.wf ok t = true) :
    ((Table.put k v t).flatMap fun e => f e.2).Perm (f v ++ (Table.erase k t).flatMap fun e => f e.2) := by
  induction t with
  | nil => simp [Table.put, Table.erase]
  | cons e t ih =>
    obtain ⟨j, w⟩ := e
    have hc := (Table.wf_cons ok j w t).mp hw
    simp only [Table.put, Table.erase]
    by_cases h1 : k < j
    · have hne : j ≠ k := by omega
      have he : Table.erase k t = t := by
        cases hg : Table.get k t with
        | some x => exact absurd (hc.2.1 _ (Table.get_mem hg)) (by dsimp only; omega)
        | none => exact Table.erase_of_get hg
      simp [h1, hne, he]
    · by_cases h2 : j = k
      · simp [h2]
      · simp only [h1, h2, if_false, List.flatMap_cons]
        refine ((ih hc.2.2).append_left (f w)).trans ?_
        rw [← List.append_assoc, ← List.append_assoc]
        exact List.perm_append_comm.append_right _

/-- A number summed over a canonical table: one entry's share and that of the rest. -/
theorem Table.sum_erase {ok : α → Bool} (f : α → Nat) {k : Nat} {v : α} {t : List (Nat × α)}
    (hw : Table.wf ok t = true) (hg : Table.get k t = some v) :
    (t.map fun e => f e.2).sum = f v + ((Table.erase k t).map fun e => f e.2).sum := by
  induction t with
  | nil => cases hg
  | cons e t ih =>
    obtain ⟨j, w⟩ := e
    simp only [Table.get, Table.erase] at hg ⊢
    split at hg
    · cases hg
      rename_i hj
      simp [hj]
    · rename_i hj
      simp only [hj, if_false, List.map_cons, List.sum_cons]
      rw [ih ((Table.wf_cons ok j w t).mp hw).2.2 hg]
      omega

/-- A number summed over a table after a change at one key. -/
theorem Table.sum_put {ok : α → Bool} (f : α → Nat) (k : Nat) (v : α) {t : List (Nat × α)}
    (hw : Table.wf ok t = true) :
    ((Table.put k v t).map fun e => f e.2).sum = f v + ((Table.erase k t).map fun e => f e.2).sum := by
  induction t with
  | nil => simp [Table.put, Table.erase]
  | cons e t ih =>
    obtain ⟨j, w⟩ := e
    have hc := (Table.wf_cons ok j w t).mp hw
    simp only [Table.put, Table.erase]
    by_cases h1 : k < j
    · have hne : j ≠ k := by omega
      have he : Table.erase k t = t := by
        cases hg : Table.get k t with
        | some x => exact absurd (hc.2.1 _ (Table.get_mem hg)) (by dsimp only; omega)
        | none => exact Table.erase_of_get hg
      simp [h1, hne, he]
    · by_cases h2 : j = k
      · simp [h2]
      · simp only [h1, h2, if_false, List.map_cons, List.sum_cons]
        rw [ih hc.2.2]
        omega

/-- The law of R36 from checks on the blocks that are listed. -/
theorem blocksLawful_of_check {s : State} (hn : (heldBlocks s).Nodup)
    (hu : ∀ b ∈ heldBlocks s, s.map.stateOf b = .inUse)
    (hl : ∀ e ∈ s.map.blocks, e.2 = .inUse → e.1 ∈ heldBlocks s) : BlocksLawful s := by
  refine ⟨hn, fun b => ⟨fun h => ?_, hu b⟩⟩
  unfold BlockMap.stateOf at h
  cases hg : Table.get b s.map.blocks with
  | none => rw [hg] at h; cases h
  | some x =>
    rw [hg] at h
    exact hl _ (Table.get_mem hg) h

/-! ### Numbers -/

/-- A number that no entry holds is not found. -/
theorem findNumber_none {n : Nat} {t : List (Nat × PicRecord)} :
    findNumber n t = none ↔ ∀ e ∈ t, e.2.number ≠ some n := by
  induction t with
  | nil => simp [findNumber]
  | cons e t ih =>
    obtain ⟨p, r⟩ := e
    simp only [findNumber]
    split
    · rename_i h
      simp [h]
    · rename_i h
      simp [ih, h]

end Sys2Proof.Machine
end

