-- ==== Sys2Proof/Laws/Flags.lean ====
section
/-! SUPPORT. The event flags bit by bit: which flags are set after one is set, and when ATTN is high. -/

namespace Sys2Proof.Machine

theorem EventFlag.bit_lt (f : EventFlag) : f.bit < 16 := by cases f <;> decide

theorem EventFlag.bit_inj {f g : EventFlag} (h : f.bit = g.bit) : f = g := by
  cases f <;> cases g <;> first | rfl | (exact absurd h (by decide))

theorem EventFlag.word_bit (f : EventFlag) (i : Nat) : f.word.getLsbD i = decide (i = f.bit) := by
  have hf := f.bit_lt
  simp only [EventFlag.word, BitVec.getLsbD_shiftLeft, BitVec.getLsbD_one]
  by_cases h : i = f.bit
  · simp [h, hf]
  · have : i < f.bit ∨ f.bit < i := by omega
    rcases this with h' | h'
    · simp [h, h']
    · have h2 : ¬ i < f.bit := by omega
      have h3 : i - f.bit ≠ 0 := by omega
      simp [h, h2, h3]

/-- A flag is set when its bit is. -/
theorem Events.has_bit (e : Events) (f : EventFlag) : e.has f = e.flags.getLsbD f.bit := by
  unfold Events.has
  have hb := f.bit_lt
  cases h : e.flags.getLsbD f.bit with
  | true =>
    simp only [bne_iff_ne, ne_eq]
    intro hz
    have := congrArg (fun w : Half => w.getLsbD f.bit) hz
    simp [EventFlag.word_bit, h] at this
  | false =>
    simp only [bne_eq_false_iff_eq]
    apply BitVec.eq_of_getLsbD_eq
    intro i hi
    simp only [BitVec.getLsbD_and, EventFlag.word_bit, BitVec.getLsbD_zero]
    by_cases hib : i = f.bit
    · simp [hib, h]
    · simp [hib]

/-- Setting a flag sets it and no other. -/
theorem has_setFlag (s : State) (f g : EventFlag) : (s.setFlag f).events.has g = (decide (g = f) || s.events.has g) := by
  simp only [Events.has_bit, State.setFlag_events, BitVec.getLsbD_or, EventFlag.word_bit]
  by_cases h : g = f
  · simp [h]
  · have : g.bit ≠ f.bit := fun e => h (EventFlag.bit_inj e)
    simp [h, this]

/-- Every bit of a flag word is some flag's. -/
theorem EventFlag.ofBit (i : Nat) (h : i < 16) : ∃ f : EventFlag, f.bit = i :=
  match i, h with
  | 0, _ => ⟨.shotEnded, rfl⟩
  | 1, _ => ⟨.burstEnded, rfl⟩
  | 2, _ => ⟨.pictureStored, rfl⟩
  | 3, _ => ⟨.storeFailed, rfl⟩
  | 4, _ => ⟨.readNotice, rfl⟩
  | 5, _ => ⟨.focusEnded, rfl⟩
  | 6, _ => ⟨.zoomEnded, rfl⟩
  | 7, _ => ⟨.lensFault, rfl⟩
  | 8, _ => ⟨.steadyFault, rfl⟩
  | 9, _ => ⟨.shutterFault, rfl⟩
  | 10, _ => ⟨.storeReadOnly, rfl⟩
  | 11, _ => ⟨.maintenanceDone, rfl⟩
  | 12, _ => ⟨.weakFound, rfl⟩
  | 13, _ => ⟨.powerLow, rfl⟩
  | 14, _ => ⟨.linkOrder, rfl⟩
  | 15, _ => ⟨.started, rfl⟩
  | n + 16, h => absurd h (by omega)

/-- ATTN is high exactly while a flag is set whose mask bit is 1 (R188). -/
theorem attn_iff (s : State) :
    attn s = true ↔ ∃ f : EventFlag, s.events.has f = true ∧ s.events.mask.getLsbD f.bit = true := by
  unfold attn
  simp only [bne_iff_ne, ne_eq, Events.has_bit]
  constructor
  · intro h
    apply Classical.byContradiction
    intro hn
    apply h
    apply BitVec.eq_of_getLsbD_eq
    intro i hi
    obtain ⟨f, rfl⟩ := EventFlag.ofBit i hi
    have := not_exists.mp hn f
    cases hf : s.events.flags.getLsbD f.bit <;> simp_all
  · rintro ⟨f, h1, h2⟩ hz
    have := congrArg (fun w : Half => w.getLsbD f.bit) hz
    simp [h1, h2] at this

end Sys2Proof.Machine
end

