-- ==== Sys2Proof/Laws/Gyro.lean ====
section
/-! SUPPORT. What bytes on the gyro line do to the Stabilizer's receiver, said once: the hunt, a frame that takes its bytes,
one that the sixth completes, one whose time has passed; and which frames a receiver opens to. -/

namespace Sys2Proof.Machine

/-- The hunt passes over every byte but the start marker (R150). -/
theorem gyro_hunting_pass {w : List (List Byte)} : ∀ {bs : List Byte}, (∀ x ∈ bs, x ≠ gyroMarker) →
    bs.foldl GyroReceiver.takeByte ⟨.hunting, w⟩ = ⟨.hunting, w⟩
  | [], _ => rfl
  | x :: t, h => by
    rw [List.foldl_cons, show GyroReceiver.takeByte ⟨.hunting, w⟩ x = ⟨.hunting, w⟩ from if_neg (h x (by simp))]
    exact gyro_hunting_pass fun y hy => h y (by simp [hy])

/-- The start marker begins a frame (R150). -/
theorem gyro_hunting_marker {w : List (List Byte)} :
    GyroReceiver.takeByte ⟨.hunting, w⟩ gyroMarker = ⟨.assembling [] 0, w⟩ := rfl

/-- A frame whose time has passed takes no byte (R150, log 56). -/
theorem gyro_frame_still {w : List (List Byte)} {h : List Byte} {t : Nat} (ht : Config.gyroLimit < t) :
    ∀ bs : List Byte, bs.foldl GyroReceiver.takeByte ⟨.assembling h t, w⟩ = ⟨.assembling h t, w⟩
  | [] => rfl
  | x :: l => by
    rw [List.foldl_cons, show GyroReceiver.takeByte ⟨.assembling h t, w⟩ x = ⟨.assembling h t, w⟩ from if_pos ht]
    exact gyro_frame_still ht l

/-- While its time lasts a frame takes its bytes, whatever their values, up to the fifth (R150). -/
theorem gyro_frame_bytes {w : List (List Byte)} {t : Nat} (ht : t ≤ Config.gyroLimit) :
    ∀ (bs : List Byte) {h : List Byte}, h.length + bs.length < Config.gyroBytes →
    bs.foldl GyroReceiver.takeByte ⟨.assembling h t, w⟩ = ⟨.assembling (h ++ bs) t, w⟩
  | [], h, _ => by simp
  | x :: l, h, hl => by
    simp only [List.length_cons] at hl
    have hs : GyroReceiver.takeByte ⟨.assembling h t, w⟩ x = ⟨.assembling (h ++ [x]) t, w⟩ := by
      simp only [GyroReceiver.takeByte]
      rw [if_neg (by omega), if_pos (by omega)]
    rw [List.foldl_cons, hs, gyro_frame_bytes ht l (by simp; omega)]
    simp

/-- The sixth byte completes a frame in its time, and the receiver hunts (R150). -/
theorem gyro_frame_completes {w : List (List Byte)} {h : List Byte} {x : Byte} {t : Nat} (ht : t ≤ Config.gyroLimit)
    (hl : h.length + 1 = Config.gyroBytes) :
    GyroReceiver.takeByte ⟨.assembling h t, w⟩ x = ⟨.hunting, w ++ [h ++ [x]]⟩ := by
  simp only [GyroReceiver.takeByte]
  rw [if_neg (by omega), if_neg (by omega)]

/-- In its time a frame takes all the bytes it lacks, whatever their values, and is complete (R150). -/
theorem gyro_frame_whole {w : List (List Byte)} {h bs : List Byte} {t : Nat} (ht : t ≤ Config.gyroLimit)
    (hl : h.length < Config.gyroBytes) (hb : h.length + bs.length = Config.gyroBytes) :
    bs.foldl GyroReceiver.takeByte ⟨.assembling h t, w⟩ = ⟨.hunting, w ++ [h ++ bs]⟩ := by
  rcases List.eq_nil_or_concat bs with rfl | ⟨l, x, hx⟩
  · simp at hb; omega
  · rw [List.concat_eq_append] at hx
    subst hx
    simp only [List.length_append, List.length_singleton] at hb
    rw [List.foldl_append, gyro_frame_bytes ht l (by omega), List.foldl_cons, List.foldl_nil,
      gyro_frame_completes ht (by simp; omega)]
    simp

/-- The receiver takes a frame as its own, complete or within its time, exactly when the frame may be handed on. -/
theorem gyro_opens_iff {bytes : List Byte} {s : State} :
    (s.gyro.opens bytes = true ∧ s.gyro.overdue = false) ↔ GyroOpens bytes s := by
  unfold GyroOpens
  rcases s.gyro with ⟨phase, whole⟩
  cases whole with
  | cons h l => simp [GyroReceiver.opens, GyroReceiver.overdue]
  | nil =>
    cases phase with
    | hunting => simp [GyroReceiver.opens, GyroReceiver.overdue]
    | assembling h t =>
      simp only [GyroReceiver.opens, GyroReceiver.overdue, List.isPrefixOf_iff_prefix, decide_eq_false_iff_not,
        Nat.not_lt, reduceCtorEq, false_or, GyroPhase.assembling.injEq, true_and, exists_false]
      exact ⟨fun ⟨⟨r, hr⟩, ht⟩ => ⟨h, r, t, ⟨rfl, rfl⟩, ht, hr⟩, fun ⟨_, r, _, ⟨rfl, rfl⟩, ht, hr⟩ => ⟨⟨r, hr⟩, ht⟩⟩

end Sys2Proof.Machine
end

