-- ==== Sys2Proof/Laws/KeepsCommands.lean ====
section
/-! SUPPORT. Each command keeps the invariant and the queue of waiting commands. -/

namespace Sys2Proof.Machine

variable {q : List Instr} {s v : State}

theorem resolve_lt (h : Kept q s) {x : RecordName} {p : Nat} {r : PicRecord} (hr : resolve s x = .ok (p, r)) :
    p < Config.placeCount := by
  unfold resolve at hr
  (repeat' split at hr) <;> first | (cases hr; done) | skip
  · rename_i e he
    cases hr
    exact h.number_lt he
  · cases hr
    assumption

theorem execLookup_kept (h : Kept q s) (m : Moment) (x : RecordName) (ht : execLookup m x s = .next v) : Kept q v := by
  refine request_kept h _ m (fun u hu => ?_) ht
  (repeat' split) <;> first
    | exact hu
    | exact hu.onZoom _
    | exact hu.onShot _
    | exact hu.onFocus _
    | exact hu.onFlash _
    | exact hu.onStore _
    | exact hu.setFlag _
    | exact hu.same (by simp)
    | exact hu.dropSnapshot

theorem execNextPart_kept (h : Kept q s) (m : Moment) (ht : execNextPart m s = .next v) : Kept q v := by
  refine request_kept h _ m (fun u hu => ?_) ht
  (repeat' split) <;> first
    | exact hu
    | exact hu.onZoom _
    | exact hu.onShot _
    | exact hu.onFocus _
    | exact hu.onFlash _
    | exact hu.onStore _
    | exact hu.setFlag _
    | exact hu.same (by simp)
    | exact hu.dropSnapshot

theorem execFindNext_kept (h : Kept q s) (m : Moment) (n : Nat) (f : FindFilter)
    (ht : execFindNext m n f s = .next v) : Kept q v := by
  refine request_kept h _ m (fun u hu => ?_) ht
  (repeat' split) <;> first
    | exact hu
    | exact hu.onZoom _
    | exact hu.onShot _
    | exact hu.onFocus _
    | exact hu.onFlash _
    | exact hu.onStore _
    | exact hu.setFlag _
    | exact hu.same (by simp)
    | exact hu.dropSnapshot

theorem execAmend_kept (h : Kept q s) (m : Moment) (x : RecordName) (c : AmendChange)
    (ht : execAmend m x c s = .next v) : Kept q v := by
  refine request_kept h _ m (fun u hu => ?_) ht
  split
  · exact hu
  · rename_i p r hc
    refine State.claim_kept hu ?_ _
    unfold amendCheck at hc
    (repeat' split at hc) <;> first | (cases hc; done) | skip
    rename_i hr _ _ _
    cases hc
    exact resolve_lt hu hr

theorem execRetire_kept (h : Kept q s) (m : Moment) (x : RecordName) (ht : execRetire m x s = .next v) : Kept q v := by
  refine request_kept h _ m (fun u hu => ?_) ht
  (repeat' split) <;> first
    | exact hu
    | exact State.freePlace_kept hu _

theorem execClearCatalogue_kept (h : Kept q s) (m : Moment) (ht : execClearCatalogue m s = .next v) : Kept q v := by
  refine request_kept h _ m (fun u hu => ?_) ht
  (repeat' split) <;> first
    | exact hu
    | exact State.freePlaces_kept hu _

theorem execCatalogueSummary_kept (h : Kept q s) (m : Moment) (ht : execCatalogueSummary m s = .next v) : Kept q v := by
  refine request_kept h _ m (fun u hu => ?_) ht
  (repeat' split) <;> first
    | exact hu
    | exact hu.onZoom _
    | exact hu.onShot _
    | exact hu.onFocus _
    | exact hu.onFlash _
    | exact hu.onStore _
    | exact hu.setFlag _
    | exact hu.same (by simp)
    | exact hu.dropSnapshot

theorem execPrepareStore_kept (h : Kept q s) (m : Moment) (ht : execPrepareStore m s = .next v) : Kept q v := by
  refine request_kept h _ m (fun u hu => ?_) ht
  (repeat' split) <;> first
    | exact hu
    | exact State.prepareBegin_kept hu

theorem execAbandon_kept (h : Kept q s) (m : Moment) (n : Nat) (ht : execAbandon m n s = .next v) : Kept q v := by
  refine request_kept h _ m (fun u hu => ?_) ht
  (repeat' split) <;> first
    | exact hu
    | exact State.storeGoOn_kept (State.storeFail_kept hu _ _)

theorem execChainAdd_kept (h : Kept q s) (m : Moment) (n offset length : Nat) (notify : Bool)
    (ht : execChainAdd m n offset length notify s = .next v) : Kept q v := by
  refine request_kept h _ m (fun u hu => ?_) ht
  dsimp only
  split
  · exact hu
  · rename_i p r x hc
    refine State.chainAppend_kept hu _ _ _ _ _ ?_
    unfold chainAddCheck at hc
    (repeat' split at hc) <;> first | (cases hc; done) | skip
    omega

theorem execChainCancel_kept (h : Kept q s) (m : Moment) (ht : execChainCancel m s = .next v) : Kept q v := by
  exact request_kept h _ m (fun u hu => State.chainEmpty_kept hu _) ht

theorem execRefresh_kept (h : Kept q s) (m : Moment) (n : Nat) (ht : execRefresh m n s = .next v) : Kept q v := by
  refine request_kept h _ m (fun u hu => ?_) ht
  split
  · exact hu
  · rename_i p r hc
    refine State.refreshStart_kept hu ?_ r
    unfold refreshCheck at hc
    (repeat' split at hc) <;> first | (cases hc; done) | skip
    cases hc
    exact hu.number_lt (by assumption)

theorem execMeterSetup_kept (h : Kept q s) (m : Moment) (x : MeterSetupFields)
    (ht : execMeterSetup m x s = .next v) : Kept q v := by
  refine request_kept h _ m (fun u hu => ?_) ht
  (repeat' split) <;> first
    | exact hu
    | exact hu.onZoom _
    | exact hu.onShot _
    | exact hu.onFocus _
    | exact hu.onFlash _
    | exact hu.onStore _
    | exact hu.setFlag _
    | exact hu.same (by simp)
    | exact hu.dropSnapshot

theorem execMeterLock_kept (h : Kept q s) (m : Moment) (ht : execMeterLock m s = .next v) : Kept q v := by
  refine request_kept h _ m (fun u hu => ?_) ht
  (repeat' split) <;> first
    | exact hu
    | exact hu.onZoom _
    | exact hu.onShot _
    | exact hu.onFocus _
    | exact hu.onFlash _
    | exact hu.onStore _
    | exact hu.setFlag _
    | exact hu.same (by simp)
    | exact hu.dropSnapshot

theorem execMeterUnlock_kept (h : Kept q s) (m : Moment) (ht : execMeterUnlock m s = .next v) : Kept q v := by
  refine request_kept h _ m (fun u hu => ?_) ht
  (repeat' split) <;> first
    | exact hu
    | exact hu.onZoom _
    | exact hu.onShot _
    | exact hu.onFocus _
    | exact hu.onFlash _
    | exact hu.onStore _
    | exact hu.setFlag _
    | exact hu.same (by simp)
    | exact hu.dropSnapshot

theorem execReadMeter_kept (h : Kept q s) (m : Moment) (ht : execReadMeter m s = .next v) : Kept q v := by
  refine request_kept h _ m (fun u hu => ?_) ht
  (repeat' split) <;> first
    | exact hu
    | exact hu.onZoom _
    | exact hu.onShot _
    | exact hu.onFocus _
    | exact hu.onFlash _
    | exact hu.onStore _
    | exact hu.setFlag _
    | exact hu.same (by simp)
    | exact hu.dropSnapshot

theorem execExtendLens_kept (h : Kept q s) (m : Moment) (ht : execExtendLens m s = .next v) : Kept q v := by
  refine request_kept h _ m (fun u hu => ?_) ht
  (repeat' split) <;> first
    | exact hu
    | exact hu.onZoom _
    | exact hu.onShot _
    | exact hu.onFocus _
    | exact hu.onFlash _
    | exact hu.onStore _
    | exact hu.setFlag _
    | exact hu.same (by simp)
    | exact hu.dropSnapshot

theorem execZoomTo_kept (h : Kept q s) (m : Moment) (station : Nat)
    (ht : execZoomTo m station s = .next v) : Kept q v := by
  refine request_kept h _ m (fun u hu => ?_) ht
  (repeat' split) <;> first
    | exact hu
    | exact hu.onZoom _
    | exact hu.onShot _
    | exact hu.onFocus _
    | exact hu.onFlash _
    | exact hu.onStore _
    | exact hu.setFlag _
    | exact hu.same (by simp)
    | exact hu.dropSnapshot

theorem execZoomStop_kept (h : Kept q s) (m : Moment) (ht : execZoomStop m s = .next v) : Kept q v := by
  refine request_kept h _ m (fun u hu => ?_) ht
  (repeat' split) <;> first
    | exact hu
    | exact hu.onZoom _
    | exact hu.onShot _
    | exact hu.onFocus _
    | exact hu.onFlash _
    | exact hu.onStore _
    | exact hu.setFlag _
    | exact hu.same (by simp)
    | exact hu.dropSnapshot

theorem execParkLens_kept (h : Kept q s) (m : Moment) (ht : execParkLens m s = .next v) : Kept q v := by
  refine request_kept h _ m (fun u hu => ?_) ht
  (repeat' split) <;> first
    | exact hu
    | exact hu.onZoom _
    | exact hu.onShot _
    | exact hu.onFocus _
    | exact hu.onFlash _
    | exact hu.onStore _
    | exact hu.setFlag _
    | exact hu.same (by simp)
    | exact hu.dropSnapshot

theorem execLoadLensStation_kept (h : Kept q s) (m : Moment) (station : Nat) (e : StationEntry)
    (ht : execLoadLensStation m station e s = .next v) : Kept q v := by
  refine request_kept h _ m (fun u hu => ?_) ht
  (repeat' split) <;> first
    | exact hu
    | exact hu.onZoom _
    | exact hu.onShot _
    | exact hu.onFocus _
    | exact hu.onFlash _
    | exact hu.onStore _
    | exact hu.setFlag _
    | exact hu.same (by simp)
    | exact hu.dropSnapshot

theorem execCommitLensTable_kept (h : Kept q s) (m : Moment) (ht : execCommitLensTable m s = .next v) : Kept q v := by
  refine request_kept h _ m (fun u hu => ?_) ht
  (repeat' split) <;> first
    | exact hu
    | exact State.zoomCommit_kept hu

theorem execReadZoom_kept (h : Kept q s) (m : Moment) (ht : execReadZoom m s = .next v) : Kept q v := by
  refine request_kept h _ m (fun u hu => ?_) ht
  (repeat' split) <;> first
    | exact hu
    | exact hu.onZoom _
    | exact hu.onShot _
    | exact hu.onFocus _
    | exact hu.onFlash _
    | exact hu.onStore _
    | exact hu.setFlag _
    | exact hu.same (by simp)
    | exact hu.dropSnapshot

theorem execReadLensStation_kept (h : Kept q s) (m : Moment) (station : Nat) (t : LensTableName)
    (ht : execReadLensStation m station t s = .next v) : Kept q v := by
  refine request_kept h _ m (fun u hu => ?_) ht
  (repeat' split) <;> first
    | exact hu

theorem execFocusStart_kept (h : Kept q s) (m : Moment) (range : Option FocusRange)
    (ht : execFocusStart m range s = .next v) : Kept q v := by
  refine request_kept h _ m (fun u hu => ?_) ht
  (repeat' split) <;> first
    | exact hu
    | exact hu.onZoom _
    | exact hu.onShot _
    | exact hu.onFocus _
    | exact hu.onFlash _
    | exact hu.onStore _
    | exact hu.setFlag _
    | exact hu.same (by simp)
    | exact hu.dropSnapshot

theorem execFocusRelease_kept (h : Kept q s) (m : Moment) (ht : execFocusRelease m s = .next v) : Kept q v := by
  refine request_kept h _ m (fun u hu => ?_) ht
  (repeat' split) <;> first
    | exact hu
    | exact hu.onZoom _
    | exact hu.onShot _
    | exact hu.onFocus _
    | exact hu.onFlash _
    | exact hu.onStore _
    | exact hu.setFlag _
    | exact hu.same (by simp)
    | exact hu.dropSnapshot

theorem execFocusMode_kept (h : Kept q s) (m : Moment) (mode : Option FocusMode)
    (ht : execFocusMode m mode s = .next v) : Kept q v := by
  refine request_kept h _ m (fun u hu => ?_) ht
  (repeat' split) <;> first
    | exact hu
    | exact hu.onZoom _
    | exact hu.onShot _
    | exact hu.onFocus _
    | exact hu.onFlash _
    | exact hu.onStore _
    | exact hu.setFlag _
    | exact hu.same (by simp)
    | exact hu.dropSnapshot

theorem execSetArea_kept (h : Kept q s) (m : Moment) (id : Nat) (rect : Rect) (enabled : Bool)
    (ht : execSetArea m id rect enabled s = .next v) : Kept q v := by
  refine request_kept h _ m (fun u hu => ?_) ht
  (repeat' split) <;> first
    | exact hu
    | exact hu.onZoom _
    | exact hu.onShot _
    | exact hu.onFocus _
    | exact hu.onFlash _
    | exact hu.onStore _
    | exact hu.setFlag _
    | exact hu.same (by simp)
    | exact hu.dropSnapshot

theorem execClearArea_kept (h : Kept q s) (m : Moment) (id : Nat) (ht : execClearArea m id s = .next v) : Kept q v := by
  refine request_kept h _ m (fun u hu => ?_) ht
  (repeat' split) <;> first
    | exact hu
    | exact hu.onZoom _
    | exact hu.onShot _
    | exact hu.onFocus _
    | exact hu.onFlash _
    | exact hu.onStore _
    | exact hu.setFlag _
    | exact hu.same (by simp)
    | exact hu.dropSnapshot

theorem execSetDistance_kept (h : Kept q s) (m : Moment) (cls : Nat)
    (ht : execSetDistance m cls s = .next v) : Kept q v := by
  refine request_kept h _ m (fun u hu => ?_) ht
  (repeat' split) <;> first
    | exact hu
    | exact hu.onZoom _
    | exact hu.onShot _
    | exact hu.onFocus _
    | exact hu.onFlash _
    | exact hu.onStore _
    | exact hu.setFlag _
    | exact hu.same (by simp)
    | exact hu.dropSnapshot

theorem execReadFocus_kept (h : Kept q s) (m : Moment) (ht : execReadFocus m s = .next v) : Kept q v := by
  refine request_kept h _ m (fun u hu => ?_) ht
  (repeat' split) <;> first
    | exact hu
    | exact hu.onZoom _
    | exact hu.onShot _
    | exact hu.onFocus _
    | exact hu.onFlash _
    | exact hu.onStore _
    | exact hu.setFlag _
    | exact hu.same (by simp)
    | exact hu.dropSnapshot

theorem execReadFocusCurve_kept (h : Kept q s) (m : Moment) (id : Nat)
    (ht : execReadFocusCurve m id s = .next v) : Kept q v := by
  refine request_kept h _ m (fun u hu => ?_) ht
  (repeat' split) <;> first
    | exact hu
    | exact hu.onZoom _
    | exact hu.onShot _
    | exact hu.onFocus _
    | exact hu.onFlash _
    | exact hu.onStore _
    | exact hu.setFlag _
    | exact hu.same (by simp)
    | exact hu.dropSnapshot

theorem execSteadyMode_kept (h : Kept q s) (m : Moment) (mode : Option SteadyMode)
    (ht : execSteadyMode m mode s = .next v) : Kept q v := by
  refine request_kept h _ m (fun u hu => ?_) ht
  (repeat' split) <;> first
    | exact hu
    | exact hu.onZoom _
    | exact hu.onShot _
    | exact hu.onFocus _
    | exact hu.onFlash _
    | exact hu.onStore _
    | exact hu.setFlag _
    | exact hu.same (by simp)
    | exact hu.dropSnapshot

theorem execReadSteady_kept (h : Kept q s) (m : Moment) (ht : execReadSteady m s = .next v) : Kept q v := by
  refine request_kept h _ m (fun u hu => ?_) ht
  (repeat' split) <;> first
    | exact hu
    | exact hu.onZoom _
    | exact hu.onShot _
    | exact hu.onFocus _
    | exact hu.onFlash _
    | exact hu.onStore _
    | exact hu.setFlag _
    | exact hu.same (by simp)
    | exact hu.dropSnapshot

theorem execShotSetup_kept (h : Kept q s) (m : Moment) (x : ShotSetupFields)
    (ht : execShotSetup m x s = .next v) : Kept q v := by
  refine request_kept h _ m (fun u hu => ?_) ht
  (repeat' split) <;> first
    | exact hu
    | exact hu.onZoom _
    | exact hu.onShot _
    | exact hu.onFocus _
    | exact hu.onFlash _
    | exact hu.onStore _
    | exact hu.setFlag _
    | exact hu.same (by simp)
    | exact hu.dropSnapshot

theorem execArm_kept (h : Kept q s) (m : Moment) (ht : execArm m s = .next v) : Kept q v := by
  refine request_kept h _ m (fun u hu => ?_) ht
  have hl : Kept q u.meterShotLock := hu.same (by simp)
  (repeat' split) <;> first
    | exact hu
    | exact State.shotArm_kept hl _

theorem execTrigger_kept (h : Kept q s) (m : Moment) (ht : execTrigger m s = .next v) : Kept q v := by
  refine request_kept h _ m (fun u hu => ?_) ht
  (repeat' split) <;> first
    | exact hu
    | exact State.shotFrame_kept hu

theorem execDisarm_kept (h : Kept q s) (m : Moment) (ht : execDisarm m s = .next v) : Kept q v := by
  exact request_kept h _ m (fun u hu => State.shotDisarm_kept hu) ht

theorem execReadShot_kept (h : Kept q s) (m : Moment) (ht : execReadShot m s = .next v) : Kept q v := by
  refine request_kept h _ m (fun u hu => ?_) ht
  (repeat' split) <;> first
    | exact hu
    | exact hu.onZoom _
    | exact hu.onShot _
    | exact hu.onFocus _
    | exact hu.onFlash _
    | exact hu.onStore _
    | exact hu.setFlag _
    | exact hu.same (by simp)
    | exact hu.dropSnapshot

theorem execReadStatus_kept (h : Kept q s) (m : Moment) (ht : execReadStatus m s = .next v) : Kept q v := by
  refine request_kept h _ m (fun u hu => ?_) ht
  (repeat' split) <;> first
    | exact hu
    | exact hu.onZoom _
    | exact hu.onShot _
    | exact hu.onFocus _
    | exact hu.onFlash _
    | exact hu.onStore _
    | exact hu.setFlag _
    | exact hu.same (by simp)
    | exact hu.dropSnapshot

theorem execReadEvents_kept (h : Kept q s) (m : Moment) (ht : execReadEvents m s = .next v) : Kept q v := by
  refine request_kept h _ m (fun u hu => ?_) ht
  (repeat' split) <;> first
    | exact hu
    | exact hu.onZoom _
    | exact hu.onShot _
    | exact hu.onFocus _
    | exact hu.onFlash _
    | exact hu.onStore _
    | exact hu.setFlag _
    | exact hu.same (by simp)
    | exact hu.dropSnapshot

theorem execSetEventMask_kept (h : Kept q s) (m : Moment) (mask : Half)
    (ht : execSetEventMask m mask s = .next v) : Kept q v := by
  refine request_kept h _ m (fun u hu => ?_) ht
  (repeat' split) <;> first
    | exact hu
    | exact hu.onZoom _
    | exact hu.onShot _
    | exact hu.onFocus _
    | exact hu.onFlash _
    | exact hu.onStore _
    | exact hu.setFlag _
    | exact hu.same (by simp)
    | exact hu.dropSnapshot

theorem execWriteSettings_kept (h : Kept q s) (m : Moment) (x : Settings)
    (ht : execWriteSettings m x s = .next v) : Kept q v := by
  refine request_kept h _ m (fun u hu => ?_) ht
  unfold orRefuse
  split
  · exact hu
  · exact State.markDirty_kept (i := .settings) (hu.same (by simp) : Kept q { u with settings := x }) trivial

theorem execReadSettings_kept (h : Kept q s) (m : Moment) (ht : execReadSettings m s = .next v) : Kept q v := by
  refine request_kept h _ m (fun u hu => ?_) ht
  (repeat' split) <;> first
    | exact hu
    | exact hu.onZoom _
    | exact hu.onShot _
    | exact hu.onFocus _
    | exact hu.onFlash _
    | exact hu.onStore _
    | exact hu.setFlag _
    | exact hu.same (by simp)
    | exact hu.dropSnapshot

theorem execSoftReset_kept (h : Kept q s) (m : Moment) (ht : execSoftReset m s = .next v) : Kept q v := by
  refine request_kept h _ m (fun u hu => ?_) ht
  (repeat' split) <;> first
    | exact hu
    | exact hu.onZoom _
    | exact hu.onShot _
    | exact hu.onFocus _
    | exact hu.onFlash _
    | exact hu.onStore _
    | exact hu.setFlag _
    | exact hu.same (by simp)
    | exact hu.dropSnapshot

theorem execShutDown_kept (h : Kept q s) (m : Moment) (ht : execShutDown m s = .next v) : Kept q v := by
  refine request_kept h _ m (fun u hu => ?_) ht
  split
  · exact hu
  · exact State.flashProtect_kept (hu.same (by simp))

theorem State.clock_kept (h : Kept q s) (bytes : List Byte) : Kept q (s.clock bytes) := h.same (by simp [State.clock])

theorem State.frameOver_kept (h : Kept q s) (long : Bool) : Kept q (s.frameOver long) := by
  unfold State.frameOver
  split
  · exact h.same (by simp)
  · exact h

theorem execFrameCheck_kept (h : Kept q s) (m : Moment) (f : FrameEnd)
    (ht : execFrameCheck m f s = .next v) : Kept q v := by
  refine event_kept h m (fun u hu => ?_) ht
  have hc := State.clock_kept hu f.bytes
  dsimp only
  split
  · exact State.frameOver_kept (frameGate_kept hc fun v hv => hv.respond _ _) _
  · exact hc

theorem execUnknownRequest_kept (h : Kept q s) (m : Moment) (bytes : List Byte)
    (ht : execUnknownRequest m bytes s = .next v) : Kept q v := by
  refine event_kept h m (fun u hu => ?_) ht
  have hc := State.clock_kept hu bytes
  dsimp only
  split
  · exact frameGate_kept hc fun v hv => hv.dropSnapshot.respond _ _
  · exact hc

theorem execFrameBroken_kept (h : Kept q s) (m : Moment) (bytes : List Byte)
    (ht : execFrameBroken m bytes s = .next v) : Kept q v := by
  refine event_kept h m (fun u hu => ?_) ht
  have hc := State.clock_kept hu bytes
  dsimp only
  (repeat' split) <;> first
    | exact hc
    | exact frameGate_kept hc fun v hv => hv.respond _ _

theorem execLinkQuietResume_kept (h : Kept q s) (m : Moment) (ht : execLinkQuietResume m s = .next v) : Kept q v := by
  refine event_kept h m (fun u hu => ?_) ht
  (repeat' split) <;> first
    | exact hu
    | exact hu.onZoom _
    | exact hu.onShot _
    | exact hu.onFocus _
    | exact hu.onFlash _
    | exact hu.onStore _
    | exact hu.setFlag _
    | exact hu.same (by simp)
    | exact hu.dropSnapshot

theorem execLinkOrder_kept (h : Kept q s) (m : Moment) (bytes : List Byte)
    (ht : execLinkOrder m bytes s = .next v) : Kept q v := by
  refine event_kept h m (fun u hu => ?_) ht
  have hc := State.clock_kept hu bytes
  dsimp only
  split
  · exact State.frameOver_kept (hc.hunt.setFlag _) _
  · exact hc

theorem execResponseCollected_kept (h : Kept q s) (m : Moment)
    (ht : execResponseCollected m s = .next v) : Kept q v := by
  refine event_kept h m (fun u hu => ?_) ht
  (repeat' split) <;> first
    | exact hu
    | exact hu.onZoom _
    | exact hu.onShot _
    | exact hu.onFocus _
    | exact hu.onFlash _
    | exact hu.onStore _
    | exact hu.setFlag _
    | exact hu.same (by simp)
    | exact hu.dropSnapshot

theorem execSoftResetExecute_kept (h : Kept q s) (m : Moment) (ht : execSoftResetExecute m s = .next v) : Kept q v := by
  refine event_kept h m (fun u hu => ?_) ht
  (repeat' split) <;> first
    | exact hu
    | exact State.resetPart_kept hu _

theorem execReset_kept (h : Kept q s) (m : Moment) (ht : execReset m s = .next v) : Kept q v := by
  exact event_kept h m (fun u hu => State.resetPart_kept hu _) ht

theorem execPowerOn_kept (h : Kept q s) (m : Moment) (ht : execPowerOn m s = .next v) : Kept q v := by
  cases ht
  exact State.resetPart_kept (h.arrive m) _

theorem execStartUpEnd_kept (h : Kept q s) (m : Moment) (ht : execStartUpEnd m s = .next v) : Kept q v := by
  refine event_kept h m (fun u hu => ?_) ht
  (repeat' split) <;> first
    | exact hu
    | exact State.startUpEnd_kept hu

theorem execPowerLow_kept (h : Kept q s) (m : Moment) (ht : execPowerLow m s = .next v) : Kept q v := by
  refine event_kept h m (fun u hu => ?_) ht
  (repeat' split) <;> first
    | exact hu
    | exact State.takePowerLow_kept hu
    | exact hu.setFlag _
    | exact hu.same (by simp)

theorem execShutdownMarkWrite_kept (h : Kept q s) (m : Moment)
    (ht : execShutdownMarkWrite m s = .next v) : Kept q v := by
  refine event_kept h m (fun u hu => ?_) ht
  (repeat' split) <;> first
    | exact hu
    | exact beginMark_kept hu _

theorem execSafe_kept (h : Kept q s) (m : Moment) (ht : execSafe m s = .next v) : Kept q v := by
  refine event_kept h m (fun u hu => ?_) ht
  (repeat' split) <;> first
    | exact hu
    | exact hu.onZoom _
    | exact hu.onShot _
    | exact hu.onFocus _
    | exact hu.onFlash _
    | exact hu.onStore _
    | exact hu.setFlag _
    | exact hu.same (by simp)
    | exact hu.dropSnapshot

theorem execRecordWriteBegin_kept (h : Kept q s) (m : Moment) (ht : execRecordWriteBegin m s = .next v) : Kept q v := by
  refine event_kept h m (fun u hu => ?_) ht
  dsimp only
  (repeat' split) <;> first
    | exact hu
    | exact beginMark_kept hu _
    | exact writeBegins_kept hu (by assumption)

theorem execRecordWriteComplete_kept (h : Kept q s) (m : Moment)
    (ht : execRecordWriteComplete m s = .next v) : Kept q v := by
  refine event_kept h m (fun u hu => ?_) ht
  split
  · exact hu
  · rename_i c hc
    have h1 := writeDone_kept hu hc
    dsimp only
    split
    · exact State.onMap_kept (State.onPending_kept h1 _) (BlockMap.writeCompletes_ok h1.map _)
    · split
      · exact State.startUpEnd_kept h1
      · exact State.markDone_kept h1

theorem execPrepareScanStart_kept (h : Kept q s) (m : Moment) (ht : execPrepareScanStart m s = .next v) : Kept q v := by
  refine event_kept h m (fun u hu => ?_) ht
  split
  · exact State.prepareAsk_kept (State.markDirty_kept (State.onMap_kept hu ⟨tableOk_nil _ _, badListOk_nil⟩)
      (i := .badList) trivial) _ _
  · exact hu

theorem execPrepareStoreEnd_kept (h : Kept q s) (m : Moment) (ht : execPrepareStoreEnd m s = .next v) : Kept q v := by
  refine event_kept h m (fun u hu => ?_) ht
  (repeat' split) <;> first
    | exact hu
    | exact (State.flashFollowMode_kept (State.onMap_kept hu hu.map)).setFlag _

theorem execArbiterGrant_kept (h : Kept q s) (m : Moment) (ht : execArbiterGrant m s = .next v) : Kept q v := by
  refine event_kept h m (fun u hu => ?_) ht
  (repeat' split) <;> first
    | exact hu
    | exact State.flashGrant_kept hu _ _ _

theorem execFlashStatusReadDone_kept (h : Kept q s) (m : Moment)
    (ht : execFlashStatusReadDone m s = .next v) : Kept q v :=
  event_kept h m (fun _ hu => State.flashSettle_kept (hu.onFlash _)) ht

theorem execPageReadDone_kept (h : Kept q s) (m : Moment) (r : PageRead)
    (ht : execPageReadDone m r s = .next v) : Kept q v := by
  exact event_kept h m (fun u hu => flashResult_kept hu fun x v hv => pageReadResult_kept r x v hv) ht

theorem execPageProgramDone_kept (h : Kept q s) (m : Moment) (pass : Bool)
    (ht : execPageProgramDone m pass s = .next v) : Kept q v := by
  refine event_kept h m (fun u hu => flashResult_kept hu fun x v hv => ?_) ht
  (repeat' split) <;> first
    | exact hv
    | exact State.storeProgramDone_kept hv _ _
    | exact State.refreshKick_kept hv
    | exact State.refreshProgramDone_kept hv _

theorem execCopyBackDone_kept (h : Kept q s) (m : Moment) (source : CopyRead) (pass : Bool)
    (ht : execCopyBackDone m source pass s = .next v) : Kept q v := by
  refine event_kept h m (fun u hu => flashResult_kept hu fun x v hv => ?_) ht
  have hr := State.flashRegister_kept hv source.data
  dsimp only
  (repeat' split) <;> first
    | exact hr
    | exact State.storeCopyDone_kept hr _ _ _
    | exact State.refreshKick_kept hr
    | exact State.refreshCopyDone_kept hr _ _

theorem execBlockEraseDone_kept (h : Kept q s) (m : Moment) (pass : Bool)
    (ht : execBlockEraseDone m pass s = .next v) : Kept q v := by
  refine event_kept h m (fun u hu => flashResult_kept hu fun x v hv => ?_) ht
  (repeat' split) <;> first
    | exact hv
    | exact State.backgroundErased_kept hv _ _
    | exact State.prepareEraseDone_kept hv _ _

theorem execGrownMarkProgramDone_kept (h : Kept q s) (m : Moment) (_pass : Bool)
    (ht : execGrownMarkProgramDone m _pass s = .next v) : Kept q v := by
  refine event_kept h m (fun u hu => flashResult_kept hu fun x v hv => ?_) ht
  (repeat' split) <;> first
    | exact hv
    | exact State.storeGoOn_kept hv
    | exact State.refreshKick_kept hv
    | exact State.prepareMarked_kept hv _

theorem execBackgroundTakeBlock_kept (h : Kept q s) (m : Moment)
    (ht : execBackgroundTakeBlock m s = .next v) : Kept q v := by
  refine event_kept h m (fun u hu => ?_) ht
  (repeat' split) <;> first
    | exact hu
    | exact hu.onZoom _
    | exact hu.onShot _
    | exact hu.onFocus _
    | exact hu.onFlash _
    | exact hu.onStore _
    | exact hu.setFlag _
    | exact hu.same (by simp)
    | exact hu.dropSnapshot

theorem execStatistics_kept (h : Kept q s) (m : Moment) (body : List Byte)
    (ht : execStatistics m body s = .next v) : Kept q v := by
  exact event_kept h m (fun u hu => laneBlock_kept hu _ _ fun v hv => hv.same (by simp)) ht

theorem execBlockWatchExpiry_kept (h : Kept q s) (m : Moment) (ht : execBlockWatchExpiry m s = .next v) : Kept q v := by
  refine event_kept h m (fun u hu => ?_) ht
  dsimp only
  (repeat' split) <;> first
    | exact hu
    | exact hu.same (by simp)

theorem execSampleWatchExpiry_kept (h : Kept q s) (m : Moment)
    (ht : execSampleWatchExpiry m s = .next v) : Kept q v := by
  refine event_kept h m (fun u hu => ?_) ht
  (repeat' split) <;> first
    | exact hu
    | exact hu.onZoom _
    | exact hu.onShot _
    | exact hu.onFocus _
    | exact hu.onFlash _
    | exact hu.onStore _
    | exact hu.setFlag _
    | exact hu.same (by simp)
    | exact hu.dropSnapshot

theorem execPictureStart_kept (h : Kept q s) (m : Moment) (ht : execPictureStart m s = .next v) : Kept q v := by
  exact event_kept h m (fun u hu => laneBlock_kept hu _ _ fun v hv => State.pictureStart_kept hv) ht

theorem State.laneHeader_kept (h : Kept q s) (kind : Byte) (length : Nat) : Kept q (s.laneHeader kind length) :=
  h.same (by simp)

theorem laneDataEnd_kept (h : Kept q s) (discard : Bool) {f : State → State} (hf : ∀ v, Kept q v → Kept q (f v)) :
    Kept q (laneDataEnd discard f s) := by
  unfold laneDataEnd
  split
  · exact State.laneFree_kept h
  · exact hf _ (State.laneFree_kept h)

theorem dataBlock_kept (h : Kept q s) (length : Nat) {f : State → State} (hf : ∀ v, Kept q v → Kept q (f v)) :
    Kept q (dataBlock length f s) := by
  unfold dataBlock
  (repeat' split) <;> first
    | exact h
    | exact hf _ (State.laneFree_kept h)
    | exact laneDataEnd_kept h _ hf
    | exact State.laneHeader_kept h _ _

theorem execPictureData_kept (h : Kept q s) (m : Moment) (bytes : List Byte)
    (ht : execPictureData m bytes s = .next v) : Kept q v :=
  event_kept h m (fun _ hu => dataBlock_kept hu _ fun _ hv => State.pictureData_kept hv _) ht

theorem execPictureEnd_kept (h : Kept q s) (m : Moment) (body : List Byte)
    (ht : execPictureEnd m body s = .next v) : Kept q v := by
  exact event_kept h m (fun u hu => laneBlock_kept hu _ _ fun v hv => State.pictureEnd_kept hv _) ht

theorem execPictureAbort_kept (h : Kept q s) (m : Moment) (ht : execPictureAbort m s = .next v) : Kept q v := by
  refine event_kept h m (fun u hu => laneBlock_kept hu _ _ fun v hv => ?_) ht
  split
  · exact hv
  · exact State.storeGoOn_kept (State.storeFailBound_kept hv _)

theorem execInLaneBlockDropped_kept (h : Kept q s) (m : Moment) (kind : Byte) (length : Nat)
    (ht : execInLaneBlockDropped m kind length s = .next v) : Kept q v := by
  refine event_kept h m (fun u hu => ?_) ht
  (repeat' split) <;> first
    | exact hu
    | exact dataBlock_kept hu _ fun _ hv => State.pictureDataBad_kept hv
    | exact State.laneFree_kept hu

theorem State.laneFault_kept (h : Kept q s) : Kept q s.laneFault := by
  unfold State.laneFault
  (repeat' split) <;> first
    | exact h
    | exact laneDataEnd_kept h _ fun _ hv => State.pictureDataBad_kept hv
    | exact State.laneFree_kept h

theorem execInLaneFramingFault_kept (h : Kept q s) (m : Moment)
    (ht : execInLaneFramingFault m s = .next v) : Kept q v :=
  event_kept h m (fun _ hu => State.laneFault_kept hu) ht

theorem execDataTimeout_kept (h : Kept q s) (m : Moment) (ht : execDataTimeout m s = .next v) : Kept q v := by
  refine event_kept h m (fun u hu => ?_) ht
  (repeat' split) <;> first
    | exact hu
    | exact State.storeGoOn_kept (State.storeFailBound_kept hu _)

theorem execEndTaken_kept (h : Kept q s) (m : Moment) (ht : execEndTaken m s = .next v) : Kept q v := by
  refine event_kept h m (fun u hu => ?_) ht
  (repeat' split) <;> first
    | exact hu
    | exact State.storeEnd_kept hu

theorem execOutLaneItemBegin_kept (h : Kept q s) (m : Moment) (ht : execOutLaneItemBegin m s = .next v) : Kept q v := by
  refine event_kept h m (fun u hu => ?_) ht
  (repeat' split) <;> first
    | exact hu
    | exact hu.onChain hu.chain

theorem execDescriptorStartSent_kept (h : Kept q s) (m : Moment)
    (ht : execDescriptorStartSent m s = .next v) : Kept q v := by
  refine event_kept h m (fun u hu => ?_) ht
  (repeat' split) <;> first
    | exact hu
    | exact State.chainAskPage_kept ((State.itemGone_kept hu).onChain hu.chain)
    | exact State.itemGone_kept hu

theorem execDataItemSent_kept (h : Kept q s) (m : Moment) (ht : execDataItemSent m s = .next v) : Kept q v := by
  refine event_kept h m (fun u hu => ?_) ht
  (repeat' split) <;> first
    | exact hu
    | exact State.chainSent_kept (State.itemGone_kept hu) _
    | exact State.itemGone_kept hu

theorem execDescriptorEndSent_kept (h : Kept q s) (m : Moment)
    (ht : execDescriptorEndSent m s = .next v) : Kept q v := by
  refine event_kept h m (fun u hu => ?_) ht
  split
  · split
    · exact hu
    · refine Kept.setFlagIf ?_ _ _
      split
      · exact State.chainPop_kept (State.itemGone_kept hu)
      · exact State.itemGone_kept hu
  · exact hu

theorem execCancelledEndSent_kept (h : Kept q s) (m : Moment) (ht : execCancelledEndSent m s = .next v) : Kept q v := by
  refine event_kept h m (fun u hu => ?_) ht
  (repeat' split) <;> first
    | exact hu
    | exact (State.itemGone_kept hu).setFlagIf _ _

theorem execEncoderPulse_kept (h : Kept q s) (m : Moment) (tele : Bool)
    (ht : execEncoderPulse m tele s = .next v) : Kept q v := by
  refine event_kept h m (fun u hu => ?_) ht
  (repeat' split) <;> first
    | exact hu
    | exact hu.onZoom _
    | exact hu.onShot _
    | exact hu.onFocus _
    | exact hu.onFlash _
    | exact hu.onStore _
    | exact hu.setFlag _
    | exact hu.same (by simp)
    | exact hu.dropSnapshot

theorem execParkSensorChange_kept (h : Kept q s) (m : Moment) (seen : Bool)
    (ht : execParkSensorChange m seen s = .next v) : Kept q v := by
  refine event_kept h m (fun u hu => ?_) ht
  (repeat' split) <;> first
    | exact hu
    | exact hu.onZoom _
    | exact hu.onShot _
    | exact hu.onFocus _
    | exact hu.onFlash _
    | exact hu.onStore _
    | exact hu.setFlag _
    | exact hu.same (by simp)
    | exact hu.dropSnapshot

theorem execStallWatchExpiry_kept (h : Kept q s) (m : Moment) (ht : execStallWatchExpiry m s = .next v) : Kept q v := by
  refine event_kept h m (fun u hu => ?_) ht
  (repeat' split) <;> first
    | exact hu
    | exact hu.onZoom _
    | exact hu.onShot _
    | exact hu.onFocus _
    | exact hu.onFlash _
    | exact hu.onStore _
    | exact hu.setFlag _
    | exact hu.same (by simp)
    | exact hu.dropSnapshot

theorem execBrakeWatchExpiry_kept (h : Kept q s) (m : Moment) (ht : execBrakeWatchExpiry m s = .next v) : Kept q v := by
  refine event_kept h m (fun u hu => ?_) ht
  (repeat' split) <;> first
    | exact hu
    | exact hu.onZoom _
    | exact hu.onShot _
    | exact hu.onFocus _
    | exact hu.onFlash _
    | exact hu.onStore _
    | exact hu.setFlag _
    | exact hu.same (by simp)
    | exact hu.dropSnapshot

theorem execFocusHomeSensorSeen_kept (h : Kept q s) (m : Moment)
    (ht : execFocusHomeSensorSeen m s = .next v) : Kept q v := by
  refine event_kept h m (fun u hu => ?_) ht
  (repeat' split) <;> first
    | exact hu
    | exact hu.onZoom _
    | exact hu.onShot _
    | exact hu.onFocus _
    | exact hu.onFlash _
    | exact hu.onStore _
    | exact hu.setFlag _
    | exact hu.same (by simp)
    | exact hu.dropSnapshot

theorem execFocusHomingFailed_kept (h : Kept q s) (m : Moment)
    (ht : execFocusHomingFailed m s = .next v) : Kept q v := by
  refine event_kept h m (fun u hu => ?_) ht
  (repeat' split) <;> first
    | exact hu
    | exact hu.onZoom _
    | exact hu.onShot _
    | exact hu.onFocus _
    | exact hu.onFlash _
    | exact hu.onStore _
    | exact hu.setFlag _
    | exact hu.same (by simp)
    | exact hu.dropSnapshot

theorem execFocusMoveComplete_kept (h : Kept q s) (m : Moment)
    (ht : execFocusMoveComplete m s = .next v) : Kept q v := by
  refine event_kept h m (fun u hu => ?_) ht
  split
  · rename_i mv hm
    have e : Kept q (if (u.onFocus fun f => { f with move := none, position := some mv.aim }).focusArrive.2 then
        (u.onFocus fun f => { f with move := none, position := some mv.aim }).focusArrive.1.zoomStepReached
        else (u.onFocus fun f => { f with move := none, position := some mv.aim }).focusArrive.1) := by
      split <;> exact hu.same (by simp)
    exact e
  · exact hu

theorem execGyroFrame_kept (h : Kept q s) (m : Moment) (bytes : List Byte)
    (ht : execGyroFrame m bytes s = .next v) : Kept q v := by
  refine event_kept h m (fun u hu => ?_) ht
  have hg : Kept q u.gyroHand := hu.same (by simp)
  (repeat' split) <;> first
    | exact hu
    | exact State.gyroGoodFrame_kept hg _
    | exact hu.same (by simp)

theorem execGyroFrameBroken_kept (h : Kept q s) (m : Moment) (ht : execGyroFrameBroken m s = .next v) : Kept q v := by
  refine event_kept h m (fun u hu => ?_) ht
  (repeat' split) <;> first
    | exact hu
    | exact hu.onZoom _
    | exact hu.onShot _
    | exact hu.onFocus _
    | exact hu.onFlash _
    | exact hu.onStore _
    | exact hu.setFlag _
    | exact hu.same (by simp)
    | exact hu.dropSnapshot

theorem execGyroFrameTimeout_kept (h : Kept q s) (m : Moment) (ht : execGyroFrameTimeout m s = .next v) : Kept q v := by
  refine event_kept h m (fun u hu => ?_) ht
  (repeat' split) <;> first
    | exact hu
    | exact hu.onZoom _
    | exact hu.onShot _
    | exact hu.onFocus _
    | exact hu.onFlash _
    | exact hu.onStore _
    | exact hu.setFlag _
    | exact hu.same (by simp)
    | exact hu.dropSnapshot

theorem execGyroLost_kept (h : Kept q s) (m : Moment) (ht : execGyroLost m s = .next v) : Kept q v := by
  refine event_kept h m (fun u hu => ?_) ht
  have hl : Kept q u.steadyLost := hu.same (by simp)
  dsimp only
  (repeat' split) <;> first
    | exact hu
    | exact State.shotSteadyReady_kept hl
    | exact hl

theorem execReleaseFalling_kept (h : Kept q s) (m : Moment) (ht : execReleaseFalling m s = .next v) : Kept q v := by
  refine event_kept h m (fun u hu => ?_) ht
  dsimp only
  (repeat' split) <;> first
    | exact State.shotFrame_kept (hu.lines _)
    | exact hu.lines _

theorem execReleaseRising_kept (h : Kept q s) (m : Moment) (ht : execReleaseRising m s = .next v) : Kept q v := by
  refine event_kept h m (fun u hu => ?_) ht
  dsimp only
  (repeat' split) <;> first
    | exact hu.lines _
    | exact (hu.lines _).onBurst _
    | exact State.shotIdle_kept (hu.lines _)

theorem execIrisMoveComplete_kept (h : Kept q s) (m : Moment) (ht : execIrisMoveComplete m s = .next v) : Kept q v := by
  refine event_kept h m (fun u hu => ?_) ht
  dsimp only
  (repeat' split) <;> first
    | exact hu
    | exact State.irisToBurst_kept (hu.onShot _)
    | exact State.shotPrepared_kept (hu.onShot _)
    | exact hu.onShot _

theorem execCloseCommandDue_kept (h : Kept q s) (m : Moment) (ht : execCloseCommandDue m s = .next v) : Kept q v := by
  refine event_kept h m (fun u hu => ?_) ht
  (repeat' split) <;> first
    | exact hu
    | exact State.shotDueCheck_kept (State.shotClose_kept hu)

theorem execShutterClosed_kept (h : Kept q s) (m : Moment) (ht : execShutterClosed m s = .next v) : Kept q v := by
  refine event_kept h m (fun u hu => ?_) ht
  (repeat' split) <;> first
    | exact hu
    | exact State.shotDueCheck_kept (State.shotConfirm_kept (hu.lines _))

theorem execShutterTimeout_kept (h : Kept q s) (m : Moment) (ht : execShutterTimeout m s = .next v) : Kept q v := by
  refine event_kept h m (fun u hu => ?_) ht
  (repeat' split) <;> first
    | exact hu
    | exact State.shotTimeout_kept hu

theorem execFrameDue_kept (h : Kept q s) (m : Moment) (ht : execFrameDue m s = .next v) : Kept q v :=
  event_kept h m (fun _ hu => State.shotDueCheck_kept hu) ht

theorem execGyroStartMarker_kept (h : Kept q s) (m : Moment) (ht : execGyroStartMarker m s = .next v) : Kept q v := by
  refine event_kept h m (fun u hu => ?_) ht
  (repeat' split) <;> first
    | exact hu
    | exact hu.onZoom _
    | exact hu.onShot _
    | exact hu.onFocus _
    | exact hu.onFlash _
    | exact hu.onStore _
    | exact hu.setFlag _
    | exact hu.same (by simp)
    | exact hu.dropSnapshot

theorem execRequestStartMarker_kept (h : Kept q s) (m : Moment)
    (ht : execRequestStartMarker m s = .next v) : Kept q v := by
  refine event_kept h m (fun u hu => ?_) ht
  split
  · exact State.clock_kept hu _
  · exact hu

theorem execInLaneHeader_kept (h : Kept q s) (m : Moment) (kind : Byte) (length : Nat)
    (ht : execInLaneHeader m kind length s = .next v) : Kept q v := by
  refine event_kept h m (fun u hu => ?_) ht
  split
  · exact State.laneHeader_kept hu _ _
  · exact hu

theorem execPowerLost_kept (h : Kept q s) (m : Moment) (ht : execPowerLost m s = .next v) : Kept q v := by
  exact event_kept h m (fun u hu => powerLost_kept hu) ht

end Sys2Proof.Machine
end

