-- ==== Sys2Proof/Laws/Lane.lean ====
section
/-! SUPPORT. What bytes on the In Lane do to its receiver, said once: the hunt, a header, a body, and which rows a
receiver opens to; and when a timer has reached its limit. -/

namespace Sys2Proof.Machine

/-- A running timer at or past its limit. -/
theorem reached_iff {limit : Nat} {t : Option Nat} : reached limit t = true ↔ ∃ x, t = some x ∧ limit ≤ x := by
  cases t <;> simp [reached]

/-- A stopped timer, or one below its limit. -/
theorem reached_eq_false {limit : Nat} {t : Option Nat} : reached limit t = false ↔ ∀ x, t = some x → x < limit := by
  cases t <;> simp [reached]

/-- The ready line does not depend on what a command brings. -/
@[simp] theorem inLaneReady_arrive (m : Moment) (s : State) : inLaneReady (s.arrive m) = inLaneReady s := rfl

/-- Whether a body waits does not depend on what a command brings. -/
@[simp] theorem LaneBlock.waits_arrive (m : Moment) (s : State) (b : LaneBlock) : b.waits (s.arrive m) = b.waits s := rfl

/-! ### Which rows a receiver opens to -/

/-- The header's bytes as the meanings write them. -/
theorem headerBytes_eq (kind : Byte) (length : Nat) : headerBytes kind length = kind :: beBytes 2 length := by
  simp [beBytes, headerBytes]

/-- The receiver opens to a row exactly when its block may be arriving. -/
theorem opens_iff {kind : Byte} {length : Nat} {s : State} :
    s.lane.opens kind length = true ↔ LaneOpens kind length s := by
  unfold LaneOpens
  rw [headerBytes_eq]
  cases h : s.lane with
  | hunting => simp [LaneReceiver.opens]
  | block b => simp [LaneReceiver.opens]
  | header bs =>
    simp only [LaneReceiver.opens, List.isPrefixOf_iff_prefix]
    exact ⟨fun ⟨r, hr⟩ => .inr ⟨bs, r, rfl, hr⟩, fun hx => by
      obtain h | ⟨_, r, h, hr⟩ := hx
      · exact absurd h (by simp)
      · cases h
        exact ⟨r, hr⟩⟩

/-! ### Bytes -/

variable {s : State}

/-- The hunt passes over every byte but the marker (R193). -/
theorem lane_hunting_pass : ∀ {bs : List Byte}, (∀ x ∈ bs, x ≠ laneMarker) →
    bs.foldl (LaneReceiver.takeByte s) .hunting = .hunting
  | [], _ => rfl
  | x :: t, h => by
    rw [List.foldl_cons, show LaneReceiver.takeByte s .hunting x = .hunting from if_neg (h x (by simp))]
    exact lane_hunting_pass fun y hy => h y (by simp [hy])

/-- Three bytes make a header (R51, section 10.4). -/
theorem lane_header_whole (kind high low : Byte) :
    [kind, high, low].foldl (LaneReceiver.takeByte s) (.header []) =
      laneHeaded s kind (high.toNat * 256 + low.toNat) := rfl

/-- A block that waits, or has its whole body, takes no byte. -/
theorem lane_block_still {b : LaneBlock} (h : b.waits s = true ∨ b.length ≤ b.got) :
    ∀ bs : List Byte, bs.foldl (LaneReceiver.takeByte s) (.block b) = .block b
  | [] => rfl
  | x :: t => by
    rw [List.foldl_cons, show LaneReceiver.takeByte s (.block b) x = .block b from if_pos h]
    exact lane_block_still h t

/-- A body that has begun, or may begin, takes its bytes up to its length (R51, R193). -/
theorem lane_block_bytes : ∀ (bs : List Byte) {b : LaneBlock}, b.waits s = false → b.got ≤ b.length →
    bs.foldl (LaneReceiver.takeByte s) (.block b) = .block { b with got := min b.length (b.got + bs.length) }
  | [], b, _, h => by simp [Nat.min_eq_right h]
  | x :: t, b, hw, h => by
    by_cases hl : b.length ≤ b.got
    · rw [lane_block_still (.inr hl), Nat.min_eq_left (by simp; omega)]
      obtain ⟨_, _, _, _⟩ := b
      simp only [LaneReceiver.block.injEq, LaneBlock.mk.injEq, true_and]
      exact Nat.le_antisymm h hl
    · have hs : LaneReceiver.takeByte s (.block b) x = .block { b with got := b.got + 1 } := if_neg (by simp [hw, hl])
      rw [List.foldl_cons, hs, lane_block_bytes t (b := { b with got := b.got + 1 }) (by simp [LaneBlock.waits]) (by simp; omega)]
      simp only [List.length_cons]
      congr 2
      omega

end Sys2Proof.Machine
end

