-- ==== Sys2Proof/Laws/PerInstr.lean ====
section
/-! SUPPORT. A statement about every command as syntax, one lemma per constructor: a request's kind lies within 1 to 46,
its moment is the one it carries, and no word of the opcode table spells a command (section 10.1, log 28). -/

namespace Sys2Proof.Laws

/-- The moment a command carries. -/
def Kinds.moment : Instr → Moment
  | .lookup m _ => m
  | .nextPart m => m
  | .findNext m _ _ => m
  | .amend m _ _ => m
  | .retire m _ => m
  | .clearCatalogue m => m
  | .catalogueSummary m => m
  | .prepareStore m => m
  | .abandon m _ => m
  | .chainAdd m _ _ _ _ => m
  | .chainCancel m => m
  | .refresh m _ => m
  | .meterSetup m _ => m
  | .meterLock m => m
  | .meterUnlock m => m
  | .readMeter m => m
  | .extendLens m => m
  | .zoomTo m _ => m
  | .zoomStop m => m
  | .parkLens m => m
  | .loadLensStation m _ _ => m
  | .commitLensTable m => m
  | .readZoom m => m
  | .readLensStation m _ _ => m
  | .focusStart m _ => m
  | .focusRelease m => m
  | .focusMode m _ => m
  | .setArea m _ _ _ => m
  | .clearArea m _ => m
  | .setDistance m _ => m
  | .readFocus m => m
  | .readFocusCurve m _ => m
  | .steadyMode m _ => m
  | .readSteady m => m
  | .shotSetup m _ => m
  | .arm m => m
  | .trigger m => m
  | .disarm m => m
  | .readShot m => m
  | .readStatus m => m
  | .readEvents m => m
  | .setEventMask m _ => m
  | .writeSettings m _ => m
  | .readSettings m => m
  | .softReset m => m
  | .shutDown m => m
  | .frameCheck m _ => m
  | .unknownRequest m _ => m
  | .frameBroken m _ => m
  | .linkQuietResume m => m
  | .linkOrder m _ => m
  | .responseCollected m => m
  | .softResetExecute m => m
  | .reset m => m
  | .powerOn m => m
  | .startUpEnd m => m
  | .powerLow m => m
  | .shutdownMarkWrite m => m
  | .safe m => m
  | .recordWriteBegin m => m
  | .recordWriteComplete m => m
  | .prepareScanStart m => m
  | .prepareStoreEnd m => m
  | .arbiterGrant m => m
  | .flashStatusReadDone m => m
  | .pageReadDone m _ => m
  | .pageProgramDone m _ => m
  | .copyBackDone m _ _ => m
  | .blockEraseDone m _ => m
  | .grownMarkProgramDone m _ => m
  | .backgroundTakeBlock m => m
  | .statistics m _ => m
  | .blockWatchExpiry m => m
  | .sampleWatchExpiry m => m
  | .pictureStart m => m
  | .pictureData m _ => m
  | .pictureEnd m _ => m
  | .pictureAbort m => m
  | .inLaneBlockDropped m _ _ => m
  | .inLaneFramingFault m => m
  | .dataTimeout m => m
  | .endTaken m => m
  | .outLaneItemBegin m => m
  | .descriptorStartSent m => m
  | .dataItemSent m => m
  | .descriptorEndSent m => m
  | .cancelledEndSent m => m
  | .encoderPulse m _ => m
  | .parkSensorChange m _ => m
  | .stallWatchExpiry m => m
  | .brakeWatchExpiry m => m
  | .focusHomeSensorSeen m => m
  | .focusHomingFailed m => m
  | .focusMoveComplete m => m
  | .gyroFrame m _ => m
  | .gyroFrameBroken m => m
  | .gyroFrameTimeout m => m
  | .gyroLost m => m
  | .releaseFalling m => m
  | .releaseRising m => m
  | .irisMoveComplete m => m
  | .closeCommandDue m => m
  | .shutterClosed m => m
  | .shutterTimeout m => m
  | .frameDue m => m
  | .gyroStartMarker m => m
  | .requestStartMarker m => m
  | .inLaneHeader m _ _ => m
  | .powerLost m => m

/-- A request's kind lies within 1 to 46 and its moment is the command's; no table word spells the command. -/
def Kinds.Statement (i : Instr) : Prop :=
  (∀ k m, Machine.requestKind i = some (k, m) → 1 ≤ k ∧ k ≤ 46 ∧ m = Kinds.moment i) ∧
  ∀ nbits w, decodeTableWord nbits w ≠ some i

/-- A request of a known kind. -/
theorem Kinds.of_kind {i : Instr} {n : Nat} (h : Machine.requestKind i = some (n, Kinds.moment i)) (h1 : 1 ≤ n)
    (h2 : n ≤ 46) : Kinds.Statement i :=
  ⟨fun k m e => by rw [h] at e; injection e with e; injection e with e1 e2; subst e1; subst e2; exact ⟨h1, h2, rfl⟩,
    fun _ _ => nofun⟩

/-- An event has no kind. -/
theorem Kinds.of_event {i : Instr} (h : Machine.requestKind i = none) : Kinds.Statement i :=
  ⟨fun k m e => by rw [h] at e; injection e, fun _ _ => nofun⟩

theorem Kinds.lookup (m : Moment) (r : RecordName) : Kinds.Statement (.lookup m r) :=
  Kinds.of_kind (n := 1) rfl (by decide) (by decide)
theorem Kinds.nextPart (m : Moment) : Kinds.Statement (.nextPart m) :=
  Kinds.of_kind (n := 2) rfl (by decide) (by decide)
theorem Kinds.findNext (m : Moment) (n : Nat) (f : Option FindFilter) : Kinds.Statement (.findNext m n f) :=
  Kinds.of_kind (n := 3) rfl (by decide) (by decide)
theorem Kinds.amend (m : Moment) (r : RecordName) (c : AmendChange) : Kinds.Statement (.amend m r c) :=
  Kinds.of_kind (n := 4) rfl (by decide) (by decide)
theorem Kinds.retire (m : Moment) (r : RecordName) : Kinds.Statement (.retire m r) :=
  Kinds.of_kind (n := 5) rfl (by decide) (by decide)
theorem Kinds.clearCatalogue (m : Moment) : Kinds.Statement (.clearCatalogue m) :=
  Kinds.of_kind (n := 6) rfl (by decide) (by decide)
theorem Kinds.catalogueSummary (m : Moment) : Kinds.Statement (.catalogueSummary m) :=
  Kinds.of_kind (n := 7) rfl (by decide) (by decide)
theorem Kinds.prepareStore (m : Moment) : Kinds.Statement (.prepareStore m) :=
  Kinds.of_kind (n := 8) rfl (by decide) (by decide)
theorem Kinds.abandon (m : Moment) (n : Nat) : Kinds.Statement (.abandon m n) :=
  Kinds.of_kind (n := 9) rfl (by decide) (by decide)
theorem Kinds.chainAdd (m : Moment) (n offset length : Nat) (notify : Bool) : Kinds.Statement (.chainAdd m n offset length notify) :=
  Kinds.of_kind (n := 10) rfl (by decide) (by decide)
theorem Kinds.chainCancel (m : Moment) : Kinds.Statement (.chainCancel m) :=
  Kinds.of_kind (n := 11) rfl (by decide) (by decide)
theorem Kinds.refresh (m : Moment) (n : Nat) : Kinds.Statement (.refresh m n) :=
  Kinds.of_kind (n := 12) rfl (by decide) (by decide)
theorem Kinds.meterSetup (m : Moment) (x : MeterSetupFields) : Kinds.Statement (.meterSetup m x) :=
  Kinds.of_kind (n := 13) rfl (by decide) (by decide)
theorem Kinds.meterLock (m : Moment) : Kinds.Statement (.meterLock m) :=
  Kinds.of_kind (n := 14) rfl (by decide) (by decide)
theorem Kinds.meterUnlock (m : Moment) : Kinds.Statement (.meterUnlock m) :=
  Kinds.of_kind (n := 15) rfl (by decide) (by decide)
theorem Kinds.readMeter (m : Moment) : Kinds.Statement (.readMeter m) :=
  Kinds.of_kind (n := 16) rfl (by decide) (by decide)
theorem Kinds.extendLens (m : Moment) : Kinds.Statement (.extendLens m) :=
  Kinds.of_kind (n := 17) rfl (by decide) (by decide)
theorem Kinds.zoomTo (m : Moment) (station : Nat) : Kinds.Statement (.zoomTo m station) :=
  Kinds.of_kind (n := 18) rfl (by decide) (by decide)
theorem Kinds.zoomStop (m : Moment) : Kinds.Statement (.zoomStop m) :=
  Kinds.of_kind (n := 19) rfl (by decide) (by decide)
theorem Kinds.parkLens (m : Moment) : Kinds.Statement (.parkLens m) :=
  Kinds.of_kind (n := 20) rfl (by decide) (by decide)
theorem Kinds.loadLensStation (m : Moment) (station : Nat) (e : StationEntry) : Kinds.Statement (.loadLensStation m station e) :=
  Kinds.of_kind (n := 21) rfl (by decide) (by decide)
theorem Kinds.commitLensTable (m : Moment) : Kinds.Statement (.commitLensTable m) :=
  Kinds.of_kind (n := 22) rfl (by decide) (by decide)
theorem Kinds.readZoom (m : Moment) : Kinds.Statement (.readZoom m) :=
  Kinds.of_kind (n := 23) rfl (by decide) (by decide)
theorem Kinds.readLensStation (m : Moment) (station : Nat) (t : Option LensTableName) : Kinds.Statement (.readLensStation m station t) :=
  Kinds.of_kind (n := 24) rfl (by decide) (by decide)
theorem Kinds.focusStart (m : Moment) (range : Option FocusRange) : Kinds.Statement (.focusStart m range) :=
  Kinds.of_kind (n := 25) rfl (by decide) (by decide)
theorem Kinds.focusRelease (m : Moment) : Kinds.Statement (.focusRelease m) :=
  Kinds.of_kind (n := 26) rfl (by decide) (by decide)
theorem Kinds.focusMode (m : Moment) (mode : Option FocusMode) : Kinds.Statement (.focusMode m mode) :=
  Kinds.of_kind (n := 27) rfl (by decide) (by decide)
theorem Kinds.setArea (m : Moment) (id : Nat) (rect : Rect) (enabled : Bool) : Kinds.Statement (.setArea m id rect enabled) :=
  Kinds.of_kind (n := 28) rfl (by decide) (by decide)
theorem Kinds.clearArea (m : Moment) (id : Nat) : Kinds.Statement (.clearArea m id) :=
  Kinds.of_kind (n := 29) rfl (by decide) (by decide)
theorem Kinds.setDistance (m : Moment) (cls : Nat) : Kinds.Statement (.setDistance m cls) :=
  Kinds.of_kind (n := 30) rfl (by decide) (by decide)
theorem Kinds.readFocus (m : Moment) : Kinds.Statement (.readFocus m) :=
  Kinds.of_kind (n := 31) rfl (by decide) (by decide)
theorem Kinds.readFocusCurve (m : Moment) (id : Nat) : Kinds.Statement (.readFocusCurve m id) :=
  Kinds.of_kind (n := 32) rfl (by decide) (by decide)
theorem Kinds.steadyMode (m : Moment) (mode : Option SteadyMode) : Kinds.Statement (.steadyMode m mode) :=
  Kinds.of_kind (n := 33) rfl (by decide) (by decide)
theorem Kinds.readSteady (m : Moment) : Kinds.Statement (.readSteady m) :=
  Kinds.of_kind (n := 34) rfl (by decide) (by decide)
theorem Kinds.shotSetup (m : Moment) (x : ShotSetupFields) : Kinds.Statement (.shotSetup m x) :=
  Kinds.of_kind (n := 35) rfl (by decide) (by decide)
theorem Kinds.arm (m : Moment) : Kinds.Statement (.arm m) :=
  Kinds.of_kind (n := 36) rfl (by decide) (by decide)
theorem Kinds.trigger (m : Moment) : Kinds.Statement (.trigger m) :=
  Kinds.of_kind (n := 37) rfl (by decide) (by decide)
theorem Kinds.disarm (m : Moment) : Kinds.Statement (.disarm m) :=
  Kinds.of_kind (n := 38) rfl (by decide) (by decide)
theorem Kinds.readShot (m : Moment) : Kinds.Statement (.readShot m) :=
  Kinds.of_kind (n := 39) rfl (by decide) (by decide)
theorem Kinds.readStatus (m : Moment) : Kinds.Statement (.readStatus m) :=
  Kinds.of_kind (n := 40) rfl (by decide) (by decide)
theorem Kinds.readEvents (m : Moment) : Kinds.Statement (.readEvents m) :=
  Kinds.of_kind (n := 41) rfl (by decide) (by decide)
theorem Kinds.setEventMask (m : Moment) (mask : Half) : Kinds.Statement (.setEventMask m mask) :=
  Kinds.of_kind (n := 42) rfl (by decide) (by decide)
theorem Kinds.writeSettings (m : Moment) (x : Settings) : Kinds.Statement (.writeSettings m x) :=
  Kinds.of_kind (n := 43) rfl (by decide) (by decide)
theorem Kinds.readSettings (m : Moment) : Kinds.Statement (.readSettings m) :=
  Kinds.of_kind (n := 44) rfl (by decide) (by decide)
theorem Kinds.softReset (m : Moment) : Kinds.Statement (.softReset m) :=
  Kinds.of_kind (n := 45) rfl (by decide) (by decide)
theorem Kinds.shutDown (m : Moment) : Kinds.Statement (.shutDown m) :=
  Kinds.of_kind (n := 46) rfl (by decide) (by decide)
theorem Kinds.frameCheck (m : Moment) (f : FrameEnd) : Kinds.Statement (.frameCheck m f) :=
  Kinds.of_event rfl
theorem Kinds.unknownRequest (m : Moment) (bytes : List Byte) : Kinds.Statement (.unknownRequest m bytes) :=
  Kinds.of_event rfl
theorem Kinds.frameBroken (m : Moment) (bytes : List Byte) : Kinds.Statement (.frameBroken m bytes) :=
  Kinds.of_event rfl
theorem Kinds.linkQuietResume (m : Moment) : Kinds.Statement (.linkQuietResume m) :=
  Kinds.of_event rfl
theorem Kinds.linkOrder (m : Moment) (bytes : List Byte) : Kinds.Statement (.linkOrder m bytes) :=
  Kinds.of_event rfl
theorem Kinds.responseCollected (m : Moment) : Kinds.Statement (.responseCollected m) :=
  Kinds.of_event rfl
theorem Kinds.softResetExecute (m : Moment) : Kinds.Statement (.softResetExecute m) :=
  Kinds.of_event rfl
theorem Kinds.reset (m : Moment) : Kinds.Statement (.reset m) :=
  Kinds.of_event rfl
theorem Kinds.powerOn (m : Moment) : Kinds.Statement (.powerOn m) :=
  Kinds.of_event rfl
theorem Kinds.startUpEnd (m : Moment) : Kinds.Statement (.startUpEnd m) :=
  Kinds.of_event rfl
theorem Kinds.powerLow (m : Moment) : Kinds.Statement (.powerLow m) :=
  Kinds.of_event rfl
theorem Kinds.shutdownMarkWrite (m : Moment) : Kinds.Statement (.shutdownMarkWrite m) :=
  Kinds.of_event rfl
theorem Kinds.safe (m : Moment) : Kinds.Statement (.safe m) :=
  Kinds.of_event rfl
theorem Kinds.recordWriteBegin (m : Moment) : Kinds.Statement (.recordWriteBegin m) :=
  Kinds.of_event rfl
theorem Kinds.recordWriteComplete (m : Moment) : Kinds.Statement (.recordWriteComplete m) :=
  Kinds.of_event rfl
theorem Kinds.prepareScanStart (m : Moment) : Kinds.Statement (.prepareScanStart m) :=
  Kinds.of_event rfl
theorem Kinds.prepareStoreEnd (m : Moment) : Kinds.Statement (.prepareStoreEnd m) :=
  Kinds.of_event rfl
theorem Kinds.arbiterGrant (m : Moment) : Kinds.Statement (.arbiterGrant m) :=
  Kinds.of_event rfl
theorem Kinds.flashStatusReadDone (m : Moment) : Kinds.Statement (.flashStatusReadDone m) :=
  Kinds.of_event rfl
theorem Kinds.pageReadDone (m : Moment) (r : PageRead) : Kinds.Statement (.pageReadDone m r) :=
  Kinds.of_event rfl
theorem Kinds.pageProgramDone (m : Moment) (pass : Bool) : Kinds.Statement (.pageProgramDone m pass) :=
  Kinds.of_event rfl
theorem Kinds.copyBackDone (m : Moment) (source : CopyRead) (pass : Bool) : Kinds.Statement (.copyBackDone m source pass) :=
  Kinds.of_event rfl
theorem Kinds.blockEraseDone (m : Moment) (pass : Bool) : Kinds.Statement (.blockEraseDone m pass) :=
  Kinds.of_event rfl
theorem Kinds.grownMarkProgramDone (m : Moment) (pass : Bool) : Kinds.Statement (.grownMarkProgramDone m pass) :=
  Kinds.of_event rfl
theorem Kinds.backgroundTakeBlock (m : Moment) : Kinds.Statement (.backgroundTakeBlock m) :=
  Kinds.of_event rfl
theorem Kinds.statistics (m : Moment) (body : List Byte) : Kinds.Statement (.statistics m body) :=
  Kinds.of_event rfl
theorem Kinds.blockWatchExpiry (m : Moment) : Kinds.Statement (.blockWatchExpiry m) :=
  Kinds.of_event rfl
theorem Kinds.sampleWatchExpiry (m : Moment) : Kinds.Statement (.sampleWatchExpiry m) :=
  Kinds.of_event rfl
theorem Kinds.pictureStart (m : Moment) : Kinds.Statement (.pictureStart m) :=
  Kinds.of_event rfl
theorem Kinds.pictureData (m : Moment) (bytes : List Byte) : Kinds.Statement (.pictureData m bytes) :=
  Kinds.of_event rfl
theorem Kinds.pictureEnd (m : Moment) (body : List Byte) : Kinds.Statement (.pictureEnd m body) :=
  Kinds.of_event rfl
theorem Kinds.pictureAbort (m : Moment) : Kinds.Statement (.pictureAbort m) :=
  Kinds.of_event rfl
theorem Kinds.inLaneBlockDropped (m : Moment) (kind : Byte) (length : Nat) : Kinds.Statement (.inLaneBlockDropped m kind length) :=
  Kinds.of_event rfl
theorem Kinds.inLaneFramingFault (m : Moment) : Kinds.Statement (.inLaneFramingFault m) :=
  Kinds.of_event rfl
theorem Kinds.dataTimeout (m : Moment) : Kinds.Statement (.dataTimeout m) :=
  Kinds.of_event rfl
theorem Kinds.endTaken (m : Moment) : Kinds.Statement (.endTaken m) :=
  Kinds.of_event rfl
theorem Kinds.outLaneItemBegin (m : Moment) : Kinds.Statement (.outLaneItemBegin m) :=
  Kinds.of_event rfl
theorem Kinds.descriptorStartSent (m : Moment) : Kinds.Statement (.descriptorStartSent m) :=
  Kinds.of_event rfl
theorem Kinds.dataItemSent (m : Moment) : Kinds.Statement (.dataItemSent m) :=
  Kinds.of_event rfl
theorem Kinds.descriptorEndSent (m : Moment) : Kinds.Statement (.descriptorEndSent m) :=
  Kinds.of_event rfl
theorem Kinds.cancelledEndSent (m : Moment) : Kinds.Statement (.cancelledEndSent m) :=
  Kinds.of_event rfl
theorem Kinds.encoderPulse (m : Moment) (tele : Bool) : Kinds.Statement (.encoderPulse m tele) :=
  Kinds.of_event rfl
theorem Kinds.parkSensorChange (m : Moment) (seen : Bool) : Kinds.Statement (.parkSensorChange m seen) :=
  Kinds.of_event rfl
theorem Kinds.stallWatchExpiry (m : Moment) : Kinds.Statement (.stallWatchExpiry m) :=
  Kinds.of_event rfl
theorem Kinds.brakeWatchExpiry (m : Moment) : Kinds.Statement (.brakeWatchExpiry m) :=
  Kinds.of_event rfl
theorem Kinds.focusHomeSensorSeen (m : Moment) : Kinds.Statement (.focusHomeSensorSeen m) :=
  Kinds.of_event rfl
theorem Kinds.focusHomingFailed (m : Moment) : Kinds.Statement (.focusHomingFailed m) :=
  Kinds.of_event rfl
theorem Kinds.focusMoveComplete (m : Moment) : Kinds.Statement (.focusMoveComplete m) :=
  Kinds.of_event rfl
theorem Kinds.gyroFrame (m : Moment) (bytes : List Byte) : Kinds.Statement (.gyroFrame m bytes) :=
  Kinds.of_event rfl
theorem Kinds.gyroFrameBroken (m : Moment) : Kinds.Statement (.gyroFrameBroken m) :=
  Kinds.of_event rfl
theorem Kinds.gyroFrameTimeout (m : Moment) : Kinds.Statement (.gyroFrameTimeout m) :=
  Kinds.of_event rfl
theorem Kinds.gyroLost (m : Moment) : Kinds.Statement (.gyroLost m) :=
  Kinds.of_event rfl
theorem Kinds.releaseFalling (m : Moment) : Kinds.Statement (.releaseFalling m) :=
  Kinds.of_event rfl
theorem Kinds.releaseRising (m : Moment) : Kinds.Statement (.releaseRising m) :=
  Kinds.of_event rfl
theorem Kinds.irisMoveComplete (m : Moment) : Kinds.Statement (.irisMoveComplete m) :=
  Kinds.of_event rfl
theorem Kinds.closeCommandDue (m : Moment) : Kinds.Statement (.closeCommandDue m) :=
  Kinds.of_event rfl
theorem Kinds.shutterClosed (m : Moment) : Kinds.Statement (.shutterClosed m) :=
  Kinds.of_event rfl
theorem Kinds.shutterTimeout (m : Moment) : Kinds.Statement (.shutterTimeout m) :=
  Kinds.of_event rfl
theorem Kinds.frameDue (m : Moment) : Kinds.Statement (.frameDue m) :=
  Kinds.of_event rfl
theorem Kinds.gyroStartMarker (m : Moment) : Kinds.Statement (.gyroStartMarker m) :=
  Kinds.of_event rfl
theorem Kinds.requestStartMarker (m : Moment) : Kinds.Statement (.requestStartMarker m) :=
  Kinds.of_event rfl
theorem Kinds.inLaneHeader (m : Moment) (kind : Byte) (length : Nat) : Kinds.Statement (.inLaneHeader m kind length) :=
  Kinds.of_event rfl
theorem Kinds.powerLost (m : Moment) : Kinds.Statement (.powerLost m) :=
  Kinds.of_event rfl

end Sys2Proof.Laws
end

