-- ==== Sys2Proof/Tests/Slice0.lean ====
section
/-! SUPPORT. The model's own tests: what the wires cannot carry is refused as ill-formed, the layouts and the manual's
worked examples come out as printed, and every statement with hypotheses has states that meet them. -/

namespace Sys2Proof.Tests

open Machine

-- One test at a time: a hundred kernel evaluations waiting at once would each hold a thread.
set_option Elab.async false

/-! ### Small states -/

/-- A moment 10 µs on, with the shutter open, the home sensor not seen, no focus step, the Out Lane's ready high and no byte
clocked or come on the In Lane. -/
def here : Moment := { dt := 10, shutterClosed := false, focusHome := false, focusSteps := 0, outReady := true
                       clocked := [], lane := [], gyro := [] }

/-- The part running after start-up, with nothing under way. -/
def up : State := { State.reset with supply := { State.reset.supply with shutdown := .running } }

/-- The state a command leaves; the state itself where it stops. -/
def after (c : Instr) (s : State) : State :=
  match exec c s with
  | .next t => t
  | _ => s

/-- The fields an ARM froze. -/
def frozen : ArmFields :=
  { group := 0, index := 1, station := 0, focus := .notLocked
    exposure := { tv := 18, av := 11, sv := 0, scene := 29, compensation := 0, mode := .program, pattern := .matrix }
    flags := { slow := false, bright := false, dark := false, cutShort := false } }

/-- A record in a state, holding a reservation of 2 and the blocks 5 and 6. -/
def rec (n : Nat) (st : RecState) : PicRecord :=
  { newRecord n frozen 2 with state := st, extent := [5, 6] }

/-- A STORED picture of 5,000 bytes in the blocks 5 and 6. -/
def kept : PicRecord :=
  { rec 140 .stored with remaining := 0, picture := some { length := 5000, check := 0#32, width := 64, height := 48 } }

/-- The part with some records. -/
def withPlaces (l : List (Nat × PicRecord)) (s : State) : State := { s with cat := { s.cat with places := l } }

/-- A writable store of 4,096 blocks: 5 and 6 in use, four ERASED, 20 and 21 due for background work. -/
def map0 : BlockMap :=
  { up.map with
    total := 4096, identity := some 4096, mode := .writable, reserved := 2
    blocks := [(5, .inUse), (6, .inUse), (7, .erased), (8, .erased), (9, .erased), (10, .erased), (20, .dirty .ready)] }

/-- The part with that store. -/
def store0 : State := { up with map := map0, flash := { up.flash with statusDone := true, writeProtect := false } }

/-- An entry of a lens table. -/
def entry (k : Nat) : StationEntry :=
  { count := 200 + 50 * k, focal := 24 + k, widest := 6, narrowest := 18, gain := 10, near := 1, cams := [100, 120] }

/-- A lens table of 48 stations. -/
def table : List StationEntry := (List.range 48).map entry

/-- READY at station 2, the focus IDLE. -/
def lens : State :=
  { store0 with
    zoom := { store0.zoom with state := .ready, count := some 300, current := some 2, working := some table
                               staging := table.map some }
    focus := { store0.focus with state := .idle, position := some 100 } }

/-- The lists and tables of a state hold the invariant, as a check. -/
def canonicalCheck (s : State) : Bool :=
  let bad (l : List (Nat × BadKind)) : Bool := Table.wf anyValue l && l.length ≤ 256
  (Table.wf anyValue s.cat.places && s.cat.places.all (·.1 < 1024)) &&
  (Table.wf anyValue s.memory.places && s.memory.places.all (·.1 < 1024)) &&
  (match s.memory.badList with | .good l => bad l | .torn => true) &&
  decide s.writer.queue.Nodup && s.writer.queue.all (fun i => match i with | .place p => p < 1024 | _ => true) &&
  (match s.writer.inFlight with | some (.place p _) => p < 1024 | some (.badList l) => bad l | _ => true) &&
  Table.wf (· != BlockState.unchecked) s.map.blocks && s.map.blocks.all (·.1 < s.map.total) && bad s.map.badList &&
  s.chain.chain.length ≤ 16

theorem canonical_of_check (s : State) (h : canonicalCheck s = true) : Canonical s := by
  simp only [canonicalCheck, Bool.and_eq_true, List.all_eq_true, decide_eq_true_eq] at h
  obtain ⟨⟨⟨⟨⟨⟨⟨⟨⟨⟨a1, a2⟩, b1, b2⟩, c⟩, d⟩, e⟩, f⟩, g1⟩, g2⟩, i1, i2⟩, j⟩ := h
  refine ⟨⟨a1, a2⟩, ⟨⟨b1, b2⟩, ?_⟩, ⟨d, ?_, ?_⟩, ⟨⟨g1, g2⟩, i1, i2⟩, j⟩
  · intro l hl
    rw [hl] at c
    simpa [badListOk, Config.maxBad] using c
  · intro i hi
    have := e i hi
    cases i <;> simp_all [Item.ok, Config.placeCount]
  · intro x hx
    rw [hx] at f
    cases x <;> simp_all [Copy.ok, badListOk, Config.maxBad, Config.placeCount]

/-! ### What the wires cannot carry -/

theorem test_wf_number : (Instr.abandon here 65536).wf = false := by decide
theorem test_wf_name : (Instr.retire here (.byPlace 65536)).wf = false := by decide
theorem test_wf_amend : (Instr.amend here (.byNumber 1)
    { protect := none, rating := none, caption := none
      trim := some (.set { left := 65536, top := 0, width := 1, height := 1 }) }).wf = false := by decide
theorem test_wf_rating : (Instr.amend here (.byNumber 1)
    { protect := none, rating := some 65536, caption := none, trim := none }).wf = false := by decide
set_option maxRecDepth 4000 in
theorem test_wf_caption : (Instr.amend here (.byNumber 1)
    { protect := none, rating := none, caption := some (List.replicate 237 32#8), trim := none }).wf = false := by decide
theorem test_wf_findNext : (Instr.findNext here 65536 (some .all)).wf = false := by decide
theorem test_wf_chainAdd : (Instr.chainAdd here 1 4294967296 0 true).wf = false := by decide
theorem test_wf_meterSetup : (Instr.meterSetup here
    { mode := none, pattern := none, sensitivity := some (.auto 128), compensation := 0, av := 6, tv := 0 }).wf = false := by
  decide
theorem test_wf_meterSetupByte : (Instr.meterSetup here
    { mode := none, pattern := none, sensitivity := none, compensation := -129, av := 6, tv := 0 }).wf = false := by decide
theorem test_wf_station : (Instr.zoomTo here 65536).wf = false := by decide
theorem test_wf_loadLensStation : (Instr.loadLensStation here 0 { entry 0 with count := 65536 }).wf = false := by decide
set_option maxRecDepth 4000 in
theorem test_wf_cams : (Instr.loadLensStation here 0 { entry 0 with cams := List.replicate 117 0 }).wf = false := by
  decide
theorem test_wf_setArea : (Instr.setArea here 0
    { firstCol := 65536, lastCol := 0, firstRow := 0, lastRow := 0 } true).wf = false := by decide
theorem test_wf_shotSetup : (Instr.shotSetup here
    { count := 1, interval := 65536, policy := none, trigger := none }).wf = false := by decide
theorem test_wf_writeSettings : (Instr.writeSettings here { defaultSettings with weights := [] }).wf = false := by decide
theorem test_wf_weight : (Instr.writeSettings here
    { defaultSettings with weights := List.replicate 48 256 }).wf = false := by decide
theorem test_wf_pageReadDone : (Instr.pageReadDone here
    { data := [], spare := [], counts := [], mark := .clear }).wf = false := by decide
theorem test_wf_copyBackDone : (Instr.copyBackDone here
    { data := [], counts := List.replicate 4 (.corrected 9) } true).wf = false := by decide
theorem test_wf_statistics : (Instr.statistics here []).wf = false := by decide
theorem test_wf_pictureData : (Instr.pictureData here []).wf = false := by decide
theorem test_wf_pictureEnd : (Instr.pictureEnd here [0#8]).wf = false := by decide
theorem test_wf_gyroFrame : (Instr.gyroFrame here (List.replicate 7 0#8)).wf = false := by decide
theorem test_wf_inLaneHeader : (Instr.inLaneHeader here 3#8 65536).wf = false := by decide
theorem test_wf_inLaneBlockDropped : (Instr.inLaneBlockDropped here 3#8 65536).wf = false := by decide
theorem test_wf_accepts : (Instr.loadLensStation here 47 (entry 47)).wf = true := by decide


/-! ### Layouts and worked examples of the manual -/

/-- Section 10.4: PICTURE_END's twelve bytes, high byte first. -/
theorem test_end_layout : endOf [0#8, 1#8, 0#8, 2#8, 0x12#8, 0x34#8, 0x56#8, 0x78#8, 1#8, 0#8, 0#8, 48#8] =
    { length := 65538, check := 0x12345678#32, width := 256, height := 48 } := by decide

/-- Section 10.4: a gyro frame with a negative yaw rate, whose six bytes sum to 1,024; one whose check does not hold. -/
theorem test_gyro_layout : gyroOf [41#8, 7#8, 0xDC#8, 0xFF#8, 0xFE#8, 0xF7#8] =
    { seq := 41, pitch := 2012, yaw := -2, checkOk := true } ∧
    (gyroOf [1#8, 0#8, 0#8, 0#8, 0#8, 254#8]).checkOk = false := by decide

/-- Section 10.4: DESCRIPTOR_END of picture 517, outcome DAMAGED_DATA. -/
theorem test_out_item_bytes : OutItem.bytes { number := 517, kind := .finish .damagedData, live := true, notify := true } =
    [60#8, 3#8, 2#8, 5#8, 1#8] := by decide

/-- R185: the link check of the nine digits is the generator's known value. -/
theorem test_link_check : linkCheck [49#8, 50#8, 51#8, 52#8, 53#8, 54#8, 55#8, 56#8, 57#8] = 0x29B1#16 := by
  decide +kernel

/-- R57: the picture check of the nine digits is the generator's known value. -/
theorem test_picture_check :
    checkValue (pictureCheck 0xFFFFFFFF#32 [49#8, 50#8, 51#8, 52#8, 53#8, 54#8, 55#8, 56#8, 57#8]) = 0xCBF43926#32 := by
  decide +kernel

/-- Section 5.3, a scene settling: five measurements and the filtered value, run count and state they leave. -/
theorem test_scene_settles :
    let m := [20, 22, 21, 21, 21].foldl (fun (m : Meter) (v : Int) => m.measured v 0) resetMeter
    (m.filtered, m.run, m.state) = (some 332, 3, MeterState.stable) ∧ reportedScene m = some 21 := by decide

/-- Section 5.2: half the target level measures one stop below the live exposure. -/
theorem test_half_target : thirdsLog 5900 11800 + 12 = 9 := by decide

/-- Section 5.4: the handheld limits of the table. -/
theorem test_handheld_limits : [24, 50, 100, 200, 480, 960].map (handheldLimit · false) = [14, 17, 20, 23, 27, 30] ∧
    handheldLimit 960 true = 21 := by decide

/-- Section 5.4, the long end, steadied and not, and the bright wide end. -/
theorem test_exposure_examples :
    let far : StationEntry := { entry 47 with focal := 960, widest := 16, narrowest := 24 }
    let near : StationEntry := { entry 0 with widest := 11, narrowest := 24 }
    (programSplit far 21 21 0 true = (21, 16, 16, { slow := false, bright := false, dark := false, cutShort := false })) ∧
    (programSplit far 30 21 0 true = (23, 16, 18, { slow := true, bright := false, dark := false, cutShort := false })) ∧
    (programSplit near 14 69 0 true = (36, 24, 0, { slow := false, bright := true, dark := false, cutShort := false })) := by
  decide

/-- Section 8.4, integrating a few frames on the pitch axis. -/
theorem test_gyro_integration :
    let step (a : Axis) (f : Nat × Int) : Axis := a.integrate false f.1 f.2 2000
    let frames : List (Nat × Int) := [(1, 2012), (1, 2012), (3, 1012), (2, 12), (1, -988)]
    let a := frames.foldl step { resetAxis with bias := some 12 }
    (a.angle, a.target) = (5979, 120) ∧ (axisReport a).angle = 59 := by decide

/-- R152: the gaps of the same example. -/
theorem test_gyro_periods : gyroPeriods (some 42) 45 = (3, false) ∧ gyroPeriods (some 47) 60 = (1, true) ∧
    gyroPeriods none 60 = (1, false) := by decide

/-- R172: the exposure times of the table. -/
theorem test_exposure_times : [36, 30, 21, 18, 0, -15].map exposureTime = [244, 977, 7813, 15625, 1000000, 32000000] := by
  decide +kernel

/-- Section 9.4, the learned delay at work. -/
theorem test_learned_delay : learnedAfter 5000 5087 = 5022 ∧ learnedAfter 5022 5049 = 5029 ∧
    learnedAfter 1000 0 = 1000 ∧ learnedAfter 20000 50000 = 20000 := by decide

/-- Section 1.3, a burst across the wrap: the numbers given and the counter left. -/
theorem test_burst_across_the_wrap :
    let s : State := { up with cat := { up.cat with places := [(0, { kept with number := some 1 })], counter := 9998 } }
    let b := s.createBurst frozen 2 3 1
    (b.2, b.1.cat.counter, b.1.cat.places.map (·.1)) = ([9998, 9999, 2], 3, [0, 1, 2, 3]) := by decide

/-- Section 1.4: 30 blocks give a header and two extent parts. -/
theorem test_parts : partCount (List.range 30) = 3 ∧
    extentParts 2 (List.range 30) = [(2, List.range 24), (3, (List.range 30).drop 24)] := by decide

/-- R123: the gain between two stations. -/
theorem test_gain_between_stations : gainAt 225 [{ entry 0 with gain := 10 }, { entry 1 with gain := 21 }] = 16 := by
  decide

/-- Section 10.2: ATTN follows the mask. -/
theorem test_attn : attn (up.setFlag .started) = true ∧
    attn { up.setFlag .started with events := { (up.setFlag .started).events with mask := 0x7FFF#16 } } = false := by
  decide

/-! ### Every statement with hypotheses has states that meet them -/

/-- A ready response. -/
def ready : Response := { kind := 40, code := .ok, body := .empty, held := none }

/-- The part with a Command Link. -/
def withLink (l : Link) (s : State) : State := { s with link := l }

theorem test_witness_EveryStepKeepsTheCanonicalForm :
    let s : State := { up with pending := [.readStatus here, .meterLock here] }
    Canonical s ∧ step s = .next (after (.readStatus here) { s with pending := [.meterLock here] }) :=
  ⟨canonical_of_check _ (by decide), rfl⟩

theorem test_witness_EveryCommandCompletesAndKeepsTheQueue : Canonical lens ∧ Canonical (withPlaces [(1023, kept)] store0) :=
  ⟨canonical_of_check _ (by decide), canonical_of_check _ (by decide)⟩

theorem test_witness_IdleOrUnpoweredPartStaysAsItIs :
    up.pending = [] ∧ (after (.powerLost here) up).supply.powered = false ∧ ∀ m, Instr.arm here ≠ .powerOn m := by
  and_intros <;> first | decide | nofun

theorem test_witness_RequestsBeforeTheirOwner :
    let c : Instr := .arm here
    let silent : State := withLink { up.link with condition := .silent } up
    let waiting : State := withLink { up.link with pending := some ready } up
    let late : State := withLink { up.link with receiver := .receiving true [] } up
    let low : State := { up with supply := { up.supply with powerLow := true, shutdown := .draining } }
    let down : State := { up with supply := { up.supply with shutDownTaken := true, shutdown := .draining } }
    requestKind c = some (36, here) ∧ up.supply.powered = true ∧
    silent.link.condition = .silent ∧ silent.link.receiver ≠ .overlong ∧
    waiting.link.condition = .listening ∧ waiting.link.receiver ≠ .overlong ∧ waiting.link.pending ≠ none ∧
    late.link.receiver.late = true ∧ late.link.receiver ≠ .overlong ∧
    Listening State.reset ∧ State.reset.supply.shutdown = .starting ∧
    Listening low ∧ low.supply.shutdown ≠ .starting ∧ low.supply.powerLow = true ∧
    Listening down ∧ down.supply.powerLow = false ∧ down.supply.shutDownTaken = true := by
  decide +kernel

theorem test_witness_MalformedFramesAreRefused :
    let s : State := withLink { up.link with receiver := .receiving false [] } up
    Listening s ∧ s.link.receiver = .receiving false [] := by
  decide +kernel

theorem test_witness_FramesBeginAndAreDiscarded :
    let r : State := withLink { up.link with pending := some ready } up
    let h : State := withLink { up.link with pending := some { ready with held := some .mark } } up
    let o : State := withLink { up.link with receiver := .overlong } up
    up.link.receiver = .hunting ∧ up.link.pending = none ∧
    r.link.receiver = .hunting ∧ r.link.pending = some ready ∧ ready.held = none ∧
    h.link.receiver = .hunting ∧ h.link.pending = some { ready with held := some .mark } ∧
    o.link.receiver = .overlong ∧ o.supply.powered = true := by
  decide +kernel

theorem test_witness_SoftResetWaitsAndResets :
    let r : State := withLink { up.link with pending := some { ready with kind := 45 } } up
    let quiet : State := withLink { up.link with condition := .silent } up
    let writing : State := { quiet with writer := { queue := [], inFlight := some (.counter 1) } }
    Taking up ∧ r.link.pending = some { ready with kind := 45 } ∧
    quiet.link.condition = .silent ∧ quiet.writer.inFlight = none ∧ quiet.flash.inFlight = none ∧
    writing.link.condition = .silent ∧ writing.writer.inFlight ≠ none := by
  decide +kernel

theorem test_witness_EventFlagsAndAttn :
    let s : State := { State.reset with writer := { queue := [], inFlight := some (.mark .running) } }
    s.supply.powered = true ∧ s.supply.shutdown = .starting ∧ s.writer.queue = [] ∧
    s.writer.inFlight = some (.mark .running) ∧ s.events.mask = 0xFFFF#16 ∧ s.supply.powerLowEarly = false ∧
    EventFlag.linkOrder ≠ EventFlag.started := by
  decide +kernel

theorem test_witness_ReadEventsCopiesAndClears :
    Listening up ∧ up.supply.shutdown ≠ .starting ∧ Taking up ∧
    Listening State.reset ∧ State.reset.supply.shutdown = .starting ∧
    (up.setFlag .started).events.has .started = true ∧ (0x8000#16 : Half).getLsbD EventFlag.started.bit = true := by
  decide +kernel

theorem test_witness_ReadStatusReportsEveryOwner :
    let low : State := after (.powerLow here) up
    Listening up ∧ up.supply.shutdown ≠ .starting ∧ Listening low ∧ low.supply.powerLow = true := by
  decide +kernel

theorem test_witness_SettingsAreWrittenWhole :
    let most : Settings := { target := 65535, weights := List.replicate 48 15, reservation := 48, flashBlocks := 8192 }
    let least : Settings := { target := 1, weights := List.replicate 48 0, reservation := 1, flashBlocks := 4096 }
    let ok (x : Settings) : Prop := 1 ≤ x.target ∧ x.target ≤ 65535 ∧ x.weights.length = 48 ∧ (∀ w ∈ x.weights, w ≤ 15) ∧
      1 ≤ x.reservation ∧ x.reservation ≤ 48 ∧ (x.flashBlocks = 4096 ∨ x.flashBlocks = 8192)
    Taking up ∧ ok most ∧ ok least ∧ 65535 < { most with target := 65536 }.target ∧
    (∃ w ∈ { least with weights := [16] }.weights, 15 < w) := by
  decide +kernel

theorem test_witness_OwnerReadsChangeNothing :
    let empty : State := { lens with zoom := { lens.zoom with staging := List.replicate 48 none, working := none } }
    Taking lens ∧ Taking empty ∧ lens.zoom.staging[47]? = some (some (entry 47)) ∧
    empty.zoom.staging[47]? = some none ∧ lens.zoom.working = some table ∧ table[47]? = some (entry 47) ∧
    empty.zoom.working = none := by
  decide +kernel

theorem test_witness_ResetLeavesTheStatedValues :
    let off : State := after (.powerLost here) up
    let writing : State := { up with writer := { queue := [], inFlight := some (.place 1023 none) } }
    let shot : State := after (.reset here) { up with
      steady := { up.steady with progress := 256 }
      shot := { up.shot with lastLatency := some 1, lastMeasured := some 15710 } }
    up.supply.powered = true ∧ up.writer.inFlight = none ∧ off.supply.powered = false ∧
    writing.writer.inFlight = some (.place 1023 none) ∧
    (shot.steady.progress, shot.shot.lastLatency, shot.shot.lastMeasured) = (0, none, none) := by
  decide +kernel

theorem test_witness_PowerLossKeepsRecordMemory :
    let writing (c : Copy) : State := { up with writer := { queue := [.counter], inFlight := some c } }
    up.supply.powered = true ∧ up.writer.inFlight = none ∧
    (writing (.place 0 (some kept))).writer.inFlight = some (.place 0 (some kept)) ∧
    (writing (.mark .clean)).writer.inFlight = some (.mark .clean) ∧
    (writing (.counter 9999)).writer.inFlight = some (.counter 9999) := by
  decide +kernel

/-- Record Memory with a place in each state, on a store of 4,096 blocks. -/
def fullMemory : State :=
  { up with memory := { up.memory with
      identity := .good (some 4096)
      places := [(0, .torn), (1, .good (newRecord 1 frozen 2)), (2, .good (rec 2 .exposing)), (3, .good (rec 3 .awaiting)),
        (4, .good (rec 4 .storing)), (5, .good (rec 5 .failed)), (6, .good (rec 6 .damaged)), (1023, .good kept)] } }

theorem test_witness_StartUpRebuildsEveryPlace :
    Canonical fullMemory ∧ fullMemory.supply.powered = true ∧ fullMemory.writer.inFlight = none ∧
    Table.get 7 fullMemory.memory.places = none ∧ Table.get 0 fullMemory.memory.places = some .torn ∧
    Table.get 1 fullMemory.memory.places = some (.good (newRecord 1 frozen 2)) ∧
    Table.get 1023 fullMemory.memory.places = some (.good kept) ∧ kept.state = .stored ∧
    (after (.reset here) fullMemory).map.total ≠ 0 ∧
    (after (.reset here) { fullMemory with memory := { fullMemory.memory with identity := .torn } }).map.total = 0 ∧
    ((after (.reset here) fullMemory).record 1023).map (·.state) = some .stored :=
  ⟨canonical_of_check _ (by decide +kernel), by decide +kernel⟩

theorem test_witness_StartUpEndsWithTheMarkRunning :
    let s := State.reset
    let early : State := { s with supply := { s.supply with powerLowEarly := true } }
    s.supply.powered = true ∧ s.supply.shutdown = .starting ∧ s.writer.queue = [] ∧ s.writer.inFlight = none ∧
    s.flash.protectDue = false ∧ s.supply.powerLowEarly = false ∧ early.supply.powerLowEarly = true := by
  decide +kernel

theorem test_witness_PowerLowHandsOutItsDuties :
    let low : State := after (.powerLow here) up
    let off : State := { up with supply := { up.supply with shutdown := .shutDown } }
    low.supply.powerLow = true ∧ low.supply.shutdown ≠ .starting ∧ off.supply.powerLow = false ∧
    off.supply.shutdown = .shutDown ∧ up.supply.powerLow = false ∧ up.supply.shutdown = .running := by
  decide +kernel

/-- PARKED with nothing under way. -/
def parked : State := { store0 with zoom := { store0.zoom with state := .parked, count := some 0 } }

theorem test_witness_ShutDownDrainsAndRaisesSafe :
    let down : State := after (.shutDown here) parked
    let marking : State := after (.shutdownMarkWrite here) down
    let marked : State := after (.recordWriteComplete here) marking
    Taking up ∧ up.zoom.state ≠ .parked ∧
    Taking parked ∧ parked.zoom.state = .parked ∧ parked.shot.state = .idle ∧ parked.store.queue = [] ∧
    parked.chain.chain = [] ∧ parked.chain.refresh = none ∧ parked.map.mode ≠ .preparing ∧
    down.supply.shutdown = .draining ∧ down.supply.markWritten = false ∧ down.link.condition = .listening ∧
    down.writer = { queue := [], inFlight := none } ∧ down.chain.item = none ∧ down.flash.inFlight = none ∧
    marking.supply.shutdown = .draining ∧ marking.writer.inFlight = some (.mark .clean) ∧
    marked.supply.markWritten = true ∧ marked.flash.writeProtect = true ∧
    (after (.safe here) marked).supply.shutdown = .shutDown := by
  decide +kernel

theorem test_witness_DirtyItemsJoinTheTail :
    let w : Writer := { queue := [.place 12, .counter], inFlight := none }
    Item.counter ∈ w.queue ∧ Item.settings ∉ w.queue ∧ w.queue.Nodup := by
  decide +kernel

theorem test_witness_WritesCarryTheCopyAndCoverResponses :
    let s : State := withLink { up.link with pending := some { ready with
        held := some (.covers [{ item := .place 12, begun := false }]) } }
      { store0 with writer := { queue := [.place 12, .counter], inFlight := none }
                    map := { map0 with blocks := [(5, .dirty (.begins 12))] } }
    let t := after (.recordWriteBegin here) s
    s.supply.powered = true ∧ s.writer.inFlight = none ∧ s.link.condition = .listening ∧
    s.writer.queue = .place 12 :: [.counter] ∧ s.map.stateOf 5 = .dirty (.begins 12) ∧
    t.writer.inFlight = some (.place 12 none) ∧ t.map.stateOf 5 = .dirty (.completes 12) ∧
    t.link.pending = some { ready with held := some (.covers [{ item := .place 12, begun := true }]) } ∧
    (after (.recordWriteComplete here) t).link.pending = some ready := by
  decide +kernel

/-- The part with the STORED picture 140 in the last place. -/
def one : State := withPlaces [(1023, kept)] store0

theorem test_witness_RecordsAreNamedByNumberOrPlace :
    resolve one (.byNumber 140) = .ok (1023, kept) ∧ resolve one (.byNumber 9999) = .error .noSuchRecord ∧
    resolve one (.byNumber 0) = .error .badField ∧ resolve one (.byPlace 1024) = .error .badField ∧ Canonical one ∧
    (∀ p r, up.record p = some r → r.number ≠ some 9999) ∧
    Taking one ∧ one.map.mode ≠ .preparing ∧ one.record 1023 = some kept ∧ one.record 0 = none ∧
    amendEmpty { protect := some true, rating := none, caption := none, trim := none } = false := 
  ⟨rfl, rfl, rfl, rfl, canonical_of_check _ (by decide +kernel),
    (fun p r h => by rw [show up.record p = none from rfl] at h; cases h), by decide +kernel⟩

theorem test_witness_LookupsAnswerInParts :
    let parts (l : List (Nat × List Nat)) : State := { one with cat := { one.cat with snapshot := some l } }
    resolve one (.byPlace 1023) = .ok (1023, kept) ∧
    Taking one ∧ nextRecord 139 .stored one.cat.places = some (140, 1023, kept) ∧
    nextRecord 9999 .all one.cat.places = none ∧ (parts [(2, [5])]).cat.snapshot = some [(2, [5])] ∧
    (parts [(2, [5]), (3, [6])]).cat.snapshot = some ((2, [5]) :: (3, [6]) :: []) ∧ one.cat.snapshot = none := ⟨rfl, by decide +kernel⟩

theorem test_witness_FindNextTakesTheSmallestNumberAbove :
    nextRecord 0 .all one.cat.places = some (140, 1023, kept) ∧ nextRecord 140 .all one.cat.places = none := by
  decide +kernel

theorem test_witness_AmendChangesOneRecordAtOnce :
    let preparing : State := { one with map := { map0 with mode := .preparing } }
    let broken : State := withPlaces [(0, rec 2 .damaged), (1, rec 3 .failed), (1023, kept)] store0
    let b : TrimBox := { left := 0, top := 0, width := 64, height := 48 }
    resolve broken (.byPlace 0) = .ok (0, rec 2 .damaged) ∧ resolve broken (.byNumber 3) = .ok (1, rec 3 .failed) ∧
    resolve broken (.byNumber 140) = .ok (1023, kept) ∧
    Taking preparing ∧ preparing.map.mode = .preparing ∧ Taking broken ∧ broken.map.mode ≠ .preparing ∧
    (rec 3 .failed).state ≠ .damaged ∧
    kept.picture = some { length := 5000, check := 0#32, width := 64, height := 48 } ∧
    b.left + b.width ≤ 64 ∧ b.top + b.height ≤ 48 ∧ 64 < { b with left := 1 }.left + b.width ∧
    32 < (List.replicate 33 65#8).length := ⟨rfl, rfl, rfl, by decide +kernel⟩

theorem test_witness_RetiringFreesPlacesAndBlocks :
    let s : State := withPlaces [(0, rec 2 .storing), (1, { kept with protect := true }), (2, { kept with holds := 1 }),
      (1023, kept)] store0
    resolve s (.byPlace 0) = .ok (0, rec 2 .storing) ∧ resolve s (.byPlace 1) = .ok (1, { kept with protect := true }) ∧
    resolve s (.byPlace 2) = .ok (2, { kept with holds := 1 }) ∧ resolve s (.byPlace 1023) = .ok (1023, kept) ∧
    Canonical s ∧
    Taking s ∧ s.map.mode ≠ .preparing ∧ clearable s = [1023] ∧ clearable up = [] ∧ s.record 1023 = some kept ∧
    kept.refreshExtent = none ∧ s.map.stateOf 5 = .inUse := 
  ⟨rfl, rfl, rfl, rfl, canonical_of_check _ (by decide +kernel), by decide +kernel⟩

theorem test_witness_NewRecordsTakeFreeNumbersAndPlaces :
    Canonical one ∧ lowestFree one.cat.places = some 0 ∧ 1 ≤ one.cat.counter ∧ one.cat.counter ≤ 9999 ∧
    one.cat.places.length ≤ 1024 :=
  ⟨canonical_of_check _ (by decide +kernel), by decide +kernel⟩

/-! The Block Map and the Flash Port. -/

/-- The part with an operation in flight. -/
def flying (c : Claimant) (op : FlashOp) (s : State) : State :=
  { s with flash := { s.flash with inFlight := some { claimant := c, op := op, cycles := 4, discard := false } } }

/-- The part with a Block Map. -/
def withMap (f : BlockMap → BlockMap) (s : State) : State := { s with map := f s.map }

/-- The part with a Store Engine. -/
def withStore (f : StoreEngine → StoreEngine) (s : State) : State := { s with store := f s.store }

/-- The part with a Read Chain. -/
def withChain (f : ReadChain → ReadChain) (s : State) : State := { s with chain := f s.chain }

theorem test_witness_ArbiterGrantsByLevel :
    let wait (f : FlashPort → FlashPort) : State := { store0 with flash := f store0.flash }
    let p : FlashOp := .program 5 0 []
    let r : FlashOp := .pageRead 5 0
    let first : State := withStore (fun e => { e with fullOrder := [.a] }) (wait fun f => { f with store := some p })
    first.supply.powered = true ∧ first.flash.statusDone = true ∧ first.flash.inFlight = none ∧
    first.link.condition = .listening ∧ first.flash.store = some p ∧ first.flash.writeProtect = false ∧
    first.store.recovery = none ∧ first.store.fullOrder = .a :: [] ∧
    up.flash.statusDone = false ∧
    (wait fun f => { f with read := some r, refresh := some p }).flash.lastMiddle = .refresh ∧
    (wait fun f => { f with read := some r }).flash.store = none ∧
    (wait fun f => { f with refresh := some p, lastMiddle := .read }).flash.refresh = some p ∧
    (wait fun f => { f with last := some (.background, .erase 20) }).flash.last = some (.background, .erase 20) ∧
    p.writes = true ∧ r.writes = false := by
  decide +kernel

theorem test_witness_AllocationTakesTheNextErasedBlock :
    mapOk map0 ∧ (map0.allocate 1).map (·.1) = some 7 ∧
    (({ map0 with allocCursor := 9 } : BlockMap).allocate 0).map (·.1) = some 9 ∧
    (({ map0 with allocCursor := 11 } : BlockMap).allocate 0).map (·.1) = some 7 ∧
    (({ map0 with reserved := 4 } : BlockMap).allocate 0).isNone = true ∧
    ({ map0 with blocks := [] } : BlockMap).canReserve 0 = false ∧ map0.canReserve 2 = true ∧ map0.canReserve 3 = false :=
  ⟨(canonical_of_check store0 (by decide +kernel)).2.2.2.1, by decide +kernel⟩

theorem test_witness_FiveBlockCountsSumToTheTotal : mapOk map0 ∧ map0.stateOf 20 = .dirty .ready ∧ map0.total = 4096 :=
  ⟨(canonical_of_check store0 (by decide +kernel)).2.2.2.1, by decide +kernel⟩

theorem test_witness_PrepareStoreEmptiesAndEnds :
    let at_ (p : PreparePhase) : State := withMap (fun m => { m with mode := .preparing, prepare := some p }) store0
    let idle (s : State) : Prop := s.map.mode ≠ .preparing ∧ s.shot.state = .idle ∧ s.store.queue = [] ∧
      s.chain.chain = [] ∧ s.chain.refresh = none ∧ s.store.marks = [] ∧ s.chain.refreshMarks = [] ∧
      s.flash.store = none ∧ s.flash.refresh = none ∧ s.flash.inFlight = none ∧ s.flash.protectDue = false
    Taking store0 ∧ idle store0 ∧ Taking up ∧ idle up ∧ (at_ .scanDue).map.mode = .preparing ∧
    (withStore (fun e => { e with marks := [5] }) up).store.marks ≠ [] ∧
    (at_ .scanDue).map.prepare = some .scanDue ∧ (at_ .endDue).map.prepare = some .endDue ∧
    (at_ .endDue).flash.protectDue = false := by
  decide +kernel

theorem test_witness_PrepareScansAndErasesEveryBlock :
    let at_ (p : PreparePhase) (op : FlashOp) : State :=
      flying .prepare op (withMap (fun m => { m with mode := .preparing, prepare := some p, badList := [] }) store0)
    let scan := at_ (.scanning 4094) (.rawRead 4094 0)
    let erase := at_ (.erasing 20) (.erase 20)
    let mark := at_ (.marking 20) (.grownMark 20)
    mapOk mark.map ∧ (∀ j, 20 < j → ∀ w, mark.map.stateOf j ≠ .dirty w) ∧
    scan.map.prepare = some (.scanning 4094) ∧ 4094 + 1 < scan.map.total ∧ scan.map.badList.length < 256 ∧
    scan.flash.protectDue = false ∧ erase.map.prepare = some (.erasing 20) ∧ 20 < erase.map.total ∧
    mark.map.prepare = some (.marking 20) ∧ mark.supply.powered = true :=
  ⟨(canonical_of_check (withMap (fun m => { m with mode := .preparing, prepare := some (.marking 20), badList := [] })
      store0) (by decide +kernel)).2.2.2.1, fun j h w => by
    have : Table.get j map0.blocks = none := by
      simp only [map0, Table.get]
      repeat (rw [if_neg (by omega)])
    have e : BlockMap.stateOf (withMap (fun m => { m with mode := .preparing, prepare := some (.marking 20), badList := [] })
      store0).map j = (Table.get j map0.blocks).getD .unchecked := rfl
    show BlockMap.stateOf (withMap (fun m => { m with mode := .preparing, prepare := some (.marking 20), badList := [] })
      store0).map j ≠ .dirty w
    rw [e, this]; nofun, by decide +kernel⟩

/-- A bad-block list of 256 entries. -/
def fullList : List (Nat × BadKind) := (List.range 256).map fun k => (3000 + k, .factory)

theorem test_witness_FullBadList :
    let s := flying .prepare (.rawRead 3 0)
      (withMap (fun m => { m with mode := .preparing, prepare := some (.scanning 3), badList := fullList }) store0)
    256 ≤ s.map.badList.length ∧ Table.wf anyValue fullList = true ∧ s.map.prepare = some (.scanning 3) := by
  decide +kernel

theorem test_witness_BackgroundWorkMakesErasedBlocks :
    let fresh : State := withMap (fun m => { m with blocks := [(0, .inUse)] }) store0
    let at_ (p : BackPhase) (op : FlashOp) : State :=
      flying .background op (withMap (fun m => { m with inHand := some (20, p) }) store0)
    let full : State := withMap (fun m => { m with badList := fullList }) (at_ .erasing (.erase 20))
    store0.supply.shutdown = .running ∧ store0.supply.powerLow = false ∧ store0.supply.shutDownTaken = false ∧
    store0.map.mode = .writable ∧ store0.map.inHand = none ∧ store0.flash.last = none ∧ store0.flash.inFlight = none ∧
    (withMap (fun m => { m with eraseCursor := 20 }) store0).map.nextTakeable = some 20 ∧
    store0.map.stateOf 20 = .dirty .ready ∧ fresh.map.nextTakeable = some 1 ∧ fresh.map.stateOf 1 = .unchecked ∧
    (at_ .erasing (.erase 20)).map.badList.length < 256 ∧ 256 ≤ full.map.badList.length ∧ full.map.mode = .writable ∧
    (at_ .read0 (.rawRead 20 0)).map.inHand = some (20, .read0) ∧
    (at_ (.read63 true) (.rawRead 20 63)).map.inHand = some (20, .read63 true) ∧ 20 < store0.map.total ∧
    (at_ .read0 (.rawRead 20 0)).flash.protectDue = false := by
  decide +kernel

/-! The Picture Port, the Store Engine, the Read Chain. -/

/-- Picture 88 bound and OPEN in place 4, in the blocks 5 and 6. -/
def opened : State :=
  withPlaces [(4, rec 88 .storing)] (withStore (fun e => { e with queue := [88], stream := .opened }) store0)

/-- The part with a block in hand on the In Lane. -/
def withLane (b : LaneBlock) (s : State) : State := { s with lane := .block b }

theorem test_witness_InLaneHeadersAndPictureStarts :
    let w : State := withPlaces [(4, rec 88 .awaiting)] (withStore (fun e => { e with queue := [88] }) store0)
    let e : State := withStore (fun e => { e with stream := .ending }) opened
    let h : State := withStore (fun e => { e with stream := .ending, heldStart := true }) opened
    let b : LaneBlock := { kind := 2#8, length := 0, discard := true }
    (store0.arrive here).lane = .hunting ∧ store0.supply.shutdown ≠ .starting ∧
    ((withLane b up).arrive here).lane = .block b ∧ b.kind = 2#8 ∧ (State.reset.arrive here).lane = .hunting ∧ State.reset.supply.shutdown = .starting ∧ store0.store.stream = .closed ∧
    store0.store.queue = [] ∧ w.store.stream = .closed ∧ w.store.queue = 88 :: [] ∧
    findNumber 88 w.cat.places = some (4, rec 88 .awaiting) ∧ e.store.stream = .ending ∧ e.store.heldStart = false ∧
    h.store.stream = .ending ∧ h.store.heldStart = true ∧ (after (.powerLow here) up).supply.powerLow = true := by
  decide +kernel

theorem test_witness_PictureDataFillsTheBuffers :
    let fill (n : Nat) : PageBuffer := { state := .filling, data := List.replicate n 0#8 }
    let a : State := withStore (fun e => { e with bufA := fill 1 }) opened
    let b : State := withStore (fun e => { e with bufB := fill 1 }) opened
    let busy (s : State) : State := { s with flash := { s.flash with store := some (.program 5 0 []) } }
    let full : State := withStore (fun e => { e with bufA := { state := .full, data := [] }, bufB := fill 4 }) opened
    opened.supply.powered = true ∧ (opened.arrive here).lane = .hunting ∧ inLaneReady opened = true ∧ opened.store.stream = .opened ∧
    store0.store.stream = .closed ∧ inLaneReady store0 = true ∧ inLaneReady full = false ∧
    ¬(opened.shot.state = .queueWait ∧ opened.store.queue.length < 8) ∧
    opened.store.marks = [] ∧ opened.store.fullOrder = [] ∧
    a.store.bufA = { state := .filling, data := [0#8] } ∧ a.store.bufB = { state := .empty, data := [] } ∧
    b.store.bufA.state ≠ .filling ∧ b.store.bufB = { state := .filling, data := [0#8] } ∧
    inLaneReady b = true ∧ (busy a).flash.free .store = false ∧ (busy b).flash.free .store = false ∧
    ([0#8] : List Byte).length < 4096 ∧ 4096 < 1 + (List.replicate 4096 0#8).length ∧
    1 + (List.replicate 4095 0#8).length = 4096 := by
  decide +kernel

theorem test_witness_PictureEndsAreHeldAndTaken :
    let fill : PageBuffer := { state := .filling, data := [0#8] }
    let busy (s : State) : State := { s with flash := { s.flash with store := some (.program 5 0 []) } }
    let a : State := busy (withStore (fun e => { e with bufA := fill }) opened)
    let b : State := busy (withStore (fun e => { e with bufB := fill }) opened)
    let x : EndFields := { length := 5000, check := checkValue 7#32, width := 16383, height := 1 }
    let e : State := withStore (fun e => { e with stream := .ending, heldEnd := some x, received := 5000, check := 7#32 }) opened
    a.store.stream = .opened ∧ a.flash.free .store = false ∧ a.store.bufA = fill ∧ b.store.bufA.state ≠ .filling ∧
    b.store.bufB = fill ∧ store0.store.stream ≠ .opened ∧ opened.store.bufB.state ≠ .filling ∧
    e.store.bufA.state = .empty ∧ e.store.bufB.state = .empty ∧ e.store.heldEnd = some x ∧
    e.store.queue = 88 :: [] ∧ findNumber 88 e.cat.places = some (4, rec 88 .storing) ∧ e.store.received = x.length ∧
    checkValue e.store.check = x.check ∧ e.store.loss = false ∧ e.store.marks = [] ∧ e.store.fullOrder = [] ∧
    e.store.heldStart = false ∧ e.shot.state ≠ .queueWait ∧ (after (.endTaken here) e).record 4 ≠ none := by
  decide +kernel

theorem test_witness_FailedPicturesGiveBackTheirBlocks :
    let two : State := withPlaces [(4, rec 88 .storing), (5, rec 89 .awaiting)]
      (withStore (fun e => { e with queue := [88, 89], stream := .opened }) store0)
    let timed : State := { two with timers := { two.timers with data := some 1999990 } }
    let b : LaneBlock := { kind := 3#8, length := 10, discard := false }
    let x : EndFields := { length := 12582913, check := 0#32, width := 0, height := 16384 }
    let e : State := withStore (fun e => { e with stream := .ending, heldEnd := some x }) two
    Canonical two ∧ two.supply.shutdown ≠ .starting ∧ two.store.queue = 88 :: [89] ∧
    findNumber 88 two.cat.places = some (4, rec 88 .storing) ∧ two.shot.state ≠ .queueWait ∧
    two.store.heldStart = false ∧ two.store.stream = .opened ∧ (two.arrive here).lane = .hunting ∧
    inLaneReady two = true ∧ ((withLane b two).arrive here).lane = .block b ∧ (timed.arrive here).timers.data = some 2000000 ∧ e.store.stream = .ending ∧
    e.store.bufA.state = .empty ∧ e.store.bufB.state = .empty ∧ e.store.heldEnd = some x ∧ e.store.received ≠ x.length ∧
    two.supply.powerLow = false ∧ findNumber 89 two.cat.places = some (5, rec 89 .awaiting) ∧
    two.map.stateOf 5 = .inUse :=
  ⟨canonical_of_check _ (by decide +kernel), by decide +kernel⟩

theorem test_witness_AbandonAndDroppedBlocks :
    let s : State := withPlaces [(4, rec 88 .storing), (5, rec 89 .awaiting), (6, rec 90 .failed)]
      (withStore (fun e => { e with queue := [88, 89], stream := .opened }) store0)
    let late : State := withLane { kind := 3#8, length := 10, discard := true } up
    Canonical s ∧ Taking s ∧ s.map.mode ≠ .preparing ∧ findNumber 9999 s.cat.places = none ∧
    findNumber 88 s.cat.places = some (4, rec 88 .storing) ∧ findNumber 89 s.cat.places = some (5, rec 89 .awaiting) ∧
    findNumber 90 s.cat.places = some (6, rec 90 .failed) ∧ s.shot.state ≠ .queueWait ∧ s.store.heldStart = false ∧
    s.store.fullOrder = [] ∧ s.store.queue.head? = some 88 ∧ (s.arrive here).lane = .hunting ∧ s.supply.shutdown ≠ .starting ∧
    store0.store.stream = .closed ∧ (late.arrive here).lane = .block { kind := 3#8, length := 10, discard := true } :=
  ⟨canonical_of_check _ (by decide +kernel), by decide +kernel⟩

theorem test_witness_StoreProgramsPassOrRecover :
    let s (i : Nat) (op : FlashOp) : State := flying .store op (withStore (fun e => { e with
      pageIndex := i, bufA := { state := .programming, data := [] } }) opened)
    let next (i : Nat) : State := withStore (fun e => { e with fullOrder := [.b] }) (s i (.program 5 0 []))
    let v : Recovery := { source := 5, good := 2, copied := 0, failed := [5] }
    let copying : State := withStore (fun e => { e with recovery := some v }) (s 2 (.copyBack 5 0 7 0))
    Canonical (s 0 (.program 5 0 [])) ∧ (s 0 (.program 5 0 [])).flash.protectDue = false ∧
    (s 0 (.program 5 0 [])).flash.store = none ∧ (s 0 (.program 5 0 [])).store.bufA.state = .programming ∧
    (next 0).store.fullOrder = .b :: [] ∧ (0 + 1) % 64 ≠ 0 ∧
    ((next 63).map.allocate (rec 88 .storing).remaining).map (·.1) = some 7 ∧ (63 + 1) % 64 = 0 ∧ (63 + 1) / 64 < 48 ∧
    48 ≤ (3071 + 1) / 64 ∧ (withMap (fun m => { m with blocks := [(5, .inUse)] }) (next 63)).map.nextErased = none ∧
    (rec 88 .storing).extent.getD (2 / 64) 0 = 5 ∧ 2 / 64 < (rec 88 .storing).extent.length ∧
    5 < (s 2 (.program 5 2 [])).map.total ∧ (s 2 (.program 5 2 [])).map.badList.length < 256 ∧
    copying.store.recovery = some v ∧ v.copied = 0 ∧ 0 + 1 < v.good ∧
    findNumber 88 copying.cat.places = some (4, rec 88 .storing) ∧ copying.shot.state ≠ .queueWait :=
  ⟨canonical_of_check _ (by decide +kernel), by decide +kernel⟩

/-- A descriptor over the first bytes of picture 140. -/
def desc : Descriptor := { number := 140, offset := 0, length := 5000, notify := true, position := 0, damage := false }

/-- A chain of that descriptor in a run state. -/
def reading (r : RunState) : State :=
  withChain (fun c => { c with chain := [desc], run := some r }) (withPlaces [(1023, { kept with holds := 1 })] store0)

theorem test_witness_ChainRequestsAddAndCancel :
    let full : State := withChain (fun c => { c with chain := List.replicate 16 desc, run := some .waiting }) one
    let ending : State := withChain (fun c => { c with
      item := some { number := 140, kind := .finish .done, live := true, notify := true } }) (reading .ending)
    let bad : State := withPlaces [(4, rec 88 .failed), (1023, kept)] store0
    Canonical one ∧ Canonical full ∧ Taking one ∧ Taking full ∧ 16 ≤ full.chain.chain.length ∧
    one.map.mode ≠ .preparing ∧ findNumber 9999 one.cat.places = none ∧
    findNumber 140 one.cat.places = some (1023, kept) ∧ findNumber 88 bad.cat.places = some (4, rec 88 .failed) ∧
    kept.picture = some { length := 5000, check := 0#32, width := 64, height := 48 } ∧
    (reading .waiting).chain.run = some .waiting ∧ (reading .waiting).chain.item = none ∧
    (reading .sending).chain.chain = desc :: [] ∧ ending.chain.run = some .ending ∧ one.chain.chain = [] ∧
    one.chain.run = none :=
  ⟨canonical_of_check _ (by decide +kernel), canonical_of_check _ (by decide +kernel), by decide +kernel⟩

theorem test_witness_OutLaneItemsDriveTheChain :
    let buf : ReadBuffer := { data := [], counts := [] }
    let item (k : ItemKind) (s : State) : State := withChain (fun c => { c with
      item := some { number := 140, kind := k, live := true, notify := true } }) s
    let last : State := withChain (fun c => { c with chain := [{ desc with position := 4999 }] }) (reading .sending)
    let edge : State := withChain (fun c => { c with chain := [{ desc with position := 4095 }] }) (reading .sending)
    (withChain (fun c => { c with owed := some (140, true) }) one).chain.owed = some (140, true) ∧
    (reading .waiting).chain.item = none ∧ (reading .waiting).supply.powerLow = false ∧
    (withChain (fun c => { c with buffer := some buf }) (reading .sending)).chain.buffer = some buf ∧
    (reading .ending).chain.run = some .ending ∧ (reading .reading).chain.run = some .reading ∧ one.chain.chain = [] ∧
    (item (.start 0 5000) (reading .waiting)).chain.item =
      some { number := 140, kind := .start 0 5000, live := true, notify := true } ∧
    findNumber desc.number (reading .waiting).cat.places = some (1023, { kept with holds := 1 }) ∧
    (item (.data [0#8]) last).chain.chain = [{ desc with position := 4999 }] ∧ desc.length ≤ 4999 + 1 ∧
    (item (.data [0#8]) edge).chain.chain = [{ desc with position := 4095 }] ∧ (desc.offset + (4095 + 1)) % 4096 = 0 ∧
    EndOutcome.done ≠ .cancelled := by
  decide +kernel

theorem test_witness_PageReadsReportToTheRecord :
    let s : State := flying .readChain (.pageRead 5 0) (reading .reading)
    Canonical s ∧ s.supply.powered = true ∧ s.flash.protectDue = false ∧ s.chain.chain = desc :: [] ∧
    findNumber desc.number s.cat.places = some (1023, { kept with holds := 1 }) :=
  ⟨canonical_of_check _ (by decide +kernel), by decide +kernel⟩

/-- Picture 140 under refresh, its first block being copied to block 7. -/
def refreshing (op : FlashOp) (page : Nat) : State :=
  flying .refresh op (withChain (fun c => { c with
      refresh := some { number := 140, position := 1, page := page, pages := 2, buffer := [], recovery := none } })
    (withPlaces [(1023, { kept with holds := 1, remaining := 1, refreshExtent := some [7] })] store0))

theorem test_witness_RefreshCopiesAndSwaps :
    let other : State := withPlaces [(4, rec 88 .failed), (1023, kept)] store0
    let only (m : StoreMode) : State := withMap (fun x => { x with mode := m }) one
    let s := refreshing (.program 7 0 []) 0
    Canonical one ∧ Canonical s ∧ Taking one ∧ one.map.mode = .writable ∧
    findNumber 140 one.cat.places = some (1023, kept) ∧ kept.state = .stored ∧ one.chain.refresh = none ∧
    one.chain.refreshMarks = [] ∧ one.flash.refresh = none ∧ one.flash.inFlight = none ∧
    one.map.reserved + kept.extent.length ≤ one.map.erasedCount ∧
    (({ one.map with reserved := one.map.reserved + 2 } : BlockMap).allocate 2).map (·.1) = some 7 ∧
    findNumber 88 other.cat.places = some (4, rec 88 .failed) ∧ (only .readOnly).map.mode = .readOnly ∧
    (only .unprepared).map.mode = .unprepared ∧ s.flash.protectDue = false ∧ s.flash.refresh = none ∧
    s.chain.refreshMarks = [] ∧ findNumber 140 s.cat.places =
      some (1023, { kept with holds := 1, remaining := 1, refreshExtent := some [7] }) ∧
    (1 - 1) * 64 + 0 + 1 < 2 ∧ (refreshing (.program 7 1 []) 1).supply.powered = true ∧ 2 ≤ (1 - 1) * 64 + 1 + 1 :=
  ⟨canonical_of_check _ (by decide +kernel), canonical_of_check _ (by decide +kernel), by decide +kernel⟩

/-! Metering, zoom and focus. -/

/-- The part with a Metering Unit. -/
def withMeter (f : Meter → Meter) (s : State) : State := { s with meter := f s.meter }

/-- The part with a Zoom Drive. -/
def withZoom (f : Zoom → Zoom) (s : State) : State := { s with zoom := f s.zoom }

/-- The part with a Focus Unit. -/
def withFocus (f : Focus → Focus) (s : State) : State := { s with focus := f s.focus }

/-- The part with timers. -/
def withTimers (f : Timers → Timers) (s : State) : State := { s with timers := f s.timers }

/-- The part with a Shot Sequencer. -/
def withShot (f : Shot → Shot) (s : State) : State := { s with shot := f s.shot }

/-- Metering that follows a scene of 21 thirds. -/
def metered : State := withMeter (fun x => { x with state := .tracking, filtered := some 336, run := 2 }) lens

theorem test_witness_MeteringRequestsActByTheOwner :
    let x : MeterSetupFields :=
      { mode := some .program, pattern := some .spot, sensitivity := some (.auto 18), compensation := -9, av := 27, tv := -15 }
    let locked (o : LockOwner) : State := withMeter (fun x => { x with state := .locked, owner := o }) metered
    Taking lens ∧ lens.shot.state = .idle ∧ (withShot (fun x => { x with state := .armed }) lens).shot.state ≠ .idle ∧
    { x with mode := none }.mode = none ∧ { x with av := 28 }.av > 27 ∧ x.mode = some .program ∧
    x.sensitivity = some (.auto 18) ∧ -9 ≤ x.compensation ∧ x.av ≤ 27 ∧ -15 ≤ x.tv ∧ lens.meter.state = .noData ∧
    Taking metered ∧ metered.meter.state ≠ .noData ∧ metered.meter.owner = .none ∧
    (locked .request).meter.owner = .request ∧ (locked .shot).meter.owner = .shot := by
  decide +kernel

theorem test_witness_BlocksDriveTheSceneValue :
    let held : State := withLane { kind := 1#8, length := 243, discard := false } metered
    metered.supply.powered = true ∧ LaneOpens 1#8 243 (metered.arrive here) ∧ metered.supply.shutdown ≠ .starting ∧
    LaneHolds 1#8 243 (held.arrive here) ∧ lens.meter.state = .noData ∧
    metered.meter.state = .tracking ∧ metered.meter.filtered = some 336 ∧
    (withMeter (fun x => { x with state := .locked }) metered).meter.state = .locked ∧
    metered.timers.block = none ∧
    ((withTimers (fun x => { x with block := some 499990 }) metered).arrive here).timers.block = some 500000 :=
  ⟨rfl, .inl rfl, by decide, ⟨_, rfl, rfl, rfl, rfl⟩, by decide +kernel⟩

theorem test_witness_CentreWeightsAreFixed :
    (withMeter (fun x => { x with setup := { x.setup with pattern := .centre } }) lens).meter.setup.pattern = .centre ∧
    (7 : Nat) < 8 ∧ (5 : Nat) < 6 := by
  decide

theorem test_witness_MeasurementWeighsZonesAndRounds :
    let f (a : Nat) : Focus := { lens.focus with state := .locked, held := some (.lock 3 a 100)
                                                 areas := [{ id := 7, rect := ringRect, enabled := false }] }
    (47 : Nat) < 48 ∧ (∃ j, j < 48 ∧ (if 192 < [193].getD j 0 then 2 * [1].getD j 0 else [1].getD j 0) ≠ 0) ∧
    (∀ j, j < 48 → (if 192 < [193].getD j 0 then 2 * [0].getD j 0 else [0].getD j 0) = 0) ∧
    (withMeter (fun x => { x with setup := { x.setup with pattern := .spot } }) lens).meter.setup.pattern = .spot ∧
    (f 7).state = .locked ∧ (f 7).held = some (.lock 3 7 100) ∧
    (f 7).areas.find? (fun y => y.id == 7) = some { id := 7, rect := ringRect, enabled := false } ∧
    (f 0).areas.find? (fun y => y.id == 0) = none ∧ lens.focus.state = .idle ∧
    -49 < thirdsLog 65535 1 ∧ thirdsLog 65535 1 < 49 ∧ -49 < thirdsLog 1 65535 ∧ thirdsLog 1 65535 < 49 := by
  refine ⟨by decide, ⟨0, by decide, by decide⟩, ?_⟩
  decide +kernel

theorem test_witness_ExposuresBalanceOrSayWhy :
    let e := entry 0
    let x (m : ExposureMode) (z : Sensitivity) : MeterSetup := { defaultMeterSetup with mode := m, sensitivity := z }
    (withZoom (fun z => { z with working := none }) metered).zoom.working = none ∧ lens.meter.state = .noData ∧
    metered.meter.filtered = some 336 ∧ metered.zoom.working = some table ∧
    table[metered.zoom.current.getD 0]? = some (entry 2) ∧ e.widest ≤ e.narrowest ∧
    (x .program (.auto 18)).mode = .program ∧ (splitExposure (x .program (.auto 0)) e 14 60).2.2.2.bright = true ∧
    (splitExposure (x .program (.auto 0)) e 14 (-30)).2.2.2.dark = true ∧
    (splitExposure (x .program (.auto 0)) e 14 (-30)).1 < 14 ∧ (0 : Int) < (splitExposure (x .program (.auto 0)) e 14 6).2.2.1 ∧
    (splitExposure (x .shutter (.fixed 18)) e 14 60).2.2.2.bright = true ∧
    (splitExposure (x .aperture (.auto 0)) e 30 60).2.2.2.bright = true ∧ (x .manual (.fixed 0)).mode = .manual ∧
    (6 : Int) < (splitExposure (x .program (.auto 0)) e 14 45).2.1 := by
  decide +kernel

/-- Homing with the motor driven toward the wide end. -/
def homing : State :=
  withFocus (fun f => { f with state := .unhomed, position := none, homing := some 0 })
    (withZoom (fun z => { z with state := .homing, count := none, current := none, drive := .wideFull }) lens)

/-- The lens in a zoom state at a count, driven. -/
def moving (st : ZoomState) (c : Int) (d : Drive) (t : Option (Nat × Leg)) : State :=
  withZoom (fun z => { z with state := st, count := some c, current := none, drive := d, target := t }) lens

theorem test_witness_HomingAndParkingEndOnTheSensor :
    let shut : State := withFocus (fun f => { f with state := .unhomed, position := none })
      (withZoom (fun z => { z with state := .parked, count := some 0, current := none }) lens)
    let on : State := { shut with lines := { shut.lines with park := true } }
    let stopped : State := withZoom (fun z => { z with count := some 0, stopped := true, drive := .off }) homing
    let watch (s : State) : State := withTimers (fun t => { t with brake := some 9990 }) s
    let said (r : Option Bool) : State := watch (withZoom (fun z => { z with report := r }) homing)
    let park (retract : Bool) (r : Option Bool) : State :=
      watch (withZoom (fun z => { z with retract := retract, report := r }) (moving .parking 40 .braked none))
    Taking shut ∧ shut.shot.state = .idle ∧ shut.zoom.state = .parked ∧ shut.zoom.working ≠ none ∧
    shut.lines.park = false ∧ shut.focus.homing = none ∧ on.lines.park = true ∧
    (withZoom (fun z => { z with working := none }) shut).zoom.working = none ∧
    (withShot (fun x => { x with state := .armed }) lens).shot.state ≠ .idle ∧ Taking lens ∧ lens.zoom.state = .ready ∧
    here.focusHome = false ∧ lens.zoom.state ≠ .parked ∧ lens.zoom.state ≠ .parking ∧
    (moving .moving 300 .teleFull none).zoom.drive ≠ .braked ∧ homing.zoom.drive = .wideFull ∧
    ((said none).arrive here).timers.brake = some 10000 ∧ (said none).zoom.report = none ∧ (said (some true)).zoom.report = some true ∧
    (said (some false)).zoom.state = .homing ∧ (park true none).zoom.retract = true ∧
    (park false none).zoom.report = none ∧ (park false (some true)).zoom.report ≠ none ∧
    (park false (some true)).zoom.state = .parking ∧ homing.timers.brake = none ∧ lens.focus.homing = none ∧
    homing.focus.homing ≠ none ∧ homing.zoom.stopped = false ∧ stopped.zoom.stopped = true ∧
    stopped.zoom.count = some 0 := by
  decide +kernel

theorem test_witness_PulsesMoveTheLens :
    let near := moving .moving 299 .teleSlow (some (2, .approach))
    let out := moving .moving 271 .wideFull (some (2, .outbound))
    let ext := moving .extending 199 .teleSlow (some (0, .approach))
    let away : State := withFocus (fun f => { f with position := some 0 }) ext
    let parking := moving .parking 41 .wideFull none
    near.supply.powered = true ∧ near.zoom.working = some table ∧ table[2]? = some (entry 2) ∧ (entry 2).count = 300 ∧
    near.zoom.state = .moving ∧ near.zoom.target = some (2, .approach) ∧ near.zoom.count = some 299 ∧
    out.zoom.target = some (2, .outbound) ∧ out.zoom.count = some 271 ∧ lens.zoom.state = .ready ∧
    lens.zoom.current = some 2 ∧ lens.zoom.count = some 300 ∧ ext.zoom.state = .extending ∧ ext.zoom.current = none ∧
    ext.zoom.count = some 199 ∧ table[0]? = some (entry 0) ∧ (entry 0).count = 200 ∧
    (away.arrive here).focus.position = some 0 ∧ (entry 0).cams.getD 0 0 = 100 ∧
    (ext.arrive here).focus.position = some 100 ∧ parking.zoom.state = .parking ∧ parking.zoom.drive ≠ .off ∧
    parking.zoom.drive ≠ .braked := by
  decide +kernel

theorem test_witness_LensFaultsAndStops :
    let high := moving .moving 3200 .teleFull (some (47, .approach))
    let low := moving .braking 0 .braked (some (0, .outbound))
    let watch (s : State) : State := withTimers (fun t => { t with stall := some 39990, brake := some 9990 }) s
    high.zoom.state = .moving ∧ high.zoom.count = some 3200 ∧ 3199 < (3200 : Int) ∧ low.zoom.state = .braking ∧
    low.zoom.count = some 0 ∧ lens.lines.park = false ∧ lens.zoom.state = .ready ∧ ((watch high).arrive here).timers.stall = some 40000 ∧
    (watch (moving .parking 40 .wideSlow none)).zoom.state = .parking ∧ lens.timers.stall = none ∧
    ((watch low).arrive here).timers.brake = some 10000 ∧ low.zoom.target = some (0, .outbound) ∧ low.zoom.working = some table ∧
    table[0]? = some (entry 0) ∧ (moving .braking 200 .braked (some (0, .outbound))).zoom.count = some 200 ∧
    (withFocus (fun f => { f with state := .tracking }) lens).focus.state = .tracking := by
  decide +kernel

theorem test_witness_ZoomRequestsAimTheLens :
    let a := moving .moving 299 .teleFull (some (47, .approach))
    let o := moving .moving 301 .wideFull (some (0, .outbound))
    let b := moving .braking 299 .braked (some (47, .approach))
    let good : StationEntry := { count := 3000, focal := 960, widest := 27, narrowest := 6, gain := 4000, near := 15
                                 cams := List.replicate 16 3071 }
    let unset : State := withZoom (fun z => { z with staging := List.replicate 48 none }) lens
    Taking lens ∧ (47 : Nat) < 48 ∧ lens.zoom.state = .ready ∧ lens.zoom.current = some 2 ∧ lens.zoom.current ≠ some 3 ∧
    table[3]? = some (entry 3) ∧ lens.zoom.count = some 300 ∧ Taking a ∧ a.zoom.state = .moving ∧
    a.zoom.target = some (47, .approach) ∧ (47 : Nat) ≠ 2 ∧ (299 : Int) < (entry 2).count ∧
    (table.take 2).all (fun x => x.count ≤ 299) = true ∧ o.zoom.target = some (0, .outbound) ∧
    (table.take 3).all (fun x => x.count < 301) = true ∧ (301 : Int) ≤ (entry 3).count ∧ b.zoom.state = .braking ∧
    entryOk good = true ∧ entryOk { good with cams := [] } = false ∧ firstBad 0 none unset.zoom.staging = some (0, .empty) ∧
    firstBad 0 none lens.zoom.staging = none ∧
    nearestStation 300 0 (lens.zoom.staging.filterMap id) = some (2, 0) ∧
    nearestStation 304 0 (lens.zoom.staging.filterMap id) = some (2, 4) ∧ lens.zoom.state ≠ .homing ∧
    (withFocus (fun f => { f with state := .scanning }) lens).focus.state = .scanning := by
  decide +kernel

/-- A running scan over the default area. -/
def scanOf (first last current : Nat) (skip : Bool) : Scan :=
  { first := first, last := last, current := current, skip := skip, station := 2
    areas := [{ id := 0, rect := centreRect, enabled := true }] }

/-- The lens with a scan running. -/
def scanning (x : Scan) (v : Option FocusMove) : State :=
  withFocus (fun f => { f with state := .scanning, scan := some x, move := v
                               curve := [{ id := 0, samples := List.replicate 16 none, peak := none }] }) lens

theorem test_witness_FocusRequestsScanReleaseAndSet :
    let hand : State := withFocus (fun f => { f with mode := .manual }) lens
    let nearing : State := withFocus (fun f => { f with
      state := .approaching, approach := some { aim := 120, dest := .failed, owed := true } }) lens
    let locked : State := withFocus (fun f => { f with state := .locked, held := some (.lock 1 0 100) }) lens
    let r : Rect := { firstCol := 7, lastCol := 7, firstRow := 0, lastRow := 5 }
    Taking lens ∧ lens.shot.state = .idle ∧ lens.focus.mode ≠ .manual ∧ lens.zoom.state = .ready ∧
    lens.focus.state ≠ .unhomed ∧ lens.focus.state ≠ .scanning ∧ lens.focus.state ≠ .tracking ∧
    lens.zoom.current = some 2 ∧ table[2]? = some (entry 2) ∧ (lens.arrive here).focus.position = some 100 ∧
    (entry 2).cams.getD 0 0 = 100 ∧ (entry 2).cams.getD 1 0 = 120 ∧ hand.focus.mode = .manual ∧ Taking hand ∧
    nearing.focus.state = .approaching ∧ nearing.focus.approach = some { aim := 120, dest := .failed, owed := true } ∧
    locked.focus.state = .locked ∧ (scanning (scanOf 0 1 0 true) none).focus.state = .scanning ∧
    r.firstCol ≤ r.lastCol ∧ r.lastCol ≤ 7 ∧ r.lastRow ≤ 5 ∧ (∀ a ∈ lens.focus.areas, a.id ≠ 7) ∧ (15 : Nat) ≤ 15 := by
  decide +kernel

theorem test_witness_ScansSampleEveryClass :
    let s := scanning (scanOf 0 1 0 true)
    let v : FocusMove := { aim := 120, via := none }
    let nearing (d : FocusDest) : State := withFocus (fun f => { f with
      state := .approaching, move := some v, approach := some { aim := 120, dest := d, owed := true } }) lens
    let c : Curve := { id := 0, samples := [some 10, some 40, none, none], peak := none }
    lens.focus.move = none ∧ (s (some v)).focus.state = .scanning ∧ (s (some v)).focus.scan = some (scanOf 0 1 0 true) ∧
    ((s (some v)).arrive here).focus.move = some v ∧ (s none).focus.move = none ∧ (scanOf 0 1 0 true).skip = true ∧
    (scanOf 0 1 1 false).skip = false ∧ (scanOf 0 1 0 false).current < (scanOf 0 1 0 false).last ∧
    (scanOf 0 1 1 false).last ≤ (scanOf 0 1 1 false).current ∧
    (nearing (.hold (.lock 1 0 100))).focus.state = .approaching ∧ (nearing .failed).focus.state = .approaching ∧
    ((nearing .failed).arrive here).focus.move = some v ∧
    (withFocus (fun f => { f with state := .tracking, move := some v }) lens).focus.state = .tracking ∧
    ((withTimers (fun t => { t with sample := some 499990 }) (s none)).arrive here).timers.sample = some 500000 ∧
    ((s none).arrive here).lane = .hunting ∧
    (s none).supply.shutdown ≠ .starting ∧ 2 < c.samples.length ∧ c.peak = none ∧ 0 < 2 ∧
    c.samples[2 - 1]? = some (some 40) ∧ c.samples[2 - 2]? = some (some 10) ∧ (c.sample 0 2 37).peak = some 1 ∧
    (c.sample 0 2 39).peak = none := by
  decide +kernel

/-! Steadying and the shot. -/

/-- The part with a Stabilizer. -/
def withSteady (f : Steady → Steady) (s : State) : State := { s with steady := f s.steady }

theorem test_witness_StabilizerStartsMeasuresAndLoses :
    let bytes : List Byte := [41#8, 7#8, 0xDC#8, 0xFF#8, 0xFE#8, 0xF7#8]
    let run (st : SteadyState) (n : Nat) : State := withTimers (fun t => { t with lost := some 9990, good := some 740 })
      (withSteady (fun x => { x with state := st, progress := n, lastSeq := some 40 }) lens)
    let held : State := withSteady (fun x => { x with
      session := some { outcome := .steady, peak := 0, clipSeen := false } }) (run .hold 256)
    Taking lens ∧ lens.shot.state = .idle ∧ (withShot (fun x => { x with state := .armed }) lens).shot.state ≠ .idle ∧
    lens.steady.state = .off ∧ (run .active 256).steady.state ≠ .off ∧ lens.supply.shutdown ≠ .starting ∧
    (lens.arrive here).gyro.phase = .hunting ∧ State.reset.supply.shutdown = .starting ∧
    (gyroOf bytes).checkOk = true ∧ ((run .active 256).arrive here).timers.good = some 750 ∧
    (run .active 256).steady.lastSeq ≠ some (gyroOf bytes).seq ∧ (gyroOf [0#8, 0#8, 0#8, 0#8, 0#8, 1#8]).checkOk = false ∧
    (run .starting 254).steady.progress < 255 ∧ (run .starting 255).steady.progress = 255 ∧
    (run .starting 255).shot.state ≠ .waitSteady ∧ held.steady.state = .hold ∧
    held.steady.session = some { outcome := .steady, peak := 0, clipSeen := false } ∧ (held.arrive here).timers.lost = some 10000 ∧
    lens.timers.lost = none := by
  decide +kernel

/-- R150, R151: the hunt, the bytes of a frame up to 500 µs and past them, and the rows that find a frame begun. -/
theorem test_witness_StabilizerStartsMeasuresAndLoses_bytes :
    let bytes : List Byte := [41#8, 7#8, 0xDC#8, 0xFF#8, 0xFE#8, 0xF7#8]
    let m (b : List Byte) : Moment := { here with gyro := b }
    let held (h : List Byte) (t : Nat) : State := { up with gyro := { phase := .assembling h t, whole := [] } }
    let count (s : State) : Nat × Nat × GyroPhase := (s.steady.good, s.steady.discarded, s.gyro.phase)
    (up.arrive (m [1#8, 2#8])).gyro.phase = .hunting ∧ (up.arrive (m [1#8, 126#8, 126#8, 5#8])).gyro =
      { phase := .assembling [126#8, 5#8] 0, whole := [] } ∧
    ((held [41#8] 490).arrive (m [7#8])).gyro.phase = .assembling [41#8, 7#8] 500 ∧
    ((held [41#8] 491).arrive (m [7#8])).gyro.phase = .assembling [41#8] 501 ∧
    (State.reset.arrive (m [126#8])).gyro = State.reset.gyro ∧
    (after (.gyroStartMarker here) up).gyro.phase = .assembling [] 0 ∧
    (after (.gyroStartMarker here) (held [41#8] 0)).gyro.phase = .assembling [41#8] 10 ∧
    GyroOpens bytes ((held [41#8] 490).arrive here) ∧ GyroOpens bytes (up.arrive here) ∧
    count (after (.gyroFrame here bytes) (held [41#8] 490)) = (1, 0, .hunting) ∧
    count (after (.gyroFrame (m [41#8, 7#8]) bytes) (after (.gyroStartMarker here) up)) = (1, 0, .hunting) ∧
    count (after (.gyroFrame here bytes) (held [41#8] 491)) = (0, 1, .hunting) ∧
    count (after (.gyroFrame here bytes) (held [9#8] 0)) = (0, 0, .assembling [9#8] 10) ∧
    (∀ rest, [9#8] ++ rest ≠ bytes) ∧
    count (after (.gyroFrameTimeout here) (held [41#8] 489)) = (0, 0, .assembling [41#8] 499) ∧
    count (after (.gyroFrameTimeout here) (held [41#8] 490)) = (0, 1, .hunting) ∧
    count (after (.gyroFrameBroken here) (held [] 0)) = (0, 1, .hunting) := by
  refine ⟨?_, ?_, ?_, ?_, ?_, ?_, ?_, .inr ⟨rfl, .inr ⟨[41#8], [7#8, 0xDC#8, 0xFF#8, 0xFE#8, 0xF7#8], 500, ?_⟩⟩,
    .inr ⟨rfl, .inl rfl⟩, ?_, ?_, ?_, ?_, ?_, ?_, ?_, ?_⟩
  case refine_13 => exact fun rest h => absurd (List.cons.inj h).1 (by decide)
  all_goals decide +kernel

/-- R150, R151: a frame that its six bytes complete waits for its row whatever the time, and the receiver hunts on. -/
theorem test_witness_StabilizerStartsMeasuresAndLoses_whole :
    let bytes : List Byte := [41#8, 7#8, 0xDC#8, 0xFF#8, 0xFE#8, 0xF7#8]
    let m (b : List Byte) : Moment := { here with gyro := b }
    let s : State := up.arrive (m (5#8 :: 126#8 :: (bytes ++ [9#8, 126#8, 1#8])))
    let late : State := { s with gyro := { s.gyro with phase := .assembling [1#8] 600 } }
    let count (s : State) : Nat × Nat × GyroReceiver := (s.steady.good, s.steady.discarded, s.gyro)
    s.gyro = { phase := .assembling [1#8] 0, whole := [bytes] } ∧ GyroOpens bytes late ∧
    count (after (.gyroFrame here bytes) late) = (1, 0, { phase := .assembling [1#8] 610, whole := [] }) ∧
    count (after (.gyroFrameTimeout here) late) = (0, 1, { phase := .hunting, whole := [bytes] }) ∧
    count (after (.gyroFrame here (0#8 :: bytes.drop 1)) late) =
      (0, 0, { phase := .assembling [1#8] 610, whole := [bytes] }) ∧
    (({ up with gyro := { phase := .assembling (bytes.take 5) 3, whole := [] } }).arrive (m [0xF7#8, 126#8])).gyro =
      { phase := .assembling [] 0, whole := [bytes] } := by
  refine ⟨?_, .inl ⟨[], ?_⟩, ?_, ?_, ?_, ?_⟩ <;> decide +kernel

/-- R123: below the first station, between two with a half, at a station, above the last, and where no gain is offered. -/
theorem test_witness_StabilizerStartsMeasuresAndLoses_stations :
    let t : List StationEntry := [{ entry 0 with gain := 10 }, { entry 1 with gain := 25 }, { entry 2 with gain := 4 }]
    let gain (st : ZoomState) (c : Option Int) : Int :=
      offeredGain { lens.zoom with state := st, count := c, working := some t }
    let at_ (c : Int) : Int := gain .extending (some c)
    (entry 0).count = 200 ∧ (entry 1).count = 250 ∧ at_ 199 = 10 ∧ at_ 200 = 10 ∧ at_ 225 = 18 ∧ at_ 249 = 25 ∧
    at_ 250 = 25 ∧ at_ 275 = 15 ∧ at_ 299 = 4 ∧ at_ 300 = 4 ∧ at_ 3000 = 4 ∧ gain .parking (some 225) = 0 ∧
    gain .ready none = 0 ∧ offeredGain { lens.zoom with working := none } = 0 := by
  decide +kernel

theorem test_witness_AxesIntegrateLeakAndClip :
    let a : Axis := { resetAxis with pan := true, panOff := 49 }
    let b : Axis := { resetAxis with panOn := 99 }
    a.pan = true ∧ (499 : Int).natAbs < 500 ∧ a.panOff + 1 = 50 ∧ b.pan = false ∧ 2000 < (-2001 : Int).natAbs ∧
    b.panOn + 1 = 100 ∧ (b.integrate false 1 (-2001) 0).pan = true ∧ (a.integrate true 1 499 0).pan = false := by
  decide +kernel

/-- Every check of ARM passes, at its last place: seven records in the queue, focus RELEASE_FIRST. -/
def armable : State :=
  withShot (fun x => { x with setup := { x.setup with policy := .releaseFirst, count := 2 } })
    (withStore (fun e => { e with queue := [1, 2, 3, 4, 5, 6, 7] })
      { metered with settings := { metered.settings with reservation := 1 } })

theorem test_witness_ShotsArmAndDisarm :
    let x : ShotSetupFields := { count := 8, interval := 2000, policy := some .focusFirst, trigger := some .held }
    let in_ (st : ShotState) : State := withShot (fun x => { x with state := st }) armable
    let only (m : StoreMode) : State := withMap (fun x => { x with mode := m }) armable
    let b : Burst := { group := 0, count := 1, numbers := [88], next := 1, released := false, disarmed := false
                       tv := 18, av := 11 }
    let y : InHand := { number := 88, tv := 18, av := 11, closedAt := none, cutShort := false }
    let armed (st : ShotState) : State := withPlaces [(4, { rec 88 .reserved with extent := [] })]
      (withShot (fun x => { x with state := st, burst := some b, exposure := some y })
        (withMeter (fun x => { x with state := .locked, owner := .shot }) metered))
    Canonical armable ∧ Canonical (armed .armed) ∧ Taking armable ∧ armable.shot.state = .idle ∧
    x.policy = some .focusFirst ∧ x.trigger = some .held ∧ x.count ≤ 8 ∧ x.interval ≤ 2000 ∧
    (in_ .fault).shot.state = .fault ∧ (in_ .armed).shot.state ≠ .idle ∧ (only .readOnly).map.mode = .readOnly ∧
    (only .preparing).map.mode = .preparing ∧ (only .unprepared).map.mode = .unprepared ∧
    armable.map.mode = .writable ∧ armable.store.queue.length < 8 ∧ armable.zoom.state = .ready ∧
    armable.focus.state ≠ .scanning ∧ armable.focus.state ≠ .approaching ∧
    armable.shot.setup.policy = .releaseFirst ∧ armable.meter.state ≠ .noData ∧
    2 ≤ 1024 - armable.cat.places.length ∧ armable.map.reserved + 2 * 1 ≤ armable.map.erasedCount ∧
    armable.map.erasedCount < armable.map.reserved + 3 * 1 ∧
    (computeExposure { taken 36 here armable with meter :=
      { (taken 36 here armable).meter with state := .locked, owner := .shot } }).isSome = true ∧
    (after (.arm here) armable).shot.state = .armed ∧ (armed .armed).shot.burst = some b ∧
    b.numbers = [88] ∧ findNumber 88 (armed .armed).cat.places = some (4, { rec 88 .reserved with extent := [] }) ∧
    (armed .armed).meter.owner = .shot ∧ (armed .armed).meter.note = false ∧
    (armed .exposing).shot.exposure = some y ∧ here.shutterClosed = false ∧ (armed .closing).shot.state = .closing ∧
    (armed .preparing).shot.state = .preparing :=
  ⟨canonical_of_check _ (by decide +kernel), canonical_of_check _ (by decide +kernel), by decide +kernel⟩

/-- A burst of one, its record RESERVED in place 4, in a shot state with the iris somewhere. -/
def shooting (st : ShotState) (i : Iris) : State :=
  withPlaces [(4, { rec 88 .reserved with extent := [] })]
    (withShot (fun x => { x with state := st, iris := i, burst := some {
      group := 0, count := 1, numbers := [88], next := 1, released := false, disarmed := false, tv := 18, av := 11 } })
      (withMeter (fun x => { x with state := .locked, owner := .shot }) metered))

theorem test_witness_FramesWaitAndExpose :
    let s := shooting .armed (.at 11)
    let r : PicRecord := { rec 88 .reserved with extent := [] }
    let full : State := withStore (fun e => { e with queue := [1, 2, 3, 4, 5, 6, 7, 8] }) (shooting .interval (.at 11))
    Canonical s ∧ Taking s ∧ Taking lens ∧ lens.shot.state ≠ .armed ∧ findNumber 88 s.cat.places = some (4, r) ∧
    (s.shot.burst.map fun b => b.numbers.getD (b.next - 1) 0) = some 88 ∧ s.shot.learned < exposureTime 18 ∧
    exposureTime 36 ≤ s.shot.learned ∧ s.steady.state = .off ∧ s.shot.iris = .at 11 ∧ (6 : Int) ≠ 11 ∧
    (shooting .armed (.at 6)).shot.iris = .at 6 ∧ (shooting .armed .startRun).shot.iris = .startRun ∧
    here.shutterClosed = false ∧ (shooting .interval (.at 11)).store.queue.length < 8 ∧
    (shooting .preparing (.moving 11)).shot.iris = .moving 11 ∧ 8 ≤ full.store.queue.length ∧
    s.shot.setup.trigger = .press ∧ (withShot (fun x => { x with setup := { x.setup with trigger := .held } })
      (shooting .interval (.at 11))).shot.setup.trigger = .held ∧
    (withSteady (fun x => { x with state := .starting }) s).steady.state = .starting ∧
    (after (.trigger here) s).shot.state = .exposing ∧ ((after (.trigger here) s).record 4).isSome = true :=
  ⟨canonical_of_check _ (by decide +kernel), by decide +kernel⟩

theorem test_witness_ExposuresCloseOrTimeOut :
    let r : PicRecord := { rec 88 .exposing with extent := [] }
    let x : InHand := { number := 88, tv := 18, av := 11, closedAt := some 10625, cutShort := false }
    let b (c n : Nat) (l : List Nat) : Burst := { group := 0, count := c, numbers := l, next := n, released := false
                                                  disarmed := false, tv := 18, av := 11 }
    let s (st : ShotState) (y : Burst) : State := withTimers (fun t => { t with shutter := some 15700, frame := some 15700 })
      (withPlaces [(4, r)] (withShot (fun z => { z with state := st, burst := some y, exposure := some x }) metered))
    Canonical (s .closing (b 2 2 [88, 89])) ∧ (s .exposing (b 1 2 [88])).shot.state = .exposing ∧
    here.shutterClosed = false ∧ (s .closing (b 2 2 [88, 89])).shot.state = .closing ∧
    findNumber x.number (s .closing (b 2 2 [88, 89])).cat.places = some (4, r) ∧
    (s .closing (b 2 2 [88, 89])).steady.kept = none ∧ (s .closing (b 2 2 [88, 89])).supply.powerLow = false ∧
    ((s .closing (b 2 2 [88, 89])).arrive here).timers.shutter = some 15710 ∧ x.closedAt = some 10625 ∧
    (b 2 2 [88, 89]).next ≤ 2 ∧ ((s .closing (b 2 2 [88, 89])).arrive here).timers.frame = some 15710 ∧
    15710 < 1000 * (s .closing (b 2 2 [88, 89])).shot.setup.interval ∧ (b 1 2 [88]).count < (b 1 2 [88]).next ∧
    (b 1 2 [88]).numbers = [x.number] ∧ (after (.shutterClosed here) (s .closing (b 1 2 [88]))).shot.state = .idle :=
  ⟨canonical_of_check _ (by decide +kernel), by decide +kernel⟩

/-! ### Further clauses, at the values where they begin -/

/-- A body's frame from its length on, its check bytes right. -/
def framed (n k : Byte) (body : List Byte) : List Byte :=
  n :: k :: body ++ [(linkCheck (n :: k :: body)).extractLsb' 8 8, (linkCheck (n :: k :: body)).extractLsb' 0 8]

/-- The part with a frame begun. -/
def begun (held : List Byte) : State := withLink { up.link with receiver := .receiving false held } up

/-- The kind and code a command leaves pending. -/
def answered (c : Instr) (s : State) : Option (Nat × Code) := (after c s).link.pending.map fun r => (r.kind, r.code)

/-- R185: a frame whole or in two parts, each of the refusals, and the length that leaves the receiver overlong. -/
theorem test_witness_MalformedFramesAreRefused_steps :
    let check (bs : List Byte) : Instr := .frameCheck here { bytes := bs, accepted := true }
    Listening (begun []) ∧ up.link.receiver = .hunting ∧ 251 < (252#8 : Byte).toNat ∧
    answered (check [252#8]) (begun []) = some (0, .frameCheck) ∧
    (after (check [252#8]) (begun [])).link.receiver = .overlong ∧
    answered (check [90#8, 0#8, 40#8, 0#8, 0#8]) up = some (40, .frameCheck) ∧
    answered (check [40#8, 0#8, 0#8]) (begun [0#8]) = some (40, .frameCheck) ∧
    answered (.frameCheck { here with clocked := [90#8, 0#8] } { bytes := [40#8, 0#8, 0#8], accepted := true }) up =
      some (40, .frameCheck) ∧
    answered (.frameBroken { here with clocked := [40#8] } [1#8]) (begun [0#8]) = some (40, .frameCheck) ∧
    answered (.unknownRequest here (framed 0#8 0#8 [])) (begun []) = some (0, .unknownRequest) ∧
    answered (.unknownRequest here (framed 0#8 47#8 [])) (begun []) = some (47, .unknownRequest) ∧
    answered (.frameBroken here []) (begun []) = some (0, .frameCheck) ∧
    answered (.frameBroken here []) (begun [251#8]) = some (0, .frameCheck) ∧
    answered (.frameBroken here [40#8, 1#8]) (begun [0#8]) = some (40, .frameCheck) := by
  decide +kernel

/-- R185: the body lengths of a request without fields, of one with a picture number or a mask, and of any other. -/
theorem test_witness_MalformedFramesAreRefused_bodies :
    let check (ok : Bool) (bs : List Byte) : Option (Nat × Code) :=
      answered (.frameCheck here { bytes := bs, accepted := ok }) (begun [])
    check true (framed 1#8 36#8 [0#8]) = some (36, .frameCheck) ∧
    check true (framed 1#8 45#8 [0#8]) = some (45, .frameCheck) ∧
    check true (framed 1#8 42#8 [0#8]) = some (42, .frameCheck) ∧
    check true (framed 1#8 9#8 [0#8]) = some (9, .frameCheck) ∧ check true (framed 0#8 1#8 []) = some (1, .frameCheck) ∧
    check false (framed 1#8 1#8 [0#8]) = some (1, .frameCheck) ∧ check true (framed 1#8 1#8 [0#8]) = none ∧
    check true (framed 2#8 12#8 [0#8, 1#8]) = none ∧ check false (framed 0#8 46#8 []) = none := by
  decide +kernel

/-- R186: bytes clocked while a response is ready; an overlong frame; a late one whose response has been collected. -/
theorem test_witness_FramesBeginAndAreDiscarded_bytes :
    let r : State := withLink { up.link with pending := some { ready with body := .empty } } up
    let e : State := withLink { up.link with pending := some { ready with body := .events [0#8, 0#8, 0#8, 0#8] } } up
    let late : State := withLink { up.link with receiver := .receiving true [] } up
    let clock (n : Nat) : Moment := { here with clocked := List.replicate n 0#8 }
    (r.arrive (clock 4)).link.clockedOut = 4 ∧ (r.arrive (clock 6)).link.clockedOut = 5 ∧
    (e.arrive (clock 10)).link.clockedOut = 9 ∧ (up.arrive (clock 3)).link.clockedOut = 0 ∧
    dataOut r = some 165#8 ∧ dataOut up = some 0#8 ∧
    dataOut (withLink { r.link with clockedOut := 3 } r) = some 0#8 ∧
    late.link.receiver.late = true ∧ late.link.pending = none ∧
    (after (.linkOrder here [252#8]) late).link.receiver = .overlong ∧
    (after (.linkOrder here [251#8]) late).link.receiver = .hunting ∧
    (after (.linkOrder here (framed 0#8 40#8 [])) late).events.has .linkOrder = true ∧
    (after (.requestStartMarker here) r).link.clockedOut = 1 := by
  decide +kernel

/-- R192: the status read still running holds the reset back. -/
theorem test_witness_SoftResetWaitsAndResets_status :
    let s : State := { up with link := { up.link with condition := .silent } }
    s.flash.statusDone = false ∧ (after (.softResetExecute here) s).link.condition = .silent ∧
    (after (.softResetExecute here) { s with flash := store0.flash }).link.condition = .listening := by
  decide +kernel

/-- R195, R197: every item torn; two STORED pictures that claim the block 5. -/
theorem test_witness_StartUpRebuildsEveryPlace_items :
    let m (f : RecordMemory → RecordMemory) : State := after (.reset here) { up with memory := f up.memory }
    let good : List (Nat × BadKind) := [(7, .grown)]
    let two : State := m fun x => { x with
      identity := .good (some 4096), badList := .good good, counter := .torn
      places := [(3, .good kept), (9, .good { kept with number := some 9999, extent := [5, 8] })] }
    (m fun x => { x with counter := .torn }).cat.counter = 1 ∧ two.cat.counter = 1 ∧
    Item.counter ∈ two.writer.queue ∧ two.map.mode = .writable ∧ two.map.stateOf 7 = .bad ∧
    (two.record 3).map (·.state) = some .stored ∧ (two.record 9).map (·.state) = some .damaged ∧
    Item.place 9 ∈ two.writer.queue ∧ two.map.stateOf 5 = .inUse ∧ two.map.stateOf 8 = .unchecked ∧
    (m fun x => { x with settings := .torn }).settings.target = 11800 ∧
    (m fun x => { x with lensTable := .torn }).zoom.working = none ∧
    (m fun x => { x with lensTable := .good (some table) }).zoom.staging = table.map some ∧
    (m fun x => { x with badList := .torn, identity := .good (some 4096) }).map.mode = .unprepared ∧
    (m fun x => { x with identity := .torn }).map.total = 0 := by
  decide +kernel

/-- R70, R81, R87, R181: a queued record, a hold, a refresh, a prepare and every shot state that POWER_LOW meets. -/
theorem test_witness_PowerLowHandsOutItsDuties_owners :
    let low (s : State) : State := after (.powerLow here) s
    let held := reading .waiting
    let ref := withMap (fun m => { m with blocks := Table.put 7 .inUse m.blocks }) (refreshing (.program 7 0 []) 0)
    let prep : State := withMap (fun m => { m with mode := .preparing, prepare := some .scanDue }) store0
    let shot (st : ShotState) : State := withShot (fun x => { x with exposure := some {
      number := 99, tv := 18, av := 11, closedAt := none, cutShort := false } }) (shooting st (.at 11))
    let noted : State := withMeter (fun x => { x with note := true }) (shooting .armed (.at 11))
    Canonical opened ∧ opened.store.queue = [88] ∧ opened.shot.state = .idle ∧ opened.chain.refresh = none ∧
    (low opened).record 4 = some { rec 88 .storing with state := .failed, cause := some .power, remaining := 0
                                                        extent := [] } ∧
    (low opened).map.reserved = 0 ∧ (low opened).map.stateOf 5 = .dirty (.begins 4) ∧
    (low opened).events.has .storeFailed = true ∧
    findNumber 140 held.cat.places = some (1023, { kept with holds := 1 }) ∧ (low held).record 1023 = some kept ∧
    (ref.chain.refresh.map (·.number)) = some 140 ∧
    (low ref).record 1023 = some kept ∧ (low ref).map.stateOf 7 = .dirty .ready ∧ (low ref).map.reserved = 1 ∧
    prep.map.mode = .preparing ∧ (low prep).map.mode = .unprepared ∧ (low prep).map.total = 0 ∧
    (low prep).map.blocks = [] ∧ (low (shot .armed)).shot.state = .idle ∧
    (low (shot .armed)).meter.owner = .none ∧ (low (shot .armed)).record 4 = none ∧
    (low noted).meter.owner = .request ∧ (low (shot .fault)).shot.state = .idle ∧
    ((low (shot .preparing)).shot.burst.map (·.disarmed)) = some true ∧ (low (shot .exposing)).shot.state = .closing ∧
    ((low (shot .exposing)).shot.exposure.map (·.cutShort)) = some true ∧ (low (shot .exposing)).record 4 = none :=
  ⟨canonical_of_check _ (by decide +kernel), by decide +kernel⟩

/-- R11: two records of different numbers, the law that every command keeps. -/
theorem test_witness_NewRecordsTakeFreeNumbersAndPlaces_law :
    let s : State := withPlaces [(0, { kept with number := some 1 }), (1, { kept with number := some 2 })] up
    (∀ p q x y n, s.record p = some x → s.record q = some y → x.number = some n → y.number = some n → p = q) ∧
    1 ≤ s.cat.counter ∧ s.cat.counter ≤ 9999 ∧ ∀ m, Instr.arm here ≠ .reset m ∧ Instr.arm here ≠ .powerOn m ∧
      Instr.arm here ≠ .softResetExecute m := by
  intro s
  refine ⟨?_, by decide, by decide, fun m => by refine ⟨?_, ?_, ?_⟩ <;> nofun⟩
  intro p q x y n hp hq hx hy
  have look : ∀ k r, s.record k = some r → (k = 0 ∧ r.number = some 1) ∨ (k = 1 ∧ r.number = some 2) := by
    intro k r h
    match k, h with
    | 0, h => exact .inl ⟨rfl, by cases h; rfl⟩
    | 1, h => exact .inr ⟨rfl, by cases h; rfl⟩
    | k + 2, h => simp [s, State.record, withPlaces, Table.get] at h
  rcases look p x hp with ⟨rfl, h1⟩ | ⟨rfl, h1⟩ <;> rcases look q y hq with ⟨rfl, h2⟩ | ⟨rfl, h2⟩ <;>
    rw [h1] at hx <;> rw [h2] at hy <;> first | rfl | (rw [← hx] at hy; cases hy)

/-- R32: the status read that ends with write-protect owed. -/
theorem test_witness_ArbiterGrantsByLevel_status :
    let due : State := { up with flash := { up.flash with writeProtect := false, protectDue := true } }
    let t := after (.flashStatusReadDone here) due
    due.flash.statusDone = false ∧ due.flash.protectDue = true ∧ due.flash.inFlight = none ∧
    t.flash.writeProtect = true ∧ t.flash.statusDone = true ∧
    (after (.flashStatusReadDone here) up).flash.writeProtect = up.flash.writeProtect := by
  decide +kernel

/-- R38: the reserved total at the ERASED count. -/
theorem test_witness_AllocationTakesTheNextErasedBlock_law :
    let full : BlockMap := { map0 with reserved := 4 }
    full.reserved = full.erasedCount ∧ full.canReserve 0 = true ∧ full.canReserve 1 = false ∧
    ((full.allocate 1).map fun y => (y.2.reserved, y.2.erasedCount)) = some (3, 3) := by
  decide +kernel

/-- R41: the cursor inside, past the last and on a block that waits for its write. -/
theorem test_witness_BackgroundWorkMakesErasedBlocks_taken :
    let all (b : Nat) : List (Nat × BlockState) := (List.range b).map fun k => (k, .inUse)
    let small (l : List (Nat × BlockState)) (c : Nat) : State :=
      withMap (fun m => { m with total := 6, reserved := 0, blocks := l, eraseCursor := c }) store0
    let hand (s : State) : Option Nat := (after (.backgroundTakeBlock here) s).map.inHand.map (·.1)
    hand (small [] 3) = some 3 ∧ hand (small (all 5) 0) = some 5 ∧
    hand (small [(3, .inUse), (4, .dirty .ready), (5, .bad)] 3) = some 4 ∧
    hand (small [(3, .inUse), (4, .dirty (.begins 0)), (5, .bad)] 3) = some 0 ∧ hand (small (all 6) 2) = none ∧
    (after (.backgroundTakeBlock here) (small (all 5) 0)).map.eraseCursor = 0 := by
  decide +kernel

/-- R51, R70, R193: a start of a bad length, and a PICTURE_DATA header after POWER_LOW. -/
theorem test_witness_InLaneHeadersAndPictureStarts_lengths :
    let b : LaneBlock := { kind := 2#8, length := 1, discard := false }
    let low : State := after (.powerLow here) up
    low.supply.powerLow = true ∧ (low.arrive here).lane = .hunting ∧
    (after (.inLaneHeader here 3#8 4096) low).lane = .hunting ∧
    (after (.inLaneHeader here 4#8 12) low).lane = .block { kind := 4#8, length := 12, discard := false } ∧
    (after (.pictureStart here) (withLane b opened)).store.stream = .opened ∧
    (after (.pictureStart here) (withLane b opened)).lane = .hunting ∧
    (after (.pictureStart here) (withLane { b with kind := 5#8 } opened)).lane = .block { b with kind := 5#8 } := by
  decide +kernel

/-- R57 to R59: the port free, the bodies that begin, complete and overflow a page; the full store; the 49th position. -/
theorem test_witness_PictureDataFillsTheBuffers_pages :
    let fill (n : Nat) : PageBuffer := { state := .filling, data := List.replicate n 0#8 }
    let a (i : Nat) : State := withStore (fun e => { e with bufA := fill 4095, pageIndex := i }) opened
    let b (i : Nat) : State := withStore (fun e => { e with bufB := fill 4095, pageIndex := i }) opened
    let busyA : State := withStore (fun e => { e with bufA := { state := .programming, data := [] } }) opened
    let none_ : State := withMap (fun m => { m with blocks := [(5, .inUse), (6, .inUse)] }) (a 64)
    let got (s : State) (bytes : List Byte) : State := after (.pictureData here bytes) s
    let program (s : State) : Option (Nat × Nat × Nat) := match s.flash.store with
      | some (.program x y d) => some (x, y, d.length)
      | _ => none
    Canonical opened ∧ opened.flash.store = none ∧ opened.flash.inFlight = none ∧ opened.store.recovery = none ∧
    opened.store.marks = [] ∧ opened.store.fullOrder = [] ∧ inLaneReady (a 1) = true ∧ inLaneReady busyA = true ∧
    program (got (a 1) [0#8]) = some (5, 1, 4096) ∧ program (got (b 65) [0#8]) = some (6, 1, 4096) ∧
    program (got (a 0) [0#8]) = some (5, 0, 4096) ∧ ((got (a 0) [0#8]).record 4).map (·.extent) = some [5, 6, 7] ∧
    program (got (a 128) [0#8]) = some (7, 0, 4096) ∧
    ((got (a 3072) [0#8]).record 4).map (·.cause) = some (some .oversize) ∧
    none_.map.allocate 2 = none ∧ ((got none_ [0#8]).record 4).map (·.cause) = some (some .noSpace) ∧
    program (got opened (List.replicate 4096 0#8)) = some (5, 0, 4096) ∧
    (got (a 1) [0#8, 1#8]).store.bufB = { state := .filling, data := [1#8] } ∧
    (got (b 1) [0#8, 1#8]).store.bufA = { state := .filling, data := [1#8] } ∧
    (got busyA [9#8]).store.bufB = { state := .filling, data := [9#8] } ∧
    (got busyA [9#8]).store.bufA.state = .programming ∧
    (got opened [9#8]).store.bufA = { state := .filling, data := [9#8] } :=
  ⟨canonical_of_check _ (by decide +kernel), by decide +kernel⟩

/-- R63: the padded page with the port free, at the start of a position, inside one, at the 49th and in a full store. -/
theorem test_witness_PictureEndsAreHeldAndTaken_pages :
    let fill : PageBuffer := { state := .filling, data := [0#8] }
    let a (i : Nat) : State := withStore (fun e => { e with bufA := fill, pageIndex := i }) opened
    let b (i : Nat) : State := withStore (fun e => { e with bufB := fill, pageIndex := i }) opened
    let none_ : State := withMap (fun m => { m with blocks := [(5, .inUse), (6, .inUse)] }) (b 64)
    let got (s : State) : State := after (.pictureEnd here (List.replicate 12 0#8)) s
    let program (s : State) : Option (Nat × Nat × List Byte) := match s.flash.store with
      | some (.program x y d) => some (x, y, d.take 2)
      | _ => none
    let block : LaneBlock := { kind := 4#8, length := 12, discard := false }
    program (got (a 1)) = some (5, 1, [0#8, 255#8]) ∧ program (got (b 65)) = some (6, 1, [0#8, 255#8]) ∧
    program (got (withLane block (a 128))) = some (7, 0, [0#8, 255#8]) ∧ (got (a 128)).store.stream = .ending ∧
    ((got (b 3072)).record 4).map (·.cause) = some (some .oversize) ∧
    ((got none_).record 4).map (·.cause) = some (some .noSpace) ∧ (got none_).store.stream = .closed := by
  decide +kernel

/-- R51, R56, R193: the bad lengths, the framing fault and the timer at 2 s, each with the picture bound. -/
theorem test_witness_FailedPicturesGiveBackTheirBlocks_lane :
    let b (k : Nat) : LaneBlock := { kind := 3#8, length := k, discard := false }
    let timed (x : Nat) : State := withTimers (fun t => { t with data := some x }) opened
    let cause (c : Instr) (s : State) : Option (Option FailCause) := ((after c s).record 4).map (·.cause)
    inLaneReady opened = true ∧ cause (.inLaneBlockDropped here 3#8 0) opened = some (some .brokenStream) ∧
    cause (.inLaneBlockDropped here 3#8 4097) (withLane (b 4097) opened) = some (some .brokenStream) ∧
    cause (.pictureData here []) opened = some (some .brokenStream) ∧
    cause (.inLaneFramingFault here) (withLane (b 10) opened) = some (some .brokenStream) ∧
    ((timed 1999990).arrive here).timers.data = some 2000000 ∧
    cause (.dataTimeout here) (timed 1999990) = some (some .dataTimeout) ∧
    cause (.dataTimeout here) (timed 1999989) = some none ∧ cause (.pictureAbort here) opened = some (some .aborted) ∧
    (after (.pictureAbort here) opened).store.bufA = { state := .empty, data := [] } := by
  decide +kernel

/-- R51, R193: each kind's own length and the next one, the ready line low, and the header of an unknown kind. -/
theorem test_witness_AbandonAndDroppedBlocks_lane :
    let b (k : Byte) (n : Nat) : LaneBlock := { kind := k, length := n, discard := false }
    let drop (k : Byte) (n : Nat) (s : State) : LaneReceiver :=
      (after (.inLaneBlockDropped here k n) (withLane (b k n) s)).lane
    let full : State := withStore (fun e => { e with bufA := { state := .full, data := [] }
                                                     bufB := { state := .programming, data := [] } }) opened
    inLaneReady full = false ∧ drop 1#8 243 up = .block (b 1#8 243) ∧ drop 1#8 242 up = .hunting ∧ drop 2#8 0 up = .block (b 2#8 0) ∧
    drop 2#8 1 up = .hunting ∧ drop 3#8 4096 up = .block (b 3#8 4096) ∧ drop 3#8 4097 up = .hunting ∧ drop 3#8 0 up = .hunting ∧
    drop 3#8 4097 full = .block (b 3#8 4097) ∧ drop 4#8 12 up = .block (b 4#8 12) ∧ drop 4#8 11 up = .hunting ∧
    drop 5#8 1 up = .hunting ∧ drop 6#8 0 up = .hunting ∧
    (after (.inLaneFramingFault here) (withLane (b 3#8 10) full)).lane = .block (b 3#8 10) ∧
    (after (.inLaneFramingFault here) (withLane (b 3#8 10) up)).lane = .hunting ∧
    (after (.inLaneBlockDropped here 3#8 0) full).lane = .block (b 3#8 0) := by
  decide +kernel

/-- R58, R60 to R62: either buffer, a first and a second FAIL, no block left, the PASS that ends a recovery. -/
theorem test_witness_StoreProgramsPassOrRecover_sides :
    let s (i : Nat) (op : FlashOp) (v : Option Recovery) : State := flying .store op (withStore (fun e => { e with
      pageIndex := i, bufB := { state := .programming, data := [4#8] }, recovery := v }) opened)
    let v : Recovery := { source := 5, good := 2, copied := 1, failed := [5, 9] }
    let full (x : State) : State := withMap (fun m => { m with blocks := [(5, .inUse), (6, .inUse)] }) x
    let read (c : SectorCount) : CopyRead := { data := List.replicate 4096 0#8, counts := List.replicate 4 c }
    let program (s : State) : Option (Nat × Nat × List Byte) := match s.flash.store with
      | some (.program x y d) => some (x, y, d)
      | _ => none
    let p := FlashOp.program 5 2 [4#8]
    let c := FlashOp.copyBack 5 1 6 1
    let cause (x : State) : Option (Option FailCause) := (x.record 4).map (·.cause)
    (s 2 p none).store.bufB.state = .programming ∧ (s 2 p none).store.bufA.state ≠ .programming ∧
    (after (.pageProgramDone here true) (s 2 p none)).store.bufB.state = .empty ∧
    (after (.pageProgramDone here true) (s 2 p (some v))).flash.store = some (.grownMark 5) ∧
    (after (.pageProgramDone here true) (s 2 p (some v))).store.marks = [9] ∧
    (after (.pageProgramDone here false) (s 2 p none)).flash.store = some (.copyBack 5 0 7 0) ∧
    ((after (.pageProgramDone here false) (s 2 p (some v))).store.recovery.map (·.failed)) = some [5, 9, 5] ∧
    (after (.pageProgramDone here false) (s 0 p none)).flash.store = some (.program 7 0 [4#8]) ∧
    ((after (.copyBackDone here (read (.corrected 0)) false) (s 2 c (some v))).store.recovery.map (·.copied)) = some 0 ∧
    cause (after (.pageProgramDone here false) (full (s 2 p none))) = some (some .noSpace) ∧
    (after (.pageProgramDone here false) (full (s 2 p none))).flash.store = some (.grownMark 5) ∧
    (after (.copyBackDone here (read .uncorrectable) true) (s 2 c (some v))).store.loss = true ∧
    program (after (.copyBackDone here (read .uncorrectable) true) (s 2 c (some v))) = some (5, 2, [4#8]) := by
  decide +kernel

/-- R74: the ready line low, and an item of each kind begun with it high. -/
theorem test_witness_OutLaneItemsDriveTheChain_ready :
    let low : Moment := { here with outReady := false }
    let item (m : Moment) (s : State) : Option ItemKind := (after (.outLaneItemBegin m) s).chain.item.map (·.kind)
    item low (reading .waiting) = none ∧ item here (reading .waiting) = some (.start 0 5000) ∧
    item here (reading .ending) = some (.finish .done) ∧ item here (reading .reading) = none ∧
    item here (withChain (fun c => { c with owed := some (140, true) }) one) = some (.finish .cancelled) ∧
    (after (.outLaneItemBegin here) (reading .waiting)).chain.run = some .waiting := by
  decide +kernel

/-- R118, R119, R112: PARK LENS while the motor coasts at a station, and the brake watch that ends there. -/
theorem test_witness_HomingAndParkingEndOnTheSensor_coast :
    let coast : State := withTimers (fun t => { t with brake := some 10 })
      (withZoom (fun z => { z with drive := .braked }) lens)
    let t := after (.parkLens here) coast
    coast.timers.brake ≠ none ∧ t.zoom.state = .parking ∧ t.zoom.stopped = false ∧ t.timers.brake = some 20 ∧
    (after (.brakeWatchExpiry here) t).zoom.stopped = false ∧
    (after (.brakeWatchExpiry { here with dt := 9980 }) t).zoom.stopped = true ∧
    (after (.parkLens { here with focusHome := true }) coast).zoom.state = .parking ∧
    (after (.brakeWatchExpiry { here with dt := 9989 }) coast).timers.brake = some 9999 ∧
    (after (.brakeWatchExpiry { here with dt := 9990 }) coast).timers.brake = none ∧
    (after (.brakeWatchExpiry { here with dt := 9990 }) coast).zoom = coast.zoom := by
  decide +kernel

/-- R112: a pulse of a driven motor, of a braked one, and the pulse that begins the braking. -/
theorem test_witness_PulsesMoveTheLens_watches :
    let watch (s : State) : State := withTimers (fun t => { t with stall := some 40, brake := none }) s
    let go := watch (moving .moving 299 .teleSlow (some (5, .approach)))
    let near := watch (moving .moving 299 .teleSlow (some (2, .approach)))
    let braked := withTimers (fun t => { t with brake := some 40 }) (moving .braking 299 .braked (some (5, .approach)))
    let t := after (.encoderPulse here true)
    (t go).zoom.drive = .teleFull ∧ (t go).timers.stall = some 0 ∧ (t go).timers.brake = none ∧
    (t near).zoom.drive = .braked ∧ (t near).timers.stall = none ∧ (t near).timers.brake = some 0 ∧
    (t near).zoom.state = .ready ∧ (t braked).zoom.drive = .braked ∧ (t braked).timers.brake = some 0 ∧
    (t braked).timers.stall = none := by
  decide +kernel

/-- R121, R127, R128: both fallbacks of ZOOM STOP, each of the five tests, the nearest station at its tie and its edge. -/
theorem test_witness_ZoomRequestsAimTheLens_tables :
    let aim (s : State) : Option (Nat × Leg) := (after (.zoomStop here) s).zoom.target
    let put (k : Nat) (e : Option StationEntry) : State :=
      withZoom (fun z => { z with staging := z.staging.set k e }) lens
    let bad (s : State) : Option Body := (after (.commitLensTable here) s).link.pending.map (·.body)
    let at_ (c : Int) : State := after (.commitLensTable here) (withZoom (fun z => { z with count := some c }) lens)
    aim (moving .moving 200 .wideFull (some (3, .outbound))) = some (0, .outbound) ∧
    aim (moving .moving 251 .wideFull (some (0, .outbound))) = some (1, .outbound) ∧
    aim (moving .braking 2550 .braked (some (3, .approach))) = some (47, .approach) ∧
    aim (moving .braking 2549 .braked (some (3, .approach))) = some (47, .approach) ∧
    aim (moving .moving 299 .teleFull (some (5, .approach))) = some (2, .approach) ∧
    bad (put 0 none) = some (.badStation 0 .empty) ∧
    bad (put 4 (some { entry 4 with widest := 19, cams := [120, 100] })) = some (.badStation 4 .avOrder) ∧
    bad (put 4 (some { entry 4 with cams := [120, 100], count := 350 })) = some (.badStation 4 .camOrder) ∧
    bad (put 4 (some { entry 4 with count := 350, focal := 26 })) = some (.badStation 4 .countOrder) ∧
    bad (put 47 (some { entry 47 with focal := 69 })) = some (.badStation 47 .focalOrder) ∧
    bad lens = some .empty ∧ (at_ 303).zoom.current = some 2 ∧ (at_ 304).zoom.state = .noTableHold ∧
    (at_ 325).zoom.current = none := by
  decide +kernel

/-- R140: two areas whose peaks stand at classes 1 and 3; a tie; no peak at all. R142: the fourth low block re-scans. -/
theorem test_witness_ScansSampleEveryClass_areas :
    let curve (i : Nat) (p : Option Nat) : Curve := { id := i, samples := List.replicate 16 (some 40), peak := p }
    let run (l : List Curve) : State := after (.statistics here (List.replicate 243 0#8))
      (withFocus (fun f => { f with
        curve := l, scan := some { scanOf 0 15 15 false with
          areas := l.map fun c => { id := c.id, rect := centreRect, enabled := true } } }) (scanning (scanOf 0 15 15 false) none))
    let locked (n : Nat) (near : Nat) : State := withFocus (fun f => { f with
        state := .locked, mode := .follow, follow := n, held := some (.lock 1 0 100) })
      (withZoom (fun z => { z with working := some (table.map fun e => { e with near := near }) }) lens)
    let low (s : State) : State := after (.statistics here (List.replicate 243 0#8)) s
    let dest (s : State) : Option FocusDest := s.focus.approach.map (·.dest)
    ((run [curve 4 (some 0), curve 6 (some 1)]).focus.approach.map (·.aim)) = some 120 ∧
    dest (run [curve 4 (some 0), curve 6 (some 1)]) = some (.hold (.lock 1 6 40)) ∧
    dest (run [curve 4 (some 1), curve 6 (some 1)]) = some (.hold (.lock 1 4 40)) ∧
    (run [curve 4 none, curve 6 none]).focus.state = .failedNoPeak ∧
    (low (locked 2 1)).focus.follow = 3 ∧ (low (locked 3 1)).focus.state = .scanning ∧
    ((low (locked 3 1)).focus.scan.map fun x => (x.first, x.last, x.current)) = some (0, 1, 0) ∧
    (low (withFocus (fun f => { f with suspended := true }) (locked 3 1))).focus.follow = 3 := by
  decide +kernel

/-- R116, R132, R144, R146: the end of each kind of approach, and stations passed and reached in TRACKING. -/
theorem test_witness_ScansSampleEveryClass_moves :
    let v : FocusMove := { aim := 120, via := none }
    let near (d : FocusDest) (owed : Bool) (s : State) : State := withFocus (fun f => { f with
      state := .approaching, move := some v, follow := 2, approach := some { aim := 120, dest := d, owed := owed } }) s
    let t (s : State) : State := after (.focusMoveComplete here) s
    let ext : State := withZoom (fun z => { z with state := .extending, count := some 203, current := some 0 }) lens
    let track (c : Int) (d : Drive) (k : Nat × Leg) : State := withFocus (fun f => { f with
      state := .tracking, trackOwed := true, held := some (.lock 5 0 100) }) (moving .moving c d (some k))
    let pulse (tele : Bool) (s : State) : State := after (.encoderPulse here tele) s
    (t (near (.hold (.manual 1)) true lens)).focus.state = .manual ∧
    (t (near (.hold (.manual 1)) true lens)).focus.follow = 2 ∧
    (t (near (.hold (.lock 1 0 9)) true lens)).focus.follow = 0 ∧
    (t (near (.hold (.lock 1 0 9)) false lens)).focus.follow = 2 ∧ (t (near .idle false lens)).focus.state = .idle ∧
    (t (near .idle false ext)).zoom.state = .ready ∧ (t (near .idle false ext)).focus.state = .idle ∧
    (pulse true (track 249 .teleFull (5, .approach))).focus.state = .tracking ∧
    (pulse true (track 249 .teleFull (5, .approach))).focus.held = some (.lock 1 0 100) ∧
    (pulse true (track 249 .teleFull (5, .approach))).focus.move = some { aim := 120, via := none } ∧
    (pulse false (track 251 .wideFull (0, .outbound))).focus.state = .tracking ∧
    (pulse true (track 249 .teleSlow (1, .approach))).focus.state = .approaching ∧
    (pulse true (track 249 .teleSlow (1, .approach))).focus.approach =
      some { aim := 120, dest := .hold (.lock 1 0 100), owed := true } := by
  decide +kernel

/-- R123, R160: the gain is read at a good frame in OFF, STARTING and FAULT too. -/
theorem test_witness_StabilizerStartsMeasuresAndLoses_gain :
    let bytes : List Byte := [41#8, 7#8, 0xDC#8, 0xFF#8, 0xFE#8, 0xF7#8]
    let run (st : SteadyState) : State := withTimers (fun t => { t with lost := some 0, good := some 740 })
      (withSteady (fun x => { x with state := st, progress := 10, lastSeq := some 40, gain := 7 }) lens)
    offeredGain lens.zoom = 10 ∧
    (after (.gyroFrame here bytes) (run .off)).steady.gain = 10 ∧
    (after (.gyroFrame here bytes) (run .starting)).steady.gain = 10 ∧
    (after (.gyroFrame here bytes) (run .fault)).steady.gain = 10 ∧
    (after (.gyroFrame here bytes) (withTimers (fun t => { t with good := some 739 }) (run .off))).steady.gain = 7 := by
  decide +kernel

/-- R153, R156, R177: the frame that waits for the Stabilizer goes on at its 256th frame or its loss; the one that waits for
the queue when a record leaves it. -/
theorem test_witness_FramesWaitAndExpose_resumes :
    let bytes : List Byte := [41#8, 7#8, 0xDC#8, 0xFF#8, 0xFE#8, 0xF7#8]
    let wait (i : Iris) : State := withTimers (fun t => { t with lost := some 9990, good := some 740 })
      (withSteady (fun x => { x with state := .starting, progress := 255, lastSeq := some 40 }) (shooting .waitSteady i))
    let queued (st : SteadyState) : State := withPlaces [(3, rec 1 .storing), (4, { rec 88 .reserved with extent := [] })]
      (withSteady (fun x => { x with state := st }) (withStore (fun e => { e with
        queue := [1, 2, 3, 4, 5, 6, 7, 8], stream := .ending
        heldEnd := some { length := 1, check := 0#32, width := 1, height := 1 } }) (shooting .queueWait (.at 11))))
    (after (.gyroFrame here bytes) (wait (.at 11))).shot.state = .exposing ∧
    (after (.gyroFrame here bytes) (wait (.at 11))).steady.state = .hold ∧
    (after (.gyroFrame here bytes) (wait (.at 6))).shot.state = .preparing ∧
    (after (.gyroLost here) (wait (.at 11))).shot.state = .exposing ∧
    (after (.gyroLost here) (wait .startRun)).shot.state = .preparing ∧
    Canonical (queued .off) ∧ (queued .off).store.queue.length = 8 ∧
    (after (.endTaken here) (queued .off)).shot.state = .exposing ∧
    (after (.endTaken here) (queued .starting)).shot.state = .waitSteady := by
  refine ⟨?_, ?_, ?_, ?_, ?_, canonical_of_check _ (by decide +kernel), ?_⟩ <;> decide +kernel

/-- R6, R179, R181: the end of a burst of two with a frame left over; a closure and a timeout after POWER_LOW. -/
theorem test_witness_ExposuresCloseOrTimeOut_ends :
    let x : InHand := { number := 88, tv := 18, av := 11, closedAt := some 10625, cutShort := false }
    let s (low off : Bool) : State := withTimers (fun t => { t with
        shutter := some 15700, frame := some 15700, confirm := some 49990 })
      (withPlaces [(4, { rec 88 .exposing with extent := [] }), (5, { rec 89 .reserved with extent := [] })]
        (withShot (fun z => { z with
          state := .closing, exposure := some x
          burst := some { group := 1, count := 2, numbers := [88, 89], next := 2, released := false, disarmed := off
                          tv := 18, av := 11 } }) { metered with supply := { metered.supply with powerLow := low } }))
    let cause (t : State) : Option (Option FailCause) := (t.record 4).map (·.cause)
    Canonical (s true true) ∧ (after (.shutterClosed here) (s false true)).shot.state = .idle ∧
    (after (.shutterClosed here) (s false true)).record 5 = none ∧
    (after (.shutterClosed here) (s false true)).store.queue = [88] ∧
    (after (.shutterClosed here) (s false false)).shot.state = .interval ∧
    (after (.shutterTimeout here) (s false false)).shot.state = .fault ∧
    (after (.shutterTimeout here) (s false false)).record 5 = none ∧
    cause (after (.shutterClosed here) (s true true)) = some (some .power) ∧
    cause (after (.shutterTimeout here) (s true true)) = some (some .power) ∧
    (after (.shutterClosed here) (s true true)).shot.state = .idle ∧
    (after (.shutterTimeout here) (s true true)).store.queue = [] :=
  ⟨canonical_of_check _ (by decide +kernel), by decide +kernel⟩

/-! ### Bytes on the In Lane, watches at their limits, and the clauses this row's second review asked for -/

/-- Section 10.4: marker, kind and code of a response whose body's layout the manual does not give; its length is not known. -/
theorem test_witness_FramesBeginAndAreDiscarded_response :
    let s (n : Nat) : State := withLink { up.link with
      clockedOut := n, pending := some { ready with kind := 22, code := .badField, body := .badStation 0 .empty } } up
    (s 0).link.pending.map (·.held) = some none ∧ dataOut (s 0) = some 165#8 ∧ dataOut (s 1) = none ∧
    dataOut (s 2) = some 22#8 ∧ dataOut (s 3) = some 6#8 ∧ dataOut (s 4) = none := by
  decide +kernel

/-- R51, R193: the hunt, a header in one, two and three parts, its body counted up to its length, and one that waits. -/
theorem test_witness_InLaneHeadersAndPictureStarts_bytes :
    let m (l : List Byte) : Moment := { here with lane := l }
    let got (l : List Byte) (s : State) : LaneReceiver := (s.arrive (m l)).lane
    let head (h : List Byte) : State := { opened with lane := .header h }
    let b (n : Nat) : LaneBlock := { kind := 3#8, length := 3, discard := false, got := n }
    let full : State := withStore (fun e => { e with bufA := { state := .full, data := [] }
                                                     bufB := { state := .full, data := [] } }) opened
    got [] opened = .hunting ∧ got [0#8, 194#8] opened = .hunting ∧ got [7#8, 195#8] opened = .header [] ∧
    got [195#8, 3#8, 0#8] opened = .header [3#8, 0#8] ∧ got [195#8, 3#8, 0#8, 3#8] opened = .block (b 0) ∧
    got [9#8, 195#8, 195#8, 1#8, 2#8] opened = .block { kind := 195#8, length := 258, discard := false } ∧
    got [3#8] (head []) = .header [3#8] ∧ got [0#8, 3#8] (head [3#8]) = .block (b 0) ∧
    got [195#8, 3#8, 0#8, 3#8] (after (.powerLow here) up) = .hunting ∧
    got [195#8, 4#8, 0#8, 12#8] State.reset = .block { kind := 4#8, length := 12, discard := true } ∧
    got [1#8, 2#8] (withLane (b 0) opened) = .block (b 2) ∧ got [1#8, 2#8] (withLane (b 2) opened) = .block (b 3) ∧
    inLaneReady full = false ∧ got [1#8] (withLane (b 0) full) = .block (b 0) ∧
    got [1#8] (withLane (b 1) full) = .block (b 2) ∧
    (after (.inLaneHeader (m [195#8, 3#8]) 3#8 3) opened).lane = .block (b 0) ∧
    (after (.inLaneHeader (m [195#8, 4#8]) 3#8 3) opened).lane = .header [4#8] ∧
    (after (.pictureStart (m [195#8])) (withStore (fun e => { e with stream := .closed }) opened)).store.stream = .opened ∧
    (after (.pictureStart (m [195#8, 2#8, 1#8])) (withStore (fun e => { e with stream := .closed }) opened)).store.stream =
      .closed := by
  decide +kernel

/-- R51, R70: a body that has begun is taken though ready has gone low; one that waits is not. -/
theorem test_witness_PictureDataFillsTheBuffers_begun :
    let s (n : Nat) : State := withLane { kind := 3#8, length := 1, discard := false, got := n } (withStore (fun e => { e with
      bufA := { state := .filling, data := [0#8] }, bufB := { state := .full, data := [] } }) opened)
    inLaneReady (s 1) = false ∧ (after (.pictureData here [9#8]) (s 1)).store.bufA = { state := .filling, data := [0#8, 9#8] } ∧
    (after (.pictureData here [9#8]) (s 1)).lane = .hunting ∧ (after (.pictureData here [9#8]) (s 0)).store = (s 0).store ∧
    (after (.pictureData here [9#8, 9#8]) (s 1)).store = (s 1).store := by
  decide +kernel

/-- R193: a gap in a header before and after its kind, in a body begun with ready low, before its first byte and after its
last. -/
theorem test_witness_FailedPicturesGiveBackTheirBlocks_gaps :
    let full (s : State) : State := withStore (fun e => { e with bufA := { state := .full, data := [] }
                                                                 bufB := { state := .full, data := [] } }) s
    let b (n : Nat) : LaneBlock := { kind := 3#8, length := 2, discard := false, got := n }
    let head (h : List Byte) : State := { opened with lane := .header h }
    let cause (s : State) : Option (Option FailCause) := ((after (.inLaneFramingFault here) s).record 4).map (·.cause)
    let lane (s : State) : LaneReceiver := (after (.inLaneFramingFault here) s).lane
    cause (head [3#8]) = some (some .brokenStream) ∧ cause (head [3#8, 0#8]) = some (some .brokenStream) ∧
    cause (head []) = some none ∧ lane (head []) = .hunting ∧ cause (head [2#8]) = some none ∧ lane (head [2#8]) = .hunting ∧
    cause (withLane (b 0) opened) = some (some .brokenStream) ∧ cause (withLane (b 0) (full opened)) = some none ∧
    lane (withLane (b 0) (full opened)) = .block (b 0) ∧
    cause (withLane (b 1) (full opened)) = some (some .brokenStream) ∧ lane (withLane (b 2) opened) = .block (b 2) ∧
    lane opened = .hunting := by
  decide +kernel

/-- R193: rows for a header that is another block's, and for the rest of their own. -/
theorem test_witness_AbandonAndDroppedBlocks_headers :
    let head (h : List Byte) : State := { up with lane := .header h }
    let lane (k : Byte) (n : Nat) (s : State) : LaneReceiver := (after (.inLaneBlockDropped here k n) s).lane
    lane 4#8 11 (head [4#8, 0#8]) = .hunting ∧ lane 4#8 11 (head [4#8, 1#8]) = .header [4#8, 1#8] ∧
    lane 4#8 12 (head [4#8]) = .header [4#8] ∧ lane 3#8 4097 (head [3#8, 16#8]) = .hunting ∧
    (after (.pictureAbort here) (head [5#8])).lane = .hunting ∧ (after (.pictureAbort here) (head [4#8])).lane = .header [4#8] := by
  decide +kernel

/-- R25, R26, R49, R50: the write of each item, of a freed place, and what a prepare and a held response make of it. -/
theorem test_witness_WritesCarryTheCopyAndCoverResponses_items :
    let s (c : Copy) : State := { one with
      memory := { one.memory with places := [(1023, .good kept)] }
      writer := { queue := [.settings], inFlight := some c } }
    let t (c : Copy) : RecordMemory := (after (.recordWriteComplete here) (s c)).memory
    let prep (p : PreparePhase) : State := withMap (fun m => { m with prepare := some p }) (s (.identity none))
    let phase (c : Instr) (x : State) : Option PreparePhase := (after c x).map.prepare
    let cover (i : Item) (b : Bool) : Cover := { item := i, begun := b }
    let held (c : Copy) (cs : List Cover) : Option HeldBy := match (after (.recordWriteComplete here)
        (withLink { up.link with pending := some { ready with held := some (.covers cs) } } (s c))).link.pending with
      | some r => r.held
      | none => none
    Canonical (s (.place 1023 none)) ∧ (t (.place 1023 none)).places = [] ∧
    (t (.place 0 (some kept))).places = [(0, .good kept), (1023, .good kept)] ∧ (t (.counter 9999)).counter = .good 9999 ∧
    (t (.settings defaultSettings)).settings = .good defaultSettings ∧ (t (.lensTable none)).lensTable = .good none ∧
    (t (.badList [(7, .grown)])).badList = .good [(7, .grown)] ∧ (t (.identity (some 4096))).identity = .good (some 4096) ∧
    phase (.recordWriteComplete here) (prep (.identityNone true)) = some .scanDue ∧
    phase (.recordWriteComplete here) (prep (.identityTotal true)) = some .endDue ∧
    phase (.recordWriteComplete here) (prep (.identityNone false)) = some (.identityNone false) ∧
    phase (.recordWriteBegin here) { prep (.identityNone false) with writer := { queue := [.identity], inFlight := none } } =
      some (.identityNone true) ∧
    phase (.recordWriteBegin here) { prep (.identityTotal false) with writer := { queue := [.identity], inFlight := none } } =
      some (.identityTotal true) ∧
    held (.place 3 none) [cover (.place 3) true, cover (.place 4) false] = some (.covers [cover (.place 4) false]) ∧
    held (.place 3 none) [cover (.place 3) false] = some (.covers [cover (.place 3) false]) ∧
    held (.place 3 none) [cover (.place 3) true] = none ∧ held (.settings defaultSettings) [cover .settings true] = none ∧
    held (.counter 1) [cover .settings true] = some (.covers [cover .settings true]) :=
  ⟨canonical_of_check _ (by decide +kernel), by decide +kernel⟩

/-- R36: the five counts of a small map, each counted block by block. -/
theorem test_witness_FiveBlockCountsSumToTheTotal_counts :
    let x : BlockMap := { map0 with
      total := 8, blocks := [(0, .erased), (2, .inUse), (3, .dirty .ready), (4, .dirty (.begins 9)), (5, .bad), (6, .erased)] }
    (x.erasedCount, x.inUseCount, x.dirtyCount, x.uncheckedCount, x.badCount) = (2, 1, 2, 2, 1) ∧
    ((List.range 8).filter fun b => x.stateOf b == .unchecked) = [1, 7] := by
  decide +kernel

/-- R49, R50: the last block of the scan, with blocks to erase and with none; an erase that finds the list full; a grown mark
with a DIRTY block after it. -/
theorem test_witness_PrepareScansAndErasesEveryBlock_ends :
    let at_ (p : PreparePhase) (op : FlashOp) (l : List (Nat × BlockState)) : State := flying .prepare op
      (withMap (fun m => { m with mode := .preparing, prepare := some p, badList := [], blocks := l, total := 4, reserved := 0 })
        store0)
    let read (k : MarkRead) : PageRead := { data := [], spare := [], counts := [], mark := k }
    let last (l : List (Nat × BlockState)) (k : MarkRead) : State :=
      after (.pageReadDone here (read k)) (at_ (.scanning 3) (.rawRead 3 0) l)
    let full : State := withMap (fun m => { m with badList := fullList }) (at_ (.erasing 2) (.erase 2) [(2, .dirty .ready)])
    let mark : State := after (.grownMarkProgramDone here false)
      (at_ (.marking 0) (.grownMark 0) [(0, .bad), (1, .bad), (2, .dirty .ready)])
    Canonical (at_ (.scanning 3) (.rawRead 3 0) [(0, .bad), (1, .dirty .ready)]) ∧
    (last [(0, .bad), (1, .dirty .ready)] .clear).map.prepare = some (.erasing 1) ∧
    (last [(0, .bad), (1, .dirty .ready)] .grown).map.prepare = some (.erasing 1) ∧
    (last [(0, .bad)] .clear).flash.last = some (.prepare, .erase 3) ∧
    (last [(0, .bad)] .factory).map.prepare = some (.identityTotal false) ∧
    (last [(0, .bad)] .factory).writer.queue = [.badList, .identity] ∧ (last [] .clear).writer.queue = [.badList] ∧
    256 ≤ full.map.badList.length ∧ (after (.blockEraseDone here false) full).map.mode = .unprepared ∧
    (after (.blockEraseDone here false) full).events.has .maintenanceDone = true ∧
    (after (.blockEraseDone here false) full).flash.last = none ∧ mark.map.prepare = some (.erasing 2) ∧
    mark.flash.last = some (.prepare, .erase 2) :=
  ⟨canonical_of_check _ (by decide +kernel), by decide +kernel⟩

/-- R80: CHAIN CANCEL with the head's end owed and not begun. -/
theorem test_witness_ChainRequestsAddAndCancel_ending :
    (reading .ending).chain.chain = desc :: [] ∧ (reading .ending).chain.run = some .ending ∧
    (reading .ending).chain.item = none ∧ Canonical (reading .ending) ∧
    (after (.chainCancel here) (reading .ending)).chain.owed = some (140, true) :=
  ⟨rfl, rfl, rfl, canonical_of_check _ (by decide +kernel), by decide +kernel⟩

/-- R91, R93: MATRIX's weights in force, and what SPOT measures on the way to a lock, to a set distance and from a lock. -/
theorem test_witness_MeasurementWeighsZonesAndRounds_spot :
    let near (d : FocusDest) : Focus := { lens.focus with
      state := .approaching, approach := some { aim := 9, dest := d, owed := true }
      areas := [{ id := 7, rect := ringRect, enabled := false }] }
    lens.meter.setup.pattern = .matrix ∧ (near (.hold (.lock 1 7 9))).state = .approaching ∧
    spotRect (near (.hold (.lock 1 7 9))) = ringRect ∧ spotRect (near (.hold (.lock 1 6 9))) = centreRect ∧
    spotRect (near (.hold (.manual 1))) = centreRect ∧ spotRect (near .failed) = centreRect ∧
    spotRect (near .idle) = centreRect ∧
    spotRect { near .idle with state := .tracking, held := some (.manual 1) } = centreRect ∧
    spotRect { near .idle with state := .tracking, held := some (.lock 1 7 9) } = ringRect := by
  decide +kernel

/-- R136, R141: FOCUS RELEASE in TRACKING and in both kinds of APPROACHING; FOCUS MODE between SINGLE and FOLLOW. -/
theorem test_witness_FocusRequestsScanReleaseAndSet_release :
    let near (d : FocusDest) (o : Bool) : State := withFocus (fun f => { f with
      state := .approaching, approach := some { aim := 120, dest := d, owed := o } }) lens
    let track : State := withFocus (fun f => { f with state := .tracking, trackOwed := true, held := some (.lock 1 0 9) }) lens
    let locked : State := withFocus (fun f => { f with state := .locked, follow := 3, held := some (.lock 1 0 9) }) lens
    let idle : State := withFocus (fun f => { f with follow := 3 }) lens
    let t (s : State) : State := after (.focusRelease here) s
    let mode (x : FocusMode) (s : State) : State := after (.focusMode here (some x)) s
    Taking track ∧ Taking (near .idle false) ∧ (t (near .idle false)).focus = (near .idle false).focus ∧
    (t track).focus.state = .idle ∧ (t track).events = track.events ∧ (t track).focus.lastEnd = track.focus.lastEnd ∧
    (t (near .failed true)).focus.lastEnd = .released ∧ (t (near (.hold (.manual 1)) false)).events = lens.events ∧
    answered (.focusRelease here) track = some (26, .ok) ∧ answered (.focusMode here (some .follow)) locked = some (27, .ok) ∧
    (mode .follow locked).focus = { locked.focus with mode := .follow, follow := 0 } ∧
    (mode .single (withFocus (fun f => { f with mode := .follow }) locked)).focus.follow = 0 ∧ (mode .follow idle).focus.follow = 3 := by
  decide +kernel

/-- R45, R58, R61, R69: a program that passes in ENDING, a FAIL with the bad-block list full, and results that are discarded. -/
theorem test_witness_StoreProgramsPassOrRecover_ending :
    let p := FlashOp.program 5 2 [4#8]
    let s (op : FlashOp) : State := flying .store op (withStore (fun e => { e with
      stream := .ending, pageIndex := 2, bufB := { state := .programming, data := [4#8] } }) opened)
    let full (x : State) : State := withMap (fun m => { m with badList := fullList }) x
    let t := after (.pageProgramDone here false) (full (s p))
    let lost (e : StoreEngine → StoreEngine) (op : FlashOp) : State :=
      { withStore e (s op) with flash := { (s op).flash with inFlight := (s op).flash.inFlight.map fun x => { x with discard := true } } }
    let shut (e : StoreEngine) : StoreEngine := { e with stream := .closed, queue := [] }
    let read : CopyRead := { data := List.replicate 4096 0#8, counts := List.replicate 4 .uncorrectable }
    let pass (x : State) : State := after (.pageProgramDone here false) x
    Canonical (full (s p)) ∧ (s p).store.stream ≠ .closed ∧
    (after (.pageProgramDone here true) (s p)).store.bufB.state = .empty ∧ (full (s p)).map.mode = .writable ∧
    256 ≤ (full (s p)).map.badList.length ∧ t.map.mode = .readOnly ∧ t.events.has .storeReadOnly = true ∧
    t.map.badList = fullList ∧ t.flash.store = some (.copyBack 5 0 7 0) ∧
    ((lost shut p).flash.inFlight.map (·.discard)) = some true ∧ (pass (lost shut p)).store.bufB.state = .empty ∧
    (pass (lost shut p)).map = (lost shut p).map ∧
    (after (.copyBackDone here read false) (lost shut (.copyBack 5 0 7 0))).store.loss = false ∧
    (pass (lost (fun e => { shut e with marks := [7, 8] }) p)).flash.store = some (.grownMark 7) ∧
    (pass (lost (fun e => { shut e with marks := [7, 8] }) p)).store.marks = [8] ∧
    (match (pass (lost (fun e => { e with stream := .opened, pageIndex := 1, fullOrder := [.a]
                                          bufA := { state := .full, data := [9#8] } }) p)).flash.store with
      | some (.program x y d) => some (x, y, d)
      | _ => none) = some (5, 1, [9#8]) :=
  ⟨canonical_of_check _ (by decide +kernel), by decide +kernel⟩

/-- R85 to R87: the next position and NO BLOCK there, a FAIL with nothing and with two pages to copy, a second FAIL, no block
left, the copy-backs, an uncorrectable one, the PASS that ends the recovery, the marks one by one, and BUSY while they wait. -/
theorem test_witness_RefreshCopiesAndSwaps_recovery :
    let big (op : FlashOp) (page : Nat) (v : Option Recovery) : State :=
      withMap (fun m => { m with blocks := Table.put 7 .inUse m.blocks }) (withChain (fun c => { c with
        refresh := c.refresh.map fun f => { f with pages := 70, buffer := [9#8], recovery := v } }) (refreshing op page))
    let p := FlashOp.program 7 0 []
    let bare (s : State) : State := withMap (fun m => { m with blocks := [(5, .inUse), (6, .inUse), (7, .inUse)] }) s
    let pass (ok : Bool) (s : State) : State := after (.pageProgramDone here ok) s
    let read (c : SectorCount) : CopyRead := { data := List.replicate 4096 0#8, counts := List.replicate 4 c }
    let copied (c : SectorCount) (ok : Bool) (s : State) : State := after (.copyBackDone here (read c) ok) s
    let v (n : Nat) : Recovery := { source := 9, good := 2, copied := n, failed := [9] }
    let extent (s : State) : Option (List Nat) := match s.record 1023 with | some r => r.refreshExtent | none => none
    let at_ (s : State) : Option (Nat × Nat) := s.chain.refresh.map fun f => (f.position, f.page)
    let program (s : State) : Option (Nat × Nat × List Byte) := match s.flash.refresh with
      | some (.program x y d) => some (x, y, d)
      | _ => none
    let c := FlashOp.copyBack 9 0 7 0
    let marks (s : State) : State := withChain (fun c => { c with refresh := none, refreshMarks := [8] }) s
    Canonical (big p 63 none) ∧ (63 : Nat) + 1 = 64 ∧ (1 - 1) * 64 + 63 + 1 < 70 ∧
    at_ (pass true (big p 63 none)) = some (2, 0) ∧ extent (pass true (big p 63 none)) = some [7, 8] ∧
    (pass true (big p 63 none)).flash.refresh = some (.pageRead 6 0) ∧
    (pass true (bare (big p 63 none))).chain.refresh = none ∧
    (pass true (bare (big p 63 none))).events.has .maintenanceDone = true ∧
    extent (pass false (big p 0 none)) = some [8] ∧ program (pass false (big p 0 none)) = some (8, 0, [9#8]) ∧
    (pass false (big p 2 none)).flash.refresh = some (.copyBack 7 0 8 0) ∧
    ((pass false (big p 2 (some (v 2)))).chain.refresh.map (·.recovery)) =
      some (some { source := 9, good := 2, copied := 0, failed := [9, 7] }) ∧
    (copied (.corrected 8) false (big c 2 (some (v 1)))).flash.refresh = some (.copyBack 9 0 8 0) ∧
    (pass false (bare (big p 2 (some (v 2))))).chain.refresh = none ∧
    (pass false (bare (big p 2 (some (v 2))))).flash.refresh = some (.grownMark 9) ∧
    (pass false (bare (big p 2 (some (v 2))))).chain.refreshMarks = [7] ∧
    (copied (.corrected 0) true (big c 2 (some (v 0)))).flash.refresh = some (.copyBack 9 1 7 1) ∧
    program (copied (.corrected 0) true (big c 2 (some (v 1)))) = some (7, 2, [9#8]) ∧
    (copied .uncorrectable true (big c 2 (some (v 1)))).chain.refresh = none ∧
    (copied .uncorrectable true (big c 2 (some (v 1)))).flash.refresh = some (.grownMark 9) ∧
    at_ (pass true (big p 2 (some (v 2)))) = some (1, 3) ∧
    (pass true (big p 2 (some (v 2)))).flash.refresh = some (.grownMark 9) ∧
    at_ (pass true (big p 63 (some (v 2)))) = some (2, 0) ∧
    (after (.grownMarkProgramDone here false) (marks (refreshing (.grownMark 9) 0))).flash.refresh = some (.grownMark 8) ∧
    answered (.refresh here 140) (withChain (fun c => { c with refreshMarks := [8] }) one) = some (12, .busy) ∧
    answered (.refresh here 140) (flying .refresh (.grownMark 8) one) = some (12, .busy) ∧
    answered (.refresh here 140) { one with flash := { one.flash with refresh := some (.grownMark 8) } } = some (12, .busy) := by
  refine ⟨canonical_of_check _ (by decide +kernel), ?_⟩
  decide +kernel

/-- R97, R112, R133, R138, R153: every watch one below its limit, where its expiry does nothing. -/
theorem test_witness_watchesBelowTheirLimits :
    let early (f : Timers → Timers) (s : State) (c : Instr) : Prop :=
      after c (withTimers f s) = (withTimers f s).arrive here
    let home (n : Nat) : State := withFocus (fun f => { f with homing := some n }) homing
    early (fun t => { t with block := some 499989 }) metered (.blockWatchExpiry here) ∧
    early (fun t => { t with stall := some 39989 }) homing (.stallWatchExpiry here) ∧
    early (fun t => { t with brake := some 9989 }) homing (.brakeWatchExpiry here) ∧
    early (fun t => { t with sample := some 499989 }) (scanning (scanOf 0 1 0 true) none) (.sampleWatchExpiry here) ∧
    early (fun t => { t with lost := some 9989 }) (withSteady (fun x => { x with state := .active }) lens) (.gyroLost here) ∧
    after (.focusHomingFailed here) (home 3199) = (home 3199).arrive here ∧
    (after (.focusHomingFailed here) (home 3200)).focus.homing = none ∧
    (after (.focusHomingFailed { here with focusSteps := 1 }) (home 3199)).focus.homing = none ∧
    (after (.blockWatchExpiry here) (withTimers (fun t => { t with block := some 499990 }) metered)).meter.state = .stale ∧
    (after (.stallWatchExpiry here) (withTimers (fun t => { t with stall := some 39990 }) homing)).zoom.state = .stalled ∧
    (after (.blockWatchExpiry here) (after (.statistics here (List.replicate 243 0#8))
      (withTimers (fun t => { t with block := some 499990 }) metered))).meter.state = .tracking := by
  decide +kernel

/-- A burst of three with the second record next, in places 4 to 6. -/
def three (st : ShotState) : State :=
  withPlaces [(4, { rec 88 .exposing with extent := [] }), (5, { rec 89 .reserved with extent := [] }),
      (6, { rec 90 .reserved with extent := [], remaining := 0 })]
    (withTimers (fun t => { t with shutter := some 7000, frame := some 7000 })
      (withShot (fun x => { x with
        state := st, iris := .at 11
        exposure := some { number := 88, tv := 18, av := 11, closedAt := none, cutShort := false }
        burst := some { group := 1, count := 3, numbers := [88, 89, 90], next := 2, released := false, disarmed := false
                        tv := 18, av := 11 } }) metered))

/-- R169, R180: the records an ARM creates; a DISARM of three in INTERVAL, EXPOSING and CLOSING, and with the sensor closed. -/
theorem test_witness_ShotsArmAndDisarm_several :
    let off (m : Moment) (st : ShotState) : State := after (.disarm m) (three st)
    let closed : Moment := { here with shutterClosed := true }
    let armed (f : Focus → Focus) : Option (Nat × FocusOutcome × Int) :=
      match (after (.arm here) (withFocus f armable)).record 0 with
      | some { armed := some a, .. } => some (a.station, a.focus, a.exposure.scene)
      | _ => none
    Canonical (three .interval) ∧ Taking (three .interval) ∧ (off here .interval).cat.places.map (·.1) = [4] ∧
    (off here .interval).map.reserved = 0 ∧ (off here .exposing).cat.places.map (·.1) = [4] ∧
    (off here .exposing).shot.state = .closing ∧ (off here .closing).cat.places.map (·.1) = [4] ∧
    (off here .closing).map.reserved = 0 ∧ (off closed .exposing).shot.state = .idle ∧
    ((off closed .exposing).record 4).map (fun r => (r.state, r.measured, r.armed.map (·.flags.cutShort))) =
      some (.awaiting, some 7010, some true) ∧
    (off closed .exposing).shot.lastLatency = some 0 ∧ (off closed .exposing).store.queue = [88] ∧
    (off closed .exposing).cat.places.map (·.1) = [4] ∧ armed id = some (2, .notLocked, 21) ∧
    armed (fun f => { f with state := .locked, held := some (.lock 3 7 100) }) = some (2, .locked 3 7, 21) ∧
    armed (fun f => { f with state := .manual, held := some (.manual 4) }) = some (2, .manual 4, 21) := by
  refine ⟨canonical_of_check _ (by decide +kernel), ?_⟩
  decide +kernel

/-- R170, R171, R177: TRIGGER's answer, PREPARING while the iris's start-up run lasts, and a queue that shrinks by ABANDON,
PICTURE ABORT and DATA TIMEOUT; the interval's edge. -/
theorem test_witness_FramesWaitAndExpose_iris :
    let s (av : Int) (off : Bool) : State := withShot (fun x => { x with burst := x.burst.map fun b =>
      { b with av := av, disarmed := off } }) (shooting .preparing .startRun)
    let done (x : State) : State := after (.irisMoveComplete here) x
    let queued (st : SteadyState) : State := withPlaces [(3, rec 1 .storing), (4, { rec 88 .reserved with extent := [] }),
        (9, rec 8 .awaiting)]
      (withSteady (fun x => { x with state := st }) (withStore (fun e => { e with
        queue := [1, 2, 3, 4, 5, 6, 7, 8], stream := .opened })
        (withTimers (fun t => { t with data := some 1999990 }) (shooting .queueWait (.at 11)))))
    let interval (f : Nat) : State := withTimers (fun t => { t with frame := some f }) (shooting .interval (.at 11))
    answered (.trigger here) (shooting .armed (.at 6)) = some (37, .ok) ∧
    (done (s 11 false)).shot.iris = .moving 11 ∧ (done (s 11 true)).shot.iris = .moving 11 ∧
    (done (s 11 false)).shot.state = .preparing ∧ (done (s 6 false)).shot.state = .exposing ∧
    (done (s 6 false)).shot.iris = .at 6 ∧ (done (s 6 true)).shot.state = .idle ∧
    Canonical (queued .off) ∧ Taking (queued .off) ∧ inLaneReady (queued .off) = true ∧
    (after (.abandon here 8) (queued .off)).shot.state = .exposing ∧
    (after (.abandon here 1) (queued .starting)).shot.state = .waitSteady ∧
    (after (.pictureAbort here) (queued .off)).shot.state = .exposing ∧
    (after (.dataTimeout here) (queued .off)).shot.state = .exposing ∧
    (interval 0).shot.setup.interval = 250 ∧ (after (.frameDue here) (interval 249990)).shot.state = .exposing ∧
    (after (.frameDue here) (interval 249989)).shot.state = .interval := by
  refine ⟨?_, ?_, ?_, ?_, ?_, ?_, ?_, canonical_of_check _ (by decide +kernel), ?_⟩ <;> decide +kernel

/-- R172, R174, R176: the close command one early and when due, the 50 ms one early; a closure after the interval, with the
queue at 7 records, one below, the Stabilizer starting, and the iris elsewhere. -/
theorem test_witness_ExposuresCloseOrTimeOut_due :
    let s (st : ShotState) (shutter confirm frame : Nat) (i : Iris) (x : SteadyState) (q : List Nat) : State :=
      withTimers (fun t => { t with shutter := some shutter, confirm := some confirm, frame := some frame })
        (withSteady (fun y => { y with state := x }) (withStore (fun e => { e with queue := q })
          (withShot (fun x => { x with iris := i }) (three st))))
    let close (shutter : Nat) : ShotState := (after (.closeCommandDue here) (s .exposing shutter 0 0 (.at 11) .off [])).shot.state
    let late (confirm : Nat) : ShotState := (after (.shutterTimeout here) (s .closing 0 confirm 0 (.at 11) .off [])).shot.state
    let next (i : Iris) (x : SteadyState) (q : List Nat) : State :=
      after (.shutterClosed here) (s .closing 16000 5000 249990 i x q)
    exposureTime 18 = 15625 ∧ (three .exposing).shot.learned = 5000 ∧ close 10615 = .closing ∧ close 10614 = .exposing ∧
    late 49990 = .fault ∧ late 49989 = .closing ∧ Canonical (s .closing 16000 5000 249990 (.at 11) .off []) ∧
    (next (.at 11) .off []).shot.state = .exposing ∧
    ((next (.at 11) .off []).shot.exposure.map (·.number)) = some 89 ∧
    ((next (.at 11) .off []).record 5).map (·.state) = some .exposing ∧
    ((next (.at 11) .off []).record 4).map (·.state) = some .awaiting ∧
    (next (.at 11) .off [1, 2, 3, 4, 5, 6]).shot.state = .exposing ∧
    (next (.at 11) .off [1, 2, 3, 4, 5, 6, 7]).shot.state = .queueWait ∧
    (next (.at 11) .starting []).shot.state = .waitSteady ∧ (next (.at 6) .off []).shot.iris = .moving 11 ∧
    (next .startRun .off []).shot.state = .preparing ∧
    (after (.shutterClosed here) (s .closing 16000 5000 249989 (.at 11) .off [])).shot.state = .interval := by
  refine ⟨?_, ?_, ?_, ?_, ?_, ?_, canonical_of_check _ (by decide +kernel), ?_⟩ <;> decide +kernel

/-- R52, R56: the ready line's four conditions; running, stopped and paused timers. -/
theorem test_witness_readyLineAndTimers :
    let busy (a b : BufState) : State := withStore (fun e => { e with
      bufA := { state := a, data := [] }, bufB := { state := b, data := [] } }) up
    let at_ (s : State) : Timers := ((withTimers (fun t => { t with data := some 5, lost := some 7 }) s).arrive here).timers
    inLaneReady up = true ∧ inLaneReady (busy .full .empty) = true ∧ inLaneReady (busy .filling .programming) = false ∧
    inLaneReady (withStore (fun e => { e with stream := .ending }) up) = false ∧ inLaneReady State.reset = false ∧
    inLaneReady (after (.powerLow here) up) = false ∧ (at_ up).data = some 15 ∧ (at_ up).lost = some 17 ∧
    (at_ up).block = none ∧ (at_ (busy .full .full)).data = some 5 ∧ (at_ (busy .full .full)).lost = some 17 := by
  decide +kernel

/-- R132, R133: the focus steps of a homing, of a move past the aimed step, on the way back from there and toward home. -/
theorem test_witness_ScansSampleEveryClass_steps :
    let s (p : Nat) (v : FocusMove) : State := withFocus (fun f => { f with position := some p, move := some v }) lens
    let steps (n : Nat) (x : State) : Focus := (x.arrive { here with focusSteps := n }).focus
    let stands (x : Focus) : Option (Nat × Option Nat) := match x.position, x.move with
      | some p, some v => some (p, v.via)
      | _, _ => none
    stands (steps 5 (s 100 { aim := 120, via := none })) = some (105, none) ∧
    stands (steps 25 (s 100 { aim := 120, via := none })) = some (120, none) ∧
    stands (steps 9 (s 100 { aim := 90, via := none })) = some (91, none) ∧
    stands (steps 11 (s 100 { aim := 90, via := none })) = some (90, none) ∧
    stands (steps 33 (s 100 { aim := 90, via := some 66 })) = some (67, some 66) ∧
    stands (steps 34 (s 100 { aim := 90, via := some 66 })) = some (66, none) ∧
    stands (steps 40 (s 100 { aim := 90, via := some 66 })) = some (72, none) ∧
    stands (steps 60 (s 100 { aim := 90, via := some 66 })) = some (90, none) ∧
    (steps 7 (withFocus (fun f => { f with homing := some 3000 }) lens)).homing = some 3007 ∧
    (steps 7 lens).position = some 100 := by
  decide +kernel

/-- R138, R94: sums over a rectangle and over the zones with their weights. -/
theorem test_zone_sums :
    let v : List Nat := List.range 48
    zoneSum { firstCol := 7, lastCol := 7, firstRow := 4, lastRow := 5 } v = 39 + 47 ∧ zoneSum centreRect v = 19 + 20 + 27 + 28 ∧
    weightedSum (List.replicate 48 2) v = 48 * 47 ∧ areaRect [{ id := 3, rect := ringRect, enabled := false }] 3 = ringRect ∧
    areaRect [] 3 = centreRect := by
  decide +kernel

/-- R36: a state that holds the law, an allocation and both replacements, the swap and the abandonment of a refresh. -/
theorem test_witness_FiveBlockCountsSumToTheTotal_law :
    let s : State := withMap (fun m => { m with blocks := Table.put 7 .inUse m.blocks }) (refreshing (.program 7 0 []) 0)
    let r : PicRecord := { kept with holds := 1, remaining := 1, refreshExtent := some [7] }
    let held (x : State) : List Nat := heldBlocks x
    Canonical s ∧ BlocksLawful s ∧ s.record 1023 = some r ∧ r.extent[1]? = some 6 ∧ ([7] : List Nat)[0]? = some 7 ∧
    (s.allocateFor 1023 PicRecord.appendExtent).2 = some 8 ∧ (s.allocateFor 1023 PicRecord.appendRefresh).2 = some 8 ∧
    held (s.replaceBlock 1023 1 6 false).1 = [5, 8, 7] ∧ held (s.replaceBlock 1023 0 7 true).1 = [5, 6, 8] ∧
    held s.refreshComplete = [7] ∧ held (s.refreshDrop false) = [5, 6] ∧ held s.prepareBegin = [] ∧
    held (s.freePlace 1023) = [] ∧ 20 ∉ held s := by
  refine ⟨canonical_of_check _ (by decide +kernel), blocksLawful_of_check (by decide +kernel) (by decide +kernel)
    (by decide +kernel), ?_⟩
  decide +kernel

/-- R48: BUSY with a grown mark waiting and with one in flight, of either claimant. -/
theorem test_witness_PrepareStoreEmptiesAndEnds_marks :
    let wait (f : FlashPort → FlashPort) : State := { store0 with flash := f store0.flash }
    Taking store0 ∧ answered (.prepareStore here) (wait fun f => { f with store := some (.grownMark 8) }) = some (8, .busy) ∧
    answered (.prepareStore here) (wait fun f => { f with refresh := some (.grownMark 8) }) = some (8, .busy) ∧
    answered (.prepareStore here) (flying .store (.grownMark 8) store0) = some (8, .busy) ∧
    answered (.prepareStore here) (flying .refresh (.grownMark 8) store0) = some (8, .busy) ∧
    answered (.prepareStore here) (flying .background (.grownMark 8) store0) = some (8, .ok) := by
  decide +kernel

/-- R50: an erase PASS with a DIRTY block above and with none; the results that come once POWER_LOW has ended the prepare. -/
theorem test_witness_PrepareScansAndErasesEveryBlock_stopping :
    let at_ (p : PreparePhase) (op : FlashOp) (l : List (Nat × BlockState)) : State := flying .prepare op
      (withMap (fun m => { m with
        mode := .preparing, identity := none, prepare := some p, badList := [], blocks := l, total := 4, reserved := 0 }) store0)
    let pass : State → State := after (.blockEraseDone here true)
    let e : State := at_ (.erasing 0) (.erase 0) [(0, .dirty .ready), (1, .bad), (3, .dirty .ready)]
    let low (op : FlashOp) (full : Bool) : State := withMap (fun m => { m with badList := if full then fullList else [] })
      (after (.powerLow here) (at_ (.scanning 2) op []))
    let read (k : MarkRead) (s : State) : State := after (.pageReadDone here { data := [], spare := [], counts := [], mark := k }) s
    let raw : FlashOp := .rawRead 2 0
    Canonical e ∧ (pass e).map.prepare = some (.erasing 3) ∧ (pass e).map.stateOf 0 = .erased ∧
    (pass (pass e)).map.prepare = some (.erasing 3) ∧
    (pass (at_ (.erasing 3) (.erase 3) [(3, .dirty .ready)])).map.identity = some 4 ∧
    (low raw false).map.prepare = some .stopping ∧ (low raw false).map.total = 0 ∧ (low raw false).map.mode = .unprepared ∧
    (low raw false).flash.protectDue = true ∧ (read .clear (low raw false)).map.prepare = none ∧
    (read .clear (low raw false)).flash.writeProtect = true ∧ (read .grown (low raw false)).map.badList = [(2, .grown)] ∧
    (read .grown (low raw false)).writer.queue = [.badList] ∧ (read .factory (low raw true)).map.badList = [] ∧
    (read .factory (low raw true)).events.has .maintenanceDone = false ∧ (pass (low (.erase 2) false)).map.prepare = none ∧
    (after (.blockEraseDone here false) (low (.erase 2) false)).map.badList = [(2, .grown)] ∧
    (after (.blockEraseDone here false) (low (.erase 2) true)).map.badList = [] ∧
    (after (.grownMarkProgramDone here true) (low (.grownMark 2) false)).map.prepare = none := by
  refine ⟨canonical_of_check _ (by decide +kernel), ?_⟩
  decide +kernel

/-- R41, R43, R45: discarded results of background work; a blank check that finds a mark with the bad-block list full. -/
theorem test_witness_BackgroundWorkMakesErasedBlocks_discarded :
    let lost (op : FlashOp) : State := { flying .background op store0 with flash := { store0.flash with
      inFlight := some { claimant := .background, op := op, cycles := 4, discard := true } } }
    let read (k : MarkRead) : Instr := .pageReadDone here { data := [], spare := [], counts := [], mark := k }
    let full (mode : StoreMode) : State := flying .background (.rawRead 20 0)
      (withMap (fun m => { m with mode := mode, badList := fullList, inHand := some (20, .read0) }) store0)
    (after (.blockEraseDone here false) (lost (.erase 20))).map = map0 ∧
    (after (.blockEraseDone here true) (lost (.erase 20))).flash.inFlight = none ∧
    (after (read .grown) (lost (.rawRead 20 0))).map = map0 ∧
    (after (read .grown) (full .writable)).map.stateOf 20 = .bad ∧ (after (read .grown) (full .writable)).map.mode = .readOnly ∧
    (after (read .grown) (full .writable)).events.has .storeReadOnly = true ∧
    (after (read .factory) (full .readOnly)).events.has .storeReadOnly = false ∧
    (after (read .factory) (full .readOnly)).map.inHand = none := by
  decide +kernel

/-- R55: a second PICTURE START, with another record in the queue and with none. -/
theorem test_witness_FailedPicturesGiveBackTheirBlocks_second :
    let two : State := withPlaces [(4, rec 88 .storing), (5, { rec 89 .awaiting with extent := [] })]
      (withStore (fun e => { e with
        queue := [88, 89], stream := .opened, received := 9, bufA := { state := .filling, data := [1#8] } }) store0)
    let t := after (.pictureStart here) two
    let last := after (.pictureStart here) opened
    Canonical two ∧ findNumber 89 two.cat.places = some (5, { rec 89 .awaiting with extent := [] }) ∧ LaneOpens 2#8 0 (two.arrive here) ∧
    t.store.queue = [89] ∧ t.store.stream = .opened ∧ t.store.received = 0 ∧ t.store.bufA = { state := .empty, data := [] } ∧
    t.writer.queue = [.place 4, .place 5] ∧ t.map.stateOf 5 = .dirty (.begins 4) ∧ t.map.reserved = 0 ∧
    (t.record 5).map (·.state) = some .storing ∧ opened.store.queue = [88] ∧ last.store.stream = .closed ∧
    last.store.queue = [] ∧ (last.record 4).map (·.cause) = some (some .brokenStream) ∧ last.timers.data = none := by
  refine ⟨canonical_of_check _ (by decide +kernel), by decide +kernel, .inl rfl, ?_⟩
  decide +kernel

/-- R62: a grown mark done with another to come, with a FULL page within a position and at the start of one. -/
theorem test_witness_StoreProgramsPassOrRecover_marks :
    let s (i : Nat) (marks : List Nat) : State := flying .store (.grownMark 3) (withStore (fun e => { e with
      pageIndex := i, marks := marks, fullOrder := [.b], bufB := { state := .full, data := [9#8] } }) opened)
    let done (x : State) : State := after (.grownMarkProgramDone here false) x
    let asked (x : State) : Option (Nat × Nat × List Byte) := match (done x).flash.store with
      | some (.program b g d) => some (b, g, d)
      | _ => none
    let bare (x : State) : State := withMap (fun m => { m with blocks := [(5, .inUse), (6, .inUse)], reserved := 0 }) x
    Canonical (s 64 []) ∧ (s 1 []).store.recovery = none ∧ (done (s 1 [7, 8])).flash.store = some (.grownMark 7) ∧
    (done (s 1 [7, 8])).store.marks = [8] ∧ asked (s 65 []) = some (6, 1, [9#8]) ∧ (64 : Nat) % 64 = 0 ∧
    asked (s 128 []) = some (7, 0, [9#8]) ∧ ((done (s 128 [])).record 4).map (·.extent) = some [5, 6, 7] ∧
    ((done (s 3072 [])).record 4).map (·.cause) = some (some .oversize) ∧
    ((done (bare (s 64 []))).record 4).map (·.cause) = some (some .noSpace) := by
  refine ⟨canonical_of_check _ (by decide +kernel), ?_⟩
  decide +kernel

/-- R45, R86, R87: a refresh's FAIL with the bad-block list full, with and without a block for it; the last page's PASS in a
recovery; discarded results with nothing, a mark and the next refresh waiting. -/
theorem test_witness_RefreshCopiesAndSwaps_discarded :
    let p := FlashOp.program 7 0 []
    let s (op : FlashOp) : State := withMap (fun m => { m with blocks := Table.put 7 .inUse m.blocks }) (refreshing op 0)
    let full (x : State) : State := withMap (fun m => { m with badList := fullList }) x
    let bare (x : State) : State := withMap (fun m => { m with blocks := [(5, .inUse), (6, .inUse), (7, .inUse)] }) x
    let v : Recovery := { source := 9, good := 0, copied := 0, failed := [9] }
    let last : State := withChain (fun c => { c with refresh := c.refresh.map fun f =>
      { f with pages := 1, recovery := some v } }) (s p)
    let lost (f : ReadChain → ReadChain) (op : FlashOp) : State :=
      { withChain f (s op) with flash := { (s op).flash with
        inFlight := some { claimant := .refresh, op := op, cycles := 4, discard := true } } }
    let fail : State → State := after (.pageProgramDone here false)
    let pass : State → State := after (.pageProgramDone here true)
    let none_ (c : ReadChain) : ReadChain := { c with refresh := none }
    let src : CopyRead := { data := List.replicate 4096 0#8, counts := List.replicate 4 .uncorrectable }
    Canonical (full (s p)) ∧ (fail (full (s p))).map.mode = .readOnly ∧
    (fail (full (s p))).events.has .storeReadOnly = true ∧ (fail (full (s p))).chain.refresh ≠ none ∧
    (fail (full (bare (s p)))).chain.refresh = none ∧ (fail (full (bare (s p)))).map.mode = .readOnly ∧
    (fail (full (bare (s p)))).events.has .maintenanceDone = true ∧
    (pass last).chain.refresh = none ∧ (pass last).flash.refresh = some (.grownMark 9) ∧ (pass last).chain.refreshMarks = [] ∧
    ((pass last).record 1023).map (·.extent) = some [7] ∧ (pass last).map.stateOf 5 = .dirty (.begins 1023) ∧
    (pass (lost none_ p)).flash.refresh = none ∧ (pass (lost none_ p)).cat = (s p).cat ∧
    (fail (lost (fun c => { none_ c with refreshMarks := [8, 9] }) p)).flash.refresh = some (.grownMark 8) ∧
    (fail (lost id p)).flash.refresh = some (.pageRead 5 0) ∧
    ((fail (lost id p)).record 1023).map (·.refreshExtent) = some (some [7, 8]) ∧
    (fail (bare (withMap (fun m => { m with reserved := 0 }) (lost id p)))).chain.refresh = none ∧
    (after (.copyBackDone here src true) (lost none_ (.copyBack 9 0 7 0))).chain = (lost none_ (.copyBack 9 0 7 0)).chain ∧
    (after (.copyBackDone here src true) (lost none_ (.copyBack 9 0 7 0))).flash.inFlight = none := by
  refine ⟨canonical_of_check _ (by decide +kernel), ?_⟩
  decide +kernel

/-- R4, R84, R85, R87: the places a refresh marks dirty. An over-run and a replacement with nothing reserved mark none, an
abandonment does (log 42, log 73). -/
theorem test_refresh_marks_its_place_through_the_reservation :
    let s (n : Nat) (op : FlashOp) (page : Nat) : State :=
      withMap (fun m => { m with blocks := Table.put 7 .inUse m.blocks, reserved := n })
        (withPlaces [(1023, { kept with holds := 1, remaining := n, refreshExtent := some [7] })]
          (withChain (fun c => { c with refresh := c.refresh.map fun f => { f with pages := 70 } }) (refreshing op page)))
    let bare (x : State) : State := withMap (fun m => { m with blocks := [(5, .inUse), (6, .inUse), (7, .inUse)] }) x
    let p := FlashOp.program 7 0 []
    let marked (ok : Bool) (x : State) : List Item := (after (.pageProgramDone here ok) x).writer.queue
    let bad : PageRead := { data := [], spare := [], mark := .clear, counts := [.uncorrectable] }
    Canonical (s 0 p 63) ∧ marked true (s 1 p 63) = [.place 1023] ∧ marked true (s 0 p 63) = [] ∧
    ((after (.pageProgramDone here true) (s 0 p 63)).record 1023).map (·.refreshExtent) = some (some [7, 8]) ∧
    marked false (s 1 p 0) = [.badList, .place 1023] ∧ marked false (s 0 p 0) = [.badList] ∧
    marked true (bare (s 0 p 63)) = [.place 1023] ∧ marked false (bare (s 0 p 0)) = [.badList, .place 1023] ∧
    (after (.pageReadDone here bad) (s 0 (.pageRead 5 0) 0)).writer.queue = [.place 1023] ∧
    (after (.refresh here 140) one).writer.queue = [.place 1023] := by
  refine ⟨canonical_of_check _ (by decide +kernel), ?_⟩
  decide +kernel

/-- R173, R181: CLOSE COMMAND DUE and POWER_LOW in EXPOSING with the shutter sensor already closed; R196: a STORED place with a
reservation left. -/
theorem test_witness_closedSensorInExposing :
    let closed : Moment := { here with shutterClosed := true }
    let s : State := withTimers (fun t => { t with shutter := some 15700, frame := some 15700 }) (three .exposing)
    let t := after (.closeCommandDue closed) s
    let low := after (.powerLow closed) s
    let left : State := { fullMemory with memory := { fullMemory.memory with
      places := [(9, .good { kept with remaining := 2 })] } }
    Canonical s ∧ t.shot.state = .interval ∧ (t.record 4).map (·.measured) = some (some 15710) ∧ t.shot.lastLatency = some 0 ∧
    t.store.queue = [88] ∧ low.shot.state = .idle ∧
    (low.record 4).map (fun r => (r.state, r.cause, r.measured)) = some (.failed, some .power, some 15710) ∧
    low.events.has .shotEnded = true ∧ low.store.queue = [] ∧ (after (.reset here) left).writer.queue = [.place 9] := by
  refine ⟨canonical_of_check _ (by decide +kernel), ?_⟩
  decide +kernel

/-- R125: PARK LENS at rest with the home sensor seen, and in PARKING the homing's report before and after the stop. -/
theorem test_witness_HomingAndParkingEndOnTheSensor_park :
    let home : Moment := { here with focusHome := true }
    let on (s : State) : State := { s with lines := { s.lines with park := true } }
    let park (stopped : Bool) : State :=
      withFocus (fun f => { f with state := .unhomed, position := none, homing := some 3190 })
        (withZoom (fun z => { z with stopped := stopped }) (moving .parking 41 .off none))
    let look (s : State) : ZoomState × Drive × ZoomFault × Bool × Bool :=
      (s.zoom.state, s.zoom.drive, s.zoom.lastFault, s.events.has .lensFault, s.events.has .zoomEnded)
    let seen (s : State) : State := after (.focusHomeSensorSeen here) s
    let failed (s : State) : State := after (.focusHomingFailed { here with focusSteps := 10 }) s
    lens.timers.brake = none ∧ lens.focus.homing = none ∧ lens.zoom.drive = .off ∧
    look (after (.parkLens home) (on lens)) = (.parked, .off, .none, false, true) ∧
    look (after (.parkLens home) lens) = (.parking, .wideFull, .none, false, false) ∧
    (after (.parkLens home) lens).zoom.retract = true ∧ (after (.parkLens home) lens).focus.position = some 0 ∧
    look (after (.parkLens home) (park true)) = (.parking, .off, .none, false, false) ∧
    look (seen (park true)) = (.parking, .wideFull, .none, false, false) ∧ (seen (park true)).zoom.retract = true ∧
    look (seen (on (park true))) = (.parked, .off, .none, false, true) ∧ (seen (park true)).focus.state = .idle ∧
    look (failed (park true)) = (.parking, .wideFull, .focusHome, true, false) ∧
    look (failed (on (park true))) = (.parked, .off, .focusHome, true, true) ∧
    (failed (park true)).focus.state = .unhomed ∧ look (seen (park false)) = (.parking, .off, .none, false, false) ∧
    (seen (park false)).zoom.report = some true ∧
    look (failed (park false)) = (.parking, .off, .focusHome, true, false) ∧ (failed (park false)).zoom.report = some false := by
  refine ⟨?_, ?_, ?_, ?_, ?_, ?_, ?_, ?_, ?_, ?_, ?_, ?_, ?_, ?_, ?_, ?_, ?_, ?_, ?_⟩ <;>
    decide +kernel

/-- R132, R138, R142, R144: the moves a scan's next class, a re-scan, FOCUS START and SET DISTANCE order, below the step, on
it and above it. -/
theorem test_witness_ScansSampleEveryClass_visits :
    let body : List Byte := List.replicate 243 0#8
    let at_ (p : Nat) (s : State) : State := withFocus (fun f => { f with position := some p }) s
    let sampled (p : Nat) : State := after (.statistics here body) (at_ p (scanning (scanOf 0 1 0 false) none))
    let look (s : State) : Option FocusMove × Option Bool × Option Nat :=
      (s.focus.move, s.focus.scan.map (·.skip), s.timers.sample)
    let low (p : Nat) : State := after (.statistics here body) (at_ p (withFocus (fun f => { f with
      state := .locked, mode := .follow, follow := 3, held := some (.lock 2 0 100) }) lens))
    let start (p : Nat) : State := after (.focusStart here (some .normal)) (at_ p lens)
    let set (p : Nat) : State := after (.setDistance here 1) (at_ p (withFocus (fun f => { f with mode := .manual }) lens))
    look (sampled 119) = (some { aim := 120, via := none }, some false, none) ∧
    look (sampled 120) = (none, some true, some 0) ∧
    look (sampled 121) = (some { aim := 120, via := some 96 }, some false, none) ∧
    (sampled 121).focus.scan = some (scanOf 0 1 1 false) ∧ (low 100).focus.state = .scanning ∧
    look (low 100) = (none, some true, some 0) ∧ (low 101).focus.move = some { aim := 100, via := some 76 } ∧
    look (start 101) = (some { aim := 100, via := some 76 }, some false, none) ∧ look (start 100) = (none, some true, some 0) ∧
    (set 100).focus.move = some { aim := 120, via := none } ∧ (set 130).focus.move = some { aim := 120, via := some 96 } ∧
    (set 120).focus.move = none ∧ (set 120).focus.lastEnd = .distanceSet := by
  decide +kernel

/-- R145, R147: what a ZOOM TO does to the focus in each state, and a commit to a lock, on and off its station. -/
theorem test_witness_ZoomRequestsAimTheLens_focus :
    let goes (f : Focus → Focus) : Focus × Bool :=
      let t := after (.zoomTo here 3) (withFocus f lens)
      (t.focus, t.events.has .focusEnded)
    let v : FocusMove := { aim := 120, via := none }
    let nearing (d : FocusDest) (f : Focus) : Focus :=
      { f with state := .approaching, move := some v, approach := some { aim := 120, dest := d, owed := true } }
    let f0 : Focus := lens.focus
    let commit (c : Int) (p near : Nat) (h : FocusHeld) : State := after (.commitLensTable here)
      (withFocus (fun f => { f with state := .locked, held := some h, position := some p }) (withZoom (fun z => { z with
        count := some c, staging := (table.map fun e => { e with near := near, cams := [100, 120].take (near + 1) }).map some })
        lens))
    (goes fun f => { f with state := .failedNoPeak }) = ({ f0 with state := .failedNoPeak }, false) ∧
    (goes fun f => { f with state := .manual, held := some (.manual 1) }) =
      ({ f0 with state := .tracking, held := some (.manual 1) }, false) ∧
    (goes fun f => { f with state := .scanning, scan := some (scanOf 0 1 0 false), move := some v }) =
      ({ f0 with lastEnd := .zoomMoved }, true) ∧
    (goes (nearing (.hold (.lock 1 0 9)))) =
      ({ f0 with state := .tracking, held := some (.lock 1 0 9), trackOwed := true }, false) ∧
    (goes (nearing .failed)) = ({ f0 with state := .failedNoPeak, lastEnd := .noPeak }, true) ∧
    (commit 303 130 1 (.lock 1 0 9)).focus.approach = some { aim := 120, dest := .hold (.lock 1 0 9), owed := false } ∧
    (commit 303 130 1 (.lock 1 0 9)).focus.move = some { aim := 120, via := some 96 } ∧
    (commit 303 120 1 (.lock 1 0 9)).focus.state = .locked ∧
    (commit 303 120 0 (.lock 1 0 9)).focus.approach = some { aim := 100, dest := .hold (.lock 0 0 9), owed := false } ∧
    (commit 304 120 0 (.lock 1 0 9)).focus.held = some (.lock 1 0 9) ∧
    (commit 304 120 0 (.lock 1 0 9)).zoom.state = .noTableHold := by
  decide +kernel

/-- R68: ABANDON of the bound record and of a waiting one: reservation, blocks, and the place marked dirty. -/
theorem test_witness_AbandonAndDroppedBlocks_map :
    let s : State := withPlaces [(4, rec 88 .storing), (5, { rec 89 .awaiting with extent := [], remaining := 1 })]
      (withStore (fun e => { e with queue := [88, 89], stream := .opened }) (withMap (fun m => { m with reserved := 3 }) store0))
    let t : State := after (.abandon here 88) s
    let w : State := after (.abandon here 89) s
    Canonical s ∧ s.map.stateOf 5 = .inUse ∧ t.map.reserved = 1 ∧ t.map.stateOf 5 = .dirty (.begins 4) ∧
    t.map.stateOf 6 = .dirty (.begins 4) ∧ t.writer.queue = [.place 4] ∧ w.map.reserved = 2 ∧ w.map.stateOf 5 = .inUse ∧
    w.writer.queue = [.place 5] ∧ w.store.queue = [88] := by
  refine ⟨canonical_of_check _ (by decide +kernel), ?_⟩
  decide +kernel

/-- R58, R69: a discarded result while a new picture's page waits: page 0 with its block, a page within a position, OVERSIZE
and NO_SPACE. -/
theorem test_witness_StoreProgramsPassOrRecover_discarded :
    let s (i : Nat) (bs : List Nat) : State :=
      let x := withPlaces [(4, { rec 88 .storing with extent := bs })] (withStore (fun e => { e with
        pageIndex := i, fullOrder := [.b], bufA := { state := .programming, data := [] }
        bufB := { state := .full, data := [9#8] } }) opened)
      { x with flash := { x.flash with
        inFlight := some { claimant := .store, op := .program 9 1 [], cycles := 4, discard := true } } }
    let done (x : State) : State := after (.pageProgramDone here false) x
    let asked (x : State) : Option (Nat × Nat × List Byte) := match (done x).flash.store with
      | some (.program b g d) => some (b, g, d)
      | _ => none
    let bare (x : State) : State := withMap (fun m => { m with blocks := [(5, .inUse), (6, .inUse)], reserved := 0 }) x
    Canonical (s 0 []) ∧ asked (s 0 []) = some (7, 0, [9#8]) ∧ ((done (s 0 [])).record 4).map (·.extent) = some [7] ∧
    (done (s 0 [])).writer.queue = [.place 4] ∧ (done (s 0 [])).store.bufA.state = .empty ∧
    asked (s 65 [5, 6]) = some (6, 1, [9#8]) ∧ ((done (s 3072 [5, 6])).record 4).map (·.cause) = some (some .oversize) ∧
    ((done (bare (s 0 []))).record 4).map (·.cause) = some (some .noSpace) := by
  refine ⟨canonical_of_check _ (by decide +kernel), ?_⟩
  decide +kernel

/-- R172 to R174, R163: an exposure time of 244 µs below the learned delay with the sensor reading closed, at TRIGGER, at the
end of an iris move and at the next frame; the session's outcome and peak after a timeout. -/
theorem test_witness_ExposuresCloseOrTimeOut_atOnce :
    let closed : Moment := { here with shutterClosed := true }
    let quick (s : State) : State := withSteady (fun y => { y with state := .active, pitch := { y.pitch with target := -7 } })
      (withShot (fun x => { x with burst := x.burst.map fun b => { b with tv := 36 } }) s)
    let look (p : Nat) (s : State) : ShotState × Option (RecState × Option Nat × Option SteadyOutcome × Option Nat) :=
      (s.shot.state, (s.record p).map fun r => (r.state, r.measured, r.steady, r.peakShift))
    let s (n count : Nat) : State := quick (withTimers (fun t => { t with shutter := some 16000, frame := some 249990 })
      (withShot (fun x => { x with
        burst := x.burst.map fun b => { b with next := n, count := count }
        exposure := x.exposure.map fun e => { e with closedAt := some 9000 } }) (three .closing)))
    let slow : State := withSteady (fun y => { y with
      state := .hold, session := some { outcome := .steady, peak := 9, clipSeen := true } })
      (withTimers (fun t => { t with confirm := some 49990 }) (s 2 3))
    exposureTime 36 = 244 ∧ (shooting .armed (.at 11)).shot.learned = 5000 ∧
    look 4 (after (.trigger closed) (quick (shooting .armed (.at 11)))) = (.idle, some (.awaiting, some 0, some .steady, some 7)) ∧
    look 4 (after (.irisMoveComplete closed) (quick (shooting .preparing (.moving 11)))) =
      (.idle, some (.awaiting, some 0, some .steady, some 7)) ∧
    look 4 (after (.trigger here) (quick (shooting .armed (.at 11)))) = (.closing, some (.exposing, none, none, none)) ∧
    look 5 (after (.shutterClosed here) (s 2 3)) = (.interval, some (.awaiting, some 0, some .steady, some 7)) ∧
    (after (.shutterClosed here) (s 2 3)).store.queue = [88, 89] ∧
    look 5 (after (.shutterClosed here) (s 2 2)) = (.idle, some (.awaiting, some 0, some .steady, some 7)) ∧
    (after (.shutterClosed here) (s 2 2)).events.has .burstEnded = true ∧
    look 4 (after (.shutterTimeout here) slow) = (.fault, some (.failed, none, some .clipped, some 9)) ∧
    (after (.shutterTimeout here) slow).steady.state = .active ∧ (after (.shutterTimeout here) slow).steady.session = none := by
  refine ⟨?_, ?_, ?_, ?_, ?_, ?_, ?_, ?_, ?_, ?_, ?_, ?_⟩ <;>
    decide +kernel

/-- Pictures 88 and 89 in the queue, 88 in ENDING with its end and a PICTURE_START held. -/
def ending (rest : List Nat) : State :=
  withPlaces [(4, rec 88 .storing), (5, { rec 89 .awaiting with extent := [], remaining := 0 })]
    (withStore (fun e => { e with
      queue := 88 :: rest, stream := .ending, heldStart := true, received := 5000, check := 7#32
      heldEnd := some { length := 5000, check := checkValue 7#32, width := 64, height := 48 } }) store0)

/-- What is left of a held start: the stream, the start still held, the queue, both records, STORE_FAILED. -/
structure Left where
  /-- the stream -/
  stream : Stream
  /-- a start is held -/
  held : Bool
  /-- the pending store queue -/
  queue : List Nat
  /-- the records in places 4 and 5 -/
  records : List (Option RecState)
  /-- STORE_FAILED is set -/
  flag : Bool
deriving DecidableEq, Repr

/-- What a command leaves of a held start. -/
def bound (c : Instr) (s : State) : Left :=
  let t := after c s
  { stream := t.store.stream, held := t.store.heldStart, queue := t.store.queue
    records := [4, 5].map fun p => (t.record p).map (·.state), flag := t.events.has .storeFailed }

/-- R55, R63, R64: END TAKEN with a start held, on a queue with another record and without one, a grown mark owed or not. -/
theorem test_witness_PictureEndsAreHeldAndTaken_held :
    let owed : State := withStore (fun e => { e with marks := [9, 10] }) (ending [89])
    let w : State := ending [89]
    let stored := some RecState.stored
    Canonical w ∧ w.store.bufA.state = .empty ∧ w.store.fullOrder = [] ∧ w.store.heldStart = true ∧
    findNumber 88 w.cat.places = some (4, rec 88 .storing) ∧ (findNumber 89 w.cat.places).map (·.1) = some 5 ∧
    w.flash.free .store = true ∧ w.store.recovery = none ∧ w.shot.state ≠ .queueWait ∧
    bound (.endTaken here) w = ⟨.opened, false, [89], [stored, some .storing], false⟩ ∧
    bound (.endTaken here) (ending []) = ⟨.closed, false, [], [stored, some .awaiting], true⟩ ∧
    bound (.endTaken here) owed = ⟨.opened, false, [89], [stored, some .storing], false⟩ ∧
    (after (.endTaken here) owed).store.marks = [10] ∧ (after (.endTaken here) owed).flash.store = some (.grownMark 9) ∧
    (after (.endTaken here) w).timers.data = some 0 :=
  ⟨canonical_of_check _ (by decide +kernel), by decide +kernel⟩

/-- R63, R65, R66, R68: PICTURE ABORT and an end that does not agree, with a start held. -/
theorem test_witness_FailedPicturesGiveBackTheirBlocks_held :
    let bad (rest : List Nat) : State := withStore (fun e => { e with check := 8#32 }) (ending rest)
    let failed := some RecState.failed
    (ending [89]).store.stream ≠ .closed ∧ ((ending [89]).arrive here).lane = .hunting ∧
    bound (.pictureAbort here) (ending [89]) = ⟨.opened, false, [89], [failed, some .storing], true⟩ ∧
    bound (.pictureAbort here) (ending []) = ⟨.closed, false, [], [failed, some .awaiting], true⟩ ∧
    bound (.endTaken here) (bad [89]) = ⟨.opened, false, [89], [failed, some .storing], true⟩ ∧
    bound (.endTaken here) (bad []) = ⟨.closed, false, [], [failed, some .awaiting], true⟩ ∧
    (after (.endTaken here) (bad [89])).writer.queue = [.place 4, .place 5] := by
  decide +kernel

/-- R63, R67: ABANDON of the bound record and of the one behind it, with a start held. -/
theorem test_witness_AbandonAndDroppedBlocks_held :
    let failed := some RecState.failed
    Taking (ending [89]) ∧ (ending [89]).store.queue.head? ≠ some 89 ∧
    bound (.abandon here 88) (ending [89]) = ⟨.opened, false, [89], [failed, some .storing], true⟩ ∧
    bound (.abandon here 88) (ending []) = ⟨.closed, false, [], [failed, some .awaiting], true⟩ ∧
    bound (.abandon here 89) (ending [89]) = ⟨.ending, true, [88], [some .storing, failed], true⟩ := by
  decide +kernel

/-- R59, R63: OVERSIZE and NO_SPACE in ENDING with a start held: at the next full page, in a recovery, after a grown mark and
after a discarded result. -/
theorem test_witness_StoreProgramsPassOrRecover_held :
    let failed := some RecState.failed
    let page : StoreEngine → StoreEngine := fun e => { e with
      pageIndex := 3071, fullOrder := [.b], bufA := { state := .programming, data := [] }
      bufB := { state := .full, data := [9#8] } }
    let s (rest : List Nat) (op : FlashOp) : State := flying .store op (withStore page (ending rest))
    let dry (x : State) : State := withMap (fun m => { m with blocks := [(5, .inUse), (6, .inUse)] }) x
    let at0 (x : State) : State := withStore (fun e => { e with pageIndex := 0 }) x
    let late (x : State) : State := { withStore (fun e => { e with pageIndex := 3072 }) x with
      flash := { x.flash with inFlight := x.flash.inFlight.map fun y => { y with discard := true } } }
    let mark (x : State) : State := withStore (fun e => { e with pageIndex := 3072 }) x
    let p := FlashOp.program 5 63 []
    Canonical (s [89] p) ∧ (s [89] p).store.queue.tail = 89 :: [] ∧ (s [89] p).store.queue.head? ≠ some 89 ∧
    bound (.pageProgramDone here true) (s [89] p) = ⟨.opened, false, [89], [failed, some .storing], true⟩ ∧
    bound (.pageProgramDone here true) (s [] p) = ⟨.closed, false, [], [failed, some .awaiting], true⟩ ∧
    bound (.pageProgramDone here false) (at0 (dry (s [89] p))) = ⟨.opened, false, [89], [failed, some .storing], true⟩ ∧
    (after (.pageProgramDone here false) (at0 (dry (s [89] p)))).flash.store = some (.grownMark 5) ∧
    bound (.grownMarkProgramDone here true) (mark (s [89] (.grownMark 9))) =
      ⟨.opened, false, [89], [failed, some .storing], true⟩ ∧
    bound (.pageProgramDone here true) (late (s [89] p)) = ⟨.opened, false, [89], [failed, some .storing], true⟩ :=
  ⟨canonical_of_check _ (by decide +kernel), by decide +kernel⟩

/-- R63, R177: in QUEUE_WAIT an end taken lets the next frame begin and a held start bind in one step, the bind first
(log 69). -/
theorem test_witness_FramesWaitAndExpose_held :
    let s : State := withStore (fun e => { e with queue := [90, 91, 2, 3, 4, 5, 6, 7], stream := .ending, heldStart := true
                                                  heldEnd := some { length := 1, check := 0#32, width := 1, height := 1 } })
      (withPlaces ((shooting .queueWait (.at 11)).cat.places ++
        [(8, { rec 90 .storing with extent := [] }), (9, { rec 91 .awaiting with extent := [] })])
        (shooting .queueWait (.at 11)))
    let t := after (.endTaken here) s
    s.store.heldStart = true ∧ ([91, 2, 3, 4, 5, 6, 7] : List Nat).head? ≠ some 88 ∧ t.shot.state = .exposing ∧
    (t.record 4).map (·.state) = some .exposing ∧ (t.record 9).map (·.state) = some .storing ∧ t.store.stream = .opened ∧
    t.writer.queue = [.place 8, .place 9, .place 4] := by
  decide +kernel

/-- R38: a state that holds the law of the reserved total, and one of each claim on it. -/
theorem test_witness_AllocationTakesTheNextErasedBlock_reserved :
    let total (s : State) : Nat × Nat := (s.map.reserved, (s.cat.places.map (·.2.remaining)).sum)
    let s : State := withMap (fun m => { m with blocks := Table.put 7 .inUse m.blocks, reserved := 3 })
      (withPlaces [(4, rec 88 .storing), (1023, { kept with holds := 1, remaining := 1, refreshExtent := some [7] })]
        (withStore (fun e => { e with queue := [88] }) (refreshing (.program 7 0 []) 0)))
    let still : State := withMap (fun m => { m with reserved := 0 }) (withPlaces [(1023, kept)] store0)
    let armed : State := withMap (fun m => { m with reserved := 0 }) (withPlaces [] armable)
    let x : EndFields := { length := 1, check := 0#32, width := 1, height := 1 }
    Canonical s ∧ ReservedLawful s ∧ armed.shot.setup.count ≤ freePlaces armed ∧ lowestFree s.cat.places = some 0 ∧
    armed.meter.exposure = none ∧ still.record 1023 = some kept ∧ kept.remaining = 0 ∧
    total (s.freePlace 4) = (1, 1) ∧ total (s.failPlace 4 .aborted) = (1, 1) ∧ total (s.storeStored x 88) = (1, 1) ∧
    total (s.allocateFor 4 PicRecord.appendExtent).1 = (2, 2) ∧
    total (s.allocateFor 1023 PicRecord.appendRefresh).1 = (2, 2) ∧ total (s.replaceBlock 4 0 5 false).1 = (2, 2) ∧
    total s.refreshComplete = (2, 2) ∧ total (s.refreshDrop false) = (2, 2) ∧
    total (still.refreshStart 1023 kept) = (1, 1) ∧ total s.prepareBegin = (0, 0) ∧
    total (s.resetPart .resetLine) = (0, 0) :=
  ⟨canonical_of_check _ (by decide +kernel), by unfold ReservedLawful; decide +kernel, by decide +kernel⟩

end Sys2Proof.Tests
end

section
/-! PROOFS. R36: the five counts of the Block Map, block by block, and the law that a block is IN_USE exactly when one
list of one record holds it, through every claim. -/

namespace Sys2Proof.Machine

/-! ### Counting a canonical table -/

theorem Table.keys_nodup {ok : α → Bool} {t : List (Nat × α)} (h : Table.wf ok t = true) : (t.map Prod.fst).Nodup := by
  induction t with
  | nil => exact List.nodup_nil
  | cons e t ih =>
    obtain ⟨j, w⟩ := e
    obtain ⟨-, hrise, hw⟩ := (Table.wf_cons ok j w t).mp h
    refine List.nodup_cons.mpr ⟨fun hj => ?_, ih hw⟩
    obtain ⟨x, hx, hxj⟩ := List.mem_map.mp hj
    exact absurd (hrise x hx) (by simp [hxj])

theorem Table.ok_of_mem {ok : α → Bool} {t : List (Nat × α)} (h : Table.wf ok t = true) : ∀ e ∈ t, ok e.2 = true := by
  induction t with
  | nil => simp
  | cons e t ih =>
    obtain ⟨j, w⟩ := e
    obtain ⟨hv, -, hw⟩ := (Table.wf_cons ok j w t).mp h
    exact List.forall_mem_cons.mpr ⟨hv, ih hw⟩

/-- The blocks below the block total whose state `f` accepts, counted one by one. -/
def BlockMap.countOf (f : BlockState → Bool) (m : BlockMap) : Nat :=
  ((List.range m.total).filter fun b => f (m.stateOf b)).length

/-- UNCHECKED apart, a block in a state is a listed entry with that state. -/
theorem BlockMap.countOf_eq_listed {m : BlockMap} (h : mapOk m) {f : BlockState → Bool} (hf : f .unchecked = false) :
    m.countOf f = (m.blocks.filter fun e => f e.2).length := by
  have hperm : ((List.range m.total).filter fun b => f (m.stateOf b)).Perm
      ((m.blocks.filter fun e => f e.2).map Prod.fst) := by
    refine (List.perm_ext_iff_of_nodup (List.nodup_range.filter _)
      ((Table.keys_nodup h.1.1).sublist (List.filter_sublist.map _))).mpr fun b => ?_
    simp only [List.mem_filter, List.mem_range, List.mem_map, Prod.exists, exists_and_right, exists_eq_right]
    constructor
    · rintro ⟨-, hb⟩
      unfold BlockMap.stateOf at hb
      cases hg : Table.get b m.blocks with
      | none => simp [hg, hf] at hb
      | some x => exact ⟨x, Table.get_mem hg, by simpa [hg] using hb⟩
    · rintro ⟨x, hx, hfx⟩
      exact ⟨h.1.2 _ hx, by simpa [BlockMap.stateOf, Table.get_of_mem h.1.1 hx] using hfx⟩
  simpa [BlockMap.countOf] using hperm.length_eq

/-- Every known block is in a state that `f` accepts or in one that it does not. -/
theorem BlockMap.countOf_add_not (m : BlockMap) (f : BlockState → Bool) :
    m.countOf f + m.countOf (fun x => !f x) = m.total := by
  have hsplit := List.length_eq_countP_add_countP (fun b => f (m.stateOf b)) (l := List.range m.total)
  simp only [List.length_range, List.countP_eq_length_filter, Bool.not_eq_true, Bool.decide_eq_false] at hsplit
  exact hsplit.symm

theorem BlockMap.uncheckedCount_eq {m : BlockMap} (h : mapOk m) : m.uncheckedCount = m.countOf (· == .unchecked) := by
  have hlisted : m.countOf (fun x => !(x == .unchecked)) = m.blocks.length :=
    (BlockMap.countOf_eq_listed h rfl).trans (congrArg List.length (List.filter_eq_self.mpr (Table.ok_of_mem h.1.1)))
  have hall := m.countOf_add_not (· == .unchecked)
  unfold BlockMap.uncheckedCount
  omega

theorem BlockState.isDirty_iff (x : BlockState) : x.isDirty = true ↔ ∃ w, x = .dirty w := by
  cases x <;> simp [BlockState.isDirty]

/-- Each listed entry is ERASED, IN_USE, DIRTY or BAD. -/
theorem BlockMap.listed_counts {m : BlockMap} (h : mapOk m) :
    m.erasedCount + m.inUseCount + m.dirtyCount + m.badCount = m.blocks.length := by
  have hok := Table.ok_of_mem h.1.1
  unfold BlockMap.erasedCount BlockMap.inUseCount BlockMap.dirtyCount BlockMap.badCount
  generalize m.blocks = l at hok
  induction l with
  | nil => rfl
  | cons e l ih =>
    obtain ⟨b, x⟩ := e
    obtain ⟨hx, hl⟩ := List.forall_mem_cons.mp hok
    have := ih hl
    cases x <;> simp [BlockState.isDirty_iff] at hx ⊢ <;> omega

theorem BlockMap.counts_sum {m : BlockMap} (h : mapOk m) :
    m.erasedCount + m.inUseCount + m.dirtyCount + m.uncheckedCount + m.badCount = m.total := by
  have hlisted := BlockMap.listed_counts h
  have hle := Table.length_le h.1
  unfold BlockMap.uncheckedCount
  omega

theorem BlockState.cases_of (x : BlockState) :
    x = .erased ∨ x = .inUse ∨ (∃ w, x = .dirty w) ∨ x = .unchecked ∨ x = .bad := by
  cases x <;> simp

/-! ### The Block Map's operations, read by IN_USE -/

/-- A return takes its blocks out of use and no others (R39). -/
theorem BlockMap.returnAll_inUse_iff {m : BlockMap} (h : mapOk m) (w : ReturnWait) (bs : List Nat) (j : Nat) :
    (m.returnAll w bs).stateOf j = .inUse ↔ m.stateOf j = .inUse ∧ j ∉ bs := by
  induction bs generalizing m with
  | nil => simp [BlockMap.returnAll]
  | cons b bs ih =>
    have hstep : (m.returnOne w b).stateOf j = .inUse ↔ m.stateOf j = .inUse ∧ j ≠ b := by
      rw [BlockMap.returnOne_state h]
      by_cases hj : j = b
      · subst hj
        by_cases hi : m.stateOf j = .inUse <;> simp [hi]
      · simp [hj]
    have hrest := ih (m := m.returnOne w b) (BlockMap.returnAll_ok h w [b])
    calc (m.returnAll w (b :: bs)).stateOf j = .inUse
        ↔ ((m.returnOne w b).returnAll w bs).stateOf j = .inUse := Iff.rfl
      _ ↔ (m.stateOf j = .inUse ∧ j ≠ b) ∧ j ∉ bs := by rw [hrest, hstep]
      _ ↔ m.stateOf j = .inUse ∧ j ∉ b :: bs := by simp [and_assoc]

@[simp] theorem BlockMap.release_stateOf (n : Nat) (m : BlockMap) (b : Nat) : (m.release n).stateOf b = m.stateOf b := rfl

theorem erasedFrom_mem {start b : Nat} {t : List (Nat × BlockState)} (h : erasedFrom start t = some b) :
    (b, BlockState.erased) ∈ t := by
  induction t with
  | nil => cases h
  | cons e t ih =>
    obtain ⟨j, x⟩ := e
    simp only [erasedFrom] at h
    split at h
    · rename_i hx
      cases h
      simp [hx.2]
    · exact List.mem_cons_of_mem _ (ih h)

theorem BlockMap.nextErased_erased {m : BlockMap} (h : mapOk m) {b : Nat} (hb : m.nextErased = some b) :
    m.stateOf b = .erased := by
  have hmem : (b, BlockState.erased) ∈ m.blocks := by
    unfold BlockMap.nextErased at hb
    split at hb
    · rename_i c hc
      cases hb
      exact erasedFrom_mem hc
    · exact erasedFrom_mem hb
  simp [BlockMap.stateOf, Table.get_of_mem h.1.1 hmem]

/-- An allocation turns one ERASED block IN_USE and leaves every other block's state (R37). -/
theorem BlockMap.allocate_states {m m' : BlockMap} (h : mapOk m) {n b : Nat} (ha : m.allocate n = some (b, m')) :
    m.stateOf b = .erased ∧ ∀ j, m'.stateOf j = if j = b then .inUse else m.stateOf j := by
  unfold BlockMap.allocate at ha
  split at ha
  · split at ha
    · rename_i c hc
      cases ha
      have herased := BlockMap.nextErased_erased h hc
      exact ⟨herased, BlockMap.stateOf_setState h (BlockMap.listed_lt h (by simp [herased])) .inUse⟩
    · cases ha
  · cases ha

/-- A block set to another state than IN_USE is out of use; the others stay as they are. -/
theorem BlockMap.setState_inUse_iff {m : BlockMap} (h : mapOk m) {b : Nat} {v : BlockState} (hv : v ≠ .inUse) (j : Nat) :
    (m.setState b v).stateOf j = .inUse ↔ m.stateOf j = .inUse ∧ j ≠ b := by
  by_cases hb : b < m.total
  · rw [BlockMap.stateOf_setState h hb]
    by_cases hj : j = b <;> simp [hj, hv]
  · have hsame : m.setState b v = m := if_neg hb
    have hne : m.stateOf b ≠ .inUse := fun hu => hb (BlockMap.listed_lt h (by simp [hu]))
    rw [hsame]
    exact ⟨fun hj => ⟨hj, fun e => hne (e ▸ hj)⟩, And.left⟩

/-! ### What the claims' parts leave alone -/

variable {q : List Instr} {s t : State}

@[simp] theorem State.makeBad_cat (s : State) (b : Nat) (k : BadKind) : (s.makeBad b k).cat = s.cat := by
  unfold State.makeBad
  dsimp only
  (repeat' split) <;> rfl

@[simp] theorem State.makeBad_stateOf (s : State) (b : Nat) (k : BadKind) (j : Nat) :
    (s.makeBad b k).map.stateOf j = (s.map.setState b .bad).stateOf j := by
  unfold State.makeBad
  dsimp only
  (repeat' split) <;> rfl

@[simp] theorem State.flashWithdraw_cat_map (s : State) (c : Claimant) :
    (s.flashWithdraw c).cat = s.cat ∧ (s.flashWithdraw c).map = s.map := by
  unfold State.flashWithdraw
  split <;> simp

@[simp] theorem State.flashDiscard_cat_map (s : State) (c : Claimant) :
    (s.flashDiscard c).cat = s.cat ∧ (s.flashDiscard c).map = s.map := ⟨rfl, rfl⟩

@[simp] theorem State.flashFollowMode_cat_map (s : State) :
    s.flashFollowMode.cat = s.cat ∧ s.flashFollowMode.map = s.map := by
  unfold State.flashFollowMode
  split <;> simp

@[simp] theorem State.refreshOver_cat_map (s : State) : s.refreshOver.cat = s.cat ∧ s.refreshOver.map = s.map := by
  simp [State.refreshOver]

@[simp] theorem State.refreshMarkNext_cat_map (s : State) :
    s.refreshMarkNext.cat = s.cat ∧ s.refreshMarkNext.map = s.map := by
  unfold State.refreshMarkNext
  split <;> simp [State.flashAsk]

@[simp] theorem State.backgroundDrop_cat (s : State) : s.backgroundDrop.cat = s.cat := by
  simp [State.backgroundDrop]

theorem Kept.record_of_number (h : Kept q s) {n p : Nat} {r : PicRecord}
    (hr : findNumber n s.cat.places = some (p, r)) : s.record p = some r :=
  Table.get_of_mem h.places.1 (findNumber_mem hr).1

theorem Kept.record_of_refresh (h : Kept q s) {p : Nat} {r : PicRecord} (hr : refreshRecord s = some (p, r)) :
    s.record p = some r := by
  unfold refreshRecord at hr
  split at hr
  · exact h.record_of_number hr
  · cases hr

/-! ### The blocks of one place and of the others -/

/-- The blocks that stand in the records at places other than `p`. -/
def otherBlocks (p : Nat) (s : State) : List Nat := (Table.erase p s.cat.places).flatMap fun e => e.2.heldBlocks

theorem Kept.heldBlocks_of_record (h : Kept q s) {p : Nat} {r : PicRecord} (hr : s.record p = some r) :
    (heldBlocks s).Perm (r.heldBlocks ++ otherBlocks p s) := Table.flatMap_erase PicRecord.heldBlocks h.places.1 hr

theorem heldBlocks_of_free {p : Nat} (hr : s.record p = none) : heldBlocks s = otherBlocks p s :=
  congrArg (List.flatMap fun e : Nat × PicRecord => e.2.heldBlocks) (Table.erase_of_get hr).symm

theorem Kept.heldBlocks_of_put (h : Kept q s) {p : Nat} {r : PicRecord}
    (ht : t.cat.places = Table.put p r s.cat.places) : (heldBlocks t).Perm (r.heldBlocks ++ otherBlocks p s) := by
  unfold heldBlocks
  rw [ht]
  exact Table.flatMap_put PicRecord.heldBlocks p r h.places.1

theorem heldBlocks_of_erase {p : Nat} (ht : t.cat.places = Table.erase p s.cat.places) :
    heldBlocks t = otherBlocks p s := by
  unfold heldBlocks otherBlocks
  rw [ht]

theorem newRecord_heldBlocks (n k : Nat) (a : ArmFields) : (newRecord n a k).heldBlocks = [] := rfl

theorem PicRecord.failedWith_heldBlocks (c : FailCause) (r : PicRecord) : (r.failedWith c).heldBlocks = [] := rfl

/-! ### The law through an exchange of blocks -/

theorem BlocksLawful.of_same (hl : BlocksLawful s) (hc : t.cat = s.cat) (hm : t.map = s.map) : BlocksLawful t := by
  unfold BlocksLawful heldBlocks
  rw [hc, hm]
  exact hl

/-- A claim takes the blocks `gone` off the records and puts `fresh` ones on, the rest stands: the law is kept when the
Block Map takes just `gone` out of use and just `fresh` into use. -/
theorem BlocksLawful.exchange (hl : BlocksLawful s) {gone fresh rest : List Nat}
    (hold : (heldBlocks s).Perm (gone ++ rest)) (hnew : (heldBlocks t).Perm (fresh ++ rest)) (hnodup : fresh.Nodup)
    (hfresh : ∀ b ∈ fresh, b ∉ heldBlocks s)
    (hstate : ∀ b, t.map.stateOf b = .inUse ↔ b ∈ fresh ∨ (s.map.stateOf b = .inUse ∧ b ∉ gone)) : BlocksLawful t := by
  obtain ⟨hn, hu⟩ := hl
  obtain ⟨-, hrest, hapart⟩ := List.nodup_append.mp (hold.nodup_iff.mp hn)
  have hin : ∀ b, b ∈ heldBlocks s ↔ b ∈ gone ∨ b ∈ rest := fun b => hold.mem_iff.trans List.mem_append
  refine ⟨hnew.nodup_iff.mpr (List.nodup_append.mpr ⟨hnodup, hrest, ?_⟩), fun b => ?_⟩
  · rintro b hb c hc rfl
    exact hfresh b hb ((hin b).mpr (.inr hc))
  · have hkept : (b ∈ gone ∨ b ∈ rest) ∧ b ∉ gone ↔ b ∈ rest :=
      ⟨fun ⟨hb, hg⟩ => hb.resolve_left hg, fun hr => ⟨.inr hr, fun hg => hapart b hg b hr rfl⟩⟩
    rw [hstate, hu, hin, hkept, hnew.mem_iff, List.mem_append]

/-- The exchange within the record at one place. -/
theorem BlocksLawful.exchange_at (hl : BlocksLawful s) (h : Kept q s) {p : Nat} {r r' : PicRecord}
    (hr : s.record p = some r) (ht : t.cat.places = Table.put p r' s.cat.places) {gone fresh rest : List Nat}
    (hold : r.heldBlocks.Perm (gone ++ rest)) (hnew : r'.heldBlocks.Perm (fresh ++ rest)) (hnodup : fresh.Nodup)
    (hfresh : ∀ b ∈ fresh, b ∉ heldBlocks s)
    (hstate : ∀ b, t.map.stateOf b = .inUse ↔ b ∈ fresh ∨ (s.map.stateOf b = .inUse ∧ b ∉ gone)) : BlocksLawful t := by
  refine hl.exchange (gone := gone) (fresh := fresh) (rest := rest ++ otherBlocks p s) ?_ ?_ hnodup hfresh hstate
  · simpa using (h.heldBlocks_of_record hr).trans (hold.append_right _)
  · simpa using (h.heldBlocks_of_put ht).trans (hnew.append_right _)

/-- A claim that only gives blocks of a record back. -/
theorem BlocksLawful.return_at (hl : BlocksLawful s) (h : Kept q s) {p : Nat} {r r' : PicRecord}
    (hr : s.record p = some r) (ht : t.cat.places = Table.put p r' s.cat.places) {gone : List Nat}
    (hheld : r.heldBlocks.Perm (gone ++ r'.heldBlocks))
    (hstate : ∀ b, t.map.stateOf b = .inUse ↔ s.map.stateOf b = .inUse ∧ b ∉ gone) : BlocksLawful t :=
  hl.exchange_at h hr ht (fresh := []) hheld (.refl _) List.nodup_nil (by simp) (by simpa using hstate)

/-- A block that the Block Map has outside use stands in no record. -/
theorem BlocksLawful.not_held (hl : BlocksLawful s) {b : Nat} {v : BlockState} (hb : s.map.stateOf b = v)
    (hv : v ≠ .inUse) : b ∉ heldBlocks s := fun hm => hv (hb.symm.trans ((hl.2 b).mpr hm))

/-! ### Records freed, failed and created -/

theorem State.freePlace_places (s : State) (p : Nat) : (s.freePlace p).cat.places = Table.erase p s.cat.places := by
  unfold State.freePlace
  split
  · rename_i hr
    exact (Table.erase_of_get hr).symm
  · simp

theorem State.freePlace_blocksLawful (h : Kept q s) (hl : BlocksLawful s) (p : Nat) : BlocksLawful (s.freePlace p) := by
  cases hr : s.record p with
  | none => exact hl.of_same (by simp [State.freePlace, hr]) (by simp [State.freePlace, hr])
  | some r =>
    have hrel := BlockMap.release_ok h.map r.remaining
    refine hl.exchange (gone := r.heldBlocks) (fresh := []) (h.heldBlocks_of_record hr)
      (.of_eq (heldBlocks_of_erase (s.freePlace_places p))) List.nodup_nil (by simp) fun b => ?_
    simp only [State.freePlace, hr, State.markDirty_frame, State.dropRecord_frame, State.onMap_map]
    rw [BlockMap.returnAll_inUse_iff (BlockMap.returnAll_ok hrel _ _), BlockMap.returnAll_inUse_iff hrel]
    simp [PicRecord.heldBlocks, and_assoc]

theorem State.failPlace_blocksLawful (h : Kept q s) (hl : BlocksLawful s) {p : Nat}
    (hno : ∀ r, s.record p = some r → r.refreshExtent = none) (c : FailCause) : BlocksLawful (s.failPlace p c) := by
  cases hr : s.record p with
  | none => exact hl.of_same (by simp [State.failPlace, hr]) (by simp [State.failPlace, hr])
  | some r =>
    refine hl.return_at h hr (r' := r.failedWith c) (gone := r.extent) (by simp [State.failPlace, hr]) ?_ fun b => ?_
    · rw [PicRecord.failedWith_heldBlocks]
      simp [PicRecord.heldBlocks, hno r hr]
    · simp only [State.failPlace, hr, State.claim_frame, State.onMap_map]
      exact BlockMap.returnAll_inUse_iff (BlockMap.release_ok h.map _) _ _ b

theorem State.createRecord_blocksLawful (h : Kept q s) (hl : BlocksLawful s) (a : ArmFields) (n : Nat) :
    BlocksLawful (s.createRecord a n).1 := by
  unfold State.createRecord
  split
  · exact hl
  · rename_i p hp
    have hfree : heldBlocks s = otherBlocks p s := heldBlocks_of_free (lowestFree_spec hp).2
    exact hl.exchange (gone := []) (fresh := []) (rest := otherBlocks p s) (.of_eq hfree)
      (h.heldBlocks_of_put (r := newRecord _ a n) rfl) List.nodup_nil (by simp) (by simp)

/-! ### Allocation and replacement -/

/-- An allocation whose block is added to the record's lists (R37). -/
theorem State.allocateFor_blocksLawful (h : Kept q s) (hl : BlocksLawful s) {p b : Nat} {r : PicRecord}
    {place : Nat → PicRecord → PicRecord} (hr : s.record p = some r) (ha : s.allocateFor p place = (t, some b))
    (hplace : (place b { r with remaining := r.remaining - 1 }).heldBlocks.Perm (b :: r.heldBlocks)) :
    BlocksLawful t ∧ b ∈ heldBlocks t := by
  obtain ⟨x, m, hx, hm, rfl⟩ := State.allocateFor_some ha
  cases hr.symm.trans hx
  obtain ⟨herased, hstates⟩ := BlockMap.allocate_states h.map hm
  have hlaw : BlocksLawful ({ s with map := m }.claimChanged p r (place b { r with remaining := r.remaining - 1 })) := by
    refine hl.exchange_at h hr (gone := []) (fresh := [b]) (by simp) (.refl _) hplace (List.pairwise_singleton _ b)
      (by simpa using hl.not_held herased (by simp)) fun j => ?_
    simp only [State.claimChanged_frame, hstates]
    by_cases hj : j = b <;> simp [hj]
  exact ⟨hlaw, (hlaw.2 b).mp (by simp [State.claimChanged_frame, hstates])⟩

theorem PicRecord.appendExtent_heldBlocks (b n : Nat) (r : PicRecord) :
    (PicRecord.appendExtent b { r with remaining := n }).heldBlocks.Perm (b :: r.heldBlocks) := by
  simp [PicRecord.appendExtent, PicRecord.heldBlocks]

theorem PicRecord.appendRefresh_heldBlocks (b n : Nat) {r : PicRecord} (hr : r.refreshExtent ≠ none) :
    (PicRecord.appendRefresh b { r with remaining := n }).heldBlocks.Perm (b :: r.heldBlocks) := by
  obtain ⟨ns, hns⟩ := Option.ne_none_iff_exists'.mp hr
  simpa [PicRecord.appendRefresh, PicRecord.heldBlocks, hns] using
    List.perm_middle (a := b) (l₁ := r.extent ++ ns) (l₂ := [])

/-- The list of a record that a replacement claim changes. -/
def PicRecord.list (inRefresh : Bool) (r : PicRecord) : List Nat :=
  if inRefresh then r.refreshExtent.getD [] else r.extent

/-- The blocks of the list that a replacement does not change. -/
def PicRecord.otherList (inRefresh : Bool) (r : PicRecord) : List Nat :=
  if inRefresh then r.extent else r.refreshExtent.getD []

theorem PicRecord.heldBlocks_lists (inRefresh : Bool) (r : PicRecord) :
    r.heldBlocks.Perm (r.list inRefresh ++ r.otherList inRefresh) := by
  cases inRefresh with
  | false => exact .refl _
  | true => exact List.perm_append_comm

/-- A change that keeps the empty list empty reaches the list it names alone. -/
theorem PicRecord.onList_heldBlocks (inRefresh : Bool) {f : List Nat → List Nat} (hf : f [] = []) (r : PicRecord) :
    (r.onList inRefresh f).heldBlocks.Perm (f (r.list inRefresh) ++ r.otherList inRefresh) := by
  cases inRefresh with
  | false => exact .refl _
  | true =>
    have hlist : (r.refreshExtent.map f).getD [] = f (r.refreshExtent.getD []) := by
      cases r.refreshExtent <;> simp [hf]
    simpa [PicRecord.onList, PicRecord.onRefresh, PicRecord.heldBlocks, PicRecord.list, PicRecord.otherList, hlist]
      using List.perm_append_comm

theorem PicRecord.onList_remaining (inRefresh : Bool) (f : List Nat → List Nat) (n : Nat) (r : PicRecord) :
    (PicRecord.onList inRefresh f { r with remaining := n }).heldBlocks = (r.onList inRefresh f).heldBlocks := by
  cases inRefresh <;> rfl

theorem replaceAt_perm {l : List Nat} {i b : Nat} (h : l[i]? = some b) (c : Nat) :
    (replaceAt l i c).Perm (c :: removeAt l i) := by
  induction l generalizing i with
  | nil => simp at h
  | cons x l ih =>
    cases i with
    | zero => exact .refl _
    | succ i => exact ((ih h).cons x).trans (.swap c x _)

theorem removeAt_perm {l : List Nat} {i b : Nat} (h : l[i]? = some b) : l.Perm (b :: removeAt l i) := by
  obtain ⟨hi, rfl⟩ := List.getElem?_eq_some_iff.mp h
  have hsame : replaceAt l i l[i] = l := List.set_getElem_self hi
  exact (List.Perm.of_eq hsame.symm).trans (replaceAt_perm h _)

/-- The failed block stands once in the record, apart from what a closed-up list leaves (R40). -/
theorem PicRecord.heldBlocks_removeAt {inRefresh : Bool} {r : PicRecord} {i b : Nat}
    (hi : (r.list inRefresh)[i]? = some b) :
    r.heldBlocks.Perm (b :: (r.onList inRefresh (removeAt · i)).heldBlocks) :=
  calc r.heldBlocks
    List.Perm _ (r.list inRefresh ++ r.otherList inRefresh) := r.heldBlocks_lists inRefresh
    List.Perm _ (b :: removeAt (r.list inRefresh) i ++ r.otherList inRefresh) := (removeAt_perm hi).append_right _
    List.Perm _ (b :: (r.onList inRefresh (removeAt · i)).heldBlocks) :=
      (PicRecord.onList_heldBlocks inRefresh (f := (removeAt · i)) rfl r).symm.cons b

/-- The new block in the failed block's position: what a closed-up list leaves, and the new block (R40). -/
theorem PicRecord.heldBlocks_replaceAt {inRefresh : Bool} {r : PicRecord} {i b : Nat}
    (hi : (r.list inRefresh)[i]? = some b) (c : Nat) :
    (r.onList inRefresh (replaceAt · i c)).heldBlocks.Perm (c :: (r.onList inRefresh (removeAt · i)).heldBlocks) :=
  calc (r.onList inRefresh (replaceAt · i c)).heldBlocks
    List.Perm _ (replaceAt (r.list inRefresh) i c ++ r.otherList inRefresh) :=
      PicRecord.onList_heldBlocks inRefresh (f := (replaceAt · i c)) rfl r
    List.Perm _ (c :: removeAt (r.list inRefresh) i ++ r.otherList inRefresh) := (replaceAt_perm hi c).append_right _
    List.Perm _ (c :: (r.onList inRefresh (removeAt · i)).heldBlocks) :=
      (PicRecord.onList_heldBlocks inRefresh (f := (removeAt · i)) rfl r).symm.cons c

/-- A replacement makes the failed block BAD and then puts a new block in its position or closes the list up (R40). -/
theorem State.replaceBlock_cases {p : Nat} {r : PicRecord} (hr : s.record p = some r) (i b : Nat) (inRefresh : Bool) :
    (∃ c m, (s.makeBad b .grown).map.allocate r.remaining = some (c, m) ∧
      (s.replaceBlock p i b inRefresh).1 = { s.makeBad b .grown with map := m }.claimChanged p r
        (PicRecord.onList inRefresh (replaceAt · i c) { r with remaining := r.remaining - 1 })) ∨
    (s.replaceBlock p i b inRefresh).1 = (s.makeBad b .grown).claimChanged p r (r.onList inRefresh (removeAt · i)) := by
  have hr' : (s.makeBad b .grown).record p = some r := by simpa [State.record] using hr
  unfold State.replaceBlock
  dsimp only
  split
  · rename_i u c ha
    obtain ⟨x, m, hx, hm, rfl⟩ := State.allocateFor_some ha
    cases hr'.symm.trans hx
    exact .inl ⟨c, m, hm, rfl⟩
  · exact .inr (by rw [hr'])

/-- A replacement claim keeps the law: the failed block is BAD and stands in no list, with a new block or without (R40). -/
theorem State.replaceBlock_blocksLawful (h : Kept q s) (hl : BlocksLawful s) {p i b : Nat} {r : PicRecord}
    {inRefresh : Bool} (hr : s.record p = some r) (hi : (r.list inRefresh)[i]? = some b) :
    let t : State := (s.replaceBlock p i b inRefresh).1
    BlocksLawful t ∧ b ∉ heldBlocks t ∧ t.map.stateOf b = .bad := by
  have hold := PicRecord.heldBlocks_removeAt hi
  have hheld : b ∈ heldBlocks s :=
    (h.heldBlocks_of_record hr).mem_iff.mpr (List.mem_append_left _ (hold.mem_iff.mpr (by simp)))
  have hknown : b < s.map.total := BlockMap.listed_lt h.map (by simp [(hl.2 b).mpr hheld])
  have hbad (j : Nat) : (s.makeBad b .grown).map.stateOf j = if j = b then .bad else s.map.stateOf j := by
    rw [State.makeBad_stateOf, BlockMap.stateOf_setState h.map hknown]
  suffices hgoal : BlocksLawful (s.replaceBlock p i b inRefresh).1 ∧
      (s.replaceBlock p i b inRefresh).1.map.stateOf b = .bad by
    obtain ⟨hlaw, hb⟩ := hgoal
    exact ⟨hlaw, hlaw.not_held hb (by simp), hb⟩
  obtain ⟨c, m, hm, ht⟩ | ht := State.replaceBlock_cases hr i b inRefresh <;> rw [ht]
  · obtain ⟨herased, hstates⟩ := BlockMap.allocate_states (State.makeBad_kept h b .grown).map hm
    have hcb : c ≠ b := by rintro rfl; simp [hbad] at herased
    have hc : s.map.stateOf c = .erased := by simpa [hbad, hcb] using herased
    refine ⟨hl.exchange_at h hr (r' := PicRecord.onList inRefresh (replaceAt · i c)
      { r with remaining := r.remaining - 1 }) (gone := [b]) (fresh := [c]) (by simp) hold ?_ (List.pairwise_singleton _ c)
      (by simpa using hl.not_held hc (by simp)) fun j => ?_, ?_⟩
    · rw [PicRecord.onList_remaining]
      exact PicRecord.heldBlocks_replaceAt hi c
    · simp only [State.claimChanged_frame, hstates, hbad]
      by_cases hjc : j = c <;> by_cases hjb : j = b <;> simp [hjc, hjb]
    · simp [hstates, hbad, hcb.symm]
  · refine ⟨hl.return_at h hr (r' := r.onList inRefresh (removeAt · i)) (gone := [b]) (by simp) hold fun j => ?_, ?_⟩
    · simp only [State.claimChanged_frame, hbad]
      by_cases hjb : j = b <;> simp [hjb]
    · simp [hbad]

/-! ### The end of a refresh, the changes of free blocks, a prepare -/

/-- The swap returns the old extent list and makes the refresh extent the extent list (R86). -/
theorem State.refreshComplete_blocksLawful (h : Kept q s) (hl : BlocksLawful s) : BlocksLawful s.refreshComplete := by
  unfold State.refreshComplete
  split
  · rename_i p r hr
    refine hl.return_at h (h.record_of_refresh hr)
      (r' := { r with extent := r.refreshExtent.getD [], refreshExtent := none, remaining := 0, peak := 0
                      weak := false, holds := r.holds - 1 })
      (gone := r.extent) (by simp) (by simp [PicRecord.heldBlocks]) fun b => ?_
    simpa using BlockMap.returnAll_inUse_iff (BlockMap.release_ok h.map _) _ _ b
  · exact hl

/-- The abandonment returns the refresh extent (R87). -/
theorem State.refreshDrop_blocksLawful (h : Kept q s) (hl : BlocksLawful s) (unreadable : Bool) :
    BlocksLawful (s.refreshDrop unreadable) := by
  unfold State.refreshDrop
  split
  · rename_i p r hr
    refine hl.return_at h (h.record_of_refresh hr)
      (r' := { r with refreshExtent := none, remaining := 0, holds := r.holds - 1
                      unreadable := r.unreadable || unreadable })
      (gone := r.refreshExtent.getD []) (by simp) (by simpa [PicRecord.heldBlocks] using List.perm_append_comm)
      fun b => ?_
    simpa using BlockMap.returnAll_inUse_iff (BlockMap.release_ok h.map _) _ _ b
  · exact hl.of_same (by simp) (by simp)

theorem State.setState_blocksLawful (h : Kept q s) (hl : BlocksLawful s) {b : Nat} (hb : b ∉ heldBlocks s)
    {v : BlockState} (hv : v ≠ .inUse) : BlocksLawful (s.onMap (·.setState b v)) := by
  have hfree : s.map.stateOf b ≠ .inUse := fun hu => hb ((hl.2 b).mp hu)
  refine hl.exchange (gone := []) (fresh := []) (.refl _) (.refl _) List.nodup_nil (by simp) fun j => ?_
  rw [State.onMap_map, BlockMap.setState_inUse_iff h.map hv]
  have : s.map.stateOf j = .inUse → j ≠ b := by rintro hj rfl; exact hfree hj
  simpa using this

/-- Freeing every place empties the catalogue. -/
theorem State.freePlaces_all (s : State) : (s.freePlaces (s.cat.places.map (·.1))).cat.places = [] := by
  unfold State.freePlaces
  generalize hl : s.cat.places = l
  induction l generalizing s with
  | nil => exact hl
  | cons e l ih =>
    refine ih (s.freePlace e.1) ?_
    rw [State.freePlace_places, hl]
    simp [Table.erase]

theorem State.prepareBegin_blocks (s : State) : s.prepareBegin.map.blocks = [] ∧ s.prepareBegin.cat.places = [] := by
  refine ⟨by simp [State.prepareBegin], ?_⟩
  simp only [State.prepareBegin, State.flashFollowMode_cat_map, State.onMap_frame]
  exact State.freePlaces_all _

/-- A prepare begins with no record and no known block (R48). -/
theorem State.prepareBegin_blocksLawful (s : State) : BlocksLawful s.prepareBegin := by
  obtain ⟨hblocks, hplaces⟩ := s.prepareBegin_blocks
  exact blocksLawful_of_check (by simp [heldBlocks, hplaces]) (by simp [heldBlocks, hplaces]) (by simp [hblocks])

/-! ### R36 -/

/-- Settles O31: the counts from the canonical table of blocks, the law by one lemma per claim, each an exchange of
blocks between the records and the Block Map. -/
theorem fiveBlockCountsSumToTheTotal : Obligations.FiveBlockCountsSumToTheTotal := by
  unfold Obligations.FiveBlockCountsSumToTheTotal
  refine ⟨fun x hx => ?_, fun s hc hl => ?_⟩
  · exact ⟨BlockMap.counts_sum hx, (BlockMap.countOf_eq_listed hx (f := (· == .erased)) rfl).symm,
      (BlockMap.countOf_eq_listed hx (f := (· == .inUse)) rfl).symm,
      (BlockMap.countOf_eq_listed hx (f := BlockState.isDirty) rfl).symm, BlockMap.uncheckedCount_eq hx,
      (BlockMap.countOf_eq_listed hx (f := (· == .bad)) rfl).symm, fun b => (x.stateOf b).cases_of,
      fun b => BlockMap.listed_lt hx⟩
  · have h : Kept s.pending s := ⟨rfl, hc⟩
    exact ⟨State.freePlace_blocksLawful h hl,
      fun p c hno => State.failPlace_blocksLawful h hl hno c,
      State.createRecord_blocksLawful h hl,
      fun p b t ha =>
        have ⟨_, _, hr, _⟩ := State.allocateFor_some ha
        State.allocateFor_blocksLawful h hl hr ha (PicRecord.appendExtent_heldBlocks b _ _),
      fun p r b t hr hx ha => State.allocateFor_blocksLawful h hl hr ha (PicRecord.appendRefresh_heldBlocks b _ hx),
      fun p r i b hr hi => State.replaceBlock_blocksLawful h hl (inRefresh := false) hr hi,
      fun p r ns i b hr hns hi => State.replaceBlock_blocksLawful h hl (inRefresh := true) hr
        (by simpa [PicRecord.list, hns] using hi),
      State.refreshComplete_blocksLawful h hl, State.refreshDrop_blocksLawful h hl,
      fun b v hb hv => State.setState_blocksLawful h hl hb hv, s.prepareBegin_blocksLawful⟩

end Sys2Proof.Machine
end

section
/-! PROOFS. R92: the fixed weights of CENTRE, zone by zone and in all. -/

namespace Sys2Proof.Machine

/-! ### Zones of a rectangle -/

/-- A rectangle covers the zone of a column and a row when it holds both, its ends included (R93). -/
theorem rectCovers_zone_iff (r : Rect) {col : Nat} (hcol : col < 8) (row : Nat) :
    rectCovers r (row * 8 + col) = true ↔
      r.firstCol ≤ col ∧ col ≤ r.lastCol ∧ r.firstRow ≤ row ∧ row ≤ r.lastRow := by
  have hmod : (row * 8 + col) % 8 = col := by omega
  have hdiv : (row * 8 + col) / 8 = row := by omega
  simp [rectCovers, hmod, hdiv, and_assoc]

/-! ### R92 -/

theorem zoneWeights_centre {s : State} (h : s.meter.setup.pattern = .centre) (b : StatBlock) :
    zoneWeights s b = centreWeights := by
  simp only [zoneWeights, h]

theorem centreWeights_length : centreWeights.length = 48 := by simp [centreWeights]

theorem centreWeights_getElem? {z : Nat} (hz : z < 48) :
    centreWeights[z]? =
      some (if rectCovers centreRect z then 12 else if rectCovers ringRect z then 3 else 1) := by
  simp [centreWeights, hz]

/-- The four centre zones, the twelve ring zones and the 32 outer zones. -/
theorem centreWeights_counts :
    (centreWeights.filter (· == 12)).length = 4 ∧ (centreWeights.filter (· == 3)).length = 12 ∧
      (centreWeights.filter (· == 1)).length = 32 := by
  decide

theorem centreWeights_sum : centreWeights.foldl (· + ·) 0 = 116 := by decide

/-- Settles O47: the weight of a zone by whether the centre or the ring covers its column and row; the counts and the
sum of the one fixed list. -/
theorem centreWeightsAreFixed : Obligations.CentreWeightsAreFixed := by
  unfold Obligations.CentreWeightsAreFixed
  refine ⟨fun s b h => zoneWeights_centre h b, centreWeights_length, fun col hcol row hrow => ?_,
    centreWeights_sum, centreWeights_counts⟩
  have hz : row * 8 + col < 48 := by omega
  simp only [centreWeights_getElem? hz, rectCovers_zone_iff _ hcol, centreRect, ringRect]

end Sys2Proof.Machine
end

section
/-! PROOFS. R189 and R190: the two requests that R187 lets through after POWER_LOW and in a drain, the mask of the Event
Set, and what a reset leaves of the Event Set. -/

namespace Sys2Proof.Machine

/-! ### The requests answered in every condition but start-up -/

/-- In start-up every request is BUSY (R187). -/
theorem earlyRefusal_starting {s : State} (h : s.supply.shutdown = .starting) (k : Nat) :
    earlyRefusal k s = some .busy := by
  simp [earlyRefusal, h]

/-- Outside start-up neither POWER_LOW nor a drain turns away a request that is always answered (R187). -/
theorem earlyRefusal_alwaysAnswered {s : State} (h : s.supply.shutdown ≠ .starting) {k : Nat}
    (hk : alwaysAnswered k = true) : earlyRefusal k s = none := by
  simp [earlyRefusal, h, hk]

/-- A request that is always answered reaches its owner in every condition but start-up (R187). -/
theorem request_alwaysAnswered {s : State} (hl : Listening s) (h : s.supply.shutdown ≠ .starting) {k : Nat}
    (hk : alwaysAnswered k = true) (m : Moment) (owner : State → State × Answer) :
    request k m owner s = .next ((owner (taken k m s)).1.respond k (owner (taken k m s)).2) := by
  rw [request_dispatch hl, earlyRefusal_taken, earlyRefusal_alwaysAnswered h hk]

/-! ### READ EVENTS and SET EVENT MASK -/

/-- READ EVENTS answers the flags and the mask as they stood, and leaves every flag clear (R189). -/
theorem exec_readEvents_answered {s : State} (hl : Listening s) (h : s.supply.shutdown ≠ .starting) (m : Moment) :
    exec (.readEvents m) s = .next ({ taken 41 m s with events :=
      { (taken 41 m s).events with flags := 0#16 } }.respond 41
        (okBody (.events (Half.toBytes s.events.flags ++ Half.toBytes s.events.mask)))) := by
  have hevents : (taken 41 m s).events = s.events := by simp
  rw [← hevents]
  exact request_alwaysAnswered hl h rfl m _

theorem exec_readEvents_starting {s : State} (hl : Listening s) (h : s.supply.shutdown = .starting) (m : Moment) :
    exec (.readEvents m) s = .next ((taken 41 m s).respond 41 (refuse .busy)) :=
  request_refused hl (earlyRefusal_starting h 41) m _

/-- SET EVENT MASK replaces the mask and nothing else (R189). -/
theorem exec_setEventMask_taking {s : State} (h : Taking s) (m : Moment) (mask : Half) :
    exec (.setEventMask m mask) s = .next ({ taken 42 m s with events :=
      { (taken 42 m s).events with mask := mask } }.respond 42 ok) :=
  request_taking h 42 m _

/-! ### The Event Set after a reset -/

/-- A reset of whatever kind clears every flag and sets every mask bit (R188). -/
theorem State.resetPart_events (k : ResetCause) (s : State) :
    (s.resetPart k).events = { flags := 0#16, mask := 0xFFFF#16 } := by
  simp [State.resetPart, State.reset, resetEvents]

theorem exec_reset_powered {s : State} (h : s.supply.powered = true) (m : Moment) :
    exec (.reset m) s = .next ((s.arrive m).resetPart .resetLine) :=
  event_powered h m _

/-- Settles O11: READ EVENTS by the rule of the requests that are always answered, a set flag and ATTN bit by bit, the
mask after a reset from what a reset leaves of the Event Set. -/
theorem readEventsCopiesAndClears : Obligations.ReadEventsCopiesAndClears := by
  unfold Obligations.ReadEventsCopiesAndClears
  refine ⟨fun m s hl h => exec_readEvents_answered hl h m, fun f s => ?_,
    fun m mask s h => exec_setEventMask_taking h m mask, fun f s mask hf hm => ?_, fun m s hp => ?_,
    fun m s hl h => exec_readEvents_starting hl h m⟩
  · rw [has_setFlag, decide_eq_true rfl, Bool.true_or]
  · exact (attn_iff _).mpr ⟨f, hf, hm⟩
  · exact ⟨_, exec_reset_powered hp m, by rw [State.resetPart_events]⟩

/-! ### READ STATUS -/

/-- R95's rounding of the filtered value, spelled out. -/
theorem reportedScene_eq (m : Meter) : reportedScene m = m.filtered.map fun f => Int.fdiv (2 * f + 16) 32 := rfl

/-- Settles O12: READ STATUS is a request that is always answered, and its owner changes nothing. -/
theorem readStatusReportsEveryOwner : Obligations.ReadStatusReportsEveryOwner := by
  unfold Obligations.ReadStatusReportsEveryOwner
  intro m s hl h u
  rw [← reportedScene_eq]
  exact request_alwaysAnswered hl h rfl m _

end Sys2Proof.Machine
end

section
/-! PROOFS. What every command has in common: each completes, keeps the invariant and the waiting commands; an event
without power does nothing; a request is decided by the Command Link before its owner. -/

namespace Sys2Proof.Machine

/-! ### Every command completes and keeps the invariant -/

/-- No command stops the part: the power-on sequence, an event or a request, each is a next state (log 31). -/
theorem exec_completes (c : Instr) (s : State) : ∃ t, exec c s = .next t := by
  cases c <;> exact ⟨_, rfl⟩

theorem execFindNext_any_kept {q : List Instr} {s v : State} (h : Kept q s) (m : Moment) (n : Nat)
    (f : Option FindFilter) (ht : execFindNext m n f s = .next v) : Kept q v := by
  cases f with
  | some f => exact execFindNext_kept h m n f ht
  | none => exact request_kept h _ m (fun u hu => hu) ht

theorem execReadLensStation_any_kept {q : List Instr} {s v : State} (h : Kept q s) (m : Moment) (station : Nat)
    (t : Option LensTableName) (ht : execReadLensStation m station t s = .next v) : Kept q v := by
  cases t with
  | some t => exact execReadLensStation_kept h m station t ht
  | none => exact request_kept h _ m (fun u hu => hu) ht

/-- Each command keeps the invariant and the queue of waiting commands: one lemma per command. -/
theorem exec_kept {q : List Instr} {s v : State} (h : Kept q s) (c : Instr) (ht : exec c s = .next v) : Kept q v := by
  cases c with
  | lookup m r => exact execLookup_kept h m r ht
  | nextPart m => exact execNextPart_kept h m ht
  | findNext m n f => exact execFindNext_any_kept h m n f ht
  | amend m r c => exact execAmend_kept h m r c ht
  | retire m r => exact execRetire_kept h m r ht
  | clearCatalogue m => exact execClearCatalogue_kept h m ht
  | catalogueSummary m => exact execCatalogueSummary_kept h m ht
  | prepareStore m => exact execPrepareStore_kept h m ht
  | abandon m n => exact execAbandon_kept h m n ht
  | chainAdd m n offset length notify => exact execChainAdd_kept h m n offset length notify ht
  | chainCancel m => exact execChainCancel_kept h m ht
  | refresh m n => exact execRefresh_kept h m n ht
  | meterSetup m x => exact execMeterSetup_kept h m x ht
  | meterLock m => exact execMeterLock_kept h m ht
  | meterUnlock m => exact execMeterUnlock_kept h m ht
  | readMeter m => exact execReadMeter_kept h m ht
  | extendLens m => exact execExtendLens_kept h m ht
  | zoomTo m station => exact execZoomTo_kept h m station ht
  | zoomStop m => exact execZoomStop_kept h m ht
  | parkLens m => exact execParkLens_kept h m ht
  | loadLensStation m station e => exact execLoadLensStation_kept h m station e ht
  | commitLensTable m => exact execCommitLensTable_kept h m ht
  | readZoom m => exact execReadZoom_kept h m ht
  | readLensStation m station t => exact execReadLensStation_any_kept h m station t ht
  | focusStart m range => exact execFocusStart_kept h m range ht
  | focusRelease m => exact execFocusRelease_kept h m ht
  | focusMode m mode => exact execFocusMode_kept h m mode ht
  | setArea m id rect enabled => exact execSetArea_kept h m id rect enabled ht
  | clearArea m id => exact execClearArea_kept h m id ht
  | setDistance m cls => exact execSetDistance_kept h m cls ht
  | readFocus m => exact execReadFocus_kept h m ht
  | readFocusCurve m id => exact execReadFocusCurve_kept h m id ht
  | steadyMode m mode => exact execSteadyMode_kept h m mode ht
  | readSteady m => exact execReadSteady_kept h m ht
  | shotSetup m x => exact execShotSetup_kept h m x ht
  | arm m => exact execArm_kept h m ht
  | trigger m => exact execTrigger_kept h m ht
  | disarm m => exact execDisarm_kept h m ht
  | readShot m => exact execReadShot_kept h m ht
  | readStatus m => exact execReadStatus_kept h m ht
  | readEvents m => exact execReadEvents_kept h m ht
  | setEventMask m mask => exact execSetEventMask_kept h m mask ht
  | writeSettings m x => exact execWriteSettings_kept h m x ht
  | readSettings m => exact execReadSettings_kept h m ht
  | softReset m => exact execSoftReset_kept h m ht
  | shutDown m => exact execShutDown_kept h m ht
  | frameCheck m f => exact execFrameCheck_kept h m f ht
  | unknownRequest m bytes => exact execUnknownRequest_kept h m bytes ht
  | frameBroken m bytes => exact execFrameBroken_kept h m bytes ht
  | linkQuietResume m => exact execLinkQuietResume_kept h m ht
  | linkOrder m bytes => exact execLinkOrder_kept h m bytes ht
  | responseCollected m => exact execResponseCollected_kept h m ht
  | softResetExecute m => exact execSoftResetExecute_kept h m ht
  | reset m => exact execReset_kept h m ht
  | powerOn m => exact execPowerOn_kept h m ht
  | startUpEnd m => exact execStartUpEnd_kept h m ht
  | powerLow m => exact execPowerLow_kept h m ht
  | shutdownMarkWrite m => exact execShutdownMarkWrite_kept h m ht
  | safe m => exact execSafe_kept h m ht
  | recordWriteBegin m => exact execRecordWriteBegin_kept h m ht
  | recordWriteComplete m => exact execRecordWriteComplete_kept h m ht
  | prepareScanStart m => exact execPrepareScanStart_kept h m ht
  | prepareStoreEnd m => exact execPrepareStoreEnd_kept h m ht
  | arbiterGrant m => exact execArbiterGrant_kept h m ht
  | flashStatusReadDone m => exact execFlashStatusReadDone_kept h m ht
  | pageReadDone m r => exact execPageReadDone_kept h m r ht
  | pageProgramDone m pass => exact execPageProgramDone_kept h m pass ht
  | copyBackDone m source pass => exact execCopyBackDone_kept h m source pass ht
  | blockEraseDone m pass => exact execBlockEraseDone_kept h m pass ht
  | grownMarkProgramDone m pass => exact execGrownMarkProgramDone_kept h m pass ht
  | backgroundTakeBlock m => exact execBackgroundTakeBlock_kept h m ht
  | statistics m body => exact execStatistics_kept h m body ht
  | blockWatchExpiry m => exact execBlockWatchExpiry_kept h m ht
  | sampleWatchExpiry m => exact execSampleWatchExpiry_kept h m ht
  | pictureStart m => exact execPictureStart_kept h m ht
  | pictureData m bytes => exact execPictureData_kept h m bytes ht
  | pictureEnd m body => exact execPictureEnd_kept h m body ht
  | pictureAbort m => exact execPictureAbort_kept h m ht
  | inLaneBlockDropped m kind length => exact execInLaneBlockDropped_kept h m kind length ht
  | inLaneFramingFault m => exact execInLaneFramingFault_kept h m ht
  | dataTimeout m => exact execDataTimeout_kept h m ht
  | endTaken m => exact execEndTaken_kept h m ht
  | outLaneItemBegin m => exact execOutLaneItemBegin_kept h m ht
  | descriptorStartSent m => exact execDescriptorStartSent_kept h m ht
  | dataItemSent m => exact execDataItemSent_kept h m ht
  | descriptorEndSent m => exact execDescriptorEndSent_kept h m ht
  | cancelledEndSent m => exact execCancelledEndSent_kept h m ht
  | encoderPulse m tele => exact execEncoderPulse_kept h m tele ht
  | parkSensorChange m seen => exact execParkSensorChange_kept h m seen ht
  | stallWatchExpiry m => exact execStallWatchExpiry_kept h m ht
  | brakeWatchExpiry m => exact execBrakeWatchExpiry_kept h m ht
  | focusHomeSensorSeen m => exact execFocusHomeSensorSeen_kept h m ht
  | focusHomingFailed m => exact execFocusHomingFailed_kept h m ht
  | focusMoveComplete m => exact execFocusMoveComplete_kept h m ht
  | gyroFrame m bytes => exact execGyroFrame_kept h m bytes ht
  | gyroFrameBroken m => exact execGyroFrameBroken_kept h m ht
  | gyroFrameTimeout m => exact execGyroFrameTimeout_kept h m ht
  | gyroLost m => exact execGyroLost_kept h m ht
  | releaseFalling m => exact execReleaseFalling_kept h m ht
  | releaseRising m => exact execReleaseRising_kept h m ht
  | irisMoveComplete m => exact execIrisMoveComplete_kept h m ht
  | closeCommandDue m => exact execCloseCommandDue_kept h m ht
  | shutterClosed m => exact execShutterClosed_kept h m ht
  | shutterTimeout m => exact execShutterTimeout_kept h m ht
  | frameDue m => exact execFrameDue_kept h m ht
  | gyroStartMarker m => exact execGyroStartMarker_kept h m ht
  | requestStartMarker m => exact execRequestStartMarker_kept h m ht
  | inLaneHeader m kind length => exact execInLaneHeader_kept h m kind length ht
  | powerLost m => exact execPowerLost_kept h m ht

/-! ### The fixed commands of the queue -/

/-- Settles O1: the step takes the front command by definition. -/
theorem stepRunsTheFrontCommand : Obligations.StepRunsTheFrontCommand := by
  unfold Obligations.StepRunsTheFrontCommand
  exact fun c rest s => rfl

/-- Settles O2: the parts of the factory-fresh state. -/
theorem resetStateIsCanonical : Obligations.ResetStateIsCanonical := by
  unfold Obligations.ResetStateIsCanonical
  obtain ⟨hmemory, hmap, hwriter⟩ := factory_parts
  exact ⟨tableOk_nil _ _, hmemory, hwriter, hmap, Nat.zero_le _⟩

/-- Settles O3: an idle step changes nothing, any other is the front command's. -/
theorem everyStepKeepsTheCanonicalForm : Obligations.EveryStepKeepsTheCanonicalForm := by
  unfold Obligations.EveryStepKeepsTheCanonicalForm
  intro s t hs ht
  cases hq : s.pending with
  | nil =>
    have hidle : step s = .next s := by simp [step, hq]
    cases hidle.symm.trans ht
    exact hs
  | cons c rest =>
    have hfront : step s = exec c { s with pending := rest } := by simp [step, hq]
    have hrest : Kept rest { s with pending := rest } := ⟨rfl, hs⟩
    exact (exec_kept hrest c (hfront.symm.trans ht)).2

/-- Settles O4: what a command completes with, kept by `exec_kept`. -/
theorem everyCommandCompletesAndKeepsTheQueue : Obligations.EveryCommandCompletesAndKeepsTheQueue := by
  unfold Obligations.EveryCommandCompletesAndKeepsTheQueue
  intro c s hs
  obtain ⟨t, ht⟩ := exec_completes c s
  exact ⟨t, ht, exec_kept ⟨rfl, hs⟩ c ht⟩

/-- Without power only POWER ON has an effect (log 17). -/
theorem exec_unpowered {s : State} (h : s.supply.powered = false) {c : Instr} (hc : ∀ m, c ≠ .powerOn m) :
    exec c s = .next s := by
  cases c with
  | powerOn m => exact absurd rfl (hc m)
  | _ => exact congrArg Host.Outcome.next (if_neg (by simp [h]) : (if s.supply.powered then _ else s) = s)

/-- Settles O5: an empty queue idles; every command but POWER ON is an event. -/
theorem idleOrUnpoweredPartStaysAsItIs : Obligations.IdleOrUnpoweredPartStaysAsItIs := by
  unfold Obligations.IdleOrUnpoweredPartStaysAsItIs
  exact ⟨fun s hs => by simp [step, hs], fun c s hs hc => exec_unpowered hs hc⟩

/-! ### What decides a request before its owner -/

/-- A command of a request's kind is a request of that kind, whatever its owner answers. -/
theorem exec_of_requestKind {c : Instr} {k : Nat} {m : Moment} (hc : requestKind c = some (k, m)) :
    ∃ owner, ∀ s, exec c s = request k m owner s := by
  cases c <;> cases hc <;> exact ⟨_, fun _ => rfl⟩

/-- After POWER_LOW only the two requests that are always answered go on (R187). -/
theorem earlyRefusal_powerLow {s : State} (hs : s.supply.shutdown ≠ .starting) (hp : s.supply.powerLow = true) {k : Nat}
    (hk : alwaysAnswered k = false) : earlyRefusal k s = some .powerLow := by
  simp [earlyRefusal, hs, hp, hk]

/-- In a SHUT DOWN drain they alone go on too (R187, R200). -/
theorem earlyRefusal_drain {s : State} (hs : s.supply.shutdown ≠ .starting) (hp : s.supply.powerLow = false)
    (ht : s.supply.shutDownTaken = true) {k : Nat} (hk : alwaysAnswered k = false) : earlyRefusal k s = some .busy := by
  simp [earlyRefusal, hs, hp, ht, hk]

theorem alwaysAnswered_eq_false {k : Nat} (h40 : k ≠ 40) (h41 : k ≠ 41) : alwaysAnswered k = false := by
  simp [alwaysAnswered, h40, h41]

/-- Settles O6: the gate's three cases and the three early refusals, for the request a command is. -/
theorem requestsBeforeTheirOwner : Obligations.RequestsBeforeTheirOwner := by
  unfold Obligations.RequestsBeforeTheirOwner
  intro c k m s hc hp
  obtain ⟨owner, hexec⟩ := exec_of_requestKind hc
  rw [hexec]
  refine ⟨fun hsilent hr => request_silent hp hsilent hr k m owner,
    fun hlisten hr hd => request_discarded hp hlisten hr hd k m owner,
    fun hl hs => request_refused hl (earlyRefusal_starting hs k) m owner,
    fun hl hs hlow h40 h41 => ?_, fun hl hs hlow hdrain h40 h41 => ?_⟩
  · exact request_refused hl (earlyRefusal_powerLow hs hlow (alwaysAnswered_eq_false h40 h41)) m owner
  · exact request_refused hl (earlyRefusal_drain hs hlow hdrain (alwaysAnswered_eq_false h40 h41)) m owner

end Sys2Proof.Machine
end

section
/-! PROOFS. The Flash Port's shared operations as changes of the port alone, and the Command Link's and the Supply
Monitor's smaller statements: SOFT RESET, the event flags, the settings, the resets, POWER LOST, the write queue. -/

namespace Sys2Proof.Machine

/-! ### Flash operations as changes of the Flash Port -/

/-- The port with a claimant's waiting operation withdrawn (R68, R80, R87). -/
def FlashPort.withdrawn (c : Claimant) (f : FlashPort) : FlashPort :=
  if (f.waitingOf c).isSome then f.setWaiting c none else f

/-- The port with owed write-protect asserted where no operation is in flight (R32). -/
def FlashPort.settled (f : FlashPort) : FlashPort :=
  if f.protectDue && f.quiet then { f with writeProtect := true } else f

/-- The port with write-protect as the store mode has it, unless POWER_LOW or SHUT DOWN has claimed it (R32). -/
def FlashPort.followed (mode : StoreMode) (f : FlashPort) : FlashPort :=
  if f.protectDue then f else { f with writeProtect := decide (mode = .unprepared) }

variable (s : State)

theorem State.flashWithdraw_eq (c : Claimant) : s.flashWithdraw c = s.onFlash (·.withdrawn c) := by
  by_cases h : (s.flash.waitingOf c).isSome <;> simp [State.flashWithdraw, FlashPort.withdrawn, State.onFlash, h]

theorem State.flashSettle_eq : s.flashSettle = s.onFlash FlashPort.settled := by
  by_cases h : s.flash.protectDue && s.flash.quiet <;> simp [State.flashSettle, FlashPort.settled, State.onFlash, h]

theorem State.flashProtect_eq : s.flashProtect = s.onFlash fun f => { f with protectDue := true }.settled := by
  rw [State.flashProtect, State.flashSettle_eq]
  rfl

theorem State.flashFollowMode_eq : s.flashFollowMode = s.onFlash (·.followed s.map.mode) := by
  by_cases h : s.flash.protectDue <;> simp [State.flashFollowMode, FlashPort.followed, State.onFlash, h]

/-! ### Event flags -/

theorem State.setFlag_setFlag (f : EventFlag) : (s.setFlag f).setFlag f = s.setFlag f := by
  simp [State.setFlag, BitVec.or_assoc]

/-- The end of start-up, with no POWER_LOW asserted meanwhile (R198). -/
theorem State.startUpEnd_calm {s : State} (h : s.supply.powerLowEarly = false) :
    s.startUpEnd = ({ s with
      memory := { s.memory with mark := .good .running }
      writer := { s.writer with inFlight := none }
      supply := { s.supply with shutdown := .running }
      shot := { s.shot with iris := .startRun }
      flash := s.flash.followed s.map.mode } : State).setFlag .started := by
  simp only [State.startUpEnd, State.flashFollowMode_eq, State.onFlash_frame, State.setFlag_frame, h]
  rfl

/-- The write of the mark RUNNING ends start-up (R198). -/
theorem exec_recordWriteComplete_running {s : State} (hp : s.supply.powered = true)
    (hs : s.supply.shutdown = .starting) (hw : s.writer.inFlight = some (.mark .running)) (m : Moment) :
    exec (.recordWriteComplete m) s = .next { s.arrive m with
      memory := { s.memory with mark := .good .running }
      writer := { s.writer with inFlight := none } }.startUpEnd := by
  change execRecordWriteComplete m s = _
  rw [execRecordWriteComplete, event_powered hp]
  simp [hw, hs, Copy.item, RecordMemory.write]

/-- With every mask bit 1 a set flag raises ATTN (R188). -/
theorem attn_of_full_mask {s : State} (hm : s.events.mask = 0xFFFF#16) {f : EventFlag} (hf : s.events.has f = true) :
    attn s = true := by
  refine (attn_iff s).mpr ⟨f, hf, ?_⟩
  rw [hm]
  cases f <;> rfl

/-- Settles O10: the flags bit by bit, and what a reset and the end of start-up leave of them. -/
theorem eventFlagsAndAttn : Obligations.EventFlagsAndAttn := by
  unfold Obligations.EventFlagsAndAttn
  refine ⟨fun f s => ⟨?_, rfl, s.setFlag_setFlag f, fun g hg => ?_⟩, attn_iff, fun m s hp => ?_,
    fun m s hp hs hq hw hm he => ?_⟩
  · rw [has_setFlag]
    simp
  · rw [has_setFlag]
    simp [hg]
  · refine ⟨_, exec_reset_powered hp m, State.resetPart_events _ _, ?_⟩
    simp [attn, State.resetPart_events]
  · refine ⟨_, exec_recordWriteComplete_running hp hs hw m, ?_⟩
    have hstarted : ∀ t : State, (t.setFlag .started).events.has .started = true := fun t => by
      rw [has_setFlag]
      simp
    rw [State.startUpEnd_calm (by exact he)]
    exact ⟨hstarted _, attn_of_full_mask hm (hstarted _)⟩

/-! ### SOFT RESET -/

/-- A ready response that is collected ends; that of SOFT RESET makes the link SILENT (R186, R192). -/
theorem exec_responseCollected_ready {s : State} (hp : s.supply.powered = true) {r : Response}
    (hr : s.link.pending = some r) (hh : r.held = none) (m : Moment) :
    exec (.responseCollected m) s = .next { s.arrive m with link :=
      { (s.arrive m).link with
        pending := none, clockedOut := 0
        condition := if r.kind = 45 ∧ r.code = .ok then .silent else s.link.condition } } := by
  change execResponseCollected m s = _
  rw [execResponseCollected, event_powered hp]
  obtain ⟨kind, code, body, held⟩ := r
  cases hh
  simp [hr]

/-- While SILENT nothing is written, granted or marked (R192). -/
theorem exec_silent {s : State} (hp : s.supply.powered = true) (hc : s.link.condition = .silent) (m : Moment) :
    exec (.recordWriteBegin m) s = .next (s.arrive m) ∧ exec (.arbiterGrant m) s = .next (s.arrive m) ∧
      exec (.shutdownMarkWrite m) s = .next (s.arrive m) := by
  refine ⟨?_, ?_, ?_⟩
  · change execRecordWriteBegin m s = _
    rw [execRecordWriteBegin, event_powered hp]
    simp [hc]
  · change execArbiterGrant m s = _
    rw [execArbiterGrant, event_powered hp]
    simp [portIdle, hc]
  · change execShutdownMarkWrite m s = _
    rw [execShutdownMarkWrite, event_powered hp]
    simp [hc]

/-- A soft reset waits for the write and the flash operation in flight (R192). -/
theorem exec_softResetExecute {s : State} (hp : s.supply.powered = true) (hc : s.link.condition = .silent) (m : Moment) :
    exec (.softResetExecute m) s = .next (if s.writer.inFlight = none ∧ s.flash.inFlight = none ∧
      s.flash.statusDone = true then (s.arrive m).resetPart .softReset else s.arrive m) := by
  change execSoftResetExecute m s = _
  rw [execSoftResetExecute, event_powered hp]
  refine congrArg Host.Outcome.next (ite_congr (propext ?_) (fun _ => rfl) fun _ => rfl)
  simp [hc, FlashPort.quiet, and_comm]

/-- The cause alone tells one reset from another (R194). -/
theorem State.resetPart_cause (k : ResetCause) :
    s.resetPart k = { s.resetPart .resetLine with supply :=
      { (s.resetPart .resetLine).supply with cause := causeOf k (memoryAfterCut s).mark } } := rfl

theorem State.resetPart_supply (k : ResetCause) :
    (s.resetPart k).supply = { State.reset.supply with cause := causeOf k (memoryAfterCut s).mark } := rfl

theorem causeOf_softReset (d : Durable Mark) :
    causeOf .softReset d = if causeOf .resetLine d = .resetLine then .softReset else causeOf .resetLine d := by
  cases d with
  | torn => rfl
  | good k => cases k <;> rfl

/-- Settles O9: SOFT RESET by the rule of taken requests, the collected response, the SILENT link, and the reset that
differs from the RESET line's in its cause. -/
theorem softResetWaitsAndResets : Obligations.SoftResetWaitsAndResets := by
  unfold Obligations.SoftResetWaitsAndResets
  intro m s hp u
  refine ⟨fun h => request_taking h 45 m _, fun r hr hh => exec_responseCollected_ready hp hr hh m,
    fun hc => exec_silent hp hc m, fun hc hbusy => ?_, fun hc hw hf hs => ?_⟩
  · rw [exec_softResetExecute hp hc, if_neg]
    rintro ⟨hw, hf, hs⟩
    simp [hw, hf, hs] at hbusy
  · refine ⟨_, exec_reset_powered hp m, ?_⟩
    rw [exec_softResetExecute hp hc, if_pos ⟨hw, hf, hs⟩, State.resetPart_cause, causeOf_softReset]
    rfl

/-! ### Settings -/

/-- WRITE SETTINGS' ranges (R191). -/
theorem settingsOk_iff (x : Settings) : settingsOk x = true ↔ 1 ≤ x.target ∧ x.target ≤ 65535 ∧ x.weights.length = 48 ∧
    (∀ w ∈ x.weights, w ≤ 15) ∧ 1 ≤ x.reservation ∧ x.reservation ≤ 48 ∧
    (x.flashBlocks = 4096 ∨ x.flashBlocks = 8192) := by
  simp [settingsOk, and_assoc]

theorem exec_writeSettings {s : State} (h : Taking s) (m : Moment) (x : Settings) :
    exec (.writeSettings m x) s = .next (if settingsOk x then
      ({ taken 43 m s with settings := x }.markDirty .settings).respond 43 (heldOk .empty [.settings])
      else (taken 43 m s).respond 43 (refuse .badField)) := by
  refine (request_taking h 43 m _).trans ?_
  cases settingsOk x <;> rfl

/-- Settles O13: the ranges as one check, and the answer on each side of it. -/
theorem settingsAreWrittenWhole : Obligations.SettingsAreWrittenWhole := by
  unfold Obligations.SettingsAreWrittenWhole
  intro m x s h u
  refine ⟨fun h1 h2 h3 h4 h5 h6 h7 => ?_, fun hbad => ?_, ?_⟩
  · rw [exec_writeSettings h, if_pos ((settingsOk_iff x).mpr ⟨h1, h2, h3, h4, h5, h6, h7⟩)]
    rfl
  · rw [exec_writeSettings h, if_neg]
    · rfl
    · rw [settingsOk_iff]
      rintro ⟨h1, h2, h3, h4, h5, h6, h7⟩
      obtain h | h | h | ⟨w, hw, h⟩ | h | h | ⟨h, h'⟩ := hbad
      · omega
      · omega
      · exact h h3
      · exact absurd (h4 w hw) (by omega)
      · omega
      · omega
      · exact h7.elim h h'
  · have hsettings : (taken 44 m s).settings = s.settings := by simp
    rw [← hsettings]
    exact request_taking h 44 m _

/-! ### The resets and POWER LOST -/

/-- What a write cut short leaves of Record Memory, item by item (R23). -/
theorem memoryAfterCut_cases :
    (s.writer.inFlight = none → memoryAfterCut s = s.memory) ∧
    (∀ p r, s.writer.inFlight = some (.place p r) →
      memoryAfterCut s = { s.memory with places := Table.put p .torn s.memory.places }) ∧
    (∀ n, s.writer.inFlight = some (.counter n) → memoryAfterCut s = { s.memory with counter := .torn }) ∧
    (∀ x, s.writer.inFlight = some (.settings x) → memoryAfterCut s = { s.memory with settings := .torn }) ∧
    (∀ x, s.writer.inFlight = some (.lensTable x) → memoryAfterCut s = { s.memory with lensTable := .torn }) ∧
    (∀ l, s.writer.inFlight = some (.badList l) → memoryAfterCut s = { s.memory with badList := .torn }) ∧
    (∀ x, s.writer.inFlight = some (.identity x) → memoryAfterCut s = { s.memory with identity := .torn }) ∧
    (∀ k, s.writer.inFlight = some (.mark k) → memoryAfterCut s = { s.memory with mark := .torn }) := by
  refine ⟨fun h => ?_, fun p r h => ?_, fun n h => ?_, fun x h => ?_, fun x h => ?_, fun l h => ?_, fun x h => ?_,
    fun k h => ?_⟩ <;> rw [memoryAfterCut, h] <;> rfl

theorem State.resetPart_memory (k : ResetCause) : (s.resetPart k).memory = memoryAfterCut s := rfl

theorem causeOf_eq (k : ResetCause) (d : Durable Mark) : causeOf k d = match d with
    | .good .running | .good .clean => k
    | .good .powerFail | .torn => .afterPowerFail := by
  cases d with
  | torn => rfl
  | good x => cases x <;> rfl

/-- Setting block states changes nothing else of the Block Map. -/
theorem setStates_frame (l : List α) (b : α → Nat) (x : BlockState) (m : BlockMap) :
    ∃ bs, l.foldl (fun m e => m.setState (b e) x) m = { m with blocks := bs } := by
  induction l generalizing m with
  | nil => exact ⟨m.blocks, rfl⟩
  | cons e l ih =>
    obtain ⟨bs, hbs⟩ := ih (m.setState (b e) x)
    refine ⟨bs, hbs.trans ?_⟩
    unfold BlockMap.setState
    split <;> rfl

theorem setStates_setStates_frame (l : List (Nat × α)) (kept : List Nat) (m : BlockMap) :
    ∃ bs, kept.foldl (fun m b => m.setState b .inUse) (l.foldl (fun m e => m.setState e.1 .bad) m) =
      { m with blocks := bs } := by
  obtain ⟨bs, hbs⟩ := setStates_frame l (·.1) .bad m
  obtain ⟨bs', hbs'⟩ := setStates_frame kept id .inUse { m with blocks := bs }
  exact ⟨bs', by rw [hbs]; exact hbs'⟩

/-- What start-up gives the Block Map besides the blocks' states (R46, R195). -/
theorem rebuiltMap_frame (mem : RecordMemory) (kept : List Nat) : ∃ bs, rebuiltMap mem kept =
    { total := identityTotal mem.identity, blocks := bs, reserved := 0, allocCursor := 0, eraseCursor := 0
      badList := match mem.badList with | .good l => l | .torn => []
      identity := match mem.identity with | .good t => t | .torn => none
      mode := match mem.identity, mem.badList with | .good (some _), .good _ => .writable | _, _ => .unprepared
      prepare := none, inHand := none } := by
  unfold rebuiltMap
  exact setStates_setStates_frame _ kept _

/-- Marking items dirty touches only the queue of the Writer. -/
theorem markAll_inFlight (is : List Item) (w : Writer) : (is.foldl (fun w i => w.mark i) w).inFlight = w.inFlight := by
  induction is generalizing w with
  | nil => rfl
  | cons i is ih =>
    refine (ih (w.mark i)).trans ?_
    unfold Writer.mark
    split <;> rfl

/-- RESET and POWER ON are resets of the arrived part. -/
theorem exec_resets {m : Moment} {s : State} {c : Instr} {kind : ResetCause}
    (h : (c = .reset m ∧ kind = .resetLine ∧ s.supply.powered = true) ∨ (c = .powerOn m ∧ kind = .powerOn)) :
    exec c s = .next ((s.arrive m).resetPart kind) := by
  obtain ⟨rfl, rfl, hp⟩ | ⟨rfl, rfl⟩ := h
  · exact exec_reset_powered hp m
  · rfl

/-- The Block Map of a reset part. -/
theorem State.resetPart_map (k : ResetCause) : ∃ kept, (s.resetPart k).map = rebuiltMap (memoryAfterCut s) kept :=
  ⟨_, rfl⟩

/-- Settles O15: a reset's fields read off, its Record Memory by the item of the write cut short. -/
theorem resetLeavesTheStatedValues : Obligations.ResetLeavesTheStatedValues := by
  unfold Obligations.ResetLeavesTheStatedValues
  intro m s c kind h
  obtain ⟨kept, hmap⟩ := State.resetPart_map (s.arrive m) kind
  obtain ⟨bs, hbs⟩ := rebuiltMap_frame (memoryAfterCut (s.arrive m)) kept
  have hwriter : ((s.arrive m).resetPart kind).writer.inFlight = none := markAll_inFlight _ _
  have hsupply := State.resetPart_supply (s.arrive m) kind
  rw [causeOf_eq] at hsupply
  obtain ⟨hnone, hplace, hcounter, hsettings, hlens, hbad, hident, hmark⟩ := memoryAfterCut_cases (s.arrive m)
  refine ⟨_, exec_resets h, rfl, rfl, hsupply, rfl, rfl, rfl, rfl, hwriter, rfl, ?_, ?_, ?_, ?_, ?_, rfl, rfl, rfl, rfl,
    rfl, rfl, rfl, rfl, rfl, rfl, rfl, rfl, rfl, rfl, rfl, rfl, rfl, rfl, rfl, rfl, rfl, rfl, rfl, rfl, rfl, rfl, rfl,
    rfl, rfl, rfl, rfl, rfl, rfl, rfl, rfl, rfl, rfl, rfl, rfl, rfl, rfl, hnone, hplace, hcounter, hsettings, hlens,
    hbad, hident, hmark⟩ <;> rw [hmap, hbs]

/-- Settles O16: the unpowered part is the factory-fresh one around the Record Memory that the cut leaves. -/
theorem powerLossKeepsRecordMemory : Obligations.PowerLossKeepsRecordMemory := by
  unfold Obligations.PowerLossKeepsRecordMemory
  intro m s hp
  have hexec : exec (.powerLost m) s = .next { State.reset with
      pending := s.pending, lines := (s.arrive m).lines, memory := memoryAfterCut (s.arrive m)
      supply := { State.reset.supply with powered := false } } := by
    change execPowerLost m s = _
    rw [execPowerLost, event_powered hp]
    rfl
  exact ⟨_, hexec, rfl, rfl, rfl, rfl, rfl, rfl, memoryAfterCut_cases (s.arrive m)⟩

/-- Settles O21: the two cases of `Writer.mark`. -/
theorem dirtyItemsJoinTheTail : Obligations.DirtyItemsJoinTheTail := by
  unfold Obligations.DirtyItemsJoinTheTail
  intro i w
  refine ⟨fun h => ?_, fun h => ?_, fun h => ?_⟩
  · simp [Writer.mark, h]
  · simp [Writer.mark, h]
  · by_cases hi : i ∈ w.queue
    · simpa [Writer.mark, hi] using h
    · simp [Writer.mark, hi, List.nodup_append, h]
      exact fun a ha e => hi (e ▸ ha)

end Sys2Proof.Machine
end

section
/-! PROOFS. The requests that only read: each answers from the state of the unit it names. -/

namespace Sys2Proof.Machine

variable {s : State}

/-- READ LENS STATION of a station of a table (R129). -/
theorem exec_readLensStation (h : Taking s) (m : Moment) {n : Nat} (hn : n ≤ 47) (t : LensTableName) :
    exec (.readLensStation m n (some t)) s =
      .next ((taken 24 m s).respond 24 (okBody (.lensStation (lensAnswer (taken 24 m s) n t)))) := by
  refine (request_taking h 24 m _).trans ?_
  simp [Nat.not_lt.mpr hn]

/-- READ LENS STATION of no station, or of no table (R129). -/
theorem exec_readLensStation_bad (h : Taking s) (m : Moment) {n : Nat} {t : Option LensTableName}
    (hbad : 47 < n ∨ t = none) :
    exec (.readLensStation m n t) s = .next ((taken 24 m s).respond 24 (refuse .badField)) := by
  refine (request_taking h 24 m _).trans ?_
  cases t with
  | none => rfl
  | some t => simp [hbad.resolve_right (Option.some_ne_none t)]

theorem lensAnswer_staging (s : State) (n : Nat) : lensAnswer s n .staging =
    match s.zoom.staging[n]? with | some (some e) => .entry e | _ => .empty := by
  simp only [lensAnswer, List.getD_eq_getElem?_getD]
  rcases s.zoom.staging[n]? with _ | _ | e <;> rfl

theorem lensAnswer_working (s : State) (n : Nat) : lensAnswer s n .working =
    match s.zoom.working.bind (·[n]?) with | some e => .entry e | none => .absent := by
  simp only [lensAnswer]
  rcases s.zoom.working with _ | t
  · rfl
  · rcases h : t[n]? <;> simp [h]

/-- READ FOCUS CURVE, by the range of the area id (R148). -/
theorem exec_readFocusCurve (h : Taking s) (m : Moment) (i : Nat) :
    exec (.readFocusCurve m i) s = .next ((taken 32 m s).respond 32 (if 7 < i then refuse .badField
      else okBody (.curve ((taken 32 m s).focus.curve.find? (·.id == i))))) := by
  refine (request_taking h 32 m _).trans ?_
  by_cases hi : 7 < i <;> simp [hi]

/-- The level of the shutter's sensor that READ SHOT reports: the held one while CLOSING, else the row's (R173, R182). -/
theorem taken_shutterClosed (k : Nat) (m : Moment) (s : State) : (taken k m s).lines.shutterClosed =
    if s.shot.state = .closing then s.lines.shutterClosed else m.shutterClosed := by
  have hread : (taken k m s).lines.shutterClosed = sensorRead m s := by
    unfold taken
    split <;> rfl
  rw [hread]
  split
  next hc => exact sensorRead_closing s hc m
  next hc => exact sensorRead_of_ne s hc m

/-- Settles O14: the rule of taken requests, READ LENS STATION and READ FOCUS CURVE by their ranges. -/
theorem ownerReadsChangeNothing : Obligations.OwnerReadsChangeNothing := by
  unfold Obligations.OwnerReadsChangeNothing
  intro m s h
  refine ⟨request_taking h 7 m _, request_taking h 16 m _, request_taking h 23 m _,
    ⟨fun n e hn he => ?_, fun n hn => ?_, fun n l e hn hl he => ?_, fun n hn hw => ?_, fun n t hbad => ?_⟩,
    request_taking h 31 m _, ⟨fun i hi => ?_, fun i hi => ?_⟩, request_taking h 34 m _, ?_⟩
  · rw [exec_readLensStation h m hn, lensAnswer_staging, he]
    rfl
  · intro he
    rw [exec_readLensStation h m hn, lensAnswer_staging, he]
    rfl
  · rw [exec_readLensStation h m hn, lensAnswer_working, hl, Option.bind_some, he]
    rfl
  · rw [exec_readLensStation h m hn, lensAnswer_working, hw]
    rfl
  · exact exec_readLensStation_bad h m hbad
  · rw [exec_readFocusCurve h, if_neg (Nat.not_lt.mpr hi)]
    rfl
  · rw [exec_readFocusCurve h, if_pos hi]
    rfl
  · rw [← taken_shutterClosed 39]
    exact request_taking h 39 m _

end Sys2Proof.Machine
end

section
/-! PROOFS. Claims on records change the catalogue's places, the Block Map's blocks and the write queue alone; what the
Shot Sequencer's, Store Engine's and Read Chain's duties leave alone; an event flag once set stays set. -/

namespace Sys2Proof.Machine

variable {s t u : State}

/-! ### Claims on records -/

/-- From `s` to `t` only the records, the blocks with the reserved total, and the write queue may have changed. -/
def RecordsOnly (s t : State) : Prop :=
  t = { s with
    cat := { s.cat with places := t.cat.places }
    map := { s.map with blocks := t.map.blocks, reserved := t.map.reserved }
    writer := { s.writer with queue := t.writer.queue } }

namespace RecordsOnly

theorem refl (s : State) : RecordsOnly s s := rfl

theorem trans (h : RecordsOnly s t) (h' : RecordsOnly t u) : RecordsOnly s u := by
  unfold RecordsOnly at h h' ⊢
  rw [h', h]

theorem frame (h : RecordsOnly s t) :
    t.pending = s.pending ∧ t.timers = s.timers ∧ t.lines = s.lines ∧ t.supply = s.supply ∧ t.events = s.events ∧
    t.link = s.link ∧ t.memory = s.memory ∧ t.settings = s.settings ∧ t.flash = s.flash ∧ t.lane = s.lane ∧
    t.gyro = s.gyro ∧ t.store = s.store ∧ t.chain = s.chain ∧ t.meter = s.meter ∧ t.zoom = s.zoom ∧
    t.focus = s.focus ∧ t.steady = s.steady ∧ t.shot = s.shot := by
  unfold RecordsOnly at h
  rw [h]
  simp only [and_self]

/-- Beside its blocks and its reserved total the Block Map stays as it is. -/
theorem map (h : RecordsOnly s t) :
    t.map.total = s.map.total ∧ t.map.mode = s.map.mode ∧ t.map.identity = s.map.identity ∧
    t.map.badList = s.map.badList ∧ t.map.prepare = s.map.prepare ∧ t.map.inHand = s.map.inHand := by
  unfold RecordsOnly at h
  rw [h]
  simp only [and_self]

/-- Beside its places the catalogue stays as it is. -/
theorem cat (h : RecordsOnly s t) : t.cat.counter = s.cat.counter ∧ t.cat.snapshot = s.cat.snapshot := by
  unfold RecordsOnly at h
  rw [h]
  simp only [and_self]

theorem inFlight (h : RecordsOnly s t) : t.writer.inFlight = s.writer.inFlight := by
  unfold RecordsOnly at h
  rw [h]

theorem setRecord (s : State) (p : Nat) (r : PicRecord) : RecordsOnly s (s.setRecord p r) := rfl

theorem markDirty (s : State) (i : Item) : RecordsOnly s (s.markDirty i) := by
  unfold RecordsOnly State.markDirty Writer.mark
  split <;> rfl

theorem claim (s : State) (p : Nat) (r : PicRecord) : RecordsOnly s (s.claim p r) :=
  (setRecord s p r).trans (markDirty _ _)

theorem dropRecord (s : State) (p : Nat) : RecordsOnly s (s.dropRecord p) := rfl

/-- A change of the blocks' states and of the reserved total. -/
theorem onMap (s : State) {f : BlockMap → BlockMap}
    (hf : f s.map = { s.map with blocks := (f s.map).blocks, reserved := (f s.map).reserved }) :
    RecordsOnly s (s.onMap f) := by
  unfold RecordsOnly State.onMap
  dsimp only
  rw [← hf]

theorem onNumber (s : State) (n : Nat) {f : Nat → PicRecord → State → State}
    (hf : ∀ p r, findNumber n s.cat.places = some (p, r) → RecordsOnly s (f p r s)) : RecordsOnly s (s.onNumber n f) := by
  unfold State.onNumber
  split
  next p r h => exact hf p r h
  next => exact refl s

theorem foldl (l : List α) {f : State → α → State} (hf : ∀ s a, RecordsOnly s (f s a)) (s : State) :
    RecordsOnly s (l.foldl f s) := by
  induction l generalizing s with
  | nil => exact refl s
  | cons a l ih => exact (hf s a).trans (ih (f s a))

end RecordsOnly

theorem BlockMap.returnOne_frame (w : ReturnWait) (b : Nat) (m : BlockMap) :
    m.returnOne w b = { m with blocks := (m.returnOne w b).blocks } := by
  unfold BlockMap.returnOne BlockMap.setState
  (repeat' split) <;> rfl

theorem BlockMap.returnAll_frame (w : ReturnWait) (bs : List Nat) (m : BlockMap) :
    m.returnAll w bs = { m with blocks := (m.returnAll w bs).blocks } := by
  unfold BlockMap.returnAll
  induction bs generalizing m with
  | nil => rfl
  | cons b bs ih =>
    rw [List.foldl_cons, ih, BlockMap.returnOne_frame]

theorem State.failPlace_recordsOnly (s : State) (p : Nat) (c : FailCause) : RecordsOnly s (s.failPlace p c) := by
  unfold State.failPlace
  split
  next => exact .refl s
  next r h =>
    refine (RecordsOnly.onMap s ?_).trans (.claim _ _ _)
    rw [BlockMap.returnAll_frame]
    rfl

theorem State.freePlace_recordsOnly (s : State) (p : Nat) : RecordsOnly s (s.freePlace p) := by
  unfold State.freePlace
  split
  next => exact .refl s
  next r h =>
    refine ((RecordsOnly.onMap s ?_).trans (.dropRecord _ _)).trans (.markDirty _ _)
    dsimp only
    rw [BlockMap.returnAll_frame, BlockMap.returnAll_frame]
    rfl

theorem State.releaseReserved_recordsOnly (s : State) (n : Nat) : RecordsOnly s (s.releaseReserved n) := by
  refine RecordsOnly.onNumber s n fun p r _ => ?_
  split
  · exact s.freePlace_recordsOnly p
  · exact .refl s

theorem State.dropHold_recordsOnly (s : State) (n : Nat) : RecordsOnly s (s.dropHold n) :=
  RecordsOnly.onNumber s n fun p _ _ => .setRecord s p _

theorem State.shotRelease_recordsOnly (s : State) : RecordsOnly s s.shotRelease := by
  unfold State.shotRelease
  split
  · exact .foldl _ State.releaseReserved_recordsOnly s
  · exact .refl s

@[simp] theorem State.shotRelease_frame (s : State) :
    s.shotRelease.pending = s.pending ∧ s.shotRelease.timers = s.timers ∧ s.shotRelease.lines = s.lines ∧
    s.shotRelease.supply = s.supply ∧ s.shotRelease.events = s.events ∧ s.shotRelease.link = s.link ∧
    s.shotRelease.memory = s.memory ∧ s.shotRelease.settings = s.settings ∧ s.shotRelease.flash = s.flash ∧
    s.shotRelease.lane = s.lane ∧ s.shotRelease.gyro = s.gyro ∧ s.shotRelease.store = s.store ∧
    s.shotRelease.chain = s.chain ∧ s.shotRelease.meter = s.meter ∧ s.shotRelease.zoom = s.zoom ∧
    s.shotRelease.focus = s.focus ∧ s.shotRelease.steady = s.steady ∧ s.shotRelease.shot = s.shot :=
  s.shotRelease_recordsOnly.frame

/-! ### What the Shot Sequencer's duties leave alone -/

variable (s)

@[simp] theorem State.onBurst_frame (f : Burst → Burst) :
    (s.onBurst f).pending = s.pending ∧ (s.onBurst f).timers = s.timers ∧ (s.onBurst f).lines = s.lines ∧
    (s.onBurst f).supply = s.supply ∧ (s.onBurst f).events = s.events ∧ (s.onBurst f).link = s.link ∧
    (s.onBurst f).memory = s.memory ∧ (s.onBurst f).writer = s.writer ∧ (s.onBurst f).cat = s.cat ∧
    (s.onBurst f).settings = s.settings ∧ (s.onBurst f).map = s.map ∧ (s.onBurst f).flash = s.flash ∧
    (s.onBurst f).lane = s.lane ∧ (s.onBurst f).gyro = s.gyro ∧ (s.onBurst f).store = s.store ∧
    (s.onBurst f).chain = s.chain ∧ (s.onBurst f).meter = s.meter ∧ (s.onBurst f).zoom = s.zoom ∧
    (s.onBurst f).focus = s.focus ∧ (s.onBurst f).steady = s.steady :=
  ⟨rfl, rfl, rfl, rfl, rfl, rfl, rfl, rfl, rfl, rfl, rfl, rfl, rfl, rfl, rfl, rfl, rfl, rfl, rfl, rfl⟩

@[simp] theorem State.onBurst_shot (f : Burst → Burst) :
    (s.onBurst f).shot = { s.shot with burst := s.shot.burst.map f } := rfl

@[simp] theorem State.meterUnlocked_aside :
    s.meterUnlocked.timers = s.timers ∧ s.meterUnlocked.lines = s.lines ∧ s.meterUnlocked.events = s.events ∧
    s.meterUnlocked.zoom = s.zoom ∧ s.meterUnlocked.focus = s.focus ∧ s.meterUnlocked.steady = s.steady := by
  simp [State.meterUnlocked]

@[simp] theorem State.meterShotEnd_aside :
    s.meterShotEnd.timers = s.timers ∧ s.meterShotEnd.lines = s.lines ∧ s.meterShotEnd.events = s.events ∧
    s.meterShotEnd.zoom = s.zoom ∧ s.meterShotEnd.focus = s.focus ∧ s.meterShotEnd.steady = s.steady := by
  unfold State.meterShotEnd
  (repeat' split) <;> simp

@[simp] theorem State.steadyShotEnd_aside :
    s.steadyShotEnd.lines = s.lines ∧ s.steadyShotEnd.events = s.events ∧ s.steadyShotEnd.zoom = s.zoom ∧
    s.steadyShotEnd.focus = s.focus := by
  unfold State.steadyShotEnd State.steadyOff
  split <;> simp

@[simp] theorem State.steadyClose_aside :
    s.steadyClose.timers = s.timers ∧ s.steadyClose.lines = s.lines ∧ s.steadyClose.events = s.events ∧
    s.steadyClose.zoom = s.zoom ∧ s.steadyClose.focus = s.focus := by
  simp [State.steadyClose]

@[simp] theorem State.focusShotEnd_events : s.focusShotEnd.events = s.events := by simp [State.focusShotEnd]

@[simp] theorem State.shotIdle_frame :
    s.shotIdle.pending = s.pending ∧ s.shotIdle.lines = s.lines ∧ s.shotIdle.supply = s.supply ∧
    s.shotIdle.link = s.link ∧ s.shotIdle.memory = s.memory ∧ s.shotIdle.settings = s.settings ∧
    s.shotIdle.flash = s.flash ∧ s.shotIdle.lane = s.lane ∧ s.shotIdle.gyro = s.gyro ∧ s.shotIdle.store = s.store ∧
    s.shotIdle.chain = s.chain ∧ s.shotIdle.zoom = s.zoom := by
  simp [State.shotIdle]

/-- The return to IDLE sets BURST_ENDED (R179). -/
@[simp] theorem State.shotIdle_events :
    s.shotIdle.events = { s.events with flags := s.events.flags ||| EventFlag.burstEnded.word } := by
  simp [State.shotIdle]

@[simp] theorem State.shotIdle_shot :
    s.shotIdle.shot = { s.shot with state := .idle, burst := none, exposure := none } := by
  simp [State.shotIdle]

/-- The return to IDLE claims the records still RESERVED and nothing else (R179). -/
@[simp] theorem State.shotIdle_records :
    s.shotIdle.cat = s.shotRelease.cat ∧ s.shotIdle.map = s.shotRelease.map ∧
    s.shotIdle.writer = s.shotRelease.writer := by
  simp [State.shotIdle]

@[simp] theorem State.shotEndFrame_frame :
    s.shotEndFrame.pending = s.pending ∧ s.shotEndFrame.lines = s.lines ∧ s.shotEndFrame.supply = s.supply ∧
    s.shotEndFrame.events = s.events ∧ s.shotEndFrame.link = s.link ∧ s.shotEndFrame.memory = s.memory ∧
    s.shotEndFrame.writer = s.writer ∧ s.shotEndFrame.cat = s.cat ∧ s.shotEndFrame.settings = s.settings ∧
    s.shotEndFrame.map = s.map ∧ s.shotEndFrame.flash = s.flash ∧ s.shotEndFrame.lane = s.lane ∧
    s.shotEndFrame.gyro = s.gyro ∧ s.shotEndFrame.store = s.store ∧ s.shotEndFrame.chain = s.chain ∧
    s.shotEndFrame.zoom = s.zoom ∧ s.shotEndFrame.focus = s.focus := by
  simp [State.shotEndFrame]

@[simp] theorem State.shotEndFrame_timers :
    s.shotEndFrame.timers = { s.timers with shutter := none, confirm := none } := by
  simp [State.shotEndFrame]

@[simp] theorem State.shotEndFrame_shot : s.shotEndFrame.shot = { s.shot with exposure := none } := by
  simp [State.shotEndFrame]

theorem State.shotFail_recordsOnly (n : Nat) (measured : Option Nat) (c : FailCause) :
    RecordsOnly s.shotEndFrame (s.shotFail n measured c) := by
  unfold State.shotFail
  refine RecordsOnly.onNumber s.shotEndFrame n fun p r _ => ?_
  exact (RecordsOnly.setRecord _ p _).trans (State.failPlace_recordsOnly _ p c)

@[simp] theorem State.shotFail_frame (n : Nat) (x : Option Nat) (c : FailCause) :
    (s.shotFail n x c).pending = s.pending ∧ (s.shotFail n x c).lines = s.lines ∧
    (s.shotFail n x c).supply = s.supply ∧ (s.shotFail n x c).events = s.events ∧ (s.shotFail n x c).link = s.link ∧
    (s.shotFail n x c).memory = s.memory ∧ (s.shotFail n x c).settings = s.settings ∧
    (s.shotFail n x c).flash = s.flash ∧ (s.shotFail n x c).lane = s.lane ∧ (s.shotFail n x c).gyro = s.gyro ∧
    (s.shotFail n x c).store = s.store ∧ (s.shotFail n x c).chain = s.chain ∧ (s.shotFail n x c).zoom = s.zoom ∧
    (s.shotFail n x c).focus = s.focus ∧ (s.shotFail n x c).timers = s.shotEndFrame.timers ∧
    (s.shotFail n x c).shot = s.shotEndFrame.shot ∧ (s.shotFail n x c).meter = s.shotEndFrame.meter ∧
    (s.shotFail n x c).steady = s.shotEndFrame.steady := by
  simp [(s.shotFail_recordsOnly n x c).frame]

theorem State.shotAwait_records (n measured : Nat) (cut : Bool) :
    ∃ t, RecordsOnly s.shotEndFrame t ∧ s.shotAwait n measured cut = { t with store :=
      { s.store with queue := s.store.queue ++ [n] } } := by
  have h := RecordsOnly.onNumber s.shotEndFrame n
    (f := fun p r s' => s'.claim p ((r.exposed (some measured) (steadyResult s.steady)).awaiting cut))
    fun p r _ => RecordsOnly.claim _ _ _
  refine ⟨_, h, ?_⟩
  have hstore := h.frame
  simp only [State.shotEndFrame_frame] at hstore
  rw [State.shotAwait, ← hstore.2.2.2.2.2.2.2.2.2.2.2.1]

@[simp] theorem State.shotAwait_frame (n x : Nat) (c : Bool) :
    (s.shotAwait n x c).pending = s.pending ∧ (s.shotAwait n x c).lines = s.lines ∧
    (s.shotAwait n x c).supply = s.supply ∧ (s.shotAwait n x c).events = s.events ∧
    (s.shotAwait n x c).link = s.link ∧ (s.shotAwait n x c).memory = s.memory ∧
    (s.shotAwait n x c).settings = s.settings ∧ (s.shotAwait n x c).flash = s.flash ∧
    (s.shotAwait n x c).lane = s.lane ∧ (s.shotAwait n x c).gyro = s.gyro ∧ (s.shotAwait n x c).chain = s.chain ∧
    (s.shotAwait n x c).zoom = s.zoom ∧ (s.shotAwait n x c).focus = s.focus ∧
    (s.shotAwait n x c).timers = s.shotEndFrame.timers ∧ (s.shotAwait n x c).shot = s.shotEndFrame.shot ∧
    (s.shotAwait n x c).meter = s.shotEndFrame.meter ∧ (s.shotAwait n x c).steady = s.shotEndFrame.steady ∧
    (s.shotAwait n x c).store = { s.store with queue := s.store.queue ++ [n] } := by
  obtain ⟨t, ht, e⟩ := s.shotAwait_records n x c
  rw [e]
  simp [ht.frame]

@[simp] theorem State.shotNext_frame :
    s.shotNext.pending = s.pending ∧ s.shotNext.lines = s.lines ∧ s.shotNext.supply = s.supply ∧
    s.shotNext.link = s.link ∧ s.shotNext.memory = s.memory ∧ s.shotNext.settings = s.settings ∧
    s.shotNext.flash = s.flash ∧ s.shotNext.lane = s.lane ∧ s.shotNext.gyro = s.gyro ∧ s.shotNext.store = s.store ∧
    s.shotNext.chain = s.chain ∧ s.shotNext.zoom = s.zoom := by
  unfold State.shotNext
  (repeat' split) <;> simp

@[simp] theorem State.shotConfirm_frame :
    s.shotConfirm.pending = s.pending ∧ s.shotConfirm.lines = s.lines ∧ s.shotConfirm.supply = s.supply ∧
    s.shotConfirm.link = s.link ∧ s.shotConfirm.memory = s.memory ∧ s.shotConfirm.settings = s.settings ∧
    s.shotConfirm.flash = s.flash ∧ s.shotConfirm.lane = s.lane ∧ s.shotConfirm.gyro = s.gyro ∧
    s.shotConfirm.chain = s.chain ∧ s.shotConfirm.zoom = s.zoom := by
  unfold State.shotConfirm
  dsimp only
  (repeat' split) <;> simp

@[simp] theorem State.shotClose_frame :
    s.shotClose.pending = s.pending ∧ s.shotClose.lines = s.lines ∧ s.shotClose.supply = s.supply ∧
    s.shotClose.link = s.link ∧ s.shotClose.memory = s.memory ∧ s.shotClose.settings = s.settings ∧
    s.shotClose.flash = s.flash ∧ s.shotClose.lane = s.lane ∧ s.shotClose.gyro = s.gyro ∧
    s.shotClose.chain = s.chain ∧ s.shotClose.zoom = s.zoom := by
  unfold State.shotClose
  dsimp only
  split <;> simp

@[simp] theorem State.shotDisarm_frame :
    s.shotDisarm.pending = s.pending ∧ s.shotDisarm.lines = s.lines ∧ s.shotDisarm.supply = s.supply ∧
    s.shotDisarm.link = s.link ∧ s.shotDisarm.memory = s.memory ∧ s.shotDisarm.settings = s.settings ∧
    s.shotDisarm.flash = s.flash ∧ s.shotDisarm.lane = s.lane ∧ s.shotDisarm.gyro = s.gyro ∧
    s.shotDisarm.chain = s.chain ∧ s.shotDisarm.zoom = s.zoom := by
  unfold State.shotDisarm
  split <;> simp

/-! ### What the Store Engine's, the Read Chain's and the Block Map's duties leave alone -/

@[simp] theorem State.flashWithdraw_frame (c : Claimant) :
    (s.flashWithdraw c).pending = s.pending ∧ (s.flashWithdraw c).timers = s.timers ∧
    (s.flashWithdraw c).lines = s.lines ∧ (s.flashWithdraw c).supply = s.supply ∧
    (s.flashWithdraw c).events = s.events ∧ (s.flashWithdraw c).link = s.link ∧
    (s.flashWithdraw c).memory = s.memory ∧ (s.flashWithdraw c).writer = s.writer ∧ (s.flashWithdraw c).cat = s.cat ∧
    (s.flashWithdraw c).settings = s.settings ∧ (s.flashWithdraw c).map = s.map ∧ (s.flashWithdraw c).lane = s.lane ∧
    (s.flashWithdraw c).gyro = s.gyro ∧ (s.flashWithdraw c).store = s.store ∧ (s.flashWithdraw c).chain = s.chain ∧
    (s.flashWithdraw c).meter = s.meter ∧ (s.flashWithdraw c).zoom = s.zoom ∧ (s.flashWithdraw c).focus = s.focus ∧
    (s.flashWithdraw c).steady = s.steady ∧ (s.flashWithdraw c).shot = s.shot := by
  rw [s.flashWithdraw_eq c]
  exact s.onFlash_frame _

@[simp] theorem State.flashDiscard_frame (c : Claimant) :
    (s.flashDiscard c).pending = s.pending ∧ (s.flashDiscard c).timers = s.timers ∧
    (s.flashDiscard c).lines = s.lines ∧ (s.flashDiscard c).supply = s.supply ∧ (s.flashDiscard c).events = s.events ∧
    (s.flashDiscard c).link = s.link ∧ (s.flashDiscard c).memory = s.memory ∧ (s.flashDiscard c).writer = s.writer ∧
    (s.flashDiscard c).cat = s.cat ∧ (s.flashDiscard c).settings = s.settings ∧ (s.flashDiscard c).map = s.map ∧
    (s.flashDiscard c).lane = s.lane ∧ (s.flashDiscard c).gyro = s.gyro ∧ (s.flashDiscard c).store = s.store ∧
    (s.flashDiscard c).chain = s.chain ∧ (s.flashDiscard c).meter = s.meter ∧ (s.flashDiscard c).zoom = s.zoom ∧
    (s.flashDiscard c).focus = s.focus ∧ (s.flashDiscard c).steady = s.steady ∧ (s.flashDiscard c).shot = s.shot := by
  exact s.onFlash_frame _

@[simp] theorem State.flashSettle_frame :
    s.flashSettle.pending = s.pending ∧ s.flashSettle.timers = s.timers ∧ s.flashSettle.lines = s.lines ∧
    s.flashSettle.supply = s.supply ∧ s.flashSettle.events = s.events ∧ s.flashSettle.link = s.link ∧
    s.flashSettle.memory = s.memory ∧ s.flashSettle.writer = s.writer ∧ s.flashSettle.cat = s.cat ∧
    s.flashSettle.settings = s.settings ∧ s.flashSettle.map = s.map ∧ s.flashSettle.lane = s.lane ∧
    s.flashSettle.gyro = s.gyro ∧ s.flashSettle.store = s.store ∧ s.flashSettle.chain = s.chain ∧
    s.flashSettle.meter = s.meter ∧ s.flashSettle.zoom = s.zoom ∧ s.flashSettle.focus = s.focus ∧
    s.flashSettle.steady = s.steady ∧ s.flashSettle.shot = s.shot := by
  rw [s.flashSettle_eq]
  exact s.onFlash_frame _

@[simp] theorem State.flashProtect_frame :
    s.flashProtect.pending = s.pending ∧ s.flashProtect.timers = s.timers ∧ s.flashProtect.lines = s.lines ∧
    s.flashProtect.supply = s.supply ∧ s.flashProtect.events = s.events ∧ s.flashProtect.link = s.link ∧
    s.flashProtect.memory = s.memory ∧ s.flashProtect.writer = s.writer ∧ s.flashProtect.cat = s.cat ∧
    s.flashProtect.settings = s.settings ∧ s.flashProtect.map = s.map ∧ s.flashProtect.lane = s.lane ∧
    s.flashProtect.gyro = s.gyro ∧ s.flashProtect.store = s.store ∧ s.flashProtect.chain = s.chain ∧
    s.flashProtect.meter = s.meter ∧ s.flashProtect.zoom = s.zoom ∧ s.flashProtect.focus = s.focus ∧
    s.flashProtect.steady = s.steady ∧ s.flashProtect.shot = s.shot := by
  rw [s.flashProtect_eq]
  exact s.onFlash_frame _

@[simp] theorem State.flashFollowMode_frame :
    s.flashFollowMode.pending = s.pending ∧ s.flashFollowMode.timers = s.timers ∧ s.flashFollowMode.lines = s.lines ∧
    s.flashFollowMode.supply = s.supply ∧ s.flashFollowMode.events = s.events ∧ s.flashFollowMode.link = s.link ∧
    s.flashFollowMode.memory = s.memory ∧ s.flashFollowMode.writer = s.writer ∧ s.flashFollowMode.cat = s.cat ∧
    s.flashFollowMode.settings = s.settings ∧ s.flashFollowMode.map = s.map ∧ s.flashFollowMode.lane = s.lane ∧
    s.flashFollowMode.gyro = s.gyro ∧ s.flashFollowMode.store = s.store ∧ s.flashFollowMode.chain = s.chain ∧
    s.flashFollowMode.meter = s.meter ∧ s.flashFollowMode.zoom = s.zoom ∧ s.flashFollowMode.focus = s.focus ∧
    s.flashFollowMode.steady = s.steady ∧ s.flashFollowMode.shot = s.shot := by
  rw [s.flashFollowMode_eq]
  exact s.onFlash_frame _

@[simp] theorem State.storeWithdraw_frame (b : Bool) :
    (s.storeWithdraw b).pending = s.pending ∧ (s.storeWithdraw b).timers = s.timers ∧
    (s.storeWithdraw b).lines = s.lines ∧ (s.storeWithdraw b).supply = s.supply ∧
    (s.storeWithdraw b).events = s.events ∧ (s.storeWithdraw b).link = s.link ∧
    (s.storeWithdraw b).memory = s.memory ∧ (s.storeWithdraw b).writer = s.writer ∧ (s.storeWithdraw b).cat = s.cat ∧
    (s.storeWithdraw b).settings = s.settings ∧ (s.storeWithdraw b).map = s.map ∧ (s.storeWithdraw b).lane = s.lane ∧
    (s.storeWithdraw b).gyro = s.gyro ∧ (s.storeWithdraw b).store = s.store ∧ (s.storeWithdraw b).chain = s.chain ∧
    (s.storeWithdraw b).meter = s.meter ∧ (s.storeWithdraw b).zoom = s.zoom ∧ (s.storeWithdraw b).focus = s.focus ∧
    (s.storeWithdraw b).steady = s.steady ∧ (s.storeWithdraw b).shot = s.shot := by
  unfold State.storeWithdraw
  (repeat' split) <;> simp

@[simp] theorem State.storeClose_frame :
    s.storeClose.pending = s.pending ∧ s.storeClose.lines = s.lines ∧ s.storeClose.supply = s.supply ∧
    s.storeClose.events = s.events ∧ s.storeClose.link = s.link ∧ s.storeClose.memory = s.memory ∧
    s.storeClose.writer = s.writer ∧ s.storeClose.cat = s.cat ∧ s.storeClose.settings = s.settings ∧
    s.storeClose.map = s.map ∧ s.storeClose.lane = s.lane ∧ s.storeClose.gyro = s.gyro ∧
    s.storeClose.chain = s.chain ∧ s.storeClose.meter = s.meter ∧ s.storeClose.zoom = s.zoom ∧
    s.storeClose.focus = s.focus ∧ s.storeClose.steady = s.steady ∧ s.storeClose.shot = s.shot := by
  simp [State.storeClose]

theorem State.failQueue_recordsOnly (l : List Nat) (c : FailCause) :
    RecordsOnly s (l.foldl (fun s n => s.onNumber n fun p _ s => s.failPlace p c) s) :=
  RecordsOnly.foldl l (fun s n => RecordsOnly.onNumber s n fun p _ _ => s.failPlace_recordsOnly p c) s

@[simp] theorem State.storePowerLow_frame :
    s.storePowerLow.pending = s.pending ∧ s.storePowerLow.lines = s.lines ∧ s.storePowerLow.supply = s.supply ∧
    s.storePowerLow.link = s.link ∧ s.storePowerLow.memory = s.memory ∧ s.storePowerLow.settings = s.settings ∧
    s.storePowerLow.lane = s.lane ∧ s.storePowerLow.gyro = s.gyro ∧ s.storePowerLow.chain = s.chain ∧
    s.storePowerLow.meter = s.meter ∧ s.storePowerLow.zoom = s.zoom ∧ s.storePowerLow.focus = s.focus ∧
    s.storePowerLow.steady = s.steady ∧ s.storePowerLow.shot = s.shot := by
  simp [State.storePowerLow, (s.failQueue_recordsOnly s.store.queue .power).frame]

theorem State.dropHolds_recordsOnly (l : List Descriptor) :
    RecordsOnly s (l.foldl (fun s d => s.dropHold d.number) s) :=
  RecordsOnly.foldl l (fun s d => s.dropHold_recordsOnly d.number) s

@[simp] theorem State.chainEmpty_frame (owed : Option (Nat × Bool)) :
    (s.chainEmpty owed).pending = s.pending ∧ (s.chainEmpty owed).timers = s.timers ∧
    (s.chainEmpty owed).lines = s.lines ∧ (s.chainEmpty owed).supply = s.supply ∧
    (s.chainEmpty owed).events = s.events ∧ (s.chainEmpty owed).link = s.link ∧
    (s.chainEmpty owed).memory = s.memory ∧ (s.chainEmpty owed).settings = s.settings ∧
    (s.chainEmpty owed).lane = s.lane ∧ (s.chainEmpty owed).gyro = s.gyro ∧ (s.chainEmpty owed).store = s.store ∧
    (s.chainEmpty owed).meter = s.meter ∧ (s.chainEmpty owed).zoom = s.zoom ∧ (s.chainEmpty owed).focus = s.focus ∧
    (s.chainEmpty owed).steady = s.steady ∧ (s.chainEmpty owed).shot = s.shot := by
  simp [State.chainEmpty, (s.dropHolds_recordsOnly s.chain.chain).frame]

@[simp] theorem State.refreshOver_frame :
    s.refreshOver.pending = s.pending ∧ s.refreshOver.timers = s.timers ∧ s.refreshOver.lines = s.lines ∧
    s.refreshOver.supply = s.supply ∧ s.refreshOver.events = s.events ∧ s.refreshOver.link = s.link ∧
    s.refreshOver.memory = s.memory ∧ s.refreshOver.writer = s.writer ∧ s.refreshOver.cat = s.cat ∧
    s.refreshOver.settings = s.settings ∧ s.refreshOver.map = s.map ∧ s.refreshOver.lane = s.lane ∧
    s.refreshOver.gyro = s.gyro ∧ s.refreshOver.store = s.store ∧ s.refreshOver.meter = s.meter ∧
    s.refreshOver.zoom = s.zoom ∧ s.refreshOver.focus = s.focus ∧ s.refreshOver.steady = s.steady ∧
    s.refreshOver.shot = s.shot := by
  simp [State.refreshOver]

@[simp] theorem State.refreshDrop_frame (b : Bool) :
    (s.refreshDrop b).pending = s.pending ∧ (s.refreshDrop b).timers = s.timers ∧ (s.refreshDrop b).lines = s.lines ∧
    (s.refreshDrop b).supply = s.supply ∧ (s.refreshDrop b).events = s.events ∧ (s.refreshDrop b).link = s.link ∧
    (s.refreshDrop b).memory = s.memory ∧ (s.refreshDrop b).settings = s.settings ∧ (s.refreshDrop b).lane = s.lane ∧
    (s.refreshDrop b).gyro = s.gyro ∧ (s.refreshDrop b).store = s.store ∧ (s.refreshDrop b).meter = s.meter ∧
    (s.refreshDrop b).zoom = s.zoom ∧ (s.refreshDrop b).focus = s.focus ∧ (s.refreshDrop b).steady = s.steady ∧
    (s.refreshDrop b).shot = s.shot := by
  unfold State.refreshDrop
  split <;> simp

@[simp] theorem State.chainPowerLow_frame :
    s.chainPowerLow.pending = s.pending ∧ s.chainPowerLow.timers = s.timers ∧ s.chainPowerLow.lines = s.lines ∧
    s.chainPowerLow.supply = s.supply ∧ s.chainPowerLow.events = s.events ∧ s.chainPowerLow.link = s.link ∧
    s.chainPowerLow.memory = s.memory ∧ s.chainPowerLow.settings = s.settings ∧ s.chainPowerLow.lane = s.lane ∧
    s.chainPowerLow.gyro = s.gyro ∧ s.chainPowerLow.store = s.store ∧ s.chainPowerLow.meter = s.meter ∧
    s.chainPowerLow.zoom = s.zoom ∧ s.chainPowerLow.focus = s.focus ∧ s.chainPowerLow.steady = s.steady ∧
    s.chainPowerLow.shot = s.shot := by
  unfold State.chainPowerLow
  dsimp only
  split <;> simp

@[simp] theorem State.preparePowerLow_frame :
    s.preparePowerLow.pending = s.pending ∧ s.preparePowerLow.timers = s.timers ∧ s.preparePowerLow.lines = s.lines ∧
    s.preparePowerLow.supply = s.supply ∧ s.preparePowerLow.events = s.events ∧ s.preparePowerLow.link = s.link ∧
    s.preparePowerLow.memory = s.memory ∧ s.preparePowerLow.cat = s.cat ∧ s.preparePowerLow.settings = s.settings ∧
    s.preparePowerLow.lane = s.lane ∧ s.preparePowerLow.gyro = s.gyro ∧ s.preparePowerLow.store = s.store ∧
    s.preparePowerLow.chain = s.chain ∧ s.preparePowerLow.meter = s.meter ∧ s.preparePowerLow.zoom = s.zoom ∧
    s.preparePowerLow.focus = s.focus ∧ s.preparePowerLow.steady = s.steady ∧ s.preparePowerLow.shot = s.shot := by
  unfold State.preparePowerLow
  dsimp only
  (repeat' split) <;> simp

@[simp] theorem State.focusPowerLow_frame :
    s.focusPowerLow.pending = s.pending ∧ s.focusPowerLow.lines = s.lines ∧ s.focusPowerLow.supply = s.supply ∧
    s.focusPowerLow.events = s.events ∧ s.focusPowerLow.link = s.link ∧ s.focusPowerLow.memory = s.memory ∧
    s.focusPowerLow.writer = s.writer ∧ s.focusPowerLow.cat = s.cat ∧ s.focusPowerLow.settings = s.settings ∧
    s.focusPowerLow.map = s.map ∧ s.focusPowerLow.flash = s.flash ∧ s.focusPowerLow.lane = s.lane ∧
    s.focusPowerLow.gyro = s.gyro ∧ s.focusPowerLow.store = s.store ∧ s.focusPowerLow.chain = s.chain ∧
    s.focusPowerLow.meter = s.meter ∧ s.focusPowerLow.zoom = s.zoom ∧ s.focusPowerLow.steady = s.steady ∧
    s.focusPowerLow.shot = s.shot := by
  simp [State.focusPowerLow, State.focusDrop]

@[simp] theorem State.steadyPowerLow_frame :
    s.steadyPowerLow.pending = s.pending ∧ s.steadyPowerLow.lines = s.lines ∧ s.steadyPowerLow.supply = s.supply ∧
    s.steadyPowerLow.events = s.events ∧ s.steadyPowerLow.link = s.link ∧ s.steadyPowerLow.memory = s.memory ∧
    s.steadyPowerLow.writer = s.writer ∧ s.steadyPowerLow.cat = s.cat ∧ s.steadyPowerLow.settings = s.settings ∧
    s.steadyPowerLow.map = s.map ∧ s.steadyPowerLow.flash = s.flash ∧ s.steadyPowerLow.lane = s.lane ∧
    s.steadyPowerLow.gyro = s.gyro ∧ s.steadyPowerLow.store = s.store ∧ s.steadyPowerLow.chain = s.chain ∧
    s.steadyPowerLow.meter = s.meter ∧ s.steadyPowerLow.zoom = s.zoom ∧ s.steadyPowerLow.focus = s.focus ∧
    s.steadyPowerLow.shot = s.shot := by
  simp [State.steadyPowerLow, State.steadyOff]

@[simp] theorem State.zoomPowerLow_frame :
    s.zoomPowerLow.pending = s.pending ∧ s.zoomPowerLow.lines = s.lines ∧ s.zoomPowerLow.supply = s.supply ∧
    s.zoomPowerLow.events = s.events ∧ s.zoomPowerLow.link = s.link ∧ s.zoomPowerLow.memory = s.memory ∧
    s.zoomPowerLow.writer = s.writer ∧ s.zoomPowerLow.cat = s.cat ∧ s.zoomPowerLow.settings = s.settings ∧
    s.zoomPowerLow.map = s.map ∧ s.zoomPowerLow.flash = s.flash ∧ s.zoomPowerLow.lane = s.lane ∧
    s.zoomPowerLow.gyro = s.gyro ∧ s.zoomPowerLow.store = s.store ∧ s.zoomPowerLow.chain = s.chain ∧
    s.zoomPowerLow.meter = s.meter ∧ s.zoomPowerLow.focus = s.focus ∧ s.zoomPowerLow.steady = s.steady ∧
    s.zoomPowerLow.shot = s.shot := by
  simp [State.zoomPowerLow]

/-! ### A flag once set stays set -/

/-- Every flag set in `s` is set in `t`. -/
def FlagsGrow (s t : State) : Prop := ∀ f : EventFlag, s.events.has f = true → t.events.has f = true

theorem FlagsGrow.of_events {s t : State} (h : t.events = s.events) : FlagsGrow s t := fun f hf => by rw [h]; exact hf

theorem FlagsGrow.trans {s t u : State} (h : FlagsGrow s t) (h' : FlagsGrow t u) : FlagsGrow s u :=
  fun f hf => h' f (h f hf)

theorem FlagsGrow.setFlag (f : EventFlag) : FlagsGrow s (s.setFlag f) := fun g hg => by
  rw [has_setFlag, hg, Bool.or_true]

theorem has_setFlag_same (f : EventFlag) : (s.setFlag f).events.has f = true := by
  rw [has_setFlag, decide_eq_true rfl, Bool.true_or]

theorem FlagsGrow.shotIdle : FlagsGrow s s.shotIdle :=
  (FlagsGrow.setFlag s .burstEnded).trans (.of_events s.shotIdle_events)

theorem FlagsGrow.shotNext : FlagsGrow s s.shotNext := by
  unfold State.shotNext
  (repeat' split)
  · exact .shotIdle s
  · exact .of_events rfl
  · exact .shotIdle s

theorem FlagsGrow.shotConfirm : FlagsGrow s s.shotConfirm := by
  unfold State.shotConfirm
  split
  · dsimp only
    refine FlagsGrow.trans ?_ ((FlagsGrow.setFlag _ .shotEnded).trans (.shotNext _))
    refine .of_events ?_
    split <;> simp
  · exact .of_events rfl

theorem FlagsGrow.shotClose : FlagsGrow s s.shotClose := by
  unfold State.shotClose
  dsimp only
  split
  · refine FlagsGrow.trans ?_ (.shotConfirm _)
    exact .of_events rfl
  · exact .of_events rfl

theorem FlagsGrow.shotDisarm : FlagsGrow s s.shotDisarm := by
  unfold State.shotDisarm
  split
  · exact .of_events rfl
  iterate 5 exact .shotIdle s
  · exact .of_events rfl
  · exact FlagsGrow.trans (.of_events (by simp)) (.shotClose _)
  · exact .of_events (by simp)

theorem State.storePowerLow_events :
    s.storePowerLow.events = (s.setFlagIf (!s.store.queue.isEmpty) .storeFailed).events := by
  unfold State.storePowerLow State.setFlagIf
  dsimp only
  split <;> simp [(s.failQueue_recordsOnly s.store.queue .power).frame]

theorem FlagsGrow.storePowerLow : FlagsGrow s s.storePowerLow := by
  refine FlagsGrow.trans ?_ (.of_events s.storePowerLow_events)
  unfold State.setFlagIf
  split
  · exact .setFlag s _
  · exact .of_events rfl

/-! ### POWER_LOW -/

theorem State.takePowerLow_eq : s.takePowerLow =
    (((({ s with supply := { s.supply with powerLow := true, shutdown := .draining } }.setFlag
      .powerLow).shotDisarm.storePowerLow.chainPowerLow.preparePowerLow).zoomPowerLow.focusPowerLow).steadyPowerLow
      ).meterInput.flashProtect := rfl

/-- POWER_LOW taken leaves alone what belongs to no block that it is handed to (R199). -/
@[simp] theorem State.takePowerLow_frame :
    s.takePowerLow.pending = s.pending ∧ s.takePowerLow.lines = s.lines ∧
    s.takePowerLow.supply = { s.supply with powerLow := true, shutdown := .draining } ∧
    s.takePowerLow.link = s.link ∧ s.takePowerLow.memory = s.memory ∧ s.takePowerLow.settings = s.settings ∧
    s.takePowerLow.lane = s.lane ∧ s.takePowerLow.gyro = s.gyro := by
  simp [State.takePowerLow_eq]

/-- The flags that the Shot Sequencer and the Store Engine have set stand at the end of POWER_LOW's duties. -/
theorem FlagsGrow.takePowerLow :
    FlagsGrow ({ s with supply := { s.supply with powerLow := true, shutdown := .draining } }.setFlag
      .powerLow).shotDisarm.storePowerLow s.takePowerLow :=
  .of_events (by simp [State.takePowerLow_eq])

theorem State.takePowerLow_flags : FlagsGrow s s.takePowerLow ∧ s.takePowerLow.events.has .powerLow = true := by
  have hrest := (FlagsGrow.shotDisarm _).trans ((FlagsGrow.storePowerLow _).trans (FlagsGrow.takePowerLow s))
  exact ⟨FlagsGrow.trans (fun f hf => FlagsGrow.setFlag _ _ f hf) hrest, hrest _ (has_setFlag_same _ _)⟩

end Sys2Proof.Machine
end

section
/-! PROOFS. The end of start-up, SHUT DOWN with the drain and SAFE, and the Record Writer's writes. -/

namespace Sys2Proof.Machine

variable {s : State}

/-! ### The end of start-up -/

/-- POWER_LOW, by the shutdown state (R198, R199, R200). -/
theorem exec_powerLow (hp : s.supply.powered = true) (m : Moment) :
    exec (.powerLow m) s = .next (match s.supply.shutdown with
      | .starting => { s.arrive m with supply := { s.supply with powerLowEarly := true } }
      | .running | .draining => if s.supply.powerLow then s.arrive m else (s.arrive m).takePowerLow
      | .shutDown => if s.supply.powerLow then s.arrive m else (s.arrive m).setFlag .powerLow) := by
  change execPowerLow m s = _
  rw [execPowerLow, event_powered hp]
  rfl

/-- START UP END, once nothing but the mark RUNNING is left to write (R198). -/
theorem exec_startUpEnd (hp : s.supply.powered = true) (hs : s.supply.shutdown = .starting)
    (hq : s.writer.queue = []) (hw : s.writer.inFlight = none ∨ s.writer.inFlight = some (.mark .running))
    (m : Moment) : exec (.startUpEnd m) s = .next (s.arrive m).startUpEnd := by
  have hwritten : startUpWritten (s.arrive m) = true := by
    obtain hw | hw := hw <;> simp [startUpWritten, hq, hw]
  change execStartUpEnd m s = _
  rw [execStartUpEnd, event_powered hp]
  exact congrArg _ (if_pos ⟨hs, hwritten⟩)

/-- At the end of start-up a POWER_LOW asserted meanwhile is taken (R198). -/
theorem State.startUpEnd_early (s : State) (h : s.supply.powerLowEarly = true) :
    s.startUpEnd = (({ s with
      memory := { s.memory with mark := .good .running }
      writer := { s.writer with inFlight := none }
      supply := { s.supply with shutdown := .running }
      shot := { s.shot with iris := .startRun }
      flash := s.flash.followed s.map.mode } : State).setFlag .started).takePowerLow := by
  simp only [State.startUpEnd, State.flashFollowMode_eq, State.onFlash_frame, State.setFlag_frame, h]
  rfl

theorem FlashPort.followed_free {f : FlashPort} (h : f.protectDue = false) (mode : StoreMode) :
    f.followed mode = { f with writeProtect := decide (mode = .unprepared) } := by
  simp [FlashPort.followed, h]

/-- Settles O18: POWER_LOW while starting is noted; the end of start-up without it and with it. -/
theorem startUpEndsWithTheMarkRunning : Obligations.StartUpEndsWithTheMarkRunning := by
  unfold Obligations.StartUpEndsWithTheMarkRunning
  intro m s hp hs
  refine ⟨?_, fun hq hw hdue => ⟨fun he => ?_, fun he => ?_⟩⟩
  · rw [exec_powerLow hp, hs]
    rfl
  · rw [exec_startUpEnd hp hs hq hw, State.startUpEnd_calm (by exact he), FlashPort.followed_free (by exact hdue)]
    simp [hq]
  · refine ⟨_, exec_startUpEnd hp hs hq hw m, ?_⟩
    rw [State.startUpEnd_early _ (by exact he)]
    obtain ⟨hgrow, hlow⟩ := State.takePowerLow_flags (({ s.arrive m with
      memory := { (s.arrive m).memory with mark := .good .running }
      writer := { (s.arrive m).writer with inFlight := none }
      supply := { (s.arrive m).supply with shutdown := .running }
      shot := { (s.arrive m).shot with iris := .startRun }
      flash := (s.arrive m).flash.followed (s.arrive m).map.mode } : State).setFlag .started)
    refine ⟨by simp, by simp, hgrow _ (has_setFlag_same _ _), hlow⟩

/-! ### Write-protect -/

@[simp] theorem State.flashProtect_flash (s : State) : s.flashProtect.flash = { s.flash with protectDue := true }.settled := by
  rw [s.flashProtect_eq]
  rfl

@[simp] theorem FlashPort.settled_frame (f : FlashPort) :
    f.settled.store = f.store ∧ f.settled.read = f.read ∧ f.settled.refresh = f.refresh ∧ f.settled.last = f.last ∧
    f.settled.inFlight = f.inFlight ∧ f.settled.statusDone = f.statusDone ∧ f.settled.protectDue = f.protectDue ∧
    f.settled.lastMiddle = f.lastMiddle ∧ f.settled.register = f.register := by
  unfold FlashPort.settled
  split <;> simp

/-- Owed write-protect is asserted once no operation is in flight (R32). -/
theorem FlashPort.settled_writeProtect {f : FlashPort} (hd : f.protectDue = true) (hs : f.statusDone = true)
    (hf : f.inFlight = none) : f.settled.writeProtect = true := by
  simp [FlashPort.settled, FlashPort.quiet, hd, hs, hf]

/-! ### SHUT DOWN, the drain and SAFE -/

theorem exec_shutDown_refused (h : Taking s) (m : Moment) {c : Code} (hc : shutDownRefusal (taken 46 m s) = some c) :
    exec (.shutDown m) s = .next ((taken 46 m s).respond 46 (refuse c)) := by
  refine (request_taking h 46 m _).trans ?_
  rw [hc]

theorem exec_shutDown_accepted (h : Taking s) (m : Moment) (hc : shutDownRefusal (taken 46 m s) = none) :
    exec (.shutDown m) s = .next (({ taken 46 m s with supply :=
      { s.supply with shutdown := .draining, shutDownTaken := true } }.steadyOff.meterInput.flashProtect).respond 46
        (.ok, .empty, some .mark)) := by
  refine (request_taking h 46 m _).trans ?_
  rw [hc]
  simp

/-- SHUT DOWN is refused with the lens not parked, and then while work is under way (R200). -/
theorem shutDownRefusal_eq (s : State) : shutDownRefusal s =
    if s.zoom.state ≠ .parked then some .wrongState
    else if s.shot.state ≠ .idle ∨ s.store.queue ≠ [] ∨ s.chain.chain ≠ [] ∨ s.chain.refresh ≠ none ∨
      s.map.mode = .preparing then some .busy
    else none := by
  simp [shutDownRefusal, or_assoc, Option.isSome_iff_ne_none]

/-- The drain is over once nothing is left to do (R199, R200). -/
theorem exec_shutdownMarkWrite (hp : s.supply.powered = true) (hs : s.supply.shutdown = .draining)
    (hm : s.supply.markWritten = false) (hc : s.link.condition = .listening) (hd : drained s = true) (m : Moment) :
    exec (.shutdownMarkWrite m) s =
      .next ((s.arrive m).beginWrite (.mark (if s.supply.powerLow then .powerFail else .clean))) := by
  change execShutdownMarkWrite m s = _
  rw [execShutdownMarkWrite, event_powered hp]
  refine congrArg _ (if_pos ⟨hs, ?_, hd, hc⟩)
  simp [hm]

theorem exec_recordWriteComplete_mark {k : Mark} (hp : s.supply.powered = true) (hs : s.supply.shutdown ≠ .starting)
    (hw : s.writer.inFlight = some (.mark k)) (m : Moment) :
    exec (.recordWriteComplete m) s = .next { s.arrive m with
      memory := { s.memory with mark := .good k }
      writer := { s.writer with inFlight := none } }.markDone := by
  change execRecordWriteComplete m s = _
  rw [execRecordWriteComplete, event_powered hp]
  simp [hw, hs, Copy.item, RecordMemory.write]

theorem exec_safe (hp : s.supply.powered = true) (hs : s.supply.shutdown = .draining)
    (hm : s.supply.markWritten = true) (hw : s.flash.writeProtect = true) (m : Moment) :
    exec (.safe m) s = .next { s.arrive m with supply := { s.supply with safe := true, shutdown := .shutDown } } := by
  change execSafe m s = _
  rw [execSafe, event_powered hp]
  exact congrArg _ (if_pos ⟨hs, hm, hw⟩)

/-- Settles O20: SHUT DOWN by its checks, the mark's write at the end of the drain, and SAFE. -/
theorem shutDownDrainsAndRaisesSafe : Obligations.ShutDownDrainsAndRaisesSafe := by
  unfold Obligations.ShutDownDrainsAndRaisesSafe
  refine ⟨fun m s h => ⟨fun hz => ?_, fun hz hbusy => ?_, fun hz hshot hq hchain hrefresh hmode => ?_⟩,
    fun m s hp hs hm hc hw hshot hq hchain hrefresh hitem hf hstatus => ?_, fun m s k hp hs hw => ?_,
    fun m s hp hs hm hw => exec_safe hp hs hm hw m⟩
  · exact exec_shutDown_refused h m (by simp [shutDownRefusal_eq, hz])
  · refine exec_shutDown_refused h m ?_
    rw [shutDownRefusal_eq]
    simp [hz, hbusy]
  · refine ⟨_, exec_shutDown_accepted h m ?_, ?_⟩
    · simp [shutDownRefusal_eq, hz, hshot, hq, hchain, hrefresh, hmode]
    · refine ⟨by simp, by simp [State.steadyOff], by simp [State.steadyOff, Axis.still],
        by simp [State.steadyOff, Axis.still], by simp, fun hf hs => ?_, rfl, by simp, by simp, by simp, ?_⟩
      · simpa using FlashPort.settled_writeProtect (f := { s.flash with protectDue := true }) rfl hs hf
      · simp [State.steadyOff]
  · rw [exec_shutdownMarkWrite hp hs hm hc]
    · simp [State.beginWrite, hw]
    · simp [drained, FlashPort.quiet, hw, hshot, hq, hchain, hrefresh, hitem, hf, hstatus]
  · refine ⟨_, exec_recordWriteComplete_mark hp (by simp [hs]) hw m, by simp [State.markDone], by simp [State.markDone],
      by simp [State.markDone], fun r hr hh => ?_⟩
    simp [State.markDone, State.onPending, hr, hh]

/-! ### The Record Writer -/

/-- Without a pending response there is none to change. -/
theorem State.onPending_none (h : s.link.pending = none) (f : Response → Response) : s.onPending f = s := by
  obtain ⟨_, _, _, _, _, ⟨_, _, _, _⟩⟩ := s
  cases h
  rfl

/-- RECORD WRITE BEGIN takes the head item (R25). -/
theorem exec_recordWriteBegin {i : Item} {rest : List Item} (hp : s.supply.powered = true)
    (hw : s.writer.inFlight = none) (hc : s.link.condition = .listening) (hq : s.writer.queue = i :: rest)
    (m : Moment) : exec (.recordWriteBegin m) s = .next (({ s.arrive m with
      writer := { queue := rest, inFlight := some (copyOf s i) } }.onPending (heldBegin i)).onMap
        (·.writeBegins i)) := by
  have hcopy : copyOf { s.arrive m with writer := { (s.arrive m).writer with queue := rest } } i = copyOf s i := by
    cases i <;> rfl
  have hidle : ((s.arrive m).writer.inFlight.isSome || (s.arrive m).link.condition == .silent) = false := by
    simp [hw, hc]
  have hqueue : (s.arrive m).writer.queue = i :: rest := hq
  change execRecordWriteBegin m s = _
  rw [execRecordWriteBegin, event_powered hp]
  simp only [hidle, hqueue]
  rw [← hcopy]
  rfl

/-- RECORD WRITE COMPLETE of an item (R25, R26). -/
theorem exec_recordWriteComplete_item {c : Copy} {i : Item} (hp : s.supply.powered = true)
    (hw : s.writer.inFlight = some c) (hi : c.item = some i) (m : Moment) :
    exec (.recordWriteComplete m) s = .next (({ s.arrive m with
      memory := s.memory.write c, writer := { s.writer with inFlight := none } }.onPending (heldComplete i)).onMap
        (·.writeCompletes i)) := by
  change execRecordWriteComplete m s = _
  rw [execRecordWriteComplete, event_powered hp]
  simp [hw, hi]

theorem Copy.item_of_not_mark {c : Copy} (h : ∀ k, c ≠ .mark k) : ∃ i, c.item = some i := by
  cases c with
  | mark k => exact absurd rfl (h k)
  | _ => exact ⟨_, rfl⟩

/-- A response held by covers, when a write of an item begins (R26). -/
theorem heldBegin_covers {r : Response} {cs : List Cover} (h : r.held = some (.covers cs)) (i : Item) :
    heldBegin i r = { r with held := some (.covers (cs.map (·.onBegin i))) } := by
  simp [heldBegin, h]

/-- A response held by covers, when a write of an item completes (R26). -/
theorem heldComplete_covers {r : Response} {cs : List Cover} (h : r.held = some (.covers cs)) (i : Item) :
    heldComplete i r =
      { r with held := if coversAfter i cs = [] then none else some (.covers (coversAfter i cs)) } := by
  simp [heldComplete, h]

/-- A response held by no covers takes no notice of the Writer (R26). -/
theorem heldComplete_other {r : Response} (h : ∀ cs, r.held ≠ some (.covers cs)) (i : Item) :
    heldComplete i r = r := by
  unfold heldComplete
  split
  next cs hcs => exact absurd hcs (h cs)
  next => rfl

/-- What a returned block of place `p` waits for goes on when the write of the place begins (R41). -/
theorem BlockMap.writeBegins_place {m : BlockMap} {p b : Nat} (h : m.stateOf b = .dirty (.begins p)) :
    (m.writeBegins (.place p)).stateOf b = .dirty (.completes p) := by
  rw [BlockMap.writeBegins, BlockMap.mapStates_state m _ rfl, h]
  simp [BlockState.onBegin]

theorem BlockMap.writeCompletes_place (m : BlockMap) (p b : Nat) :
    (m.writeCompletes (.place p)).stateOf b = (m.stateOf b).onComplete p :=
  BlockMap.mapStates_state m _ rfl b

/-- Only a block that waits for the place's write to complete changes with it (R41). -/
theorem BlockState.onComplete_other {x : BlockState} {p : Nat} (h : x ≠ .dirty (.completes p)) :
    x.onComplete p = x := by
  unfold BlockState.onComplete
  split
  next q =>
    refine if_neg fun e => ?_
    exact h (by rw [e])
  next => rfl

theorem PreparePhase.onComplete_other {x : PreparePhase} (h : x ≠ .identityNone true) (h' : x ≠ .identityTotal true) :
    x.onComplete = x := by
  unfold PreparePhase.onComplete
  split
  · exact absurd rfl h
  · exact absurd rfl h'
  · rfl

theorem Option.map_eq_self_of {f : α → α} {o : Option α} (h : ∀ x, o = some x → f x = x) : o.map f = o := by
  cases o with
  | none => rfl
  | some x => exact congrArg some (h x rfl)

/-- The written place holds the copy; the others stay (R25). -/
theorem RecordMemory.write_place {mem : RecordMemory} (h : memoryOk mem) (p : Nat) (x : Option PicRecord) :
    mem.write (.place p x) = { mem with places := (mem.write (.place p x)).places } ∧
    Table.get p (mem.write (.place p x)).places = x.map .good ∧
    ∀ j, j ≠ p → Table.get j (mem.write (.place p x)).places = Table.get j mem.places := by
  cases x with
  | none => exact ⟨rfl, Table.get_erase_same h.1.1, fun j hj => Table.get_erase_other hj _⟩
  | some r => exact ⟨rfl, Table.get_put_same _ _ _, fun j hj => Table.get_put_other hj _ _⟩

/-- Settles O22: the write that begins, and the write that completes, item by item. -/
theorem writesCarryTheCopyAndCoverResponses : Obligations.WritesCarryTheCopyAndCoverResponses := by
  unfold Obligations.WritesCarryTheCopyAndCoverResponses
  refine ⟨fun m s i rest hp hw hc hq => ?_, fun m s c hcan hp hw hmark => ?_⟩
  · refine ⟨_, copyOf s i, exec_recordWriteBegin hp hw hc hq m, rfl, rfl, rfl, ?_, ?_, ?_, ?_, ?_, ?_, fun r cs hr hh => ?_,
      ?_, ?_⟩
    · rintro p rfl
      rfl
    iterate 5
      rintro rfl
      rfl
    · simp only [State.onMap_frame, State.onPending_link, State.arrive_link, Link.clock_pending, hr, Option.map_some,
        heldBegin_covers hh]
      rfl
    · rintro p b rfl hb
      exact BlockMap.writeBegins_place hb
    · rintro rfl
      refine ⟨fun x hx => ?_, fun x hx => ?_⟩ <;> exact (congrArg (Option.map PreparePhase.onBegin) hx).trans rfl
  · obtain ⟨i, hi⟩ := Copy.item_of_not_mark hmark
    have hmem : memoryOk s.memory := hcan.2.1
    refine ⟨_, exec_recordWriteComplete_item hp hw hi m, rfl, rfl, ?_, ?_, ?_, ?_, ?_, ?_, fun hr => ?_, fun r hr hh => ?_,
      fun j r cs hj hr hh => ?_⟩
    · rintro p x rfl
      cases hi
      obtain ⟨hrest, hsame, hother⟩ := RecordMemory.write_place hmem p x
      refine ⟨hrest, hsame, hother, fun b hb => ?_, fun b hb => ?_⟩
      · refine (BlockMap.writeCompletes_place _ p b).trans ?_
        exact (congrArg (BlockState.onComplete p) hb).trans (by simp [BlockState.onComplete])
      · exact (BlockMap.writeCompletes_place _ p b).trans (BlockState.onComplete_other hb)
    iterate 4
      rintro x rfl
      cases hi
      exact ⟨rfl, rfl⟩
    · rintro x rfl
      cases hi
      refine ⟨rfl, rfl, fun h => ?_, fun h => ?_, fun h h' => ?_⟩
      · exact (congrArg (Option.map PreparePhase.onComplete) h).trans rfl
      · exact (congrArg (Option.map PreparePhase.onComplete) h).trans rfl
      · exact Option.map_eq_self_of fun y hy => PreparePhase.onComplete_other (fun e => h (hy.trans (congrArg some e)))
          fun e => h' (hy.trans (congrArg some e))
    · rw [State.onPending_none (by exact hr)]
      rfl
    · simp [hr, heldComplete_other hh]
    · cases hi.symm.trans hj
      simp only [State.onMap_frame, State.onPending_link, State.arrive_link, Link.clock_pending, hr, Option.map_some,
        heldComplete_covers hh]
      rfl

end Sys2Proof.Machine
end

section
/-! PROOFS. The Catalogue's requests: naming, lookups, FIND NEXT, AMEND, RETIRE and CLEAR CATALOGUE. -/

namespace Sys2Proof.Machine

variable {s : State}

/-! ### Naming -/

theorem numberOk_iff (n : Nat) : numberOk n = true ↔ 1 ≤ n ∧ n ≤ 9999 := by
  simp [numberOk, Config.maxNumber]

theorem resolve_byNumber_bad (s : State) {n : Nat} (h : n < 1 ∨ 9999 < n) :
    resolve s (.byNumber n) = .error .badField := by
  refine if_neg ?_
  rw [numberOk_iff]
  omega

theorem resolve_byNumber (s : State) {n : Nat} (h : 1 ≤ n) (h' : n ≤ 9999) : resolve s (.byNumber n) =
    match findNumber n s.cat.places with | some e => .ok e | none => .error .noSuchRecord :=
  (if_pos ((numberOk_iff n).mpr ⟨h, h'⟩)).trans (by cases findNumber n s.cat.places <;> rfl)

theorem resolve_byPlace_bad (s : State) {p : Nat} (h : 1023 < p) : resolve s (.byPlace p) = .error .badField :=
  if_neg (by simp only [Config.placeCount]; omega)

theorem resolve_byPlace (s : State) {p : Nat} (h : p ≤ 1023) : resolve s (.byPlace p) =
    match s.record p with | some r => .ok (p, r) | none => .error .noSuchRecord :=
  (if_pos (by simp only [Config.placeCount]; omega)).trans (by cases s.record p <;> rfl)

/-- The record found by its number is the one at its place. -/
theorem Canonical.record_of_number (h : Canonical s) {n p : Nat} {r : PicRecord}
    (hr : findNumber n s.cat.places = some (p, r)) : s.record p = some r :=
  Table.get_of_mem h.1.1 (findNumber_mem hr).1

/-- A record's number finds a record. -/
theorem findNumber_of_record {n p : Nat} {r : PicRecord} (hr : s.record p = some r) (hn : r.number = some n) :
    ∃ e, findNumber n s.cat.places = some e := by
  rw [← Option.ne_none_iff_exists']
  intro hnone
  exact findNumber_none.mp hnone (p, r) (Table.get_mem hr) hn

theorem resolve_taken (k : Nat) (m : Moment) (s : State) (x : RecordName) : resolve (taken k m s) x = resolve s x := by
  cases x <;> simp [resolve, State.record]

/-! ### Lookups -/

theorem exec_lookup_error (h : Taking s) (m : Moment) {x : RecordName} {e : Code} (hx : resolve s x = .error e) :
    exec (.lookup m x) s = .next ((taken 1 m s).respond 1 (refuse e)) := by
  refine (request_taking h 1 m _).trans ?_
  rw [resolve_taken, hx]

theorem exec_lookup_ok (h : Taking s) (m : Moment) {x : RecordName} {p : Nat} {r : PicRecord}
    (hx : resolve s x = .ok (p, r)) : exec (.lookup m x) s =
      .next (((taken 1 m s).lookUp p r).1.respond 1 ((taken 1 m s).lookUp p r).2) := by
  refine (request_taking h 1 m _).trans ?_
  rw [resolve_taken, hx]

theorem exec_findNext_some (h : Taking s) (m : Moment) {n k p : Nat} {f : FindFilter} {r : PicRecord} (hn : n ≤ 9999)
    (hr : nextRecord n f s.cat.places = some (k, p, r)) : exec (.findNext m n (some f)) s =
      .next (((taken 3 m s).lookUp p r).1.respond 3 ((taken 3 m s).lookUp p r).2) := by
  refine (request_taking h 3 m _).trans ?_
  simp [Config.maxNumber, Nat.not_lt.mpr hn, hr]

theorem exec_findNext_none (h : Taking s) (m : Moment) {n : Nat} {f : FindFilter} (hn : n ≤ 9999)
    (hr : nextRecord n f s.cat.places = none) :
    exec (.findNext m n (some f)) s = .next ((taken 3 m s).respond 3 (.none, .empty, none)) := by
  refine (request_taking h 3 m _).trans ?_
  simp [Config.maxNumber, Nat.not_lt.mpr hn, hr]

theorem exec_findNext_bad (h : Taking s) (m : Moment) {n : Nat} {f : Option FindFilter} (hbad : 9999 < n ∨ f = none) :
    exec (.findNext m n f) s = .next ((taken 3 m s).respond 3 (refuse .badField)) := by
  refine (request_taking h 3 m _).trans ?_
  cases f with
  | none => rfl
  | some f => simp [Config.maxNumber, hbad.resolve_right (Option.some_ne_none f)]

theorem exec_nextPart_some (h : Taking s) (m : Moment) {k : Nat} {bs : List Nat} {rest : List (Nat × List Nat)}
    (hs : s.cat.snapshot = some ((k, bs) :: rest)) : exec (.nextPart m) s = .next ({ taken 2 m s with
      cat := { (taken 2 m s).cat with snapshot := if rest = [] then none else some rest } }.respond 2
        (okBody (.extentPart k bs))) := by
  have ht : (taken 2 m s).cat.snapshot = some ((k, bs) :: rest) := hs
  refine (request_taking h 2 m _).trans ?_
  rw [ht]
  cases rest <;> rfl

theorem State.dropSnapshot_none {s : State} (h : s.cat.snapshot = none) : s.dropSnapshot = s := by
  obtain ⟨_, _, _, _, _, _, _, _, ⟨_, _, _⟩⟩ := s
  cases h
  rfl

theorem exec_nextPart_none (h : Taking s) (m : Moment) (hs : s.cat.snapshot = none) :
    exec (.nextPart m) s = .next ((taken 2 m s).respond 2 (refuse .noMoreParts)) := by
  have ht : (taken 2 m s).cat.snapshot = none := hs
  refine (request_taking h 2 m _).trans ?_
  rw [ht]
  exact congrArg (fun u : State => Host.Outcome.next (u.respond 2 (refuse .noMoreParts))) (State.dropSnapshot_none ht)

/-- The extent parts that a lookup keeps (R14). -/
theorem State.lookUp_snapshot (s : State) (p : Nat) (r : PicRecord) : (s.lookUp p r).1 = { s with cat := { s.cat with
    snapshot := if r.extent = [] then none else if r.extent.length ≤ 24 then some [(2, r.extent)]
      else some [(2, r.extent.take 24), (3, r.extent.drop 24)] } } := by
  unfold State.lookUp extentParts
  rcases r.extent with _ | ⟨b, bs⟩
  · rfl
  · by_cases hlen : (b :: bs).length ≤ 24 <;>
      simp only [List.isEmpty_cons, hlen, reduceCtorEq, Bool.false_eq_true, ↓reduceIte]

/-- Settles O24: LOOKUP and FIND NEXT by the record they find, NEXT PART by the parts kept. -/
theorem lookupsAnswerInParts : Obligations.LookupsAnswerInParts := by
  unfold Obligations.LookupsAnswerInParts
  intro m s h header parts
  refine ⟨fun x p r hx => ?_, fun n f k p r hn hr => ?_, fun n f hn hr => exec_findNext_none h m hn hr,
    fun n f hn => exec_findNext_bad h m (.inl hn), fun n => exec_findNext_bad h m (.inr rfl),
    fun k bs hs => ?_, fun k bs y rest hs => ?_, fun hs => exec_nextPart_none h m hs⟩
  · rw [exec_lookup_ok h m hx, State.lookUp_snapshot]
    rfl
  · rw [exec_findNext_some h m hn hr, State.lookUp_snapshot]
    rfl
  · rw [exec_nextPart_some h m hs]
    rfl
  · rw [exec_nextPart_some h m hs]
    rfl

/-! ### FIND NEXT's search -/

theorem admits_iff (f : FindFilter) (r : PicRecord) : admits f r = true ↔ (f = .stored → r.state = .stored) := by
  cases f <;> simp [admits]

/-- The record `k` at `p` is a candidate of the search above `n`. -/
def Candidate (n : Nat) (f : FindFilter) (places : List (Nat × PicRecord)) (k p : Nat) (r : PicRecord) : Prop :=
  (p, r) ∈ places ∧ r.number = some k ∧ n < k ∧ (f = .stored → r.state = .stored)

theorem candidate_cons {n : Nat} {f : FindFilter} {e : Nat × PicRecord} {places : List (Nat × PicRecord)} {k p : Nat}
    {r : PicRecord} : Candidate n f (e :: places) k p r ↔
      ((p, r) = e ∧ r.number = some k ∧ n < k ∧ admits f r = true) ∨ Candidate n f places k p r := by
  simp only [Candidate, List.mem_cons, admits_iff]
  exact or_and_right

theorem nextRecord_skip {n : Nat} {f : FindFilter} {p : Nat} {r : PicRecord} {t : List (Nat × PicRecord)}
    (h : ∀ k, r.number = some k → n < k → admits f r = false) : nextRecord n f ((p, r) :: t) = nextRecord n f t := by
  rw [nextRecord]
  split
  next k hk =>
    refine if_neg ?_
    rw [Bool.and_eq_true, decide_eq_true_eq]
    rintro ⟨hlt, ha⟩
    exact absurd ha (by rw [h k hk hlt]; decide)
  next => rfl

theorem nextRecord_take {n k : Nat} {f : FindFilter} {p : Nat} {r : PicRecord} {t : List (Nat × PicRecord)}
    (hk : r.number = some k) (hlt : n < k) (ha : admits f r = true) : nextRecord n f ((p, r) :: t) =
      match nextRecord n f t with
      | some (j, q, x) => if j < k then some (j, q, x) else some (k, p, r)
      | none => some (k, p, r) := by
  rw [nextRecord, hk]
  exact if_pos (by simp [hlt, ha])

/-- The search finds the candidate with the smallest number, or there is none (R16). -/
theorem nextRecord_spec (n : Nat) (f : FindFilter) (places : List (Nat × PicRecord)) :
    (∀ k p r, nextRecord n f places = some (k, p, r) →
      Candidate n f places k p r ∧ ∀ j q x, Candidate n f places j q x → k ≤ j) ∧
    (nextRecord n f places = none → ∀ j q x, ¬Candidate n f places j q x) := by
  induction places with
  | nil => simp [nextRecord, Candidate]
  | cons e t ih =>
    obtain ⟨p, r⟩ := e
    obtain ⟨ihsome, ihnone⟩ := ih
    by_cases hhead : ∃ k, r.number = some k ∧ n < k ∧ admits f r = true
    case neg =>
      have hcons : ∀ j q x, Candidate n f ((p, r) :: t) j q x ↔ Candidate n f t j q x := fun j q x => by
        rw [candidate_cons, or_iff_right]
        rintro ⟨e, hj, hlt, ha⟩
        cases e
        exact hhead ⟨j, hj, hlt, ha⟩
      have hskip : nextRecord n f ((p, r) :: t) = nextRecord n f t :=
        nextRecord_skip fun k hk hlt => Bool.eq_false_iff.mpr fun ha => hhead ⟨k, hk, hlt, ha⟩
      simp only [hcons, hskip]
      exact ⟨ihsome, ihnone⟩
    case pos =>
      obtain ⟨k, hk, hlt, ha⟩ := hhead
      have hmine : Candidate n f ((p, r) :: t) k p r := candidate_cons.mpr (.inl ⟨rfl, hk, hlt, ha⟩)
      have hbound : ∀ i, i ≤ k → (∀ j q x, Candidate n f t j q x → i ≤ j) →
          ∀ j q x, Candidate n f ((p, r) :: t) j q x → i ≤ j := fun i hi hrest j q x hc => by
        obtain ⟨e, hj, -⟩ | hc := candidate_cons.mp hc
        · cases e
          cases hk.symm.trans hj
          exact hi
        · exact hrest j q x hc
      rw [nextRecord_take hk hlt ha]
      rcases hrest : nextRecord n f t with _ | ⟨j, q, x⟩
      · refine ⟨fun k' p' r' e => ?_, fun e => ?_⟩
        · cases e
          exact ⟨hmine, hbound k (Nat.le_refl k) fun j q x hc => absurd hc (ihnone hrest j q x)⟩
        · cases e
      · obtain ⟨hc, hmin⟩ := ihsome j q x hrest
        dsimp only
        split
        next hjk =>
          refine ⟨fun k' p' r' e => ?_, fun e => ?_⟩
          · cases e
            exact ⟨candidate_cons.mpr (.inr hc), hbound j (Nat.le_of_lt hjk) hmin⟩
          · cases e
        next hjk =>
          refine ⟨fun k' p' r' e => ?_, fun e => ?_⟩
          · cases e
            exact ⟨hmine, hbound k (Nat.le_refl k) fun i q x hi => Nat.le_trans (Nat.not_lt.mp hjk) (hmin i q x hi)⟩
          · cases e

/-- Settles O25: by the candidates of the search. -/
theorem findNextTakesTheSmallestNumberAbove : Obligations.FindNextTakesTheSmallestNumberAbove := by
  unfold Obligations.FindNextTakesTheSmallestNumberAbove
  intro n f places
  obtain ⟨hsome, hnone⟩ := nextRecord_spec n f places
  refine ⟨fun k p r h => ?_, fun h q x j hm hj hlt ha => hnone h j q x ⟨hm, hj, hlt, ha⟩⟩
  obtain ⟨⟨hm, hk, hlt, ha⟩, hmin⟩ := hsome k p r h
  exact ⟨hm, hk, hlt, ha, fun q x j hm hj hlt ha => hmin j q x ⟨hm, hj, hlt, ha⟩⟩

/-! ### AMEND -/

theorem amendEmpty_iff (c : AmendChange) :
    amendEmpty c = true ↔ c = { protect := none, rating := none, caption := none, trim := none } := by
  obtain ⟨_, _, _, _⟩ := c
  simp [amendEmpty, and_assoc]

theorem amendCheck_taken (x : RecordName) (c : AmendChange) (k : Nat) (m : Moment) (s : State) :
    amendCheck x c (taken k m s) = amendCheck x c s := by
  simp only [amendCheck, resolve_taken, taken_frame]

theorem exec_amend_error (h : Taking s) (m : Moment) {x : RecordName} {c : AmendChange} {e : Code}
    (hx : amendCheck x c s = .error e) : exec (.amend m x c) s = .next ((taken 4 m s).respond 4 (refuse e)) := by
  refine (request_taking h 4 m _).trans ?_
  rw [amendCheck_taken, hx]

theorem exec_amend_ok (h : Taking s) (m : Moment) {x : RecordName} {c : AmendChange} {p : Nat} {r : PicRecord}
    (hx : amendCheck x c s = .ok (p, r)) : exec (.amend m x c) s =
      .next (((taken 4 m s).claim p (r.amend c)).respond 4 (heldOk .empty [.place p])) := by
  refine (request_taking h 4 m _).trans ?_
  rw [amendCheck_taken, hx]

/-- The checks of an AMEND that names a record, in their order (R17). -/
theorem amendCheck_eq {x : RecordName} {c : AmendChange} {p : Nat} {r : PicRecord} (hm : s.map.mode ≠ .preparing)
    (hc : amendEmpty c = false) (hx : resolve s x = .ok (p, r)) : amendCheck x c s =
      if r.state = .damaged then .error .wrongState
      else if setsTrim c = true ∧ r.state ≠ .stored then .error .wrongState
      else if amendRanges c r = true then .ok (p, r) else .error .badField := by
  simp only [amendCheck, hm, hc, hx]
  cases amendRanges c r <;> simp

theorem setsTrim_iff (c : AmendChange) : setsTrim c = true ↔ ∃ b, c.trim = some (.set b) := by
  unfold setsTrim
  split <;> simp_all

theorem captionOk_iff (t : List Byte) :
    captionOk t = true ↔ t.length ≤ 32 ∧ ∀ ch ∈ t, 32 ≤ ch.toNat ∧ ch.toNat ≤ 126 := by
  simp [captionOk, printable]

theorem trimOk_iff (b : TrimBox) (w h : Nat) :
    trimOk b w h = true ↔ 1 ≤ b.width ∧ 1 ≤ b.height ∧ b.left + b.width ≤ w ∧ b.top + b.height ≤ h := by
  simp [trimOk, and_assoc]

/-- The ranges of an AMEND's values (R17). -/
theorem amendRanges_iff (c : AmendChange) (r : PicRecord) : amendRanges c r = true ↔
    (∀ k, c.rating = some k → k ≤ 5) ∧ (∀ cap, c.caption = some cap → captionOk cap = true) ∧
    ∀ b, c.trim = some (.set b) → ∃ y, r.picture = some y ∧ trimOk b y.width y.height = true := by
  rw [amendRanges, Bool.and_eq_true, Bool.and_eq_true, and_assoc]
  refine and_congr ?_ (and_congr ?_ ?_)
  · cases c.rating <;> simp
  · cases c.caption <;> simp
  · rcases c.trim with _ | _ | b
    · simp
    · cases r.picture <;> simp
    · simp

/-- Settles O26: AMEND's checks one after the other, then the claim of the amended record. -/
theorem amendChangesOneRecordAtOnce : Obligations.AmendChangesOneRecordAtOnce := by
  unfold Obligations.AmendChangesOneRecordAtOnce
  intro m s x c h u bad wrong
  refine ⟨fun hm => ?_, fun hm hc => ?_, fun hm hc p r hx => ?_⟩
  · exact exec_amend_error h m (if_pos hm)
  · exact exec_amend_error h m ((if_neg hm).trans (if_pos ((amendEmpty_iff c).mpr hc)))
  have hcheck := amendCheck_eq hm (Bool.eq_false_iff.mpr fun he => hc ((amendEmpty_iff c).mp he)) hx
  have hranges : r.state ≠ .damaged → (r.state = .stored ∨ ∀ b, c.trim ≠ some (.set b)) → amendRanges c r ≠ true →
      exec (.amend m x c) s = .next bad := fun hd ht hr => by
    have htrim : ¬(setsTrim c = true ∧ r.state ≠ .stored) := by
      rw [setsTrim_iff]
      rintro ⟨⟨b, hb⟩, hs⟩
      exact ht.elim hs fun hn => hn b hb
    exact exec_amend_error h m (by rw [hcheck, if_neg hd, if_neg htrim, if_neg hr])
  refine ⟨fun hd => ?_, fun b hs ht => ?_, fun k hd ht hk hlt => ?_, fun cap hd ht hcap hbad => ?_,
    fun b y hs ht hy hbad => ?_, fun hd hk hcap ht => ?_⟩
  · exact exec_amend_error h m (by rw [hcheck, if_pos hd])
  · refine exec_amend_error h m ?_
    rw [hcheck]
    split
    · rfl
    · exact if_pos ⟨(setsTrim_iff c).mpr ⟨b, ht⟩, hs⟩
  · refine hranges hd ht fun hr => ?_
    have := ((amendRanges_iff c r).mp hr).1 k hk
    omega
  · refine hranges hd ht fun hr => ?_
    obtain ⟨hlen, hall⟩ := (captionOk_iff cap).mp (((amendRanges_iff c r).mp hr).2.1 cap hcap)
    obtain hbad | ⟨ch, hch, hbad⟩ := hbad
    · omega
    · have := hall ch hch
      omega
  · refine hranges (by rw [hs]; decide) (.inl hs) fun hr => ?_
    obtain ⟨z, hz, hok⟩ := ((amendRanges_iff c r).mp hr).2.2 b ht
    cases hy.symm.trans hz
    have := (trimOk_iff b y.width y.height).mp hok
    omega
  · have htrim : ¬(setsTrim c = true ∧ r.state ≠ .stored) := by
      rw [setsTrim_iff]
      rintro ⟨⟨b, hb⟩, hs⟩
      exact hs (ht b hb).1
    have hr : amendRanges c r = true := by
      refine (amendRanges_iff c r).mpr ⟨hk, fun cap hc => (captionOk_iff cap).mpr (hcap cap hc), fun b hb => ?_⟩
      obtain ⟨-, y, hy, hbox⟩ := ht b hb
      exact ⟨y, hy, (trimOk_iff _ _ _).mpr hbox⟩
    exact exec_amend_ok h m (by rw [hcheck, if_neg hd, if_neg htrim, if_pos hr])

/-! ### RETIRE and CLEAR CATALOGUE -/

theorem retirable_iff (x : RecState) : x.retirable = true ↔ x = .stored ∨ x = .failed ∨ x = .damaged := by
  cases x <;> simp [RecState.retirable]

theorem retireCheck_taken (x : RecordName) (k : Nat) (m : Moment) (s : State) :
    retireCheck x (taken k m s) = retireCheck x s := by
  simp only [retireCheck, resolve_taken, taken_frame]

theorem exec_retire_error (h : Taking s) (m : Moment) {x : RecordName} {e : Code} (hx : retireCheck x s = .error e) :
    exec (.retire m x) s = .next ((taken 5 m s).respond 5 (refuse e)) := by
  refine (request_taking h 5 m _).trans ?_
  rw [retireCheck_taken, hx]

theorem exec_retire_ok (h : Taking s) (m : Moment) {x : RecordName} {p : Nat} (hx : retireCheck x s = .ok p) :
    exec (.retire m x) s = .next (((taken 5 m s).freePlace p).respond 5 (heldOk .empty [.place p])) := by
  refine (request_taking h 5 m _).trans ?_
  rw [retireCheck_taken, hx]

/-- The checks of a RETIRE that names a record, in their order (R19). -/
theorem retireCheck_eq {x : RecordName} {p : Nat} {r : PicRecord} (hm : s.map.mode ≠ .preparing)
    (hx : resolve s x = .ok (p, r)) : retireCheck x s =
      if r.state.retirable = true then
        if r.protect = true then .error .protect else if 0 < r.holds then .error .held else .ok p
      else .error .wrongState := by
  simp only [retireCheck, hm, hx]
  cases r.state.retirable <;> simp

theorem exec_clearCatalogue (h : Taking s) (m : Moment) : exec (.clearCatalogue m) s =
    .next (if s.map.mode = .preparing then (taken 6 m s).respond 6 (refuse .busy)
      else ((taken 6 m s).freePlaces (clearable (taken 6 m s))).respond 6
        (heldOk (.cleared (clearable (taken 6 m s)).length
          ((taken 6 m s).cat.places.length - (clearable (taken 6 m s)).length))
          ((clearable (taken 6 m s)).map .place))) := by
  refine (request_taking h 6 m _).trans ?_
  by_cases hm : s.map.mode = .preparing <;> simp [hm]

theorem clearable_eq (s : State) : clearable s = (s.cat.places.filter fun e =>
    (e.2.state == .stored || e.2.state == .failed || e.2.state == .damaged) && !e.2.protect && e.2.holds == 0).map
      (·.1) := by
  refine congrArg (List.map _) (List.filter_congr fun e _ => ?_)
  cases e.2.state <;> rfl

theorem State.record_freePlace_same (h : Canonical s) (p : Nat) : (s.freePlace p).record p = none := by
  rw [State.record, State.freePlace_places]
  exact Table.get_erase_same h.1.1

theorem State.record_freePlace_other (s : State) {p j : Nat} (hj : j ≠ p) : (s.freePlace p).record j = s.record j := by
  rw [State.record, State.freePlace_places]
  exact Table.get_erase_other hj _

/-- What freeing a place without a refresh extent does to the Block Map and the write queue (R3). -/
theorem State.freePlace_eq {p : Nat} {r : PicRecord} (hr : s.record p = some r) (hx : r.refreshExtent = none) :
    s.freePlace p = ((s.onMap fun m => (m.release r.remaining).returnAll (.begins p) r.extent).dropRecord p).markDirty
      (.place p) := by
  rw [State.freePlace, hr]
  dsimp only
  rw [hx]
  rfl

/-- Settles O27: RETIRE by its checks, CLEAR CATALOGUE by the places it may retire, and what a freed place leaves. -/
theorem retiringFreesPlacesAndBlocks : Obligations.RetiringFreesPlacesAndBlocks := by
  unfold Obligations.RetiringFreesPlacesAndBlocks
  refine ⟨fun m s x h => ⟨fun hm => ?_, fun hm p r hx => ?_⟩, fun m s h => ⟨fun hm => ?_, fun hm hf => ?_, fun hm hf => ?_⟩,
    fun s p r hcan hr hx => ?_⟩
  · exact exec_retire_error h m (if_pos hm)
  · have hcheck := retireCheck_eq hm hx
    refine ⟨fun h1 h2 h3 => ?_, fun hret hp => ?_, fun hret hp hh => ?_, fun hret hp hh => ?_⟩
    · refine exec_retire_error h m ?_
      rw [hcheck, if_neg]
      rw [retirable_iff]
      rintro (e | e | e) <;> contradiction
    · exact exec_retire_error h m (by rw [hcheck, if_pos ((retirable_iff _).mpr hret), if_pos hp])
    · refine exec_retire_error h m ?_
      rw [hcheck, if_pos ((retirable_iff _).mpr hret), hp, if_neg (by decide), if_pos hh]
    · refine exec_retire_ok h m ?_
      rw [hcheck, if_pos ((retirable_iff _).mpr hret), hp, if_neg (by decide), hh, if_neg (by decide)]
  · rw [exec_clearCatalogue h, if_pos hm]
    rfl
  · rw [exec_clearCatalogue h, if_neg hm, clearable_eq, hf]
    rfl
  · rw [exec_clearCatalogue h, if_neg hm, clearable_eq, heldOk, if_neg (by simpa using hf)]
    simp only [List.map_map]
    rfl
  · rw [State.freePlace_eq hr hx]
    have hret : ∀ b, b ∉ r.extent → ((s.map.release r.remaining).returnAll (.begins p) r.extent).stateOf b =
        s.map.stateOf b := fun b hb => BlockMap.returnAll_other _ hb
    refine ⟨?_, fun j hj => ?_, rfl, ?_, fun b hb hu => ?_, hret⟩
    · rw [← State.freePlace_eq hr hx, State.record_freePlace_same hcan]
    · rw [← State.freePlace_eq hr hx, State.record_freePlace_other s hj]
    · exact congrArg BlockMap.reserved (BlockMap.returnAll_frame (.begins p) r.extent (s.map.release r.remaining))
    · exact BlockMap.returnAll_inUse (BlockMap.release_ok hcan.2.2.2.1 _) _ hb hu

/-- Settles O23: R13's checks, and the requests that name a record by them. -/
theorem recordsAreNamedByNumberOrPlace : Obligations.RecordsAreNamedByNumberOrPlace := by
  unfold Obligations.RecordsAreNamedByNumberOrPlace
  refine ⟨fun s n hn => resolve_byNumber_bad s hn, fun s p hp => resolve_byPlace_bad s hp,
    fun s n h1 h2 hcan => ⟨fun p r hx => ?_, fun hnone => ?_, fun p r hr hn => ?_⟩, fun s p hp => ⟨fun hr => ?_, fun r hr => ?_⟩,
    fun m s x e h hx => ⟨exec_lookup_error h m hx, fun c hm hc => exec_amend_error h m ?_,
      fun hm => exec_retire_error h m ?_⟩⟩
  · rw [resolve_byNumber s h1 h2] at hx
    split at hx
    next y hy =>
      cases hx
      exact ⟨hcan.record_of_number hy, (findNumber_mem hy).2⟩
    next => cases hx
  · have : findNumber n s.cat.places = none :=
      findNumber_none.mpr fun e he => hnone e.1 e.2 (Table.get_of_mem hcan.1.1 he)
    rw [resolve_byNumber s h1 h2, this]
  · obtain ⟨⟨q, x⟩, hq⟩ := findNumber_of_record hr hn
    exact ⟨q, x, by rw [resolve_byNumber s h1 h2, hq]⟩
  · rw [resolve_byPlace s hp, hr]
  · rw [resolve_byPlace s hp, hr]
  · simp [amendCheck, hm, hc, hx]
  · simp [retireCheck, hm, hx]

end Sys2Proof.Machine
end

section
/-! PROOFS. The Flash Port's arbiter and first status read. -/

namespace Sys2Proof.Machine

variable {s : State}

/-! ### The arbiter -/

theorem FlashPort.settled_eq (f : FlashPort) : f.settled = { f with writeProtect :=
    if f.protectDue = true ∧ f.statusDone = true ∧ f.inFlight = none then true else f.writeProtect } := by
  unfold FlashPort.settled FlashPort.quiet
  by_cases h : f.protectDue = true ∧ f.statusDone = true ∧ f.inFlight = none
  · obtain ⟨h1, h2, h3⟩ := h
    simp [h1, h2, h3]
  · rw [if_neg h, if_neg]
    simpa using h

/-- Under write-protect an operation that writes does not count as waiting (R34). -/
theorem counted_none {f : FlashPort} {x : Option FlashOp}
    (h : ∀ op, x = some op → ¬(op.writes = true → f.writeProtect = false)) : counted f x = none := by
  cases x with
  | none => rfl
  | some op =>
    have := h op rfl
    simp_all [counted]

theorem counted_some {f : FlashPort} {op : FlashOp} (h : op.writes = true → f.writeProtect = false) :
    counted f (some op) = some op := by
  refine if_neg ?_
  rw [Bool.and_eq_true]
  rintro ⟨hw, hp⟩
  exact absurd (h hw) (by simp [hp])

theorem choose_store {f : FlashPort} {op : FlashOp} (h : counted f f.store = some op) :
    choose f = some (.store, op, f.lastMiddle) := by
  simp [choose, h]

theorem choose_read {f : FlashPort} {op : FlashOp} (hs : counted f f.store = none) (hr : counted f f.read = some op)
    (ht : counted f f.refresh = none ∨ f.lastMiddle = .refresh) : choose f = some (.readChain, op, .read) := by
  rcases hw : counted f f.refresh with _ | w
  · simp [choose, hs, hr, hw]
  · simp [choose, hs, hr, hw, ht.resolve_left (by simp [hw])]

theorem choose_refresh {f : FlashPort} {op : FlashOp} (hs : counted f f.store = none)
    (hw : counted f f.refresh = some op) (ht : counted f f.read = none ∨ f.lastMiddle = .read) :
    choose f = some (.refresh, op, .refresh) := by
  rcases hr : counted f f.read with _ | r
  · simp [choose, hs, hr, hw]
  · simp [choose, hs, hr, hw, ht.resolve_left (by simp [hr])]

theorem choose_last {f : FlashPort} (hs : counted f f.store = none) (hr : counted f f.read = none)
    (hw : counted f f.refresh = none) : choose f =
      match f.last with
      | some (c, op) => (counted f (some op)).map fun o => (c, o, f.lastMiddle)
      | none => none := by
  simp only [choose, hs, hr, hw] <;> rcases f.last with _ | ⟨c, op⟩ <;> rfl

theorem exec_arbiterGrant (hp : s.supply.powered = true) (m : Moment) : exec (.arbiterGrant m) s =
    .next (if portIdle s = true then
      match choose s.flash with
      | some (c, op, mid) => (s.arrive m).flashGrant c op mid
      | none => s.arrive m
    else s.arrive m) := by
  change execArbiterGrant m s = _
  rw [execArbiterGrant, event_powered hp] <;> rfl

theorem portIdle_iff (s : State) : portIdle s = true ↔
    s.flash.statusDone = true ∧ s.flash.inFlight = none ∧ s.link.condition = .listening := by
  simp [portIdle, FlashPort.quiet, and_assoc]

theorem exec_arbiterGrant_some (hp : s.supply.powered = true) (hi : portIdle s = true) {c : Claimant} {op : FlashOp}
    {mid : MiddleGrant} (hc : choose s.flash = some (c, op, mid)) (m : Moment) :
    exec (.arbiterGrant m) s = .next ((s.arrive m).flashGrant c op mid) := by
  rw [exec_arbiterGrant hp, if_pos hi, hc]

theorem exec_arbiterGrant_none (hp : s.supply.powered = true) (hc : choose s.flash = none) (m : Moment) :
    exec (.arbiterGrant m) s = .next (s.arrive m) := by
  rw [exec_arbiterGrant hp, hc, ite_self]

/-- What a grant makes of the port (R29, R34). -/
def FlashPort.granted (total : Nat) (c : Claimant) (op : FlashOp) (mid : MiddleGrant) (f : FlashPort) : FlashPort :=
  { f.setWaiting c none with
    inFlight := some { claimant := c, op := op, cycles := addressCycles total, discard := false }
    lastMiddle := mid
    register := match op with | .program _ _ d => some (d, pageCodes d) | _ => (f.setWaiting c none).register }

/-- What a grant makes of the Store Engine (R58, R61). -/
def StoreEngine.granted (c : Claimant) (op : FlashOp) (e : StoreEngine) : StoreEngine :=
  match c, op with
  | .store, .program _ _ _ => e.programGranted
  | _, _ => e

theorem State.flashGrant_eq (s : State) (c : Claimant) (op : FlashOp) (mid : MiddleGrant) :
    s.flashGrant c op mid = { s with
      flash := s.flash.granted s.map.total c op mid, store := s.store.granted c op } := by
  cases op <;> cases c <;> rfl

theorem StoreEngine.granted_other {c : Claimant} {op : FlashOp} (e : StoreEngine)
    (h : c ≠ .store ∨ ∀ b p d, op ≠ .program b p d) : e.granted c op = e := by
  unfold StoreEngine.granted
  split
  next b p d => exact absurd rfl (h.elim id fun h => absurd rfl (h b p d))
  next => rfl

theorem StoreEngine.programGranted_queue (e : StoreEngine) : e.programGranted.queue = e.queue := by
  unfold StoreEngine.programGranted
  (repeat' split) <;> rfl

theorem StoreEngine.granted_queue (e : StoreEngine) (c : Claimant) (op : FlashOp) : (e.granted c op).queue = e.queue := by
  unfold StoreEngine.granted
  split
  · exact e.programGranted_queue
  · rfl

/-- A grant that is not the Store Engine's changes the port alone. -/
theorem exec_arbiterGrant_other (hp : s.supply.powered = true) (hi : portIdle s = true) {c : Claimant} {op : FlashOp}
    {mid : MiddleGrant} (hs : c ≠ .store) (hc : choose s.flash = some (c, op, mid)) (m : Moment) :
    exec (.arbiterGrant m) s = .next { s.arrive m with flash := s.flash.granted s.map.total c op mid } := by
  rw [exec_arbiterGrant_some hp hi hc, State.flashGrant_eq, StoreEngine.granted_other _ (.inl hs)]
  rfl

theorem exec_flashStatusReadDone (hp : s.supply.powered = true) (m : Moment) : exec (.flashStatusReadDone m) s =
    .next { s.arrive m with flash := { s.flash with statusDone := true }.settled } := by
  change execFlashStatusReadDone m s = _
  rw [execFlashStatusReadDone, event_powered hp, State.flashSettle_eq]
  rfl

/-- Settles O29: the status read, and the arbiter's choice level by level. -/
theorem arbiterGrantsByLevel : Obligations.ArbiterGrantsByLevel := by
  unfold Obligations.ArbiterGrantsByLevel
  intro m s hp u may idle loaded flown
  have hflown : ∀ c op mid, s.flash.granted s.map.total c op mid = flown c op mid (s.flash.setWaiting c none) :=
    fun c op mid => by cases op <;> cases c <;> rfl
  have hidle : ∀ {x}, idle x → counted s.flash x = none := fun h => counted_none h
  have hmay : ∀ {op}, may op → counted s.flash (some op) = some op := fun h => counted_some h
  refine ⟨?_, fun hbusy => ?_, fun hs hf hc => ?_⟩
  · rw [exec_flashStatusReadDone hp, FlashPort.settled_eq]
    simp only [true_and]
    rfl
  · rw [exec_arbiterGrant hp, if_neg]
    rw [portIdle_iff]
    rintro ⟨hs, hf, -⟩
    exact hbusy.elim (by simp [hs]) (absurd hf)
  have hi : portIdle s = true := (portIdle_iff s).mpr ⟨hs, hf, hc⟩
  refine ⟨fun op hop hm => ?_, fun op hst hop hm ht => ?_, fun op hst hop hm ht => ?_,
    fun c op hst hr hw hop hm hcl => ?_, fun hst hr hw hl => ?_⟩
  · have hchoose := choose_store (f := s.flash) (by rw [hop]; exact hmay hm)
    refine ⟨_, exec_arbiterGrant_some hp hi hchoose m, ?_⟩
    rw [State.flashGrant_eq]
    refine ⟨hflown _ _ _, rfl, rfl, rfl, rfl, StoreEngine.granted_queue _ _ _, ?_, ?_, fun hn => ?_⟩
    · rintro b p d rest rfl hrec hord
      simp [StoreEngine.granted, StoreEngine.programGranted, hrec, hord]
    · rintro b p d rest rfl hrec hord
      simp [StoreEngine.granted, StoreEngine.programGranted, hrec, hord]
    · exact StoreEngine.granted_other _ (.inr hn)
  · rw [exec_arbiterGrant_other hp hi (by decide)
      (choose_read (hidle hst) (by rw [hop]; exact hmay hm) (ht.imp_left hidle)), hflown]
    rfl
  · rw [exec_arbiterGrant_other hp hi (by decide)
      (choose_refresh (hidle hst) (by rw [hop]; exact hmay hm) (ht.imp_left hidle)), hflown]
    rfl
  · have hchoose : choose s.flash = some (c, op, s.flash.lastMiddle) := by
      rw [choose_last (hidle hst) (hidle hr) (hidle hw), hop]
      exact congrArg (Option.map fun o => (c, o, s.flash.lastMiddle)) (hmay hm)
    rw [exec_arbiterGrant_other hp hi (by rintro rfl; simp at hcl) hchoose, hflown]
    obtain rfl | rfl := hcl <;> rfl
  · refine exec_arbiterGrant_none hp ?_ m
    rw [choose_last (hidle hst) (hidle hr) (hidle hw)]
    split
    next c op hop => rw [counted_none fun o ho => by cases ho; exact hl c op hop]; rfl
    next => rfl

end Sys2Proof.Machine
end

section
/-! PROOFS. PREPARE STORE from its acceptance to its end. -/

namespace Sys2Proof.Machine

variable {s : State}

/-! ### The write queue -/

theorem Writer.mem_mark_self (i : Item) (w : Writer) : i ∈ (w.mark i).queue := by
  unfold Writer.mark
  split
  next h => exact List.contains_iff_mem.mp h
  next => simp

theorem Writer.mem_mark {i j : Item} {w : Writer} (h : j ∈ w.queue) : j ∈ (w.mark i).queue := by
  unfold Writer.mark
  split
  · exact h
  · simp [h]

theorem Writer.mem_markAll {is : List Item} {j : Item} {w : Writer} (h : j ∈ is ∨ j ∈ w.queue) :
    j ∈ (is.foldl (fun w i => w.mark i) w).queue := by
  induction is generalizing w with
  | nil => exact h.resolve_left (by simp)
  | cons i is ih =>
    refine ih ?_
    obtain h | h := h
    · obtain rfl | h := List.mem_cons.mp h
      · exact .inr (Writer.mem_mark_self _ _)
      · exact .inl h
    · exact .inr (Writer.mem_mark h)

theorem State.mem_freePlace {i : Item} {s : State} (h : i ∈ s.writer.queue) (p : Nat) :
    i ∈ (s.freePlace p).writer.queue := by
  unfold State.freePlace
  split
  · exact h
  · exact Writer.mem_mark h

theorem State.mem_freePlaces {i : Item} {s : State} (h : i ∈ s.writer.queue) (ps : List Nat) :
    i ∈ (s.freePlaces ps).writer.queue := by
  unfold State.freePlaces
  induction ps generalizing s with
  | nil => exact h
  | cons p ps ih => exact ih (State.mem_freePlace h p)

theorem State.freePlaces_recordsOnly (s : State) (ps : List Nat) : RecordsOnly s (s.freePlaces ps) :=
  RecordsOnly.foldl ps State.freePlace_recordsOnly s

/-! ### PREPARE STORE -/

theorem FlashOp.isMark_iff (op : FlashOp) : op.isMark = true ↔ ∃ b, op = .grownMark b := by
  cases op <;> simp [FlashOp.isMark]

theorem FlashPort.marking_iff (c : Claimant) (f : FlashPort) : f.marking c = true ↔
    (∃ b, f.waitingOf c = some (.grownMark b)) ∨
    ∃ x b, f.inFlight = some x ∧ x.claimant = c ∧ x.op = .grownMark b := by
  rw [FlashPort.marking, Bool.or_eq_true]
  refine or_congr ?_ ?_
  · cases f.waitingOf c <;> simp [FlashOp.isMark_iff]
  · cases f.inFlight <;> simp [FlashOp.isMark_iff]

/-- A grown mark of the Store Engine or of a refresh waits or is in flight (R48, R83). -/
theorem marks_iff (f : FlashPort) : f.marking .store = true ∨ f.marking .refresh = true ↔
    (∃ b, f.store = some (.grownMark b) ∨ f.refresh = some (.grownMark b)) ∨
    ∃ x b, f.inFlight = some x ∧ (x.claimant = .store ∨ x.claimant = .refresh) ∧ x.op = .grownMark b := by
  simp only [FlashPort.marking_iff, FlashPort.waitingOf]
  constructor
  · rintro ((⟨b, h⟩ | ⟨x, b, h, hc, ho⟩) | ⟨b, h⟩ | ⟨x, b, h, hc, ho⟩)
    · exact .inl ⟨b, .inl h⟩
    · exact .inr ⟨x, b, h, .inl hc, ho⟩
    · exact .inl ⟨b, .inr h⟩
    · exact .inr ⟨x, b, h, .inr hc, ho⟩
  · rintro (⟨b, h | h⟩ | ⟨x, b, h, hc | hc, ho⟩)
    · exact .inl (.inl ⟨b, h⟩)
    · exact .inr (.inl ⟨b, h⟩)
    · exact .inl (.inr ⟨x, b, h, hc, ho⟩)
    · exact .inr (.inr ⟨x, b, h, hc, ho⟩)

theorem canPrepare_iff (s : State) : canPrepare s = true ↔ s.map.mode ≠ .preparing ∧ s.shot.state = .idle ∧
    s.store.queue = [] ∧ s.chain.chain = [] ∧ s.chain.refresh = none ∧ s.store.marks = [] ∧ s.chain.refreshMarks = [] ∧
    ¬(s.flash.marking .store = true ∨ s.flash.marking .refresh = true) := by
  simp [canPrepare, and_assoc]

theorem canPrepare_taken (k : Nat) (m : Moment) (s : State) : canPrepare (taken k m s) = canPrepare s := by
  simp only [canPrepare, taken_frame]

theorem exec_prepareStore (h : Taking s) (m : Moment) : exec (.prepareStore m) s =
    .next (if canPrepare s = true then (taken 8 m s).prepareBegin.respond 8 ok
      else (taken 8 m s).respond 8 (refuse .busy)) := by
  refine (request_taking h 8 m _).trans ?_
  rw [canPrepare_taken]
  cases canPrepare s <;> rfl

@[simp] theorem State.freePlaces_frame (s : State) (ps : List Nat) :
    (s.freePlaces ps).memory = s.memory ∧ (s.freePlaces ps).flash = s.flash ∧ (s.freePlaces ps).link = s.link :=
  have h := (s.freePlaces_recordsOnly ps).frame
  ⟨h.2.2.2.2.2.2.1, h.2.2.2.2.2.2.2.2.1, h.2.2.2.2.2.1⟩

@[simp] theorem State.freePlaces_map (s : State) (ps : List Nat) :
    (s.freePlaces ps).map.mode = s.map.mode ∧ (s.freePlaces ps).map.identity = s.map.identity ∧
    (s.freePlaces ps).map.prepare = s.map.prepare ∧ (s.freePlaces ps).map.inHand = s.map.inHand ∧
    (s.freePlaces ps).cat.counter = s.cat.counter := by
  obtain ⟨-, hmode, hident, -, hprep, hhand⟩ := (s.freePlaces_recordsOnly ps).map
  exact ⟨hmode, hident, hprep, hhand, (s.freePlaces_recordsOnly ps).cat.1⟩

@[simp] theorem FlashPort.withdrawn_frame (c : Claimant) (f : FlashPort) :
    (f.withdrawn c).inFlight = f.inFlight ∧ (f.withdrawn c).statusDone = f.statusDone ∧
    (f.withdrawn c).protectDue = f.protectDue ∧ (f.withdrawn c).writeProtect = f.writeProtect ∧
    (f.withdrawn c).lastMiddle = f.lastMiddle ∧ (f.withdrawn c).register = f.register := by
  unfold FlashPort.withdrawn
  split
  · cases c <;> simp [FlashPort.setWaiting]
  · simp

/-- Dropping the block in hand changes it, what background work waits for, and whether its result is discarded (R41). -/
theorem State.backgroundDrop_eq (s : State) : s.backgroundDrop =
    (s.onMap fun m => { m with inHand := none }).onFlash fun f => { f.withdrawn .background with
      inFlight := f.inFlight.map fun x => if x.claimant = .background then { x with discard := true } else x } := by
  rw [State.backgroundDrop, State.flashWithdraw_eq]
  simp only [State.flashDiscard, State.onFlash, State.onMap, FlashPort.withdrawn_frame]

/-- The beginning of an accepted PREPARE STORE (R48, R49). -/
theorem State.prepareBegin_map (s : State) : s.prepareBegin.map.mode = .preparing ∧ s.prepareBegin.map.identity = none ∧
    s.prepareBegin.map.total = 0 ∧ s.prepareBegin.map.reserved = 0 ∧
    s.prepareBegin.map.prepare = some (.identityNone false) ∧ s.prepareBegin.map.inHand = none := by
  simp [State.prepareBegin, State.backgroundDrop_eq]

theorem State.prepareBegin_frame (s : State) : s.prepareBegin.cat.counter = s.cat.counter ∧
    s.prepareBegin.memory = s.memory ∧ s.prepareBegin.link = s.link := by
  simp [State.prepareBegin, State.backgroundDrop_eq]

theorem State.prepareBegin_dirty (s : State) : Item.identity ∈ s.prepareBegin.writer.queue ∧
    ∀ p, p < 1024 → Item.place p ∈ s.prepareBegin.writer.queue := by
  simp only [State.prepareBegin, State.flashFollowMode_frame, State.onMap_frame]
  refine ⟨State.mem_freePlaces (Writer.mem_markAll (.inr (Writer.mem_mark_self _ _))) _, fun p hp => ?_⟩
  refine State.mem_freePlaces (Writer.mem_markAll (.inl ?_)) _
  simpa [allPlaces, Config.placeCount] using hp

theorem State.prepareBegin_writeProtect {s : State} (h : s.flash.protectDue = false) :
    s.prepareBegin.flash.writeProtect = false := by
  simp [State.prepareBegin, State.backgroundDrop_eq, State.flashFollowMode_eq, FlashPort.followed, h]

/-- PREPARE SCAN START (R49). -/
theorem exec_prepareScanStart (hp : s.supply.powered = true) (hd : s.map.prepare = some .scanDue) (m : Moment) :
    exec (.prepareScanStart m) s = .next { s.arrive m with
      map := { s.map with total := s.settings.flashBlocks, blocks := [], badList := [], allocCursor := 0
                          eraseCursor := 0, reserved := 0, prepare := some (.scanning 0) }
      writer := s.writer.mark .badList
      flash := { s.flash with last := some (.prepare, .rawRead 0 0) } } := by
  change execPrepareScanStart m s = _
  rw [execPrepareScanStart, event_powered hp]
  exact congrArg _ (if_pos hd)

/-- PREPARE STORE END (R50). -/
theorem exec_prepareStoreEnd (hp : s.supply.powered = true) (hd : s.map.prepare = some .endDue) (m : Moment) :
    exec (.prepareStoreEnd m) s = .next ({ s.arrive m with
      map := { s.map with mode := .writable, prepare := none }
      flash := s.flash.followed .writable }.setFlag .maintenanceDone) := by
  change execPrepareStoreEnd m s = _
  rw [execPrepareStoreEnd, event_powered hp]
  refine congrArg _ ((if_pos hd).trans ?_)
  rw [State.flashFollowMode_eq]
  rfl

/-- Settles O32: the checks of PREPARE STORE, what its acceptance leaves, and the two events of its course. -/
theorem prepareStoreEmptiesAndEnds : Obligations.PrepareStoreEmptiesAndEnds := by
  unfold Obligations.PrepareStoreEmptiesAndEnds
  intro m s
  refine ⟨fun h => ⟨fun hbusy => ?_, fun hm hsh hq hc hr hsm hrm hst href hf => ?_⟩,
    fun hp hd => exec_prepareScanStart hp hd m, fun hp hd hdue => ?_⟩
  · rw [exec_prepareStore h, if_neg]
    · rfl
    · rw [canPrepare_iff, marks_iff]
      rintro ⟨h1, h2, h3, h4, h5, h6, h7, h8⟩
      obtain e | e | e | e | e | e | e | e := hbusy
      · exact h1 e
      · exact e h2
      · exact e h3
      · exact e h4
      · exact e h5
      · exact e h6
      · exact e h7
      · exact h8 e
  · have hcan : canPrepare s = true := by
      rw [canPrepare_iff, marks_iff]
      refine ⟨hm, hsh, hq, hc, hr, hsm, hrm, ?_⟩
      rintro (⟨b, h | h⟩ | ⟨x, b, hx, hcl, ho⟩)
      · exact hst b h
      · exact href b h
      · exact hf x hx hcl b ho
    obtain ⟨hblocks, hplaces⟩ := (taken 8 m s).prepareBegin_blocks
    obtain ⟨hmode, hident, htotal, hres, hprep, hhand⟩ := (taken 8 m s).prepareBegin_map
    obtain ⟨hcounter, hmem, -⟩ := (taken 8 m s).prepareBegin_frame
    obtain ⟨hdirty, hdirties⟩ := (taken 8 m s).prepareBegin_dirty
    refine ⟨_, (exec_prepareStore h m).trans (congrArg _ (if_pos hcan)), hplaces, hcounter, hmode, hident, htotal,
      hblocks, hres, hprep, hhand, hdirty, hdirties, fun hdue => ?_, hmem, rfl⟩
    exact State.prepareBegin_writeProtect (s := taken 8 m s) hdue
  · rw [exec_prepareStoreEnd hp hd, FlashPort.followed_free hdue]
    rfl

end Sys2Proof.Machine
end

section
/-! PROOFS. The search for the lowest-numbered block of a kind. -/

namespace Sys2Proof.Machine

/-! ### The lowest block of a kind -/

/-- The lowest-numbered listed block at or after `start` whose state is of the kind `p`. -/
def firstFrom (p : BlockState → Bool) (start : Nat) : List (Nat × BlockState) → Option Nat
  | [] => none
  | (b, x) :: t => if start ≤ b ∧ p x = true then some b else firstFrom p start t

theorem erasedFrom_eq (start : Nat) (t : List (Nat × BlockState)) :
    erasedFrom start t = firstFrom (· == .erased) start t := by
  induction t with
  | nil => rfl
  | cons e t ih => simp only [erasedFrom, firstFrom, ih, beq_iff_eq]

theorem dirtyFrom_eq (start : Nat) (t : List (Nat × BlockState)) :
    dirtyFrom start t = firstFrom BlockState.isDirty start t := by
  induction t with
  | nil => rfl
  | cons e t ih => simp only [dirtyFrom, firstFrom, ih]

variable {p : BlockState → Bool} {start : Nat}

theorem firstFrom_mem {ok : BlockState → Bool} {t : List (Nat × BlockState)} (h : Table.wf ok t = true) {j : Nat}
    (hj : firstFrom p start t = some j) : start ≤ j ∧ (∃ x, (j, x) ∈ t ∧ p x = true) ∧
      ∀ e ∈ t, start ≤ e.1 → p e.2 = true → j ≤ e.1 := by
  induction t with
  | nil => cases hj
  | cons e t ih =>
    obtain ⟨b, x⟩ := e
    obtain ⟨-, hb, ht⟩ := (Table.wf_cons ok b x t).mp h
    rw [firstFrom] at hj
    split at hj
    next hx =>
      cases hj
      refine ⟨hx.1, ⟨x, by simp, hx.2⟩, fun e he _ _ => ?_⟩
      obtain rfl | he := List.mem_cons.mp he
      · exact Nat.le_refl _
      · exact Nat.le_of_lt (hb e he)
    next hx =>
      obtain ⟨hs, ⟨y, hy, hpy⟩, hmin⟩ := ih ht hj
      refine ⟨hs, ⟨y, List.mem_cons_of_mem _ hy, hpy⟩, fun e he hse hpe => ?_⟩
      obtain rfl | he := List.mem_cons.mp he
      · exact absurd ⟨hse, hpe⟩ hx
      · exact hmin e he hse hpe

theorem firstFrom_none {t : List (Nat × BlockState)} (hj : firstFrom p start t = none) :
    ∀ e ∈ t, start ≤ e.1 → p e.2 = false := by
  induction t with
  | nil => simp
  | cons e t ih =>
    obtain ⟨b, x⟩ := e
    rw [firstFrom] at hj
    split at hj
    next hx => cases hj
    next hx =>
      intro e he hse
      obtain rfl | he := List.mem_cons.mp he
      · exact Bool.eq_false_iff.mpr fun hp => hx ⟨hse, hp⟩
      · exact ih hj e he hse

/-- A block in a kind of state that UNCHECKED is not of is listed with it. -/
theorem BlockMap.listed_of_state {m : BlockMap} (hp : p .unchecked = false) {b : Nat} (hb : p (m.stateOf b) = true) :
    (b, m.stateOf b) ∈ m.blocks := by
  unfold BlockMap.stateOf at hb ⊢
  rcases h : Table.get b m.blocks with _ | x
  · rw [h] at hb
    exact absurd hb (by simp [hp])
  · exact Table.get_mem h

theorem BlockMap.stateOf_of_mem {m : BlockMap} {ok : BlockState → Bool} (h : Table.wf ok m.blocks = true) {b : Nat}
    {x : BlockState} (hb : (b, x) ∈ m.blocks) : m.stateOf b = x := by
  rw [BlockMap.stateOf, Table.get_of_mem h hb, Option.getD_some]

/-- What the search finds, by the blocks' states. -/
theorem BlockMap.firstFrom_spec {m : BlockMap} {ok : BlockState → Bool} (h : Table.wf ok m.blocks = true)
    (hp : p .unchecked = false) {j : Nat} (hj : firstFrom p start m.blocks = some j) :
    start ≤ j ∧ p (m.stateOf j) = true ∧ ∀ i, start ≤ i → i < j → p (m.stateOf i) = false := by
  obtain ⟨hs, ⟨x, hx, hpx⟩, hmin⟩ := firstFrom_mem h hj
  refine ⟨hs, by rwa [BlockMap.stateOf_of_mem h hx], fun i hi hij => ?_⟩
  refine Bool.eq_false_iff.mpr fun hpi => ?_
  exact absurd (hmin _ (BlockMap.listed_of_state hp hpi) hi hpi) (Nat.not_le.mpr hij)

theorem BlockMap.firstFrom_none_iff {m : BlockMap} {ok : BlockState → Bool} (h : Table.wf ok m.blocks = true)
    (hp : p .unchecked = false) :
    firstFrom p start m.blocks = none ↔ ∀ i, start ≤ i → p (m.stateOf i) = false := by
  refine ⟨fun hn i hi => Bool.eq_false_iff.mpr fun hpi => ?_, fun hall => ?_⟩
  · exact absurd (firstFrom_none hn _ (BlockMap.listed_of_state hp hpi) hi) (by simp [hpi])
  · rcases hj : firstFrom p start m.blocks with _ | j
    · rfl
    · obtain ⟨hs, hpj, -⟩ := BlockMap.firstFrom_spec h hp hj
      exact absurd hpj (by simp [hall j hs])

theorem BlockMap.firstFrom_eq_some {m : BlockMap} {ok : BlockState → Bool} (h : Table.wf ok m.blocks = true)
    (hp : p .unchecked = false) {j : Nat} (hs : start ≤ j) (hj : p (m.stateOf j) = true)
    (hmin : ∀ i, start ≤ i → i < j → p (m.stateOf i) = false) : firstFrom p start m.blocks = some j := by
  rcases hk : firstFrom p start m.blocks with _ | k
  · exact absurd hj (by simp [(BlockMap.firstFrom_none_iff h hp).mp hk j hs])
  · obtain ⟨hsk, hpk, hmink⟩ := BlockMap.firstFrom_spec h hp hk
    obtain hlt | rfl | hlt := Nat.lt_trichotomy k j
    · exact absurd hpk (by simp [hmin k hsk hlt])
    · rfl
    · exact absurd hj (by simp [hmink j hs hlt])

end Sys2Proof.Machine
end

section
/-! PROOFS. Results of flash operations, and the prepare's scan and erase pass. -/

namespace Sys2Proof.Machine

variable {s : State}

/-! ### The result of an operation -/

/-- The operation in flight has given its result: the port is idle and owed write-protect is asserted (R28 to R32). -/
def State.landed (s : State) : State := { s with flash := { s.flash with inFlight := none }.settled }

theorem flashResult_landed {x : InFlightOp} (hx : s.flash.inFlight = some x) {kind : FlashOp → Bool}
    (hk : kind x.op = true) (f : InFlightOp → State → State) : flashResult kind f s = f x s.landed := by
  have hl : (s.onFlash fun p => { p with inFlight := none }).flashSettle = s.landed := by
    rw [State.flashSettle_eq]
    rfl
  rw [flashResult, hx]
  exact (if_pos hk).trans (congrArg (f x) hl)

/-- Without owed write-protect the port just becomes idle. -/
theorem State.landed_free (h : s.flash.protectDue = false) :
    s.landed = { s with flash := { s.flash with inFlight := none } } := by
  rw [State.landed, FlashPort.settled_eq]
  simp only [h, Bool.false_eq_true, false_and, if_false]

/-- Owed write-protect is asserted with the result, once the first status read is done (R32). -/
theorem State.landed_owed (h : s.flash.protectDue = true) : s.landed = { s with flash := { s.flash with
    inFlight := none, writeProtect := if s.flash.statusDone then true else s.flash.writeProtect } } := by
  rw [State.landed, FlashPort.settled_eq]
  refine congrArg (fun w => { s with flash := { s.flash with inFlight := none, writeProtect := w } }) ?_
  refine ite_congr (propext ?_) (fun _ => rfl) fun _ => rfl
  simp [h]

section
variable {x : InFlightOp} (hp : s.supply.powered = true) (hx : s.flash.inFlight = some x) (m : Moment)
include hp hx

theorem exec_pageReadDone (hk : x.op.isRead = true) (r : PageRead) :
    exec (.pageReadDone m r) s = .next (pageReadResult r x (s.arrive m).landed) := by
  change execPageReadDone m r s = _
  rw [execPageReadDone, event_powered hp, flashResult_landed (by exact hx) hk]

theorem exec_pageProgramDone (hk : x.op.isProgram = true) (pass : Bool) : exec (.pageProgramDone m pass) s =
    .next (match x.claimant with
      | .store => (s.arrive m).landed.storeProgramDone x.discard pass
      | .refresh =>
        if x.discard then (s.arrive m).landed.refreshKick else (s.arrive m).landed.refreshProgramDone pass
      | _ => (s.arrive m).landed) := by
  change execPageProgramDone m pass s = _
  rw [execPageProgramDone, event_powered hp, flashResult_landed (by exact hx) hk] <;> cases x.claimant <;> rfl

theorem exec_copyBackDone (hk : x.op.isCopy = true) (c : CopyRead) (pass : Bool) : exec (.copyBackDone m c pass) s =
    .next (match x.claimant with
      | .store => ((s.arrive m).landed.flashRegister c.data).storeCopyDone x.discard c.counts pass
      | .refresh =>
        if x.discard then ((s.arrive m).landed.flashRegister c.data).refreshKick
        else ((s.arrive m).landed.flashRegister c.data).refreshCopyDone c.counts pass
      | _ => (s.arrive m).landed.flashRegister c.data) := by
  change execCopyBackDone m c pass s = _
  rw [execCopyBackDone, event_powered hp, flashResult_landed (by exact hx) hk] <;> cases x.claimant <;> rfl

theorem exec_blockEraseDone (hk : x.op.isErase = true) (pass : Bool) : exec (.blockEraseDone m pass) s =
    .next (match x.claimant with
      | .background =>
        if x.discard then (s.arrive m).landed else (s.arrive m).landed.backgroundErased x.op.block pass
      | .prepare => if x.discard then (s.arrive m).landed else (s.arrive m).landed.prepareEraseDone x.op.block pass
      | _ => (s.arrive m).landed) := by
  change execBlockEraseDone m pass s = _
  rw [execBlockEraseDone, event_powered hp, flashResult_landed (by exact hx) hk] <;> cases x.claimant <;> rfl

theorem exec_grownMarkProgramDone (hk : x.op.isMark = true) (pass : Bool) : exec (.grownMarkProgramDone m pass) s =
    .next (match x.claimant with
      | .store => (s.arrive m).landed.storeGoOn
      | .refresh => (s.arrive m).landed.refreshKick
      | .prepare => (s.arrive m).landed.prepareMarked x.op.block
      | _ => (s.arrive m).landed) := by
  change execGrownMarkProgramDone m pass s = _
  rw [execGrownMarkProgramDone, event_powered hp, flashResult_landed (by exact hx) hk] <;> cases x.claimant <;> rfl

end

/-! ### What the scan and the erase pass make of a block -/

theorem BlockMap.setState_known {m : BlockMap} {b : Nat} (hb : b < m.total) {x : BlockState} (hx : x ≠ .unchecked) :
    m.setState b x = { m with blocks := Table.put b x m.blocks } := by
  rw [BlockMap.setState, if_pos hb, if_neg hx]

theorem BlockMap.setState_unknown {m : BlockMap} {b : Nat} (hb : m.total ≤ b) (x : BlockState) : m.setState b x = m :=
  if_neg (Nat.not_lt.mpr hb)

theorem Writer.mark_mark (i : Item) (w : Writer) : (w.mark i).mark i = w.mark i :=
  if_pos (List.contains_iff_mem.mpr (Writer.mem_mark_self i w))

theorem markKind_iff {x : MarkRead} {k : BadKind} :
    markKind x = some k ↔ (x = .factory ∧ k = .factory) ∨ (x = .grown ∧ k = .grown) := by
  cases x <;> cases k <;> simp [markKind]

theorem markKind_of_ne {x : MarkRead} (h : x ≠ .clear) : ∃ k, markKind x = some k := by
  cases x with
  | clear => exact absurd rfl h
  | factory => exact ⟨_, rfl⟩
  | grown => exact ⟨_, rfl⟩

theorem State.prepareScanned_clear {r : PageRead} (hr : r.mark = .clear) (b : Nat) (s : State) :
    s.prepareScanned b r = some (s.onMap (·.setState b (.dirty .ready))) := by
  simp [State.prepareScanned, hr, markKind]

theorem State.prepareScanned_bad {r : PageRead} {k : BadKind} (hr : markKind r.mark = some k)
    (hl : s.map.badList.length < 256) (b : Nat) : s.prepareScanned b r = some (s.prepareBad b k) := by
  simp only [State.prepareScanned, hr]
  exact if_pos hl

theorem State.prepareScanned_full {r : PageRead} {k : BadKind} (hr : markKind r.mark = some k)
    (hl : 256 ≤ s.map.badList.length) (b : Nat) : s.prepareScanned b r = none := by
  simp only [State.prepareScanned, hr]
  exact if_neg (Nat.not_lt.mpr hl)

theorem State.prepareErased_bad (hl : s.map.badList.length < 256) (b : Nat) :
    s.prepareErased b false = some (s.prepareBad b .grown) := if_pos hl

theorem State.prepareErased_full (hl : 256 ≤ s.map.badList.length) (b : Nat) : s.prepareErased b false = none :=
  if_neg (Nat.not_lt.mpr hl)

theorem State.prepareBad_known {b : Nat} (hb : b < s.map.total) (k : BadKind) : s.prepareBad b k = { s with
    map := { s.map with blocks := Table.put b .bad s.map.blocks, badList := Table.put b k s.map.badList }
    writer := s.writer.mark .badList } := by
  rw [State.prepareBad, State.onMap, BlockMap.setState_known hb (by decide)]
  rfl

theorem State.prepareBad_unknown {b : Nat} (hb : s.map.total ≤ b) (k : BadKind) : s.prepareBad b k = { s with
    map := { s.map with badList := Table.put b k s.map.badList }, writer := s.writer.mark .badList } := by
  rw [State.prepareBad, State.onMap, BlockMap.setState_unknown hb]
  rfl

/-! ### The course of the erase pass -/

theorem State.prepareErase_some {b j : Nat} (hj : firstFrom BlockState.isDirty b s.map.blocks = some j) :
    s.prepareErase b = { s with
      map := { s.map with prepare := some (.erasing j) }
      flash := { s.flash with last := some (.prepare, .erase j) } } := by
  rw [State.prepareErase, dirtyFrom_eq, hj]
  rfl

theorem State.prepareErase_none {b : Nat} (hj : firstFrom BlockState.isDirty b s.map.blocks = none) :
    s.prepareErase b = { s with
      map := { s.map with identity := some s.map.total, prepare := some (.identityTotal false) }
      writer := s.writer.mark .identity } := by
  rw [State.prepareErase, dirtyFrom_eq, hj]
  rfl

/-- The erase pass has a next block: the lowest DIRTY one (R50). -/
theorem firstDirty_some {x : BlockMap} {ok : BlockState → Bool} (h : Table.wf ok x.blocks = true) {b j : Nat}
    (hb : b ≤ j) (hj : ∃ w, x.stateOf j = .dirty w) (hmin : ∀ i, b ≤ i → i < j → ∀ w, x.stateOf i ≠ .dirty w) :
    firstFrom BlockState.isDirty b x.blocks = some j := by
  refine BlockMap.firstFrom_eq_some h rfl hb ((BlockState.isDirty_iff _).mpr hj) fun i hi hij => ?_
  refine Bool.eq_false_iff.mpr fun hd => ?_
  obtain ⟨w, hw⟩ := (BlockState.isDirty_iff _).mp hd
  exact hmin i hi hij w hw

/-- The erase pass is done: no DIRTY block is left (R50). -/
theorem firstDirty_none {x : BlockMap} {ok : BlockState → Bool} (h : Table.wf ok x.blocks = true) {b : Nat}
    (hall : ∀ j, b ≤ j → ∀ w, x.stateOf j ≠ .dirty w) : firstFrom BlockState.isDirty b x.blocks = none := by
  refine (BlockMap.firstFrom_none_iff h rfl).mpr fun i hi => Bool.eq_false_iff.mpr fun hd => ?_
  obtain ⟨w, hw⟩ := (BlockState.isDirty_iff _).mp hd
  exact hall i hi w hw

theorem State.prepareScanNext_lt {b : Nat} (hb : b + 1 < s.map.total) : s.prepareScanNext b = { s with
    map := { s.map with prepare := some (.scanning (b + 1)) }
    flash := { s.flash with last := some (.prepare, .rawRead (b + 1) 0) } } := by
  rw [State.prepareScanNext, if_pos hb]
  rfl

theorem State.prepareScanNext_end {b : Nat} (hb : s.map.total ≤ b + 1) :
    s.prepareScanNext b = (s.markDirty .badList).prepareErase 0 := if_neg (Nat.not_lt.mpr hb)

/-- TOO_MANY_BAD in a prepare that goes on (R50). -/
theorem State.prepareTooMany_going (hs : s.map.prepare ≠ some .stopping) (hd : s.flash.protectDue = false) :
    s.prepareTooMany = ({ s with
      map := { s.map with total := 0, blocks := [], badList := [], mode := .unprepared, prepare := none }
      writer := s.writer.mark .badList
      flash := { s.flash with writeProtect := true } } : State).setFlag .maintenanceDone := by
  have hgo : (!(s.map.prepare == some .stopping)) = true := by simpa using hs
  rw [State.prepareTooMany, State.prepareUnprepared, State.flashFollowMode_eq, hgo]
  simp only [State.onMap_frame, State.markDirty_frame, State.onFlash, State.setFlagIf, if_true]
  rw [FlashPort.followed_free hd]
  rfl

/-- TOO_MANY_BAD in a prepare that POWER_LOW has ended (R50). -/
theorem State.prepareTooMany_stopping (hs : s.map.prepare = some .stopping) (ht : s.map.total = 0)
    (hm : s.map.mode = .unprepared) (hd : s.flash.protectDue = true) : s.prepareTooMany = { s with
      map := { s.map with blocks := [], badList := [], prepare := none }, writer := s.writer.mark .badList } := by
  have hgo : (!(s.map.prepare == some .stopping)) = false := by simp [hs]
  rw [State.prepareTooMany, State.prepareUnprepared, State.flashFollowMode_eq, hgo]
  simp only [State.onMap_frame, State.markDirty_frame, State.onFlash, State.setFlagIf, FlashPort.followed, hd, if_true]
  simp [State.onMap, State.markDirty, ← ht, ← hm]

end Sys2Proof.Machine
end

section
/-! PROOFS. Every result of a prepare's operation. -/

namespace Sys2Proof.Machine

variable {s t : State}

theorem State.prepareRead_going {b : Nat} {r : PageRead} (hs : s.map.prepare ≠ some .stopping)
    (ht : s.prepareScanned b r = some t) : s.prepareRead b r = t.prepareScanNext b := by
  simp only [State.prepareRead, ht]
  exact if_neg hs

theorem State.prepareRead_stopping {b : Nat} {r : PageRead} (hs : s.map.prepare = some .stopping)
    (ht : s.prepareScanned b r = some t) : s.prepareRead b r = t.prepareStopped := by
  simp only [State.prepareRead, ht]
  exact if_pos hs

theorem State.prepareRead_full {b : Nat} {r : PageRead} (ht : s.prepareScanned b r = none) :
    s.prepareRead b r = s.prepareTooMany := by
  simp only [State.prepareRead, ht]

theorem State.prepareEraseDone_pass (hs : s.map.prepare ≠ some .stopping) (b : Nat) :
    s.prepareEraseDone b true = (s.onMap (·.setState b .erased)).prepareErase (b + 1) := if_neg hs

theorem State.prepareEraseDone_bad (hs : s.map.prepare ≠ some .stopping) (hl : s.map.badList.length < 256) (b : Nat) :
    s.prepareEraseDone b false = (s.prepareBad b .grown).prepareAsk (.marking b) (.grownMark b) := by
  simp only [State.prepareEraseDone, State.prepareErased_bad hl]
  exact if_neg hs

theorem State.prepareEraseDone_full (hl : 256 ≤ s.map.badList.length) (b : Nat) :
    s.prepareEraseDone b false = s.prepareTooMany := by
  simp only [State.prepareEraseDone, State.prepareErased_full hl]

theorem State.prepareEraseDone_stopping (hs : s.map.prepare = some .stopping) {b : Nat} {pass : Bool}
    (ht : s.prepareErased b pass = some t) : s.prepareEraseDone b pass = t.prepareStopped := by
  simp only [State.prepareEraseDone, ht]
  exact if_pos hs

theorem State.prepareStopped_eq (hs : s.map.prepare = some .stopping) :
    s.prepareStopped = { s with map := { s.map with prepare := none } } := if_pos hs

section
variable {x : InFlightOp} (hp : s.supply.powered = true) (hx : s.flash.inFlight = some x) (hc : x.claimant = .prepare)
  (m : Moment)
include hp hx hc

theorem exec_prepare_read (hd : x.discard = false) {b g : Nat} (ho : x.op = .rawRead b g) (r : PageRead) :
    exec (.pageReadDone m r) s = .next ((s.arrive m).landed.prepareRead b r) := by
  rw [exec_pageReadDone hp hx m (by rw [ho]; rfl), pageReadResult, hc, ho]
  simp [hd]

theorem exec_prepare_erase (hd : x.discard = false) {b : Nat} (ho : x.op = .erase b) (pass : Bool) :
    exec (.blockEraseDone m pass) s = .next ((s.arrive m).landed.prepareEraseDone b pass) := by
  rw [exec_blockEraseDone hp hx m (by rw [ho]; rfl), hc]
  simp [hd, ho, FlashOp.block]

theorem exec_prepare_mark {b : Nat} (ho : x.op = .grownMark b) (pass : Bool) :
    exec (.grownMarkProgramDone m pass) s = .next ((s.arrive m).landed.prepareMarked b) := by
  rw [exec_grownMarkProgramDone hp hx m (by rw [ho]; rfl), hc]
  simp [ho, FlashOp.block]

end

theorem BlockMap.stateOf_put_other (m : BlockMap) {b j : Nat} (hj : j ≠ b) (x : BlockState) :
    { m with blocks := Table.put b x m.blocks }.stateOf j = m.stateOf j :=
  congrArg (Option.getD · _) (Table.get_put_other hj x m.blocks)

/-- The next DIRTY block above one that has become ERASED. -/
theorem BlockMap.firstDirty_above {m : BlockMap} (hm : mapOk m) {b j : Nat} (hbj : b < j)
    (hj : ∃ w, m.stateOf j = .dirty w) (hmin : ∀ i, b < i → i < j → ∀ w, m.stateOf i ≠ .dirty w) :
    firstFrom BlockState.isDirty (b + 1) (Table.put b .erased m.blocks) = some j := by
  have hother : ∀ i, b < i → { m with blocks := Table.put b .erased m.blocks }.stateOf i = m.stateOf i :=
    fun i hi => m.stateOf_put_other (Nat.ne_of_gt hi) _
  refine firstDirty_some (x := { m with blocks := Table.put b .erased m.blocks })
    (Table.wf_put (by simp) hm.1.1) hbj ?_ fun i hi hij => ?_
  · rw [hother j hbj]
    exact hj
  · rw [hother i hi]
    exact hmin i hi hij

theorem BlockMap.noDirty_above {m : BlockMap} (hm : mapOk m) {b : Nat} (hall : ∀ j, b < j → ∀ w, m.stateOf j ≠ .dirty w) :
    firstFrom BlockState.isDirty (b + 1) (Table.put b .erased m.blocks) = none := by
  refine firstDirty_none (x := { m with blocks := Table.put b .erased m.blocks })
    (Table.wf_put (by simp) hm.1.1) fun i hi => ?_
  rw [m.stateOf_put_other (Nat.ne_of_gt hi)]
  exact hall i hi

/-- Where the scan of the last block leaves the erase pass (R50). -/
theorem State.prepareErase_afterScan {v : State} {b : Nat} {x : BlockState} (hx : x ≠ .unchecked)
    {l : List (Nat × BadKind)} (hm : mapOk s.map) (hv : v.map = { s.map with blocks := Table.put b x s.map.blocks, badList := l })
    (hq : v.writer.mark .badList = s.writer.mark .badList) :
    (∀ j, (∃ w, v.map.stateOf j = .dirty w) → (∀ i, i < j → ∀ w, v.map.stateOf i ≠ .dirty w) →
      (v.markDirty .badList).prepareErase 0 = { v with
        map := { v.map with prepare := some (.erasing j) }
        writer := s.writer.mark .badList
        flash := { v.flash with last := some (.prepare, .erase j) } }) ∧
    ((∀ j w, v.map.stateOf j ≠ .dirty w) → (v.markDirty .badList).prepareErase 0 = { v with
      map := { v.map with identity := some v.map.total, prepare := some (.identityTotal false) }
      writer := (s.writer.mark .badList).mark .identity }) := by
  have hwf : Table.wf (· != BlockState.unchecked) v.map.blocks = true := by
    rw [hv]
    exact Table.wf_put (bne_iff_ne.mpr hx) hm.1.1
  refine ⟨fun j hj hmin => ?_, fun hall => ?_⟩
  · rw [State.prepareErase_some (s := v.markDirty .badList) (firstDirty_some hwf (Nat.zero_le j) hj fun i _ => hmin i), ← hq]
    rfl
  · rw [State.prepareErase_none (s := v.markDirty .badList) (firstDirty_none hwf fun j _ => hall j), ← hq]
    rfl

/-- Settles O33: each result of the prepare's operation in flight, while it goes on and after POWER_LOW has ended it. -/
theorem prepareScansAndErasesEveryBlock : Obligations.PrepareScansAndErasesEveryBlock := by
  unfold Obligations.PrepareScansAndErasesEveryBlock
  constructor
  · intro m s x hp hx hc hd hdue u idle
    have hland : u.landed = { u with flash := idle } := State.landed_free hdue
    have hread : ∀ {b g r}, x.op = .rawRead b g →
        exec (.pageReadDone m r) s = .next ({ u with flash := idle }.prepareRead b r) := fun ho => by
      rw [exec_prepare_read hp hx hc m hd ho, hland]
    have herase : ∀ {b pass}, x.op = .erase b →
        exec (.blockEraseDone m pass) s = .next ({ u with flash := idle }.prepareEraseDone b pass) := fun ho => by
      rw [exec_prepare_erase hp hx hc m hd ho, hland]
    have hmark : ∀ {b ok}, x.op = .grownMark b →
        exec (.grownMarkProgramDone m ok) s = .next ({ u with flash := idle }.prepareMarked b) := fun ho => by
      rw [exec_prepare_mark hp hx hc m ho, hland]
    have hgo : ∀ {b : Nat}, s.map.prepare = some (.scanning b) → s.map.prepare ≠ some .stopping := fun h => by simp [h]
    have hgo' : ∀ {b : Nat}, s.map.prepare = some (.erasing b) → s.map.prepare ≠ some .stopping := fun h => by simp [h]
    have hgo'' : ∀ {b : Nat}, s.map.prepare = some (.marking b) → s.map.prepare ≠ some .stopping := fun h => by simp [h]
    refine ⟨fun b r ho hs hb => ⟨fun hr => ?_, fun k hr hl => ?_⟩, ?_, fun b r ho hs hr hl => ?_,
      fun b ho hs hb => ⟨fun j hm hbj hj hmin => ?_, fun hm hall => ?_, fun hl => ?_, fun hl => ?_⟩,
      fun b ok j ho hs hm hbj hj hmin => ?_, fun b ok ho hs hall hm => ?_⟩
    · rw [hread ho, State.prepareRead_going (by exact hgo hs) (State.prepareScanned_clear hr b _), State.onMap,
        BlockMap.setState_known (by exact Nat.lt_of_succ_lt hb) (by simp), State.prepareScanNext_lt (by exact hb)]
      rfl
    · rw [hread ho, State.prepareRead_going (by exact hgo hs) (State.prepareScanned_bad (markKind_iff.mpr hr) (by exact hl) b),
        State.prepareBad_known (by exact Nat.lt_of_succ_lt hb), State.prepareScanNext_lt (by exact hb)]
      rfl
    · intro b r ho hs hb hm found
      have hlt : b < s.map.total := by omega
      refine ⟨fun hr => ?_, fun k hr hl => ?_⟩
      · have hstep : exec (.pageReadDone m r) s = .next (({ u with
            map := { s.map with blocks := Table.put b (.dirty .ready) s.map.blocks }
            flash := idle }.markDirty .badList).prepareErase 0) := by
          rw [hread ho, State.prepareRead_going (by exact hgo hs) (State.prepareScanned_clear hr b _), State.onMap,
            BlockMap.setState_known (by exact hlt) (by simp), State.prepareScanNext_end (by exact Nat.le_of_eq hb.symm)]
          rfl
        obtain ⟨hsome, hnone⟩ := State.prepareErase_afterScan (v := { u with
          map := { s.map with blocks := Table.put b (.dirty .ready) s.map.blocks }, flash := idle })
          (by simp) hm rfl rfl
        exact ⟨fun j hj hmin => hstep.trans (congrArg _ (hsome j hj hmin)), fun hall => hstep.trans (congrArg _ (hnone hall))⟩
      · have hstep : exec (.pageReadDone m r) s = .next (({ u with
            map := { s.map with blocks := Table.put b .bad s.map.blocks, badList := Table.put b k s.map.badList }
            writer := s.writer.mark .badList
            flash := idle }.markDirty .badList).prepareErase 0) := by
          rw [hread ho, State.prepareRead_going (by exact hgo hs) (State.prepareScanned_bad (markKind_iff.mpr hr) (by exact hl) b),
            State.prepareBad_known (by exact hlt), State.prepareScanNext_end (by exact Nat.le_of_eq hb.symm)]
          rfl
        obtain ⟨hsome, hnone⟩ := State.prepareErase_afterScan (v := { u with
          map := { s.map with blocks := Table.put b .bad s.map.blocks, badList := Table.put b k s.map.badList }
          writer := s.writer.mark .badList, flash := idle })
          (by simp) hm rfl (Writer.mark_mark _ _)
        exact ⟨fun j hj hmin => hstep.trans (congrArg _ (hsome j hj hmin)), fun hall => hstep.trans (congrArg _ (hnone hall))⟩
    · obtain ⟨k, hk⟩ := markKind_of_ne hr
      rw [hread ho, State.prepareRead_full (State.prepareScanned_full hk (by exact hl) b),
        State.prepareTooMany_going (by exact hgo hs) (by exact hdue)]
      rfl
    · rw [herase ho, State.prepareEraseDone_pass (by exact hgo' hs), State.onMap,
        BlockMap.setState_known (by exact hb) (by simp),
        State.prepareErase_some (by exact BlockMap.firstDirty_above hm hbj hj fun i hi => hmin i hi)]
      rfl
    · rw [herase ho, State.prepareEraseDone_pass (by exact hgo' hs), State.onMap,
        BlockMap.setState_known (by exact hb) (by simp),
        State.prepareErase_none (by exact BlockMap.noDirty_above hm fun j hj => hall j hj)]
      rfl
    · rw [herase ho, State.prepareEraseDone_bad (by exact hgo' hs) (by exact hl), State.prepareBad_known (by exact hb)]
      rfl
    · rw [herase ho, State.prepareEraseDone_full (by exact hl), State.prepareTooMany_going (by exact hgo' hs) (by exact hdue)]
      rfl
    · rw [hmark ho, State.prepareMarked, if_neg (by exact hgo'' hs),
        State.prepareErase_some (by exact firstDirty_some hm.1.1 hbj hj fun i hi => hmin i hi)]
      rfl
    · rw [hmark ho, State.prepareMarked, if_neg (by exact hgo'' hs),
          State.prepareErase_none (by exact firstDirty_none hm.1.1 fun j hj => hall j hj)]
      rfl
  · intro m s x hp hx hc hd hstop htotal hmode hdue u port atRest listed emptied
    have hland : u.landed = { u with flash := port } := State.landed_owed hdue
    have hstopped : ∀ (y : BlockMap) (w : Writer), y.prepare = some .stopping →
        ({ u with map := y, writer := w, flash := port } : State).prepareStopped =
          { u with map := { y with prepare := none }, writer := w, flash := port } := fun y w hy =>
      State.prepareStopped_eq (s := { u with map := y, writer := w, flash := port }) hy
    have hbad : ∀ b k, ({ u with flash := port } : State).prepareBad b k =
        { u with map := { s.map with badList := Table.put b k s.map.badList }, writer := s.writer.mark .badList
                 flash := port } := fun b k => by
      rw [State.prepareBad_unknown (by exact Nat.le_trans (Nat.le_of_eq htotal) (Nat.zero_le b))]
      rfl
    have hfull : ({ u with flash := port } : State).prepareTooMany = emptied := by
      rw [State.prepareTooMany_stopping (by exact hstop) (by exact htotal) (by exact hmode) (by exact hdue)]
      rfl
    have hunknown : ∀ b x, ({ u with flash := port } : State).onMap (·.setState b x) = { u with flash := port } :=
      fun b x => by
        rw [State.onMap, BlockMap.setState_unknown (by exact Nat.le_trans (Nat.le_of_eq htotal) (Nat.zero_le b))]
    refine ⟨fun b g r ho => ?_, fun b ho => ?_, fun b ok ho => ?_⟩
    · have hread : exec (.pageReadDone m r) s = .next ({ u with flash := port }.prepareRead b r) := by
        rw [exec_prepare_read hp hx hc m hd ho, hland]
      refine ⟨fun hr => ?_, fun k hr => ⟨fun hl => ?_, fun hl => ?_⟩⟩
      · rw [hread, State.prepareRead_stopping (by exact hstop) (State.prepareScanned_clear hr b _), hunknown]
        exact congrArg _ (hstopped _ _ hstop)
      · rw [hread, State.prepareRead_stopping (by exact hstop)
          (State.prepareScanned_bad (markKind_iff.mpr hr) (by exact hl) b), hbad]
        exact congrArg _ (hstopped _ _ hstop)
      · rw [hread, State.prepareRead_full (State.prepareScanned_full (markKind_iff.mpr hr) (by exact hl) b), hfull]
    · have herase : ∀ pass, exec (.blockEraseDone m pass) s = .next ({ u with flash := port }.prepareEraseDone b pass) :=
        fun pass => by rw [exec_prepare_erase hp hx hc m hd ho, hland]
      refine ⟨?_, fun hl => ?_, fun hl => ?_⟩
      · rw [herase, State.prepareEraseDone_stopping (by exact hstop) rfl, hunknown]
        exact congrArg _ (hstopped _ _ hstop)
      · rw [herase, State.prepareEraseDone_stopping (by exact hstop) (State.prepareErased_bad (by exact hl) b), hbad]
        exact congrArg _ (hstopped _ _ hstop)
      · rw [herase, State.prepareEraseDone_full (by exact hl), hfull]
    · rw [exec_prepare_mark hp hx hc m ho, hland, State.prepareMarked, if_pos (by exact hstop)]
      exact congrArg _ (hstopped _ _ hstop)

end Sys2Proof.Machine
end

section
/-! PROOFS. Background work. -/

namespace Sys2Proof.Machine

variable {s : State}

/-! ### The block that is taken -/

theorem takeable_iff (x : BlockState) : x.takeable = true ↔ x = .unchecked ∨ x = .dirty .ready := by
  unfold BlockState.takeable
  split <;> simp_all

/-- Background work may take the block (R41). -/
def BlockMap.may (m : BlockMap) (j : Nat) : Prop :=
  j < m.total ∧ (m.stateOf j = .unchecked ∨ m.stateOf j = .dirty .ready)

theorem BlockMap.may_iff (m : BlockMap) (j : Nat) : (decide (j < m.total) && (m.stateOf j).takeable) = true ↔ m.may j := by
  rw [Bool.and_eq_true, decide_eq_true_eq, takeable_iff]
  rfl

theorem takeableFrom_some {m : BlockMap} {n b j : Nat} (hb : b ≤ j) (hj : j < b + n) (hm : m.may j)
    (hmin : ∀ i, b ≤ i → i < j → ¬m.may i) : takeableFrom m n b = some j := by
  induction n generalizing b with
  | zero => omega
  | succ n ih =>
    rw [takeableFrom]
    obtain rfl | hlt := Nat.eq_or_lt_of_le hb
    · exact if_pos ((m.may_iff b).mpr hm)
    · rw [if_neg (mt (m.may_iff b).mp (hmin b (Nat.le_refl b) hlt))]
      exact ih hlt (by omega) fun i hi => hmin i (Nat.le_of_succ_le hi)

theorem takeableFrom_none {m : BlockMap} {n b : Nat} (h : ∀ i, b ≤ i → ¬m.may i) : takeableFrom m n b = none := by
  induction n generalizing b with
  | zero => rfl
  | succ n ih =>
    rw [takeableFrom, if_neg (mt (m.may_iff b).mp (h b (Nat.le_refl b)))]
    exact ih fun i hi => h i (Nat.le_of_succ_le hi)

/-- The block taken: the first from the erase cursor on, else the first of all (R41). -/
theorem BlockMap.nextTakeable_some {m : BlockMap} {b : Nat} (hb : m.may b)
    (h : (m.eraseCursor ≤ b ∧ ∀ j, m.eraseCursor ≤ j → j < b → ¬m.may j) ∨
      (b < m.eraseCursor ∧ (∀ j, m.eraseCursor ≤ j → ¬m.may j) ∧ ∀ j, j < b → ¬m.may j)) :
    m.nextTakeable = some b := by
  unfold BlockMap.nextTakeable
  obtain ⟨hle, hmin⟩ | ⟨hlt, hnone, hmin⟩ := h
  · have := hb.1
    rw [takeableFrom_some hle (by omega) hb hmin]
  · rw [takeableFrom_none hnone]
    exact takeableFrom_some (Nat.zero_le b) (by omega) hb fun j _ => hmin j

theorem BlockMap.nextTakeable_none {m : BlockMap} (h : ∀ j, ¬m.may j) : m.nextTakeable = none := by
  rw [BlockMap.nextTakeable, takeableFrom_none fun j _ => h j]
  exact takeableFrom_none fun j _ => h j

/-! ### Asking for an operation -/

theorem backgroundRuns_iff (s : State) : backgroundRuns s = true ↔ s.supply.shutdown = .running ∧
    s.supply.powerLow = false ∧ s.supply.shutDownTaken = false ∧ (s.map.mode = .writable ∨ s.map.mode = .readOnly) := by
  simp [backgroundRuns, and_assoc]

theorem exec_backgroundTakeBlock (hp : s.supply.powered = true) (m : Moment) : exec (.backgroundTakeBlock m) s =
    .next (if (backgroundRuns s && s.map.inHand.isNone && s.flash.last.isNone && !s.flash.flies .background) = true then
      match s.map.nextTakeable with
      | some b =>
        if (s.map.stateOf b).isDirty then
          { s.arrive m with
            map := { s.map with eraseCursor := s.map.after b, inHand := some (b, .erasing) }
            flash := { s.flash with last := some (.background, .erase b) } }
        else
          { s.arrive m with
            map := { s.map with eraseCursor := s.map.after b, inHand := some (b, .read0) }
            flash := { s.flash with last := some (.background, .rawRead b 0) } }
      | none => s.arrive m
    else s.arrive m) := by
  change execBackgroundTakeBlock m s = _
  rw [execBackgroundTakeBlock, event_powered hp] <;> rfl

theorem FlashPort.flies_iff (c : Claimant) (f : FlashPort) :
    f.flies c = true ↔ ∃ x, f.inFlight = some x ∧ x.claimant = c := by
  unfold FlashPort.flies
  split <;> simp_all

/-! ### Results -/

section
variable {x : InFlightOp} (hp : s.supply.powered = true) (hx : s.flash.inFlight = some x)
  (hc : x.claimant = .background) (hdue : s.flash.protectDue = false) (m : Moment)
include hp hx hc hdue

theorem exec_background_erase {b : Nat} (hd : x.discard = false) (ho : x.op = .erase b) (pass : Bool) :
    exec (.blockEraseDone m pass) s =
      .next ({ s.arrive m with flash := { s.flash with inFlight := none } }.backgroundErased b pass) := by
  rw [exec_blockEraseDone hp hx m (by rw [ho]; rfl), hc, State.landed_free (by exact hdue)]
  simp only [hd, ho, FlashOp.block]
  rfl

theorem exec_background_read {b g : Nat} (hd : x.discard = false) (ho : x.op = .rawRead b g) (r : PageRead) :
    exec (.pageReadDone m r) s =
      .next ({ s.arrive m with flash := { s.flash with inFlight := none } }.backgroundRead r) := by
  rw [exec_pageReadDone hp hx m (by rw [ho]; rfl), pageReadResult, hc, ho, State.landed_free (by exact hdue)]
  simp only [hd]
  rfl

theorem exec_background_mark {b : Nat} (ho : x.op = .grownMark b) (ok : Bool) : exec (.grownMarkProgramDone m ok) s =
    .next { s.arrive m with flash := { s.flash with inFlight := none } } := by
  rw [exec_grownMarkProgramDone hp hx m (by rw [ho]; rfl), hc, State.landed_free (by exact hdue)]
  rfl

theorem exec_background_discarded (hd : x.discard = true) {b : Nat} :
    (∀ ok, x.op = .erase b → exec (.blockEraseDone m ok) s =
      .next { s.arrive m with flash := { s.flash with inFlight := none } }) ∧
    (∀ g r, x.op = .rawRead b g → exec (.pageReadDone m r) s =
      .next { s.arrive m with flash := { s.flash with inFlight := none } }) := by
  refine ⟨fun ok ho => ?_, fun g r ho => ?_⟩
  · rw [exec_blockEraseDone hp hx m (by rw [ho]; rfl), hc, State.landed_free (by exact hdue)]
    simp only [hd]
    rfl
  · rw [exec_pageReadDone hp hx m (by rw [ho]; rfl), pageReadResult, hc, ho, State.landed_free (by exact hdue)]
    simp only [hd]
    rfl

end

/-- A block that becomes BAD while its list has room (R45). -/
theorem State.makeBad_listed {b : Nat} (hb : b < s.map.total) (hl : s.map.badList.length < 256) (k : BadKind) :
    s.makeBad b k = { s with
      map := { s.map with blocks := Table.put b .bad s.map.blocks, badList := Table.put b k s.map.badList }
      writer := s.writer.mark .badList } := by
  rw [State.makeBad, State.onMap, BlockMap.setState_known hb (by decide)]
  exact if_pos hl

/-- A block that becomes BAD past a full list (R45). -/
theorem State.makeBad_full {b : Nat} (hb : b < s.map.total) (hl : 256 ≤ s.map.badList.length) (k : BadKind) :
    s.makeBad b k = if s.map.mode = .writable then
        ({ s with map := { s.map with blocks := Table.put b .bad s.map.blocks, mode := .readOnly } } : State).setFlag
          .storeReadOnly
      else { s with map := { s.map with blocks := Table.put b .bad s.map.blocks } } := by
  rw [State.makeBad, State.onMap, BlockMap.setState_known hb (by decide)]
  exact if_neg (Nat.not_lt.mpr hl)

theorem State.backgroundErased_pass {b : Nat} (hb : b < s.map.total) : s.backgroundErased b true =
    { s with map := { s.map with inHand := none, blocks := Table.put b .erased s.map.blocks } } := by
  rw [State.backgroundErased]
  exact congrArg (fun m => { s with map := m })
    (BlockMap.setState_known (m := { s.map with inHand := none }) (x := .erased) hb (by decide))

/-- After a failed background erase the grown mark is asked for while background work runs (R42, R45). -/
theorem State.backgroundErased_fail {v : State} {b : Nat} (hv : s.backgroundDone.makeBad b .grown = v)
    (hr : backgroundRuns v = true) :
    s.backgroundErased b false = { v with flash := { v.flash with last := some (.background, .grownMark b) } } := by
  rw [State.backgroundErased]
  dsimp only
  rw [hv]
  exact if_pos hr

theorem State.backgroundNext_runs (h : backgroundRuns s = true) (b : Nat) (x : BackPhase) (op : FlashOp) :
    s.backgroundNext b x op = { s with
      map := { s.map with inHand := some (b, x) }, flash := { s.flash with last := some (.background, op) } } :=
  if_pos h

/-- The blank check's second page: a blank block is ERASED, another is erased (R43). -/
theorem State.backgroundRead_63 {b : Nat} {blank0 : Bool} (h : s.map.inHand = some (b, .read63 blank0)) (r : PageRead) :
    s.backgroundRead r = if (blank0 && isBlank r) = true then s.backgroundDone.onMap (·.setState b .erased)
      else s.backgroundNext b .erasing (.erase b) := by
  rw [State.backgroundRead, h]

theorem State.backgroundRead_marked {b : Nat} {r : PageRead} {k : BadKind} (h : s.map.inHand = some (b, .read0))
    (hk : markKind r.mark = some k) : s.backgroundRead r = s.backgroundDone.makeBad b k := by
  rw [State.backgroundRead, h]
  dsimp only
  rw [hk]

theorem State.backgroundRead_clear {b : Nat} {r : PageRead} (h : s.map.inHand = some (b, .read0))
    (hk : r.mark = .clear) :
    s.backgroundRead r = s.backgroundNext b (.read63 (isBlank r)) (.rawRead b 63) := by
  rw [State.backgroundRead, h]
  dsimp only
  rw [hk]
  rfl

/-- Settles O34: the block taken by the search from the erase cursor, each result by what it finds. -/
theorem backgroundWorkMakesErasedBlocks : Obligations.BackgroundWorkMakesErasedBlocks := by
  unfold Obligations.BackgroundWorkMakesErasedBlocks
  intro m s hp u idle runs after may taken
  have hruns : ∀ {v : State}, v.supply = s.supply → (v.map.mode = .writable ∨ v.map.mode = .readOnly) → runs →
      backgroundRuns v = true := fun hsup hmode h => by
    obtain ⟨h1, h2, h3, -⟩ := h
    exact (backgroundRuns_iff _).mpr ⟨by rw [hsup, h1], by rw [hsup, h2], by rw [hsup, h3], hmode⟩
  refine ⟨fun hr hh hl hf b hb => ?_, fun hn => ?_, fun x b hx hc hd hdue hb =>
    ⟨fun ho => ?_, fun ok ho => ?_, fun r blank0 ho hh => ?_,
    fun r ho hh => ?_⟩, fun x b hx hc hd hdue => ?_⟩
  · have hfree : (backgroundRuns s && s.map.inHand.isNone && s.flash.last.isNone && !s.flash.flies .background) = true := by
      have hfl : s.flash.flies .background = false := Bool.eq_false_iff.mpr fun h => by
        obtain ⟨x, hx, hxc⟩ := (FlashPort.flies_iff _ _).mp h
        exact hf x hx hxc
      simp [hruns rfl hr.2.2.2 hr, hh, hl, hfl]
    have hnext : s.map.nextTakeable = some b := BlockMap.nextTakeable_some hb.1 hb.2
    refine ⟨fun w hw => ?_, fun hw => ?_⟩
    · rw [exec_backgroundTakeBlock hp, if_pos hfree, hnext]
      simp only [hw, BlockState.isDirty]
      rfl
    · rw [exec_backgroundTakeBlock hp, if_pos hfree, hnext]
      simp only [hw, BlockState.isDirty]
      rfl
  · rw [exec_backgroundTakeBlock hp]
    obtain hn | hn | hn := hn
    · rw [if_neg]
      simp only [Bool.and_eq_true, backgroundRuns_iff]
      exact fun h => hn h.1.1.1
    · rw [if_neg]
      simp only [Bool.and_eq_true, Option.isNone_iff_eq_none]
      exact fun h => hn h.1.1.2
    · rw [BlockMap.nextTakeable_none hn, ite_self]
  · have hrest : ∀ pass, exec (.blockEraseDone m pass) s = .next ({ u with flash := idle }.backgroundErased b pass) :=
      fun pass => exec_background_erase hp hx hc hdue m hd ho pass
    have hfail : ∀ v : State, ({ u with flash := idle }.backgroundDone.makeBad b .grown) = v → backgroundRuns v = true →
        exec (.blockEraseDone m false) s =
          .next { v with flash := { v.flash with last := some (.background, .grownMark b) } } := fun v hv hr => by
      rw [hrest, State.backgroundErased_fail hv hr]
    refine ⟨?_, fun hr hl => ?_, fun hr hl hm => ?_, fun hr hl hm => ?_⟩
    · rw [hrest, State.backgroundErased_pass (by exact hb)]
      rfl
    · exact hfail _ (State.makeBad_listed (by exact hb) (by exact hl) _) (by exact hruns rfl hr.2.2.2 hr)
    · exact hfail _ ((State.makeBad_full (by exact hb) (by exact hl) _).trans (if_pos hm)) (by exact hruns rfl (.inr rfl) hr)
    · have hne : s.map.mode ≠ .writable := by rw [hm]; decide
      exact hfail _ ((State.makeBad_full (by exact hb) (by exact hl) _).trans (if_neg hne)) (by exact hruns rfl (.inr hm) hr)
  · exact exec_background_mark hp hx hc hdue m ho ok
  · intro blank
    have hread : exec (.pageReadDone m r) s = .next (if blank = true then
        { u with flash := idle }.backgroundDone.onMap (·.setState b .erased)
        else { u with flash := idle }.backgroundNext b .erasing (.erase b)) := by
      rw [exec_background_read hp hx hc hdue m hd ho, State.backgroundRead_63 (by exact hh)]
      rfl
    refine ⟨fun hbl => ?_, fun hr hbl => ?_⟩
    · rw [hread, if_pos hbl]
      exact congrArg (fun y : BlockMap => Host.Outcome.next { u with flash := idle, map := y })
        (BlockMap.setState_known (m := { s.map with inHand := none }) (x := .erased) hb (by decide))
    · rw [hread, if_neg (by simp [hbl]), State.backgroundNext_runs (by exact hruns rfl hr.2.2.2 hr)]
      rfl
  · have hread : exec (.pageReadDone m r) s = .next ({ u with flash := idle }.backgroundRead r) :=
      exec_background_read hp hx hc hdue m hd ho r
    have hbad : ∀ {k}, markKind r.mark = some k →
        exec (.pageReadDone m r) s = .next ({ u with flash := idle }.backgroundDone.makeBad b k) := fun hk => by
      rw [hread, State.backgroundRead_marked (by exact hh) hk]
    refine ⟨fun hr hm => ?_, fun k hk hl => ?_, fun hm hl => ?_⟩
    · rw [hread, State.backgroundRead_clear (by exact hh) hm, State.backgroundNext_runs (by exact hruns rfl hr.2.2.2 hr)]
      rfl
    · exact (hbad (markKind_iff.mpr hk)).trans (congrArg _ (State.makeBad_listed (by exact hb) (by exact hl) _))
    · obtain ⟨k, hk⟩ := markKind_of_ne hm
      refine ⟨fun hm => ?_, fun hm => ?_⟩
      · exact (hbad hk).trans (congrArg _ ((State.makeBad_full (by exact hb) (by exact hl) _).trans (if_pos hm)))
      · have hne : s.map.mode ≠ .writable := by rw [hm]; decide
        exact (hbad hk).trans (congrArg _ ((State.makeBad_full (by exact hb) (by exact hl) _).trans (if_neg hne)))
  · obtain ⟨herase, hread⟩ := exec_background_discarded hp hx hc hdue m hd (b := b)
    exact ⟨herase, hread, fun ok ho => exec_background_mark hp hx hc hdue m ho ok⟩

end Sys2Proof.Machine
end

section
/-! PROOFS. Start-up's rebuild of the catalogue, entry by entry: the rebuilt records, the places changed, and which STORED
record keeps a block that two of them hold. -/

namespace Sys2Proof.Machine

/-! ### The rebuilt records -/

/-- A place's record after the rebuild comes from what Record Memory holds of it (R196). -/
theorem mem_rebuildPlaces {total p : Nat} {r : PicRecord} {l : List (Nat × Durable PicRecord)} :
    (p, r) ∈ (rebuildPlaces total l).1 ↔ ∃ d, (p, d) ∈ l ∧ rebuilt total (verified d) = some r := by
  induction l with
  | nil => simp [rebuildPlaces]
  | cons e l ih =>
    obtain ⟨j, d⟩ := e
    rw [rebuildPlaces]
    dsimp only
    rcases h : rebuilt total (verified d) with _ | x
    · simp only [ih, List.mem_cons, Prod.mk.injEq]
      constructor
      · rintro ⟨d', hd', hr⟩
        exact ⟨d', .inr hd', hr⟩
      · rintro ⟨d', ⟨rfl, rfl⟩ | hd', hr⟩
        · exact absurd (h.symm.trans hr) (by simp)
        · exact ⟨d', hd', hr⟩
    · simp only [ih, List.mem_cons, Prod.mk.injEq]
      constructor
      · rintro (⟨rfl, rfl⟩ | ⟨d', hd', hr⟩)
        · exact ⟨d, .inl ⟨rfl, rfl⟩, h⟩
        · exact ⟨d', .inr hd', hr⟩
      · rintro ⟨d', ⟨rfl, rfl⟩ | hd', hr⟩
        · exact .inl ⟨rfl, Option.some_inj.mp (hr.symm.trans h)⟩
        · exact .inr ⟨d', hd', hr⟩

/-- A place whose record the rebuild changes is one of those marked dirty (R196). -/
theorem mem_rebuildPlaces_changed {total p : Nat} {d : Durable PicRecord} {l : List (Nat × Durable PicRecord)}
    (hd : (p, d) ∈ l) (hr : ∀ r, rebuilt total (verified d) = some r → d ≠ .good r) : p ∈ (rebuildPlaces total l).2 := by
  induction l with
  | nil => cases hd
  | cons e l ih =>
    obtain ⟨j, d'⟩ := e
    rw [rebuildPlaces]
    dsimp only
    obtain he | hd := List.mem_cons.mp hd
    · cases he
      rcases h : rebuilt total (verified d) with _ | x
      · exact List.mem_cons_self
      · dsimp only
        rw [if_neg (hr x h)]
        exact List.mem_cons_self
    · have := ih hd
      split
      · exact List.mem_cons_of_mem _ this
      · dsimp only
        split
        · exact this
        · exact List.mem_cons_of_mem _ this

/-! ### Which record keeps a block -/

theorem settleBlocks_cons_other {p : Nat} {r : PicRecord} (h : r.state ≠ .stored) (taken : List Nat)
    (l : List (Nat × PicRecord)) : settleBlocks taken ((p, r) :: l) =
      ((p, r) :: (settleBlocks taken l).1, (settleBlocks taken l).2.1, (settleBlocks taken l).2.2) := by
  rw [settleBlocks, if_neg h]

theorem settleBlocks_cons_claimed {p : Nat} {r : PicRecord} (h : r.state = .stored) {taken : List Nat} {b : Nat}
    (hb : b ∈ r.extent) (ht : b ∈ taken) (l : List (Nat × PicRecord)) : settleBlocks taken ((p, r) :: l) =
      ((p, r.claimedBelow) :: (settleBlocks taken l).1, p :: (settleBlocks taken l).2.1, (settleBlocks taken l).2.2) := by
  rw [settleBlocks, if_pos h, if_pos (List.any_eq_true.mpr ⟨b, hb, List.contains_iff_mem.mpr ht⟩)]

theorem settleBlocks_cons_kept {p : Nat} {r : PicRecord} (h : r.state = .stored) {taken : List Nat}
    (hb : ∀ b ∈ r.extent, b ∉ taken) (l : List (Nat × PicRecord)) : settleBlocks taken ((p, r) :: l) =
      ((p, r) :: (settleBlocks (taken ++ r.extent) l).1, (settleBlocks (taken ++ r.extent) l).2.1,
        (settleBlocks (taken ++ r.extent) l).2.2) := by
  have hany : ¬r.extent.any taken.contains = true := by
    rw [List.any_eq_true]
    rintro ⟨b, hbe, hbt⟩
    exact hb b hbe (List.contains_iff_mem.mp hbt)
  rw [settleBlocks, if_pos h, if_neg hany]

/-- The three ways a record is settled: it is not STORED, it loses its extent, or it keeps it. -/
theorem settle_cases (r : PicRecord) (taken : List Nat) : r.state ≠ .stored ∨
    (r.state = .stored ∧ ∃ b ∈ r.extent, b ∈ taken) ∨ (r.state = .stored ∧ ∀ b ∈ r.extent, b ∉ taken) := by
  by_cases h : r.state = .stored
  · by_cases hb : ∃ b ∈ r.extent, b ∈ taken
    · exact .inr (.inl ⟨h, hb⟩)
    · exact .inr (.inr ⟨h, fun b hbe hbt => hb ⟨b, hbe, hbt⟩⟩)
  · exact .inl h

/-- Each settled record is one of the rebuilt ones, as it was or without its extent. -/
theorem mem_settleBlocks {p : Nat} {r : PicRecord} {l : List (Nat × PicRecord)} {taken : List Nat}
    (h : (p, r) ∈ (settleBlocks taken l).1) :
    ∃ x, (p, x) ∈ l ∧ (r = x ∨ (x.state = .stored ∧ r = x.claimedBelow)) := by
  induction l generalizing taken with
  | nil => cases h
  | cons e l ih =>
    obtain ⟨j, x⟩ := e
    have hrest : ∀ {tk}, (p, r) ∈ (settleBlocks tk l).1 →
        ∃ y, (p, y) ∈ (j, x) :: l ∧ (r = y ∨ (y.state = .stored ∧ r = y.claimedBelow)) := fun h => by
      obtain ⟨y, hy, hr⟩ := ih h
      exact ⟨y, List.mem_cons_of_mem _ hy, hr⟩
    obtain hs | ⟨hs, b, hb, ht⟩ | ⟨hs, hb⟩ := settle_cases x taken
    · rw [settleBlocks_cons_other hs] at h
      obtain he | h := List.mem_cons.mp h
      · cases he
        exact ⟨r, List.mem_cons_self, .inl rfl⟩
      · exact hrest h
    · rw [settleBlocks_cons_claimed hs hb ht] at h
      obtain he | h := List.mem_cons.mp h
      · cases he
        exact ⟨x, List.mem_cons_self, .inr ⟨hs, rfl⟩⟩
      · exact hrest h
    · rw [settleBlocks_cons_kept hs hb] at h
      obtain he | h := List.mem_cons.mp h
      · cases he
        exact ⟨r, List.mem_cons_self, .inl rfl⟩
      · exact hrest h

/-- A record that is not STORED stays as it is. -/
theorem settleBlocks_other {p : Nat} {r : PicRecord} {l : List (Nat × PicRecord)} (hr : (p, r) ∈ l)
    (hs : r.state ≠ .stored) (taken : List Nat) : (p, r) ∈ (settleBlocks taken l).1 := by
  induction l generalizing taken with
  | nil => cases hr
  | cons e l ih =>
    obtain ⟨j, x⟩ := e
    obtain he | hr := List.mem_cons.mp hr
    · cases he
      rw [settleBlocks_cons_other hs]
      exact List.mem_cons_self
    · obtain h | ⟨h, b, hb, ht⟩ | ⟨h, hb⟩ := settle_cases x taken
      · rw [settleBlocks_cons_other h]
        exact List.mem_cons_of_mem _ (ih hr _)
      · rw [settleBlocks_cons_claimed h hb ht]
        exact List.mem_cons_of_mem _ (ih hr _)
      · rw [settleBlocks_cons_kept h hb]
        exact List.mem_cons_of_mem _ (ih hr _)

/-- A STORED record keeps its extent when no lower place holds a block of it (R197). -/
theorem settleBlocks_kept {ok : PicRecord → Bool} {p : Nat} {r : PicRecord} {l : List (Nat × PicRecord)}
    (hl : Table.wf ok l = true) (hr : (p, r) ∈ l) (hs : r.state = .stored) {taken : List Nat}
    (ht : ∀ b ∈ r.extent, b ∉ taken)
    (hd : ∀ j x, j < p → (j, x) ∈ l → x.state = .stored → ∀ b ∈ x.extent, b ∉ r.extent) :
    (p, r) ∈ (settleBlocks taken l).1 := by
  induction l generalizing taken with
  | nil => cases hr
  | cons e l ih =>
    obtain ⟨j, x⟩ := e
    obtain ⟨-, hj, hl⟩ := (Table.wf_cons ok j x l).mp hl
    obtain he | hr := List.mem_cons.mp hr
    · cases he
      rw [settleBlocks_cons_kept hs ht]
      exact List.mem_cons_self
    · have hd' : ∀ i y, i < p → (i, y) ∈ l → y.state = .stored → ∀ b ∈ y.extent, b ∉ r.extent :=
        fun i y hi hy => hd i y hi (List.mem_cons_of_mem _ hy)
      obtain h | ⟨h, b, hb, hbt⟩ | ⟨h, hb⟩ := settle_cases x taken
      · rw [settleBlocks_cons_other h]
        exact List.mem_cons_of_mem _ (ih hl hr ht hd')
      · rw [settleBlocks_cons_claimed h hb hbt]
        exact List.mem_cons_of_mem _ (ih hl hr ht hd')
      · rw [settleBlocks_cons_kept h hb]
        refine List.mem_cons_of_mem _ (ih hl hr (fun b hbr hbt => ?_) hd')
        obtain hbt | hbx := List.mem_append.mp hbt
        · exact ht b hbr hbt
        · exact hd j x (hj _ hr) List.mem_cons_self h b hbx hbr

/-- A STORED record loses its extent to a block already kept (R197). -/
theorem settleBlocks_claimed {p b : Nat} {r : PicRecord} {l : List (Nat × PicRecord)} (hr : (p, r) ∈ l)
    (hs : r.state = .stored) (hb : b ∈ r.extent) {taken : List Nat} (ht : b ∈ taken) :
    (p, r.claimedBelow) ∈ (settleBlocks taken l).1 ∧ p ∈ (settleBlocks taken l).2.1 := by
  induction l generalizing taken with
  | nil => cases hr
  | cons e l ih =>
    obtain ⟨j, x⟩ := e
    obtain he | hr := List.mem_cons.mp hr
    · cases he
      rw [settleBlocks_cons_claimed hs hb ht]
      exact ⟨List.mem_cons_self, List.mem_cons_self⟩
    · obtain h | ⟨h, c, hc, hct⟩ | ⟨h, hc⟩ := settle_cases x taken
      · rw [settleBlocks_cons_other h]
        exact ⟨List.mem_cons_of_mem _ (ih hr ht).1, (ih hr ht).2⟩
      · rw [settleBlocks_cons_claimed h hc hct]
        exact ⟨List.mem_cons_of_mem _ (ih hr ht).1, List.mem_cons_of_mem _ (ih hr ht).2⟩
      · rw [settleBlocks_cons_kept h hc]
        have := ih hr (List.mem_append_left x.extent ht)
        exact ⟨List.mem_cons_of_mem _ this.1, this.2⟩

/-- Of two STORED records with a block in common the one at the higher place loses its extent, where the other has kept
its own (R10, R197). -/
theorem settleBlocks_conflict {ok : PicRecord → Bool} {p q b : Nat} {x y : PicRecord} {l : List (Nat × PicRecord)}
    (hl : Table.wf ok l = true) (hpq : p < q) {taken : List Nat} (hy : (p, y) ∈ (settleBlocks taken l).1)
    (hys : y.state = .stored) (hby : b ∈ y.extent) (hx : (q, x) ∈ l) (hxs : x.state = .stored) (hbx : b ∈ x.extent) :
    (q, x.claimedBelow) ∈ (settleBlocks taken l).1 ∧ q ∈ (settleBlocks taken l).2.1 := by
  induction l generalizing taken with
  | nil => cases hx
  | cons e l ih =>
    obtain ⟨j, z⟩ := e
    obtain ⟨-, hj, hl⟩ := (Table.wf_cons ok j z l).mp hl
    obtain he | hxl := List.mem_cons.mp hx
    · cases he
      obtain ⟨w, hw, -⟩ := mem_settleBlocks hy
      obtain he | hw := List.mem_cons.mp hw
      · cases he
        exact absurd hpq (Nat.lt_irrefl _)
      · exact absurd (hj _ hw) (Nat.not_lt.mpr (Nat.le_of_lt hpq))
    · obtain h | ⟨h, c, hc, hct⟩ | ⟨h, hc⟩ := settle_cases z taken
      · rw [settleBlocks_cons_other h] at hy ⊢
        obtain he | hy := List.mem_cons.mp hy
        · cases he
          exact absurd hys h
        · exact ⟨List.mem_cons_of_mem _ (ih hl hy hxl).1, (ih hl hy hxl).2⟩
      · rw [settleBlocks_cons_claimed h hc hct] at hy ⊢
        obtain he | hy := List.mem_cons.mp hy
        · cases he
          cases hys
        · exact ⟨List.mem_cons_of_mem _ (ih hl hy hxl).1, List.mem_cons_of_mem _ (ih hl hy hxl).2⟩
      · rw [settleBlocks_cons_kept h hc] at hy ⊢
        obtain he | hy := List.mem_cons.mp hy
        · cases he
          have := settleBlocks_claimed hxl hxs hbx (List.mem_append_right taken hby)
          exact ⟨List.mem_cons_of_mem _ this.1, this.2⟩
        · exact ⟨List.mem_cons_of_mem _ (ih hl hy hxl).1, (ih hl hy hxl).2⟩

/-- The blocks kept are those of the records that are STORED in the end (R197). -/
theorem mem_settleBlocks_kept {b : Nat} {l : List (Nat × PicRecord)} {taken : List Nat} :
    b ∈ (settleBlocks taken l).2.2 ↔
      b ∈ taken ∨ ∃ e ∈ (settleBlocks taken l).1, e.2.state = .stored ∧ b ∈ e.2.extent := by
  induction l generalizing taken with
  | nil => simp [settleBlocks]
  | cons e l ih =>
    obtain ⟨j, x⟩ := e
    obtain h | ⟨h, c, hc, hct⟩ | ⟨h, hc⟩ := settle_cases x taken
    · rw [settleBlocks_cons_other h]
      simp [ih, h]
    · rw [settleBlocks_cons_claimed h hc hct]
      simp [ih, PicRecord.claimedBelow]
    · rw [settleBlocks_cons_kept h hc]
      simp [ih, h, or_assoc]

end Sys2Proof.Machine
end

section
/-! PROOFS. Allocation from the Block Map, and the law of R38: the reserved total and the records' reserved blocks. -/

namespace Sys2Proof.Machine

variable {q : List Instr} {s t : State}

/-! ### The block that is allocated -/

theorem BlockMap.erasedFrom_spec {m : BlockMap} (h : mapOk m) {start b : Nat} (hb : erasedFrom start m.blocks = some b) :
    start ≤ b ∧ m.stateOf b = .erased ∧ ∀ i, start ≤ i → i < b → m.stateOf i ≠ .erased := by
  rw [erasedFrom_eq] at hb
  obtain ⟨hs, he, hmin⟩ := BlockMap.firstFrom_spec h.1.1 rfl hb
  exact ⟨hs, eq_of_beq he, fun i hi hib => ne_of_beq_false (hmin i hi hib)⟩

theorem BlockMap.erasedFrom_none {m : BlockMap} (h : mapOk m) {start : Nat} (hb : erasedFrom start m.blocks = none) :
    ∀ i, start ≤ i → m.stateOf i ≠ .erased := by
  rw [erasedFrom_eq] at hb
  exact fun i hi => ne_of_beq_false ((BlockMap.firstFrom_none_iff h.1.1 rfl).mp hb i hi)

/-- The lowest ERASED block from the allocation cursor on, else the lowest of all (R37). -/
theorem BlockMap.nextErased_spec {m : BlockMap} (h : mapOk m) {b : Nat} (hb : m.nextErased = some b) :
    (m.allocCursor ≤ b → ∀ j, m.allocCursor ≤ j → j < b → m.stateOf j ≠ .erased) ∧
    (b < m.allocCursor → (∀ j, m.allocCursor ≤ j → m.stateOf j ≠ .erased) ∧ ∀ j, j < b → m.stateOf j ≠ .erased) := by
  unfold BlockMap.nextErased at hb
  split at hb
  next c hc =>
    cases hb
    obtain ⟨hle, -, hmin⟩ := BlockMap.erasedFrom_spec h hc
    exact ⟨fun _ => hmin, fun hlt => absurd hle (Nat.not_le.mpr hlt)⟩
  next hnone =>
    have habove := BlockMap.erasedFrom_none h hnone
    obtain ⟨-, -, hmin⟩ := BlockMap.erasedFrom_spec h hb
    exact ⟨fun _ j hj _ => habove j hj, fun _ => ⟨habove, fun j => hmin j (Nat.zero_le j)⟩⟩

theorem BlockMap.nextErased_none {m : BlockMap} (h : mapOk m) (hn : m.nextErased = none) (j : Nat) :
    m.stateOf j ≠ .erased := by
  unfold BlockMap.nextErased at hn
  split at hn
  · cases hn
  · exact BlockMap.erasedFrom_none h hn j (Nat.zero_le j)

/-- What an allocation makes of the Block Map beside the block's state (R37). -/
theorem BlockMap.allocate_some {m m' : BlockMap} {n b : Nat} (ha : m.allocate n = some (b, m')) :
    (0 < n ∨ m.reserved < m.erasedCount) ∧ m.nextErased = some b ∧ m'.allocCursor = (if b + 1 < m.total then b + 1 else 0) ∧
    m'.reserved = (if 0 < n then m.reserved - 1 else m.reserved) ∧ m'.badList = m.badList ∧ m'.total = m.total := by
  unfold BlockMap.allocate at ha
  split at ha
  next hc =>
    split at ha
    next c hb =>
      cases ha
      refine ⟨hc, hb, ?_, rfl, ?_, ?_⟩ <;> simp only [BlockMap.take, BlockMap.setState, BlockMap.after] <;> split <;> rfl
    next => cases ha
  next => cases ha

theorem BlockMap.allocate_none {m : BlockMap} {n : Nat} (ha : m.allocate n = none) :
    (n = 0 ∧ m.erasedCount ≤ m.reserved) ∨ m.nextErased = none := by
  unfold BlockMap.allocate at ha
  split at ha
  next =>
    split at ha
    next => cases ha
    next hn => exact .inr hn
  next hc => exact .inl (by omega)

/-! ### The ERASED count -/

theorem BlockMap.erasedCount_eq {m : BlockMap} (h : mapOk m) : m.erasedCount = m.countOf (· == .erased) :=
  (BlockMap.countOf_eq_listed (f := (· == .erased)) h rfl).symm

/-- A change that takes at most the ERASED block `b` from the ERASED blocks. -/
theorem BlockMap.erasedCount_le {m m' : BlockMap} (h : mapOk m) (h' : mapOk m') (ht : m'.total = m.total) (b : Nat)
    (hs : ∀ j, j ≠ b → m.stateOf j = .erased → m'.stateOf j = .erased) : m.erasedCount ≤ m'.erasedCount + 1 := by
  rw [BlockMap.erasedCount_eq h, BlockMap.erasedCount_eq h']
  unfold BlockMap.countOf
  rw [← List.length_cons (a := b)]
  refine List.Nodup.length_le_of_subset (List.nodup_range.filter _) fun j hj => ?_
  simp only [List.mem_filter, List.mem_range, beq_iff_eq, List.mem_cons, ht] at hj ⊢
  by_cases e : j = b
  · exact .inl e
  · exact .inr ⟨hj.1, hs j e hj.2⟩

/-- A change that leaves every ERASED block ERASED. -/
theorem BlockMap.erasedCount_mono {m m' : BlockMap} (h : mapOk m) (h' : mapOk m') (ht : m'.total = m.total)
    (hs : ∀ j, m.stateOf j = .erased → m'.stateOf j = .erased) : m.erasedCount ≤ m'.erasedCount := by
  rw [BlockMap.erasedCount_eq h, BlockMap.erasedCount_eq h']
  unfold BlockMap.countOf
  refine List.Nodup.length_le_of_subset (List.nodup_range.filter _) fun j hj => ?_
  simp only [List.mem_filter, List.mem_range, beq_iff_eq, ht] at hj ⊢
  exact ⟨hj.1, hs j hj.2⟩

/-- A return leaves an ERASED block ERASED. -/
theorem BlockMap.returnAll_erased {m : BlockMap} (h : mapOk m) (w : ReturnWait) (bs : List Nat) {j : Nat}
    (hj : m.stateOf j = .erased) : (m.returnAll w bs).stateOf j = .erased := by
  induction bs generalizing m with
  | nil => exact hj
  | cons b bs ih =>
    refine ih (m := m.returnOne w b) (BlockMap.returnAll_ok h w [b]) ?_
    rw [BlockMap.returnOne_state h, if_neg]
    · exact hj
    · rintro ⟨rfl, hu⟩
      exact absurd (hj.symm.trans hu) (by decide)

/-! ### Reserved blocks over all records -/

/-- The reserved blocks remaining over all records (R38). -/
def reservedSum (l : List (Nat × PicRecord)) : Nat := (l.map (·.2.remaining)).sum

theorem reservedLawful_iff (s : State) : ReservedLawful s ↔ s.map.reserved = reservedSum s.cat.places := Iff.rfl

theorem reservedSum_put {ok : PicRecord → Bool} {l : List (Nat × PicRecord)} (hl : Table.wf ok l = true) {p : Nat}
    {r : PicRecord} (hr : Table.get p l = some r) (r' : PicRecord) :
    reservedSum (Table.put p r' l) + r.remaining = reservedSum l + r'.remaining := by
  have hput := Table.sum_put (·.remaining) p r' hl
  have herase := Table.sum_erase (·.remaining) hl hr
  unfold reservedSum
  omega

theorem reservedSum_put_new {ok : PicRecord → Bool} {l : List (Nat × PicRecord)} (hl : Table.wf ok l = true) {p : Nat}
    (hr : Table.get p l = none) (r' : PicRecord) :
    reservedSum (Table.put p r' l) = reservedSum l + r'.remaining := by
  have hput := Table.sum_put (·.remaining) p r' hl
  rw [Table.erase_of_get hr] at hput
  unfold reservedSum
  omega

theorem reservedSum_erase {ok : PicRecord → Bool} {l : List (Nat × PicRecord)} (hl : Table.wf ok l = true) {p : Nat}
    {r : PicRecord} (hr : Table.get p l = some r) : reservedSum (Table.erase p l) + r.remaining = reservedSum l := by
  have herase := Table.sum_erase (·.remaining) hl hr
  unfold reservedSum
  omega

theorem ReservedLawful.of_same (hl : ReservedLawful s) (hc : t.cat.places = s.cat.places)
    (hm : t.map.reserved = s.map.reserved) : ReservedLawful t := by
  unfold ReservedLawful
  rw [hc, hm]
  exact hl

/-- A claim that changes the record at a place and takes or gives its share of the reserved total. -/
theorem ReservedLawful.put (hl : ReservedLawful s) (hw : tableOk Config.placeCount anyValue s.cat.places) {p : Nat}
    {r r' : PicRecord} (hr : s.record p = some r) (hp : t.cat.places = Table.put p r' s.cat.places)
    (hm : t.map.reserved = s.map.reserved + r'.remaining - r.remaining) : ReservedLawful t := by
  have hput := reservedSum_put hw.1 hr r'
  rw [reservedLawful_iff] at hl ⊢
  rw [hp, hm]
  omega

@[simp] theorem BlockMap.returnAll_reserved (w : ReturnWait) (bs : List Nat) (m : BlockMap) :
    (m.returnAll w bs).reserved = m.reserved := by
  rw [BlockMap.returnAll_frame]

@[simp] theorem BlockMap.setState_reserved (b : Nat) (x : BlockState) (m : BlockMap) :
    (m.setState b x).reserved = m.reserved := by
  unfold BlockMap.setState
  split <;> rfl

@[simp] theorem State.makeBad_reserved (s : State) (b : Nat) (k : BadKind) :
    (s.makeBad b k).map.reserved = s.map.reserved := by
  unfold State.makeBad
  dsimp only
  (repeat' split) <;> simp

theorem State.freePlace_reservedLawful (h : Kept q s) (hl : ReservedLawful s) (p : Nat) :
    ReservedLawful (s.freePlace p) := by
  rcases hr : s.record p with _ | r
  · rw [State.freePlace, hr]
    exact hl
  · have herase := reservedSum_erase h.places.1 hr
    have hm : (s.freePlace p).map.reserved = s.map.reserved - r.remaining := by
      rw [State.freePlace, hr]
      simp [BlockMap.release]
    rw [reservedLawful_iff] at hl ⊢
    rw [State.freePlace_places, hm]
    omega

theorem State.failPlace_reservedLawful (h : Kept q s) (hl : ReservedLawful s) (p : Nat) (c : FailCause) :
    ReservedLawful (s.failPlace p c) := by
  rcases hr : s.record p with _ | r
  · rw [State.failPlace, hr]
    exact hl
  · rw [State.failPlace, hr]
    refine hl.put (r' := r.failedWith c) h.places hr rfl ?_
    simp [BlockMap.release, PicRecord.failedWith]

theorem State.storeStored_reservedLawful (h : Kept q s) (hl : ReservedLawful s) (x : EndFields) (n : Nat) :
    ReservedLawful (s.storeStored x n) := by
  rcases hr : findNumber n s.cat.places with _ | ⟨p, r⟩
  · refine hl.of_same ?_ ?_ <;> simp [State.storeStored, State.onNumber, hr]
  · refine hl.put (p := p) (r := r) (r' := { r with
      state := .stored, remaining := 0
      picture := some { length := x.length, check := x.check, width := x.width, height := x.height } })
      h.places (h.record_of_number hr) ?_ ?_ <;> simp [State.storeStored, State.onNumber, hr, BlockMap.release]

/-- An allocation takes a reserved block from the record and from the total alike, or from neither (R37, R38). -/
theorem State.allocateFor_reservedLawful (h : tableOk Config.placeCount anyValue s.cat.places) (hl : ReservedLawful s) {p b : Nat}
    {place : Nat → PicRecord → PicRecord} (hp : ∀ b r, (place b r).remaining = r.remaining)
    (ha : s.allocateFor p place = (t, some b)) : ReservedLawful t := by
  obtain ⟨r, m, hr, hm, rfl⟩ := State.allocateFor_some ha
  obtain ⟨-, -, -, hres, -, -⟩ := BlockMap.allocate_some hm
  refine hl.put (p := p) (r' := place b { r with remaining := r.remaining - 1 }) h hr (by simp) ?_
  simp only [State.claimChanged_frame, hp, hres]
  split <;> omega

theorem State.replaceBlock_reservedLawful (h : Kept q s) (hl : ReservedLawful s) (p i b : Nat) (inRefresh : Bool) :
    ReservedLawful (s.replaceBlock p i b inRefresh).1 := by
  rcases hr : s.record p with _ | r
  · have hr' : (s.makeBad b .grown).record p = none := by simpa [State.record] using hr
    have he : (s.replaceBlock p i b inRefresh).1 = s.makeBad b .grown := by
      simp [State.replaceBlock, State.allocateFor, hr']
    rw [he]
    exact hl.of_same (by simp) (by simp)
  · obtain ⟨c, m, hm, he⟩ | he := State.replaceBlock_cases hr i b inRefresh
    · obtain ⟨-, -, -, hres, -, -⟩ := BlockMap.allocate_some hm
      rw [he]
      refine hl.put (p := p) (r' := PicRecord.onList inRefresh (replaceAt · i c) { r with remaining := r.remaining - 1 })
        h.places hr (by simp) ?_
      simp only [State.claimChanged_frame, hres, State.makeBad_reserved]
      cases inRefresh <;> simp only [PicRecord.onList, PicRecord.onExtent, PicRecord.onRefresh, Bool.false_eq_true,
        if_true, if_false] <;> split <;> omega
    · rw [he]
      refine hl.put (p := p) (r' := r.onList inRefresh (removeAt · i)) h.places hr (by simp) ?_
      cases inRefresh <;> simp [PicRecord.onList, PicRecord.onExtent, PicRecord.onRefresh]

end Sys2Proof.Machine
end

section
/-! PROOFS. The law of R38 through refresh, ARM, the prepare and start-up. -/

namespace Sys2Proof.Machine

variable {q : List Instr} {s t : State}

/-! ### Refresh -/

theorem record_of_number {s : State} (h : tableOk Config.placeCount anyValue s.cat.places) {n p : Nat} {r : PicRecord}
    (hr : findNumber n s.cat.places = some (p, r)) : s.record p = some r :=
  Table.get_of_mem h.1 (findNumber_mem hr).1

theorem record_of_refresh {s : State} (h : tableOk Config.placeCount anyValue s.cat.places) {p : Nat} {r : PicRecord}
    (hr : refreshRecord s = some (p, r)) : s.record p = some r := by
  unfold refreshRecord at hr
  split at hr
  · exact record_of_number h hr
  · cases hr

theorem State.refreshDrop_reservedLawful (h : tableOk Config.placeCount anyValue s.cat.places) (hl : ReservedLawful s)
    (unreadable : Bool) : ReservedLawful (s.refreshDrop unreadable) := by
  unfold State.refreshDrop
  split
  next p r hr =>
    refine hl.put (p := p) (r := r) (r' := { r with
      refreshExtent := none, remaining := 0, holds := r.holds - 1, unreadable := r.unreadable || unreadable })
      h (record_of_refresh h hr) (by simp) ?_
    simp [BlockMap.release]
  next => exact hl.of_same (by simp) (by simp)

theorem State.refreshComplete_reservedLawful (h : tableOk Config.placeCount anyValue s.cat.places)
    (hl : ReservedLawful s) : ReservedLawful s.refreshComplete := by
  unfold State.refreshComplete
  split
  next p r hr =>
    refine hl.put (p := p) (r := r) (r' := { r with
      extent := r.refreshExtent.getD [], refreshExtent := none, remaining := 0, peak := 0, weak := false
      holds := r.holds - 1 }) h (record_of_refresh h hr) (by simp) ?_
    simp [BlockMap.release]
  next => exact hl

theorem State.refreshAbandon_reservedLawful (h : tableOk Config.placeCount anyValue s.cat.places)
    (hl : ReservedLawful s) (unreadable : Bool) : ReservedLawful (s.refreshAbandon unreadable) :=
  (State.refreshDrop_reservedLawful h hl unreadable).of_same (by simp [State.refreshAbandon])
    (by simp [State.refreshAbandon])

theorem State.refreshRead_reservedLawful (h : tableOk Config.placeCount anyValue s.cat.places)
    (hl : ReservedLawful s) : ReservedLawful s.refreshRead := by
  unfold State.refreshRead
  split
  next f p x _ _ =>
    dsimp only
    split
    · split
      next u b ha =>
        exact (State.allocateFor_reservedLawful (place := PicRecord.appendRefresh) h hl (fun _ _ => rfl) ha).of_same
          rfl rfl
      next u ha => exact State.refreshAbandon_reservedLawful h hl false
    · exact hl
  next => exact hl

theorem State.refreshKick_reservedLawful (h : tableOk Config.placeCount anyValue s.cat.places)
    (hl : ReservedLawful s) : ReservedLawful s.refreshKick := by
  unfold State.refreshKick
  split
  · split
    · exact hl.of_same (by simp) (by simp)
    · exact State.refreshRead_reservedLawful h hl
  · exact hl

/-- A refresh reserves as many blocks as its record then has remaining (R84). -/
theorem State.refreshStart_reservedLawful (h : Kept q s) (hl : ReservedLawful s) {p : Nat} {r : PicRecord}
    (hr : s.record p = some r) (hz : r.remaining = 0) : ReservedLawful (s.refreshStart p r) := by
  unfold State.refreshStart
  refine State.refreshKick_reservedLawful ?_ ?_
  · exact tableOk_put h.places (h.record_lt hr) rfl
  · refine hl.put (p := p) (r := r)
      (r' := { r with remaining := r.extent.length, holds := r.holds + 1, refreshExtent := some [] }) h.places hr
      (by simp) ?_
    simp [BlockMap.reserve, hz]

/-! ### ARM -/

theorem freePlaceFrom_none {l : List (Nat × PicRecord)} {f p : Nat} (h : freePlaceFrom l f p = none) :
    ∀ j, p ≤ j → j < p + f → Table.get j l ≠ none := by
  induction f generalizing p with
  | zero => exact fun j h1 h2 => absurd h2 (by omega)
  | succ f ih =>
    rw [freePlaceFrom] at h
    split at h
    next => cases h
    next hp =>
      intro j h1 h2
      obtain rfl | h1 := Nat.eq_or_lt_of_le h1
      · exact fun hn => hp (by rw [hn]; rfl)
      · exact ih h j h1 (by omega)

/-- Without a FREE place all 1,024 are listed (R1, R5). -/
theorem lowestFree_none {l : List (Nat × PicRecord)} (h : lowestFree l = none) : Config.placeCount ≤ l.length := by
  have hsub : List.range Config.placeCount ⊆ l.map Prod.fst := fun j hj => by
    have hget := freePlaceFrom_none h j (Nat.zero_le j) (by simpa using hj)
    obtain ⟨r, hr⟩ := Option.ne_none_iff_exists'.mp hget
    exact List.mem_map.mpr ⟨_, Table.get_mem hr, rfl⟩
  simpa using List.Nodup.length_le_of_subset List.nodup_range hsub

theorem Table.length_put_new {ok : α → Bool} {l : List (Nat × α)} (hl : Table.wf ok l = true) {p : Nat}
    (hr : Table.get p l = none) (v : α) : (Table.put p v l).length = l.length + 1 := by
  have h := Table.sum_put (fun _ : α => 1) p v hl
  rw [Table.erase_of_get hr] at h
  simp only [List.map_const', List.sum_replicate_nat, Nat.mul_one] at h
  omega

/-- A record that ARM creates at the lowest FREE place (R5). -/
theorem State.createRecord_some {p : Nat} (hp : lowestFree s.cat.places = some p) (a : ArmFields) (n : Nat) :
    s.createRecord a n = ({ s with cat := { s.cat with
      places := Table.put p (newRecord (freeNumber s.cat.places s.cat.counter) a n) s.cat.places
      counter := freeNumber (Table.put p (newRecord (freeNumber s.cat.places s.cat.counter) a n) s.cat.places)
        (numberAfter (freeNumber s.cat.places s.cat.counter)) } }.markDirty (.place p),
      [freeNumber s.cat.places s.cat.counter]) := by
  rw [State.createRecord, hp]

/-- `k` records created one after the other reserve `k` times over (R5, R169). -/
theorem State.createBurst_reserved (a : ArmFields) (n k i : Nat) (h : Kept q s)
    (hk : k ≤ Config.placeCount - s.cat.places.length) :
    reservedSum (s.createBurst a n k i).1.cat.places = reservedSum s.cat.places + k * n ∧
    (s.createBurst a n k i).1.map = s.map := by
  induction k generalizing i s with
  | zero => simp [State.createBurst]
  | succ k ih =>
    obtain ⟨p, hp⟩ := Option.ne_none_iff_exists'.mp fun hn : lowestFree s.cat.places = none =>
      absurd (lowestFree_none hn) (by omega)
    have hfree := (lowestFree_spec hp).2
    have hnew := State.createRecord_some hp { a with index := i } n
    have hplaces : (s.createRecord { a with index := i } n).1.cat.places =
        Table.put p (newRecord (freeNumber s.cat.places s.cat.counter) { a with index := i } n) s.cat.places := by
      rw [hnew]
      simp
    have hlen := Table.length_put_new h.places.1 hfree
      (newRecord (freeNumber s.cat.places s.cat.counter) { a with index := i } n)
    have hsum := reservedSum_put_new h.places.1 hfree
      (newRecord (freeNumber s.cat.places s.cat.counter) { a with index := i } n)
    obtain ⟨hrest, hmap⟩ := ih (i + 1) (State.createRecord_kept h { a with index := i } n)
      (by rw [hplaces, hlen]; omega)
    refine ⟨?_, hmap.trans (by rw [hnew]; simp)⟩
    refine hrest.trans ?_
    rw [hplaces, hsum, Nat.succ_mul]
    simp only [newRecord]
    omega

theorem State.createRecord_reservedLawful (h : Kept q s) (hl : ReservedLawful s) (a : ArmFields) (n : Nat)
    (hf : lowestFree s.cat.places ≠ none) : ReservedLawful ((s.createRecord a n).1.onMap (·.reserve n)) := by
  obtain ⟨p, hp⟩ := Option.ne_none_iff_exists'.mp hf
  have hsum := reservedSum_put_new h.places.1 (lowestFree_spec hp).2
    (newRecord (freeNumber s.cat.places s.cat.counter) a n)
  rw [reservedLawful_iff] at hl ⊢
  rw [State.createRecord_some hp]
  refine Eq.trans ?_ hsum.symm
  rw [← hl]
  simp only [State.onMap_map, State.markDirty_frame, BlockMap.reserve]
  rfl

theorem State.shotArm_reservedLawful (h : Kept q s) (hl : ReservedLawful s) (e : Computed)
    (hf : s.shot.setup.count ≤ Sys2Proof.Machine.freePlaces s) : ReservedLawful (s.shotArm e).1 := by
  obtain ⟨hsum, hmap⟩ := State.createBurst_reserved (armFields s (burstGroup s.shot) e) s.settings.reservation
    s.shot.setup.count 1 h hf
  rw [reservedLawful_iff] at hl ⊢
  simp only [State.shotArm, State.onShot_frame, State.steadyArmed_apart, State.focusArmed_apart, State.onMap_frame,
    State.onMap_map, State.markDirty_frame, BlockMap.reserve]
  rw [hmap, hsum, hl]

/-! ### The prepare and start-up -/

theorem State.prepareBegin_reservedLawful (s : State) : ReservedLawful s.prepareBegin := by
  obtain ⟨-, hplaces⟩ := s.prepareBegin_blocks
  obtain ⟨-, -, -, hres, -, -⟩ := s.prepareBegin_map
  rw [reservedLawful_iff, hplaces, hres]
  rfl

/-- The places of a reset part: Record Memory's, rebuilt and settled (R196, R197). -/
theorem State.resetPart_places (s : State) (k : ResetCause) : (s.resetPart k).cat.places = (settleBlocks []
    (rebuildPlaces (identityTotal (memoryAfterCut s).identity) (memoryAfterCut s).places).1).1 := rfl

theorem rebuilt_remaining {total : Nat} {r x : PicRecord} (h : rebuilt total r = some x)
    (hr : r.state = .failed ∨ r.state = .damaged → r.remaining = 0) : x.remaining = 0 := by
  unfold rebuilt at h
  split at h
  · cases h
  iterate 3
    cases h
    rfl
  · split at h
    · cases h
    · cases h
      rfl
  · cases h
    exact hr (.inl ‹_›)
  · cases h
    exact hr (.inr ‹_›)

/-- After start-up no record has a reserved block remaining (R38, R196). -/
theorem State.resetPart_remaining {s : State} {k : ResetCause}
    (h : ∀ p r, (p, Durable.good r) ∈ (memoryAfterCut s).places → r.state = .failed ∨ r.state = .damaged →
      r.remaining = 0) : ∀ e ∈ (s.resetPart k).cat.places, e.2.remaining = 0 := by
  rintro ⟨p, r⟩ he
  rw [State.resetPart_places] at he
  obtain ⟨x, hx, rfl | ⟨-, rfl⟩⟩ := mem_settleBlocks he
  · obtain ⟨d, hd, hr⟩ := mem_rebuildPlaces.mp hx
    refine rebuilt_remaining hr fun hs => ?_
    cases d with
    | good y => exact h p y hd hs
    | torn => rfl
  · rfl

theorem State.resetPart_reservedLawful {s : State} {k : ResetCause}
    (h : ∀ p r, (p, Durable.good r) ∈ (memoryAfterCut s).places → r.state = .failed ∨ r.state = .damaged →
      r.remaining = 0) : (s.resetPart k).map.reserved = 0 ∧ ReservedLawful (s.resetPart k) := by
  obtain ⟨kept, hmap⟩ := s.resetPart_map k
  obtain ⟨bs, hbs⟩ := rebuiltMap_frame (memoryAfterCut s) kept
  have hres : (s.resetPart k).map.reserved = 0 := by rw [hmap, hbs]
  refine ⟨hres, ?_⟩
  rw [reservedLawful_iff, hres]
  refine (List.sum_eq_zero_iff_forall_eq_nat.mpr ?_).symm
  simp only [List.mem_map]
  rintro n ⟨e, he, rfl⟩
  exact State.resetPart_remaining h e he

/-- Settles O30: the allocation by the search from the cursor, the first half of R38 by the ERASED count, the second by
the sum over the records claim by claim. -/
theorem allocationTakesTheNextErasedBlock : Obligations.AllocationTakesTheNextErasedBlock := by
  unfold Obligations.AllocationTakesTheNextErasedBlock
  refine ⟨fun x n h => ⟨fun b y ha => ?_, fun ha => ?_, ?_, fun hle => ?_⟩, fun s hcan hl => ?_,
    fun s k h => State.resetPart_reservedLawful h⟩
  · obtain ⟨hroom, hnext, hcursor, hres, hbad, htotal⟩ := BlockMap.allocate_some ha
    obtain ⟨herased, hstates⟩ := BlockMap.allocate_states h ha
    obtain ⟨habove, hbelow⟩ := BlockMap.nextErased_spec h hnext
    refine ⟨hroom, herased, ?_, fun j hj => ?_, hcursor, hres, hbad, htotal, habove, hbelow⟩
    · rw [hstates, if_pos rfl]
    · rw [hstates, if_neg hj]
  · exact (BlockMap.allocate_none ha).imp_right fun hn j => BlockMap.nextErased_none h hn j
  · simp [BlockMap.canReserve]
  · refine ⟨fun b y ha => ?_, fun hc => ?_, ?_, fun w bs => ?_, fun b v hb => ?_⟩
    · obtain ⟨hroom, -, -, hres, -, htotal⟩ := BlockMap.allocate_some ha
      obtain ⟨herased, hstates⟩ := BlockMap.allocate_states h ha
      have hcount := BlockMap.erasedCount_le h (BlockMap.allocate_ok h ha) htotal b fun j hj he => by
        rw [hstates, if_neg hj]
        exact he
      rw [hres]
      split <;> omega
    · simp only [BlockMap.canReserve, Bool.and_eq_true, decide_eq_true_eq] at hc
      exact hc.2
    · exact Nat.le_trans (Nat.sub_le _ _) hle
    · change (BlockMap.returnAll w bs x).reserved ≤ _
      rw [BlockMap.returnAll_reserved]
      refine Nat.le_trans hle (BlockMap.erasedCount_mono h (BlockMap.returnAll_ok h w bs) ?_ fun j hj =>
        BlockMap.returnAll_erased h w bs hj)
      rw [BlockMap.returnAll_frame]
    · change (BlockMap.setState b v x).reserved ≤ _
      rw [BlockMap.setState_reserved]
      refine Nat.le_trans hle (BlockMap.erasedCount_mono h (BlockMap.setState_ok h b v) (BlockMap.setState_total x b v)
        fun j hj => ?_)
      by_cases hlt : b < x.total
      · rw [BlockMap.stateOf_setState h hlt, if_neg (by rintro rfl; exact hb hj)]
        exact hj
      · rw [BlockMap.setState_unknown (Nat.not_lt.mp hlt)]
        exact hj
  · have hk : Kept s.pending s := ⟨rfl, hcan⟩
    exact ⟨fun e hf => State.shotArm_reservedLawful hk hl e hf, fun a n hf => State.createRecord_reservedLawful hk hl a n hf,
      fun p => State.freePlace_reservedLawful hk hl p, fun p c => State.failPlace_reservedLawful hk hl p c,
      fun x n => State.storeStored_reservedLawful hk hl x n,
      fun p b t ha => State.allocateFor_reservedLawful (place := PicRecord.appendExtent) hk.places hl (fun _ _ => rfl) ha,
      fun p b t ha => State.allocateFor_reservedLawful (place := PicRecord.appendRefresh) hk.places hl (fun _ _ => rfl) ha,
      fun p i b inRefresh => State.replaceBlock_reservedLawful hk hl p i b inRefresh,
      fun p r hr hz => State.refreshStart_reservedLawful hk hl hr hz,
      State.refreshComplete_reservedLawful hk.places hl,
      fun unreadable => State.refreshDrop_reservedLawful hk.places hl unreadable,
      fun p r r' hr he => hl.put (r' := r') hk.places hr rfl (by simp [he]),
      fun b v => hl.of_same rfl (by simp), State.prepareBegin_reservedLawful s⟩

end Sys2Proof.Machine
end

section
/-! PROOFS. Start-up's rebuild as the part shows it: the record of each place, the items marked, the counter, the Block
Map. -/

namespace Sys2Proof.Machine

variable {s : State} {k : ResetCause} {p : Nat} {r : PicRecord}

/-! ### The records -/

/-- The rebuilt records of a Record Memory, before the blocks are settled (R196). -/
def rebuiltPlaces (mem : RecordMemory) : List (Nat × PicRecord) :=
  (rebuildPlaces (identityTotal mem.identity) mem.places).1

theorem State.resetPart_settled (s : State) (k : ResetCause) :
    (s.resetPart k).cat.places = (settleBlocks [] (rebuiltPlaces (memoryAfterCut s))).1 := rfl

theorem rebuiltPlaces_wf {mem : RecordMemory} (h : memoryOk mem) : Table.wf anyValue (rebuiltPlaces mem) = true :=
  (rebuildPlaces_ok h.1).1

theorem mem_rebuiltPlaces {mem : RecordMemory} (h : memoryOk mem) : (p, r) ∈ rebuiltPlaces mem ↔
    ∃ d, Table.get p mem.places = some d ∧ rebuilt (identityTotal mem.identity) (verified d) = some r :=
  mem_rebuildPlaces.trans (exists_congr fun _ =>
    and_congr_left' ⟨fun hd => Table.get_of_mem h.1.1 hd, Table.get_mem⟩)

theorem settled_wf {mem : RecordMemory} (h : memoryOk mem) :
    Table.wf anyValue (settleBlocks [] (rebuiltPlaces mem)).1 = true :=
  (tableOk_keys (rebuildPlaces_ok h.1) (settleBlocks_mem [] (rebuiltPlaces mem)).1).1

theorem State.resetPart_record (h : memoryOk (memoryAfterCut s)) :
    (s.resetPart k).record p = some r ↔ (p, r) ∈ (settleBlocks [] (rebuiltPlaces (memoryAfterCut s))).1 :=
  ⟨Table.get_mem, Table.get_of_mem (settled_wf h)⟩

/-- A place the rebuild leaves FREE. -/
theorem State.resetPart_record_none
    (hn : ∀ r, (p, r) ∉ rebuiltPlaces (memoryAfterCut s)) : (s.resetPart k).record p = none := by
  rcases hr : (s.resetPart k).record p with _ | r
  · rfl
  · obtain ⟨x, hx, -⟩ := mem_settleBlocks (Table.get_mem (hr : Table.get p (s.resetPart k).cat.places = some r))
    exact absurd hx (hn x)

theorem State.resetPart_record_other (h : memoryOk (memoryAfterCut s))
    (hr : (p, r) ∈ rebuiltPlaces (memoryAfterCut s)) (hs : r.state ≠ .stored) :
    (s.resetPart k).record p = some r :=
  (State.resetPart_record h).mpr (settleBlocks_other hr hs [])

/-! ### The items marked -/

/-- What start-up marks dirty (R12, R195 to R197). -/
def startUpItems (mem : RecordMemory) : List Item :=
  startUpDirty mem (rebuildPlaces (identityTotal mem.identity) mem.places).2
    (rebuiltCounter mem.counter (rebuiltPlaces mem)).2 (settleBlocks [] (rebuiltPlaces mem)).2.1

theorem Writer.mem_of_markAll {is : List Item} {j : Item} {w : Writer}
    (h : j ∈ (is.foldl (fun w i => w.mark i) w).queue) : j ∈ is ∨ j ∈ w.queue := by
  induction is generalizing w with
  | nil => exact .inr h
  | cons i is ih =>
    obtain h | h := ih h
    · exact .inl (List.mem_cons_of_mem _ h)
    · unfold Writer.mark at h
      dsimp only at h
      split at h
      · exact .inr h
      · obtain h | h := List.mem_append.mp h
        · exact .inr h
        · exact .inl (List.mem_singleton.mp h ▸ List.mem_cons_self)

theorem State.resetPart_queue {i : Item} :
    i ∈ (s.resetPart k).writer.queue ↔ i ∈ startUpItems (memoryAfterCut s) := by
  refine ⟨fun h => ?_, fun h => Writer.mem_markAll (.inl h)⟩
  exact (Writer.mem_of_markAll h).resolve_right (by simp [State.reset])

theorem changed_startUpItems {mem : RecordMemory} {d : Durable PicRecord} (hd : Table.get p mem.places = some d)
    (hr : ∀ r, rebuilt (identityTotal mem.identity) (verified d) = some r → d ≠ .good r) :
    .place p ∈ startUpItems mem := by
  have := mem_rebuildPlaces_changed (Table.get_mem hd) hr
  simp [startUpItems, startUpDirty, this]

theorem damaged_startUpItems {mem : RecordMemory} (h : p ∈ (settleBlocks [] (rebuiltPlaces mem)).2.1) :
    .place p ∈ startUpItems mem := by
  simp [startUpItems, startUpDirty, h]

/-- Start-up marks places, the counter and SETTINGS only. -/
theorem mem_startUpItems {mem : RecordMemory} {i : Item} (h : i ∈ startUpItems mem) :
    i = .settings ∨ i = .counter ∨ ∃ p, i = .place p := by
  simp only [startUpItems, startUpDirty, List.mem_append, List.mem_map] at h
  obtain ((h | ⟨p, -, rfl⟩) | h) | ⟨p, -, rfl⟩ := h
  · split at h
    · cases h
    · exact .inl (List.mem_singleton.mp h)
  · exact .inr (.inr ⟨p, rfl⟩)
  · split at h
    · exact .inr (.inl (List.mem_singleton.mp h))
    · cases h
  · exact .inr (.inr ⟨p, rfl⟩)

theorem settings_startUpItems {mem : RecordMemory} (h : mem.settings = .torn) : .settings ∈ startUpItems mem := by
  simp [startUpItems, startUpDirty, h]

theorem counter_startUpItems {mem : RecordMemory} (h : mem.counter = .torn) : .counter ∈ startUpItems mem := by
  simp [startUpItems, startUpDirty, rebuiltCounter, h]

/-! ### The counter -/

theorem highestNumber_fold (l : List (Nat × PicRecord)) : highestNumber l =
    (l.filterMap (·.2.number)).foldl (fun a n => some (a.elim n (max · n))) none := by
  rw [List.foldl_filterMap, highestNumber]
  congr 1
  funext a e
  rcases a with _ | x
  · rcases e.2.number with _ | n <;> rfl
  · rcases e.2.number with _ | n <;> rfl

theorem maxFold_some {l : List Nat} {x : Nat} : ∃ y, l.foldl (fun a n => some (a.elim n (max · n))) (some x) = some y ∧
    (y = x ∨ y ∈ l) ∧ x ≤ y ∧ ∀ n ∈ l, n ≤ y := by
  induction l generalizing x with
  | nil => exact ⟨x, rfl, .inl rfl, Nat.le_refl x, by simp⟩
  | cons n l ih =>
    obtain ⟨y, hy, hm, hle, hall⟩ := ih (x := max x n)
    refine ⟨y, hy, ?_, Nat.le_trans (Nat.le_max_left x n) hle, ?_⟩
    · obtain hm | hm := hm
      · obtain h | h : max x n = x ∨ max x n = n := by omega
        · exact .inl (hm.trans h)
        · exact .inr (hm.trans h ▸ List.mem_cons_self)
      · exact .inr (List.mem_cons_of_mem _ hm)
    · intro j hj
      obtain rfl | hj := List.mem_cons.mp hj
      · exact Nat.le_trans (Nat.le_max_right x j) hle
      · exact hall j hj

/-- The highest number held is the greatest of the numbers held. -/
theorem highestNumber_eq {l : List (Nat × PicRecord)} {n : Nat} (h : n ∈ l.filterMap (·.2.number))
    (hmax : ∀ j ∈ l.filterMap (·.2.number), j ≤ n) : highestNumber l = some n := by
  rw [highestNumber_fold]
  rcases hl : l.filterMap (·.2.number) with _ | ⟨x, t⟩
  · rw [hl] at h
    cases h
  · rw [hl] at h hmax ⊢
    obtain ⟨y, hy, hm, hx, hall⟩ := maxFold_some (l := t) (x := x)
    refine hy.trans (congrArg some (Nat.le_antisymm ?_ ?_))
    · exact hmax y (hm.elim (fun e => e ▸ List.mem_cons_self) (List.mem_cons_of_mem _))
    · obtain rfl | h := List.mem_cons.mp h
      · exact hx
      · exact hall n h

theorem highestNumber_none {l : List (Nat × PicRecord)} (h : l.filterMap (·.2.number) = []) :
    highestNumber l = none := by
  rw [highestNumber_fold, h]
  rfl

/-- Settling the blocks leaves the numbers as they are. -/
theorem settleBlocks_numbers (l : List (Nat × PicRecord)) (taken : List Nat) :
    (settleBlocks taken l).1.filterMap (·.2.number) = l.filterMap (·.2.number) := by
  induction l generalizing taken with
  | nil => rfl
  | cons e l ih =>
    obtain ⟨j, x⟩ := e
    obtain h | ⟨h, c, hc, hct⟩ | ⟨h, hc⟩ := settle_cases x taken
    · rw [settleBlocks_cons_other h, List.filterMap_cons, List.filterMap_cons, ih]
    · rw [settleBlocks_cons_claimed h hc hct, List.filterMap_cons, List.filterMap_cons, ih]
      rfl
    · rw [settleBlocks_cons_kept h hc, List.filterMap_cons, List.filterMap_cons, ih]

theorem State.resetPart_counter (s : State) (k : ResetCause) : (s.resetPart k).cat.counter =
    (rebuiltCounter (memoryAfterCut s).counter (rebuiltPlaces (memoryAfterCut s))).1 := rfl

/-- The numbers held after start-up, as a list. -/
theorem State.resetPart_numbers (h : memoryOk (memoryAfterCut s)) {n : Nat} :
    n ∈ (rebuiltPlaces (memoryAfterCut s)).filterMap (·.2.number) ↔
      ∃ p r, (s.resetPart k).record p = some r ∧ r.number = some n := by
  rw [← settleBlocks_numbers _ [], List.mem_filterMap]
  simp only [State.resetPart_record h, Prod.exists]

theorem State.resetPart_counter_free (h : memoryOk (memoryAfterCut s)) (hc : (memoryAfterCut s).counter = .torn)
    (hn : ∀ p r, (s.resetPart k).record p = some r → r.number = none) : (s.resetPart k).cat.counter = 1 := by
  have hnil : (rebuiltPlaces (memoryAfterCut s)).filterMap (·.2.number) = [] := by
    refine List.eq_nil_iff_forall_not_mem.mpr fun n hmem => ?_
    obtain ⟨p, r, hr, hrn⟩ := (State.resetPart_numbers h (k := k)).mp hmem
    exact absurd (hrn.symm.trans (hn p r hr)) (by simp)
  rw [State.resetPart_counter, hc]
  simp only [rebuiltCounter, highestNumber_none hnil]

theorem State.resetPart_counter_above (h : memoryOk (memoryAfterCut s)) (hc : (memoryAfterCut s).counter = .torn)
    {n : Nat} (hr : (s.resetPart k).record p = some r) (hn : r.number = some n)
    (hmax : ∀ q x j, (s.resetPart k).record q = some x → x.number = some j → j ≤ n) :
    (s.resetPart k).cat.counter = if 9999 ≤ n then 1 else n + 1 := by
  have hhigh : highestNumber (rebuiltPlaces (memoryAfterCut s)) = some n := by
    refine highestNumber_eq ((State.resetPart_numbers h (k := k)).mpr ⟨p, r, hr, hn⟩) fun j hj => ?_
    obtain ⟨q, x, hx, hxj⟩ := (State.resetPart_numbers h (k := k)).mp hj
    exact hmax q x j hx hxj
  rw [State.resetPart_counter, hc]
  simp only [rebuiltCounter, hhigh]
  rfl

/-! ### The Block Map -/

/-- The states of the known blocks after several blocks are set alike. -/
theorem setStates_stateOf {α : Type} (f : α → Nat) (x : BlockState) (l : List α) {m : BlockMap} (h : mapOk m) {b : Nat}
    (hb : b < m.total) : (l.foldl (fun m e => m.setState (f e) x) m).stateOf b =
      if b ∈ l.map f then x else m.stateOf b := by
  induction l generalizing m with
  | nil => rfl
  | cons e l ih =>
    rw [List.foldl_cons, ih (BlockMap.setState_ok h _ _) (by rw [BlockMap.setState_total]; exact hb)]
    have hset : (m.setState (f e) x).stateOf b = if b = f e then x else m.stateOf b := by
      by_cases he : f e < m.total
      · exact BlockMap.stateOf_setState h he x b
      · rw [BlockMap.setState_unknown (Nat.not_lt.mp he), if_neg (by omega)]
    rw [hset, List.map_cons]
    by_cases hl : b ∈ l.map f
    · rw [if_pos hl, if_pos (List.mem_cons_of_mem _ hl)]
    · by_cases he : b = f e
      · rw [if_neg hl, if_pos he, if_pos (he ▸ List.mem_cons_self)]
      · rw [if_neg hl, if_neg he, if_neg (by simp [he, hl])]

/-- Start-up's Block Map before the blocks of the STORED records: the listed blocks BAD (R46). -/
theorem rebuiltMap_listed {mem : RecordMemory} (h : memoryOk mem) {b : Nat} (hb : b < (rebuiltMap mem []).total) :
    (rebuiltMap mem []).stateOf b = if b ∈ (rebuiltMap mem []).badList.map Prod.fst then .bad else .unchecked := by
  have hok := (rebuiltMap_ok h []).2
  obtain ⟨bs, hbs⟩ := rebuiltMap_frame mem []
  have hlist := congrArg BlockMap.badList hbs
  rw [hbs] at hb hok
  rw [hlist]
  exact setStates_stateOf Prod.fst .bad _ (m :=
    { total := identityTotal mem.identity, blocks := [], reserved := 0, allocCursor := 0, eraseCursor := 0
      badList := _, identity := _, mode := _, prepare := none, inHand := none }) ⟨tableOk_nil _ _, hok⟩ hb

/-- The block states start-up gives: the blocks of STORED records IN_USE, else the listed ones BAD (R46, R197). -/
theorem rebuiltMap_stateOf {mem : RecordMemory} (h : memoryOk mem) (kept : List Nat) {b : Nat}
    (hb : b < (rebuiltMap mem kept).total) : (rebuiltMap mem kept).stateOf b =
      if b ∈ kept then .inUse else if b ∈ (rebuiltMap mem kept).badList.map Prod.fst then .bad else .unchecked := by
  obtain ⟨bs, hbs⟩ := rebuiltMap_frame mem kept
  obtain ⟨bs', hbs'⟩ := rebuiltMap_frame mem []
  have hlist : (rebuiltMap mem kept).badList = (rebuiltMap mem []).badList := by rw [hbs, hbs']
  have htotal : b < (rebuiltMap mem []).total := by
    rw [hbs] at hb
    rw [hbs']
    exact hb
  have hkept := setStates_stateOf id .inUse kept (rebuiltMap_ok h []) htotal
  rw [List.map_id] at hkept
  rw [hlist, ← rebuiltMap_listed h htotal]
  exact hkept

end Sys2Proof.Machine
end

section
/-! PROOFS. Start-up rebuilds every place (R195 to R197). -/

namespace Sys2Proof.Machine

variable {s : State} {k : ResetCause} {p : Nat} {r : PicRecord}

theorem rebuilt_interrupted {total : Nat} (h : r.state = .exposing ∨ r.state = .awaiting ∨ r.state = .storing) :
    rebuilt total r = some (r.failedWith .interrupted).durable := by
  unfold rebuilt
  obtain h | h | h := h <;> rw [h]

theorem rebuilt_kept {total : Nat} (h : r.state = .failed ∨ r.state = .damaged) :
    rebuilt total r = some r.durable := by
  unfold rebuilt
  obtain h | h := h <;> rw [h]

theorem rebuilt_stored {total : Nat} (h : r.state = .stored) (ht : total ≠ 0) :
    rebuilt total r = some { r.durable with remaining := 0 } := by
  unfold rebuilt
  rw [h]
  exact if_neg ht

theorem rebuilt_stored_unknown (h : r.state = .stored) : rebuilt 0 r = none := by
  unfold rebuilt
  rw [h]
  rfl

theorem rebuilt_reserved {total : Nat} (h : r.state = .reserved) : rebuilt total r = none := by
  unfold rebuilt
  rw [h]

/-- A STORED record comes out of the rebuild STORED only from a STORED one, while the identity names a total. -/
theorem rebuilt_stored_of {total : Nat} {x : PicRecord} (h : rebuilt total r = some x) (hx : x.state = .stored) :
    r.state = .stored ∧ total ≠ 0 ∧ x = { r.durable with remaining := 0 } := by
  rcases hs : r.state with _ | _ | _ | _ | _ | _ | _
  case stored =>
    by_cases ht : total = 0
    · rw [ht, rebuilt_stored_unknown hs] at h
      cases h
    · exact ⟨rfl, ht, (Option.some_inj.mp ((rebuilt_stored hs ht).symm.trans h)).symm⟩
  case reserved => exact absurd ((rebuilt_reserved hs).symm.trans h) (by simp)
  case exposing | awaiting | storing =>
    have he := Option.some_inj.mp ((rebuilt_interrupted (by simp [hs])).symm.trans h)
    rw [← he] at hx
    cases hx
  case failed | damaged =>
    have he := Option.some_inj.mp ((rebuilt_kept (by simp [hs])).symm.trans h)
    rw [← he] at hx
    exact absurd (hs.symm.trans hx) (by simp)

/-- The place of a record that the rebuild removes is FREE and marked. -/
theorem State.resetPart_removed (h : memoryOk (memoryAfterCut s))
    (hg : Table.get p (memoryAfterCut s).places = some (.good r))
    (hr : rebuilt (identityTotal (memoryAfterCut s).identity) r = none) :
    (s.resetPart k).record p = none ∧ .place p ∈ (s.resetPart k).writer.queue := by
  refine ⟨State.resetPart_record_none fun x hx => ?_, State.resetPart_queue.mpr (changed_startUpItems hg fun x hx => ?_)⟩
  · obtain ⟨d, hd, hx⟩ := (mem_rebuiltPlaces h).mp hx
    cases hg.symm.trans hd
    exact absurd (hr.symm.trans hx) (by simp)
  · exact absurd (hr.symm.trans hx) (by simp)

/-- The record of a place whose rebuilt record is not STORED. -/
theorem State.resetPart_rebuilt (h : memoryOk (memoryAfterCut s)) {d : Durable PicRecord} {x : PicRecord}
    (hg : Table.get p (memoryAfterCut s).places = some d)
    (hr : rebuilt (identityTotal (memoryAfterCut s).identity) (verified d) = some x) (hs : x.state ≠ .stored) :
    (s.resetPart k).record p = some x ∧ (d ≠ .good x → .place p ∈ (s.resetPart k).writer.queue) := by
  refine ⟨State.resetPart_record_other h ((mem_rebuiltPlaces h).mpr ⟨d, hg, hr⟩) hs, fun hne => ?_⟩
  refine State.resetPart_queue.mpr (changed_startUpItems hg fun y hy => ?_)
  cases hr.symm.trans hy
  exact hne

/-- A STORED record among the rebuilt ones. -/
theorem stored_mem_rebuiltPlaces {mem : RecordMemory} (h : memoryOk mem) (hg : Table.get p mem.places = some (.good r))
    (hs : r.state = .stored) (ht : identityTotal mem.identity ≠ 0) :
    (p, { r with remaining := 0, refreshExtent := none, holds := 0 }) ∈ rebuiltPlaces mem :=
  (mem_rebuiltPlaces h).mpr ⟨_, hg, rebuilt_stored hs ht⟩

/-- The rebuilt STORED records are Record Memory's. -/
theorem rebuiltPlaces_stored {mem : RecordMemory} (h : memoryOk mem) (hr : (p, r) ∈ rebuiltPlaces mem)
    (hs : r.state = .stored) : ∃ x, Table.get p mem.places = some (.good x) ∧ x.state = .stored ∧
      r = { x with remaining := 0, refreshExtent := none, holds := 0 } := by
  obtain ⟨d, hd, hx⟩ := (mem_rebuiltPlaces h).mp hr
  obtain ⟨hv, -, rfl⟩ := rebuilt_stored_of hx hs
  cases d with
  | good x => exact ⟨x, hd, hv, rfl⟩
  | torn => cases hv

/-- A record STORED after start-up is STORED in Record Memory, with the same extent. -/
theorem State.resetPart_stored (h : memoryOk (memoryAfterCut s)) (hr : (s.resetPart k).record p = some r)
    (hs : r.state = .stored) : (p, r) ∈ rebuiltPlaces (memoryAfterCut s) := by
  obtain ⟨x, hx, rfl | ⟨-, rfl⟩⟩ := mem_settleBlocks ((State.resetPart_record h).mp hr)
  · exact hx
  · cases hs

/-- A record that loses a block to a lower place is DAMAGED and marked (R197). -/
theorem State.resetPart_conflict (h : memoryOk (memoryAfterCut s)) {q b : Nat} {x y : PicRecord} (hpq : p < q)
    (hr : Table.get p (memoryAfterCut s).places = some (.good r))
    (hx : Table.get q (memoryAfterCut s).places = some (.good x)) (hxs : x.state = .stored)
    (ht : identityTotal (memoryAfterCut s).identity ≠ 0) (hbr : b ∈ r.extent) (hbx : b ∈ x.extent)
    (hy : (s.resetPart k).record p = some y) (hys : y.state = .stored) :
    (s.resetPart k).record q = some { x with
      state := .damaged, extent := [], picture := none, trim := none, remaining := 0, refreshExtent := none
      holds := 0 } ∧ .place q ∈ (s.resetPart k).writer.queue := by
  obtain ⟨z, hz, -, hyz⟩ := rebuiltPlaces_stored h (State.resetPart_stored h hy hys) hys
  cases hr.symm.trans hz
  have hby : b ∈ y.extent := by
    rw [hyz]
    exact hbr
  obtain ⟨hrec, hdam⟩ := settleBlocks_conflict (rebuiltPlaces_wf h) hpq ((State.resetPart_record h).mp hy) hys hby
    (stored_mem_rebuiltPlaces h hx hxs ht) hxs hbx
  exact ⟨(State.resetPart_record h).mpr hrec, State.resetPart_queue.mpr (damaged_startUpItems hdam)⟩

/-- A STORED record keeps its blocks when no lower place's STORED record holds one of them (R197). -/
theorem State.resetPart_keeps (h : memoryOk (memoryAfterCut s))
    (hr : Table.get p (memoryAfterCut s).places = some (.good r)) (hs : r.state = .stored)
    (ht : identityTotal (memoryAfterCut s).identity ≠ 0)
    (hlow : ∀ j x, j < p → Table.get j (memoryAfterCut s).places = some (.good x) → x.state = .stored →
      ∀ b ∈ x.extent, b ∉ r.extent) :
    (s.resetPart k).record p = some { r with remaining := 0, refreshExtent := none, holds := 0 } := by
  refine (State.resetPart_record h).mpr (settleBlocks_kept (rebuiltPlaces_wf h) (stored_mem_rebuiltPlaces h hr hs ht) hs
    (by simp) fun j x hj hx hxs => ?_)
  obtain ⟨y, hy, hys, rfl⟩ := rebuiltPlaces_stored h hx hxs
  exact hlow j y hj hy hys

/-- What start-up does with a good record of Record Memory (R196). -/
theorem State.resetPart_good (h : memoryOk (memoryAfterCut s))
    (hg : Table.get p (memoryAfterCut s).places = some (.good r)) :
    (r.state = .reserved → (s.resetPart k).record p = none ∧ .place p ∈ (s.resetPart k).writer.queue) ∧
    (r.state = .exposing ∨ r.state = .awaiting ∨ r.state = .storing → (s.resetPart k).record p = some
      { r with state := .failed, cause := some .interrupted, remaining := 0, extent := [], refreshExtent := none
               picture := none, trim := none, holds := 0 } ∧ .place p ∈ (s.resetPart k).writer.queue) ∧
    (r.state = .failed ∨ r.state = .damaged →
      (s.resetPart k).record p = some { r with refreshExtent := none, holds := 0 }) ∧
    (r.state = .stored → identityTotal (memoryAfterCut s).identity = 0 →
      (s.resetPart k).record p = none ∧ .place p ∈ (s.resetPart k).writer.queue) ∧
    (r.state = .stored → 0 < r.remaining → .place p ∈ (s.resetPart k).writer.queue) := by
  refine ⟨fun hs => State.resetPart_removed h hg (rebuilt_reserved hs), fun hs => ?_, fun hs => ?_, fun hs ht => ?_,
    fun hs hrem => ?_⟩
  · obtain ⟨hrec, hmark⟩ := State.resetPart_rebuilt (k := k) h hg (rebuilt_interrupted hs) nofun
    refine ⟨hrec, hmark fun he => ?_⟩
    rw [Durable.good.inj he] at hs
    exact absurd hs (by simp [PicRecord.failedWith, PicRecord.durable])
  · refine (State.resetPart_rebuilt h hg (rebuilt_kept hs) fun hs' => ?_).1
    have hs'' : r.state = .stored := hs'
    rw [hs''] at hs
    exact absurd hs (by simp)
  · refine State.resetPart_removed h hg ?_
    rw [ht]
    exact rebuilt_stored_unknown hs
  · refine State.resetPart_queue.mpr (changed_startUpItems hg fun x hx he => ?_)
    cases he
    obtain ⟨-, -, hx⟩ := rebuilt_stored_of hx hs
    have hz : r.remaining = 0 := congrArg PicRecord.remaining hx
    omega

/-- A torn record becomes the unreadable DAMAGED one (R10, R195). -/
theorem State.resetPart_torn (h : memoryOk (memoryAfterCut s))
    (hg : Table.get p (memoryAfterCut s).places = some .torn) :
    (s.resetPart k).record p = some unreadableRecord ∧ .place p ∈ (s.resetPart k).writer.queue := by
  obtain ⟨hrec, hmark⟩ := State.resetPart_rebuilt (k := k) (x := unreadableRecord) h hg
    (rebuilt_kept (r := unreadableRecord) (.inr rfl)) nofun
  exact ⟨hrec, hmark nofun⟩

/-- The Block Map of a reset part, with the blocks kept by its STORED records. -/
theorem State.resetPart_kept_blocks (h : memoryOk (memoryAfterCut s)) : ∃ kept,
    (s.resetPart k).map = rebuiltMap (memoryAfterCut s) kept ∧
    ∀ b, b ∈ kept ↔ ∃ p r, (s.resetPart k).record p = some r ∧ r.state = .stored ∧ b ∈ r.extent := by
  refine ⟨(settleBlocks [] (rebuiltPlaces (memoryAfterCut s))).2.2, rfl, fun b => mem_settleBlocks_kept.trans ?_⟩
  simp only [State.resetPart_record h, Prod.exists, List.not_mem_nil, false_or]

theorem Table.get_ne_none_iff {α : Type} {b : Nat} {l : List (Nat × α)} :
    Table.get b l ≠ none ↔ b ∈ l.map Prod.fst := by
  induction l with
  | nil => simp
  | cons e l ih =>
    obtain ⟨j, v⟩ := e
    by_cases hj : j = b
    · simp [Table.get, hj]
    · simp [Table.get, hj, Ne.symm hj, ih]

/-- The state of every block after start-up (R46, R197). -/
theorem State.resetPart_blocks (h : memoryOk (memoryAfterCut s)) (b : Nat) :
    let kept : Prop := ∃ p r, (s.resetPart k).record p = some r ∧ r.state = .stored ∧ b ∈ r.extent
    (b < (s.resetPart k).map.total → kept → (s.resetPart k).map.stateOf b = .inUse) ∧
    (b < (s.resetPart k).map.total → ¬kept → Table.get b (s.resetPart k).map.badList ≠ none →
      (s.resetPart k).map.stateOf b = .bad) ∧
    ((s.resetPart k).map.total ≤ b ∨ (¬kept ∧ Table.get b (s.resetPart k).map.badList = none) →
      (s.resetPart k).map.stateOf b = .unchecked) := by
  intro kept
  obtain ⟨bs, hmap, hkept⟩ := State.resetPart_kept_blocks (k := k) h
  have hstate := rebuiltMap_stateOf h bs (b := b)
  have hok := rebuiltMap_ok h bs
  rw [← hmap] at hstate hok
  refine ⟨fun hb hk => ?_, fun hb hk hl => ?_, fun hb => ?_⟩
  · rw [hstate hb, if_pos ((hkept b).mpr hk)]
  · rw [hstate hb, if_neg (fun hm => hk ((hkept b).mp hm)), if_pos (Table.get_ne_none_iff.mp hl)]
  · by_cases ht : b < (s.resetPart k).map.total
    · obtain ⟨hk, hl⟩ := hb.resolve_left (Nat.not_le.mpr ht)
      rw [hstate ht, if_neg (fun hm => hk ((hkept b).mp hm)),
        if_neg fun hm => Table.get_ne_none_iff.mpr hm hl]
    · unfold BlockMap.stateOf
      rcases hg : Table.get b (s.resetPart k).map.blocks with _ | v
      · rfl
      · exact absurd (tableOk_get hok.1 hg) ht

/-- What start-up gives the Block Map besides the states. -/
theorem State.resetPart_mapHead (s : State) (k : ResetCause) :
    (∀ l, (memoryAfterCut s).badList = .good l → (s.resetPart k).map.badList = l) ∧
    ((memoryAfterCut s).badList = .torn →
      (s.resetPart k).map.badList = [] ∧ (s.resetPart k).map.mode = .unprepared) ∧
    (∀ n l, (memoryAfterCut s).identity = .good (some n) → (s.resetPart k).map.total = n ∧
      (s.resetPart k).map.identity = some n ∧
      ((memoryAfterCut s).badList = .good l → (s.resetPart k).map.mode = .writable)) ∧
    ((memoryAfterCut s).identity = .good none ∨ (memoryAfterCut s).identity = .torn →
      (s.resetPart k).map.total = 0 ∧ (s.resetPart k).map.identity = none ∧
      (s.resetPart k).map.mode = .unprepared) := by
  obtain ⟨kept, hmap⟩ := State.resetPart_map (s := s) k
  obtain ⟨bs, hbs⟩ := rebuiltMap_frame (memoryAfterCut s) kept
  rw [hmap, hbs]
  refine ⟨fun l hl => ?_, fun hl => ?_, fun n l hn => ?_, fun hn => ?_⟩
  · simp only [hl]
  · rcases hi : (memoryAfterCut s).identity with (_ | n) | _ <;> simp [hl]
  · simp +contextual [hn, identityTotal]
  · obtain hn | hn := hn <;> simp [hn, identityTotal]

/-- The settings and the lens table after start-up (R191, R195). -/
theorem State.resetPart_tables (s : State) (k : ResetCause) :
    (∀ x, (memoryAfterCut s).settings = .good x → (s.resetPart k).settings = x) ∧
    ((memoryAfterCut s).settings = .torn → (s.resetPart k).settings = defaultSettings) ∧
    (s.resetPart k).zoom = resetZoom (rebuiltTable (memoryAfterCut s).lensTable) := by
  refine ⟨fun x hx => ?_, fun hx => ?_, rfl⟩
  · show (match (memoryAfterCut s).settings with | .good x => x | .torn => defaultSettings) = x
    rw [hx]
  · show (match (memoryAfterCut s).settings with | .good x => x | .torn => defaultSettings) = _
    rw [hx]

/-- The default weights as R191 draws them. -/
theorem defaultWeights_get : ∀ col, col < 8 → ∀ row, row < 6 → defaultWeights[row * 8 + col]? = some
    (if 3 ≤ col ∧ col ≤ 4 ∧ 2 ≤ row ∧ row ≤ 3 then 8
      else if 2 ≤ col ∧ col ≤ 5 ∧ 1 ≤ row ∧ row ≤ 4 then 4 else 2) := by
  decide

/-- Settles O17: the rebuilt records place by place, the counter from the numbers held, the Block Map from the extents
kept. -/
theorem startUpRebuildsEveryPlace : Obligations.StartUpRebuildsEveryPlace := by
  unfold Obligations.StartUpRebuildsEveryPlace
  intro m s hcan hp hidle
  obtain ⟨-, hmem, -⟩ := hcan
  have hcut : memoryAfterCut (s.arrive m) = s.memory := by
    unfold memoryAfterCut
    rw [show (s.arrive m).writer = s.writer from rfl, hidle]
    rfl
  have hok : memoryOk (memoryAfterCut (s.arrive m)) := hcut ▸ hmem
  obtain ⟨hbad, hbadTorn, hident, hidentNone⟩ := State.resetPart_mapHead (s.arrive m) .resetLine
  obtain ⟨hset, hsetTorn, hzoom⟩ := State.resetPart_tables (s.arrive m) .resetLine
  have htotal : ((s.arrive m).resetPart .resetLine).map.total = identityTotal (memoryAfterCut (s.arrive m)).identity := by
    obtain ⟨kept, hmap⟩ := State.resetPart_map (s := s.arrive m) .resetLine
    obtain ⟨bs, hbs⟩ := rebuiltMap_frame (memoryAfterCut (s.arrive m)) kept
    rw [hmap, hbs]
  refine ⟨_, exec_reset_powered hp m, ?_⟩
  rw [← hcut, htotal]
  refine ⟨fun p hn => State.resetPart_record_none fun r hr => ?_, fun p ht => State.resetPart_torn hok ht,
    fun p r hg => ?_, fun p q r x y b hpq hr hx _ hxs ht hbr hbx hy hys =>
      State.resetPart_conflict hok hpq hr hx hxs ht hbr hbx hy hys, fun n hn => ?_, fun ht =>
      ⟨State.resetPart_queue.mpr (counter_startUpItems ht), State.resetPart_counter_free hok ht,
        fun p r n hr hn hmax => State.resetPart_counter_above hok ht hr hn hmax⟩, hset, fun ht => ?_, fun x hx => ?_,
    fun hx => ?_, hbad, hbadTorn, ?_, ?_, ?_, ?_, ?_, fun b => ?_⟩
  · obtain ⟨d, hd, -⟩ := (mem_rebuiltPlaces hok).mp hr
    exact absurd (hn.symm.trans hd) (by simp)
  · obtain ⟨hres, hint, hfail, hunknown, hrem⟩ := State.resetPart_good (k := .resetLine) hok hg
    exact ⟨hres, hint, hfail, hunknown, fun hs ht hlow => State.resetPart_keeps hok hg hs ht hlow, hrem⟩
  · rw [State.resetPart_counter, hn]
    rfl
  · rw [hsetTorn ht]
    exact ⟨rfl, rfl, rfl, rfl, defaultWeights_get, State.resetPart_queue.mpr (settings_startUpItems ht)⟩
  · rw [hzoom, hx]
    refine ⟨rfl, fun l hl => ?_⟩
    rw [hl]
    rfl
  · rw [hzoom]
    obtain hx | hx := hx <;> rw [hx] <;> exact ⟨rfl, rfl⟩
  · rw [← htotal]
    exact hident
  · rw [← htotal]
    exact hidentNone
  iterate 3
    intro h
    obtain h | h | ⟨p, h⟩ := mem_startUpItems (State.resetPart_queue.mp h) <;> cases h
  · rw [← htotal]
    exact State.resetPart_blocks hok b

end Sys2Proof.Machine
end

section
/-! PROOFS. The In Lane's receiver byte by byte, and what a row does by the block in hand (R51, R52, R193). -/

namespace Sys2Proof.Machine

variable {s : State} {m : Moment}

/-! ### Bytes -/

theorem takeBytes_hunting {pass : List Byte} (h : ∀ x ∈ pass, x ≠ 195#8) :
    pass.foldl (LaneReceiver.takeByte s) .hunting = .hunting := by
  induction pass with
  | nil => rfl
  | cons x pass ih =>
    have hx : LaneReceiver.takeByte s .hunting x = .hunting := if_neg (h x List.mem_cons_self)
    rw [List.foldl_cons, hx]
    exact ih fun y hy => h y (List.mem_cons_of_mem _ hy)

theorem takeByte_header {h : List Byte} (hl : h.length < 2) (x : Byte) :
    LaneReceiver.takeByte s (.header h) x = .header (h ++ [x]) := by
  match h, hl with
  | [], _ => rfl
  | [_], _ => rfl

theorem takeBytes_header {h l : List Byte} (hl : h.length + l.length ≤ 2) :
    l.foldl (LaneReceiver.takeByte s) (.header h) = .header (h ++ l) := by
  induction l generalizing h with
  | nil => rw [List.append_nil, List.foldl_nil]
  | cons x l ih =>
    rw [List.length_cons] at hl
    rw [List.foldl_cons, takeByte_header (by omega), ih (by rw [List.length_append, List.length_singleton]; omega),
      List.append_assoc, List.singleton_append]

/-- The three bytes of a header make it a block. -/
theorem takeBytes_headed {h l : List Byte} {k hi lo : Byte} (hl : l ≠ []) (he : h ++ l = [k, hi, lo]) :
    l.foldl (LaneReceiver.takeByte s) (.header h) = laneHeaded s k (hi.toNat * 256 + lo.toNat) := by
  have hlen := congrArg List.length he
  rw [List.length_append] at hlen
  have hpos := List.length_pos_iff.mpr hl
  obtain ⟨a, x, rfl⟩ := List.eq_nil_or_concat l |>.resolve_left hl
  rw [List.concat_eq_append] at he hlen ⊢
  rw [List.length_append, List.length_singleton, List.length_cons, List.length_cons, List.length_cons,
    List.length_nil] at hlen
  rw [List.foldl_append, takeBytes_header (by omega)]
  rw [← List.append_assoc] at he
  obtain ⟨ha, hx⟩ := List.append_inj' (t₂ := [lo]) (s₂ := [k, hi]) he rfl
  rw [ha, List.singleton_inj.mp hx]
  rfl

/-- A body that may be clocked in, byte by byte. -/
theorem takeBytes_body {b : LaneBlock} (l : List Byte)
    (hb : b.kind ≠ 3#8 ∨ 0 < b.got ∨ inLaneReady s = true) (hle : b.got ≤ b.length) :
    l.foldl (LaneReceiver.takeByte s) (.block b) = .block { b with got := min b.length (b.got + l.length) } := by
  have hwaits : ∀ n, b.got ≤ n → ({ b with got := n } : LaneBlock).waits s = false := fun n hn => by
    obtain hb | hb | hb := hb
    · simp [LaneBlock.waits, hb]
    · have hn0 : n ≠ 0 := by omega
      simp [LaneBlock.waits, hn0]
    · simp [LaneBlock.waits, hb]
  induction l generalizing b with
  | nil =>
    rw [List.foldl_nil, List.length_nil, Nat.add_zero, Nat.min_eq_right hle]
  | cons x l ih =>
    rw [List.foldl_cons, List.length_cons]
    by_cases hfull : b.length ≤ b.got
    · have hstay : LaneReceiver.takeByte s (.block b) x = .block b := if_pos (.inr hfull)
      rw [hstay, ih hb hle hwaits, Nat.min_eq_left (by omega), Nat.min_eq_left (by omega)]
    · have hwait : ¬(b.waits s = true ∨ b.length ≤ b.got) := by
        rintro (hw | hw)
        · have hnow : b.waits s = false := hwaits b.got (Nat.le_refl _)
          exact absurd (hnow.symm.trans hw) (by simp)
        · exact hfull hw
      have hstep : LaneReceiver.takeByte s (.block b) x = .block { b with got := b.got + 1 } := if_neg hwait
      rw [hstep, ih (b := { b with got := b.got + 1 }) (hb.imp_right fun _ => .inl (Nat.succ_pos _))
        (Nat.lt_of_not_le hfull) fun n hn => hwaits n (Nat.le_of_succ_le hn)]
      simp only [Nat.add_assoc, Nat.add_comm 1]

/-- A PICTURE_DATA body that has not begun waits while ready is low (R51, R52). -/
theorem takeBytes_waits {b : LaneBlock} (l : List Byte) (hk : b.kind = 3#8) (hg : b.got = 0)
    (hr : inLaneReady s = false) : l.foldl (LaneReceiver.takeByte s) (.block b) = .block b := by
  have hw : b.waits s = true := by simp [LaneBlock.waits, hk, hg, hr]
  induction l with
  | nil => rfl
  | cons x l ih =>
    have hstay : LaneReceiver.takeByte s (.block b) x = .block b := if_pos (.inl hw)
    rw [List.foldl_cons, hstay, ih]

theorem laneHeaded_dropped {k : Byte} (n : Nat) (hp : s.supply.powerLow = true) (hk : k = 3#8) :
    laneHeaded s k n = .hunting := if_pos ⟨hp, hk⟩

theorem laneHeaded_taken {k : Byte} (n : Nat) (h : s.supply.powerLow = false ∨ k ≠ 3#8) : laneHeaded s k n =
    .block { kind := k, length := n, discard := decide (s.supply.shutdown = .starting), got := 0 } := by
  refine if_neg fun hh => ?_
  obtain ⟨hp, hk⟩ := hh
  exact h.elim (fun hf => absurd (hf.symm.trans hp) (by simp)) fun hne => hne hk

theorem inLaneReady_iff (hp : s.supply.powered = true) : inLaneReady s = true ↔
    s.supply.shutdown ≠ .starting ∧ s.supply.powerLow = false ∧ s.store.stream ≠ .ending ∧
      (s.store.bufA.state = .empty ∨ s.store.bufB.state = .empty) := by
  simp only [inLaneReady, hp, Bool.true_and, Bool.and_eq_true, Bool.or_eq_true, bne_iff_ne, Bool.not_eq_true',
    beq_iff_eq, and_assoc]

/-! ### Rows -/

theorem laneOpens_iff (k : Byte) (n : Nat) (s : State) : s.lane.opens k n = true ↔ LaneOpens k n s := by
  have hbytes : k :: beBytes 2 n = headerBytes k n := by simp [beBytes]
  unfold LaneOpens
  rcases s.lane with _ | h | b
  · simp [LaneReceiver.opens]
  · simp only [LaneReceiver.opens, List.isPrefixOf_iff_prefix, hbytes, LaneReceiver.header.injEq, reduceCtorEq, false_or]
    constructor
    · rintro ⟨rest, he⟩
      exact ⟨h, rest, rfl, he⟩
    · rintro ⟨_, rest, rfl, he⟩
      exact ⟨rest, he⟩
  · simp [LaneReceiver.opens]

theorem laneOpens_not_block {k : Byte} {n : Nat} (h : LaneOpens k n s) (b : LaneBlock) : s.lane ≠ .block b := by
  obtain h | ⟨x, -, h, -⟩ := h <;> rw [h] <;> simp

theorem laneBlock_opens {k : Byte} {n : Nat} (h : LaneOpens k n s) (f : State → State) :
    laneBlock k n f s = if s.supply.shutdown = .starting then s.laneFree else f s.laneFree := by
  unfold laneBlock
  split
  next b hb => exact absurd hb (laneOpens_not_block h b)
  next => exact if_pos ((laneOpens_iff k n s).mpr h)

theorem laneBlock_block {k : Byte} {n : Nat} {b : LaneBlock} (hl : s.lane = .block b) (f : State → State) :
    laneBlock k n f s = if b.kind = k then (if b.dropped then s.laneFree else f s.laneFree) else s := by
  unfold laneBlock
  split
  next b' hb' =>
    cases hl.symm.trans hb'
    rfl
  next h => exact absurd hl (h b)

theorem laneBlock_shut {k : Byte} {n : Nat} (hb : ∀ b, s.lane ≠ .block b) (h : ¬LaneOpens k n s)
    (f : State → State) : laneBlock k n f s = s := by
  unfold laneBlock
  split
  next b hb' => exact absurd hb' (hb b)
  next => exact if_neg fun ho => h ((laneOpens_iff k n s).mp ho)

/-- A block of the length its kind takes reaches its owner (R51, R193). -/
theorem laneBlock_holds {k : Byte} {n : Nat} (h : LaneHolds k n s) (hn : laneLengthOk k n = true)
    (f : State → State) : laneBlock k n f s = f s.laneFree := by
  obtain ⟨b, hb, rfl, rfl, hd⟩ := h
  rw [laneBlock_block hb, if_pos rfl]
  exact if_neg (by simp [LaneBlock.dropped, hd, hn])

/-- The two ways a block reaches its owner. -/
theorem laneBlock_taken {k : Byte} {n : Nat} (h : LaneOpens k n s ∧ s.supply.shutdown ≠ .starting ∨ LaneHolds k n s)
    (hn : laneLengthOk k n = true) (f : State → State) : laneBlock k n f s = f s.laneFree := by
  obtain ⟨ho, hs⟩ | hh := h
  · rw [laneBlock_opens ho, if_neg hs]
  · exact laneBlock_holds hh hn f

theorem laneBlock_dropped {k : Byte} {n : Nat} {b : LaneBlock} (hl : s.lane = .block b) (hk : b.kind = k)
    (hd : b.discard = true ∨ laneLengthOk b.kind b.length = false) (f : State → State) :
    laneBlock k n f s = s.laneFree := by
  rw [laneBlock_block hl, if_pos hk]
  refine if_pos ?_
  obtain hd | hd := hd <;> simp [LaneBlock.dropped, hd]

theorem State.onNumber_some {n p : Nat} {r : PicRecord} (h : findNumber n s.cat.places = some (p, r))
    (f : Nat → PicRecord → State → State) : s.onNumber n f = f p r s := by
  rw [State.onNumber, h]

/-- A PICTURE_START in CLOSED binds the head of the queue (R55, R63). -/
theorem State.storeStart_bound {n p : Nat} {rest : List Nat} {r : PicRecord} (hq : s.store.queue = n :: rest)
    (hf : findNumber n s.cat.places = some (p, r)) : s.storeStart = { s with
      cat := { s.cat with places := Table.put p { r with state := .storing } s.cat.places }
      writer := s.writer.mark (.place p)
      store := { s.store with stream := .opened, received := 0, check := 0xFFFFFFFF#32, pageIndex := 0, loss := false }
      timers := { s.timers with data := some 0 } } := by
  unfold State.storeStart
  rw [hq]
  dsimp only
  rw [State.onNumber_some hf]
  rfl

theorem State.storeStart_empty (hq : s.store.queue = []) : s.storeStart = s.setFlag .storeFailed := by
  rw [State.storeStart, hq]

theorem State.pictureStart_closed (hlow : s.supply.powerLow = false) (hs : s.store.stream = .closed) :
    s.pictureStart = s.storeStart := by
  rw [State.pictureStart, hlow, hs]
  rfl

theorem State.pictureStart_ending (hlow : s.supply.powerLow = false) (hs : s.store.stream = .ending) :
    s.pictureStart = if s.store.heldStart then s.setFlag .storeFailed
      else s.onStore fun e => { e with heldStart := true } := by
  rw [State.pictureStart, hlow, hs]
  rfl

/-- Settles O35: the receiver's bytes by its phase, then each row by the block in hand. -/
theorem inLaneHeadersAndPictureStarts : Obligations.InLaneHeadersAndPictureStarts := by
  unfold Obligations.InLaneHeadersAndPictureStarts
  intro m s hp u v headed
  have hstart : exec (.pictureStart m) s = .next (laneBlock 2#8 0 State.pictureStart u) := by
    change execPictureStart m s = _
    rw [execPictureStart, event_powered hp]
  have hheader : ∀ k n, exec (.inLaneHeader m k n) s = .next (if u.lane.opens k n then u.laneHeader k n else u) := by
    intro k n
    change execInLaneHeader m k n s = _
    rw [execInLaneHeader, event_powered hp]
  refine ⟨inLaneReady_iff hp, fun hl => ?_, fun pass hl hpass => ⟨fun he => ?_, fun h he hlen => ?_,
    fun k hi lo body he => ?_⟩, fun h hl => ⟨fun hlen => ?_, fun k hi lo hne he => ?_⟩, fun b hl => ⟨fun hk hg hr => ?_,
    fun hb hle => ?_⟩, fun k n ho => ⟨fun h => ?_, fun hlow hk => ?_⟩, fun k n ho => ?_, fun b hl hk hd => ?_,
    fun b hl hk => ?_, fun h hl ho => ?_, fun ho hs => ?_, fun ht => ?_⟩
  · rw [State.arrive_lane, hl, List.foldl_nil]
  · rw [State.arrive_lane, hl, he, takeBytes_hunting hpass]
  · rw [State.arrive_lane, hl, he, List.foldl_append, takeBytes_hunting hpass]
    exact takeBytes_header (h := []) (by simpa using hlen)
  · have hthree : body = [] → u.lane = laneHeaded s k (hi.toNat * 256 + lo.toNat) := by
      rintro rfl
      rw [State.arrive_lane, hl, he, List.append_nil, List.foldl_append, takeBytes_hunting hpass]
      exact takeBytes_headed (h := []) (l := [k, hi, lo]) (by simp) rfl
    exact ⟨fun hlow hk hb => (hthree hb).trans (laneHeaded_dropped _ hlow hk),
      fun h hb => (hthree hb).trans (laneHeaded_taken _ h)⟩
  · rw [State.arrive_lane, hl, takeBytes_header hlen]
  · have hthree : u.lane = laneHeaded s k (hi.toNat * 256 + lo.toNat) := by
      rw [State.arrive_lane, hl, takeBytes_headed hne he]
    exact ⟨fun hlow hk => hthree.trans (laneHeaded_dropped _ hlow hk), fun h => hthree.trans (laneHeaded_taken _ h)⟩
  · rw [State.arrive_lane, hl, takeBytes_waits _ hk hg hr]
  · rw [State.arrive_lane, hl, takeBytes_body _ hb hle]
  · rw [hheader, if_pos ((laneOpens_iff k n u).mpr ho), State.laneHeader]
    exact congrArg _ (congrArg (fun l => { u with lane := l }) (laneHeaded_taken n h))
  · rw [hheader, if_pos ((laneOpens_iff k n u).mpr ho), State.laneHeader]
    exact congrArg _ (congrArg (fun l => { u with lane := l }) (laneHeaded_dropped n hlow hk))
  · rw [hheader, if_neg fun h => ho ((laneOpens_iff k n u).mp h)]
  · rw [hstart, laneBlock_dropped hl hk (hd.imp_right fun hn => ?_)]
    · rfl
    · rw [hk, show laneLengthOk 2#8 b.length = (b.length == 0) from rfl]
      simpa using hn
  · rw [hstart, laneBlock_block hl, if_neg hk]
  · rw [hstart, laneBlock_shut (fun b hb => absurd (hl.symm.trans hb) (by simp)) ho]
  · rw [hstart, laneBlock_opens ho]
    exact congrArg _ (if_pos hs)
  · have htaken : exec (.pictureStart m) s = .next v.pictureStart := by
      rw [hstart, laneBlock_taken ht (by decide)]
      rfl
    rw [htaken]
    refine ⟨fun hlow => congrArg _ (if_pos hlow), fun hlow hs => ⟨fun hq => ?_, fun n rest p r hq hf => ?_⟩,
      fun hlow hs hh => ?_, fun hlow hs hh => ?_⟩
    · rw [State.pictureStart_closed (s := v) hlow hs, State.storeStart_empty (s := v) hq]
    · rw [State.pictureStart_closed (s := v) hlow hs, State.storeStart_bound (s := v) hq hf]
      rfl
    · rw [State.pictureStart_ending (s := v) hlow hs]
      exact congrArg _ (if_neg (Bool.eq_false_iff.mp hh))
    · rw [State.pictureStart_ending (s := v) hlow hs]
      exact congrArg _ (if_pos hh)

end Sys2Proof.Machine
end

section
/-! PROOFS. The Store Engine's operations: what it asks for next, and what the failure of its bound record leaves (R58 to
R64, R68, R69). -/

namespace Sys2Proof.Machine

variable {s : State} {n p : Nat} {r : PicRecord} {rest : List Nat} {c : FailCause}

/-! ### Numbers after a record is replaced -/

/-- A record replaced by one of the same number is found where the old one was. -/
theorem findNumber_put {ok : PicRecord → Bool} {l : List (Nat × PicRecord)} (hl : Table.wf ok l = true) {x : PicRecord}
    (hr : (p, r) ∈ l) (hx : x.number = r.number) (k : Nat) : findNumber k (Table.put p x l) =
      (findNumber k l).map fun e => if e.1 = p then (p, x) else e := by
  induction l with
  | nil => cases hr
  | cons e l ih =>
    obtain ⟨j, y⟩ := e
    obtain ⟨-, hj, hl⟩ := (Table.wf_cons ok j y l).mp hl
    obtain he | hr := List.mem_cons.mp hr
    · cases he
      have hrest : (findNumber k l).map (fun e => if e.1 = p then (p, x) else e) = findNumber k l := by
        rcases hf : findNumber k l with _ | ⟨q, z⟩
        · rfl
        · have hq : p < q := hj _ (findNumber_mem hf).1
          simp [Nat.ne_of_gt hq]
      by_cases hk : r.number = some k
      · simp [Table.put, findNumber, hx, hk]
      · simp [Table.put, findNumber, hx, hk, hrest]
    · have hlt : j < p := hj _ hr
      rw [Table.put, if_neg (Nat.not_lt.mpr (Nat.le_of_lt hlt)), if_neg (Nat.ne_of_lt hlt)]
      by_cases hk : y.number = some k
      · simp [findNumber, hk, (Nat.ne_of_lt hlt)]
      · simp [findNumber, hk, ih hl hr]

theorem findNumber_put_same {ok : PicRecord → Bool} {l : List (Nat × PicRecord)} (hl : Table.wf ok l = true)
    {x : PicRecord} (hf : findNumber n l = some (p, r)) (hx : x.number = r.number) :
    findNumber n (Table.put p x l) = some (p, x) := by
  rw [findNumber_put hl (findNumber_mem hf).1 hx, hf]
  simp

theorem findNumber_put_other {ok : PicRecord → Bool} {l : List (Nat × PicRecord)} (hl : Table.wf ok l = true)
    {x : PicRecord} (hr : (p, r) ∈ l) (hx : x.number = r.number) {k q : Nat} {y : PicRecord}
    (hf : findNumber k l = some (q, y)) (hq : q ≠ p) : findNumber k (Table.put p x l) = some (q, y) := by
  rw [findNumber_put hl hr hx, hf]
  simp [hq]

/-- Records of two numbers stand at two places. -/
theorem findNumber_place_ne {ok : PicRecord → Bool} {l : List (Nat × PicRecord)} (hl : Table.wf ok l = true)
    (hf : findNumber n l = some (p, r)) {k q : Nat} {y : PicRecord} (hk : findNumber k l = some (q, y)) (hne : k ≠ n) :
    q ≠ p := by
  rintro rfl
  have hr := Table.get_of_mem hl (findNumber_mem hf).1
  have hy := Table.get_of_mem hl (findNumber_mem hk).1
  have he : r = y := Option.some_inj.mp (hr.symm.trans hy)
  have := (findNumber_mem hf).2.symm.trans (he ▸ (findNumber_mem hk).2)
  exact hne (Option.some_inj.mp this).symm

/-! ### What comes next -/

theorem boundRecord_some (hq : s.store.queue = n :: rest) (hf : findNumber n s.cat.places = some (p, r)) :
    boundRecord s = some (p, r) := by
  rw [boundRecord, hq]
  exact hf

theorem FlashPort.free_store (f : FlashPort) : f.free .store = true ↔
    f.store = none ∧ ∀ x, f.inFlight = some x → x.claimant ≠ .store := by
  rcases hf : f.inFlight with _ | x
  · simp [FlashPort.free, FlashPort.waitingOf, FlashPort.flies, hf]
  · simp [FlashPort.free, FlashPort.waitingOf, FlashPort.flies, hf]

theorem State.storeHeldStart_idle (h : s.store.heldStart = false ∨ s.store.stream ≠ .closed) :
    s.storeHeldStart = s := by
  unfold State.storeHeldStart
  obtain h | h := h <;> simp [h]

theorem State.storeHeldStart_acts (hh : s.store.heldStart = true) (hs : s.store.stream = .closed) :
    s.storeHeldStart = (s.onStore fun e => { e with heldStart := false }).storeStart := by
  unfold State.storeHeldStart
  simp [hh, hs]

theorem State.shotQueueShrunk_idle (h : ¬(s.shot.state = .queueWait ∧ s.store.queue.length < 8)) :
    s.shotQueueShrunk = s := if_neg h

theorem State.storeKick_busy (h : s.flash.free .store = false ∨ s.store.recovery ≠ none) : s.storeKick = s := by
  refine if_pos ?_
  obtain h | h := h
  · simp [h]
  · simp [Option.isSome_iff_ne_none.mpr h]

theorem State.storeKick_free (hf : s.flash.free .store = true) (hr : s.store.recovery = none) : s.storeKick =
    match s.store.marks, s.store.fullOrder with
    | b :: t, _ => (s.onStore fun e => { e with marks := t }).flashAsk .store (.grownMark b)
    | [], i :: _ => s.storeProgram (s.store.buf i).data
    | [], [] => s := if_neg (by simp [hf, hr])

theorem State.storeKick_mark (hf : s.flash.free .store = true) (hr : s.store.recovery = none) {b : Nat}
    {marks : List Nat} (hm : s.store.marks = b :: marks) : s.storeKick = { s with
      store := { s.store with marks := marks }, flash := { s.flash with store := some (.grownMark b) } } := by
  rw [State.storeKick_free hf hr, hm] <;> rfl

theorem State.storeKick_page (hf : s.flash.free .store = true) (hr : s.store.recovery = none) (hm : s.store.marks = [])
    {i : BufId} {o : List BufId} (ho : s.store.fullOrder = i :: o) :
    s.storeKick = s.storeProgram (s.store.buf i).data := by
  rw [State.storeKick_free hf hr, hm, ho] <;> rfl

theorem State.storeKick_none (hm : s.store.marks = []) (ho : s.store.fullOrder = []) : s.storeKick = s := by
  by_cases hf : s.flash.free .store = true
  · by_cases hr : s.store.recovery = none
    · rw [State.storeKick_free hf hr, hm, ho] <;> rfl
    · exact State.storeKick_busy (.inr hr)
  · exact State.storeKick_busy (.inl (Bool.not_eq_true _ ▸ hf))

/-- Without a FULL page nothing is asked for but a grown mark (R62). -/
theorem State.storeKick_calm (ho : s.store.fullOrder = []) : ∃ marks op, s.storeKick = { s with
    store := { s.store with marks := marks }, flash := { s.flash with store := op } } ∧
    (op = s.flash.store ∨ ∃ b, op = some (.grownMark b)) := by
  by_cases hf : s.flash.free .store = true
  · by_cases hr : s.store.recovery = none
    · rcases hm : s.store.marks with _ | ⟨b, t⟩
      · exact ⟨s.store.marks, s.flash.store, State.storeKick_none hm ho, .inl rfl⟩
      · exact ⟨t, _, State.storeKick_mark hf hr hm, .inr ⟨b, rfl⟩⟩
    · exact ⟨s.store.marks, s.flash.store, State.storeKick_busy (.inr hr), .inl rfl⟩
  · exact ⟨s.store.marks, s.flash.store, State.storeKick_busy (.inl (Bool.not_eq_true _ ▸ hf)), .inl rfl⟩

/-- A frame waits for the queue to shrink, and it has (R177). -/
theorem State.storeGoOn_idle (h : ¬(s.shot.state = .queueWait ∧ s.store.queue.length < 8))
    (hh : s.store.heldStart = false ∨ s.store.stream ≠ .closed) (hk : s.storeKick = s) : s.storeGoOn = s := by
  rw [State.storeGoOn, hk, State.storeHeldStart_idle hh, State.shotQueueShrunk_idle h]

/-! ### Programs -/

theorem State.storeAskProgram_bound (hb : boundRecord s = some (p, r)) (data : List Byte) :
    s.storeAskProgram data = { s with flash := { s.flash with store := some (.program
      (r.extent.getD (s.store.pageIndex / 64) 0) (s.store.pageIndex % 64) data) } } := by
  rw [State.storeAskProgram, hb]
  rfl

theorem State.storeProgram_inside (hi : s.store.pageIndex % 64 ≠ 0) (hb : boundRecord s = some (p, r))
    (data : List Byte) : s.storeProgram data = { s with flash := { s.flash with store := some (.program
      (r.extent.getD (s.store.pageIndex / 64) 0) (s.store.pageIndex % 64) data) } } :=
  (if_pos hi).trans (State.storeAskProgram_bound hb data)

/-- The record after a block has been allocated for it (R8). -/
def PicRecord.allocated (b : Nat) (r : PicRecord) : PicRecord :=
  { r with extent := r.extent ++ [b], remaining := r.remaining - 1 }

/-- The first page of a position: its block is allocated, then the program asked for (R58, R59). -/
theorem State.storeProgram_begins (hc : Canonical s) (hi : s.store.pageIndex % 64 = 0)
    (hp : s.store.pageIndex / 64 < 48) (hq : s.store.queue = n :: rest)
    (hf : findNumber n s.cat.places = some (p, r)) {b : Nat} {y : BlockMap}
    (ha : s.map.allocate r.remaining = some (b, y)) (data : List Byte) : s.storeProgram data = { s with
      map := y, cat := { s.cat with places := Table.put p (r.allocated b) s.cat.places }
      writer := s.writer.mark (.place p)
      flash := { s.flash with store := some (.program
        ((r.extent ++ [b]).getD (s.store.pageIndex / 64) 0) 0 data) } } := by
  have hrec : s.record p = some r := hc.record_of_number hf
  have halloc : s.allocateFor p PicRecord.appendExtent =
      ({ s with map := y }.claimChanged p r (r.allocated b), some b) := by
    rw [State.allocateFor, hrec]
    dsimp only
    rw [ha]
    rfl
  have hclaim : { s with map := y }.claimChanged p r (r.allocated b) =
      { s with map := y, cat := { s.cat with places := Table.put p (r.allocated b) s.cat.places }
               writer := s.writer.mark (.place p) } := by
    refine if_neg fun he => ?_
    have hext : r.extent ++ [b] = r.extent := congrArg PicRecord.extent he
    simp at hext
  have hbound := boundRecord_some (s := { s with
    map := y, cat := { s.cat with places := Table.put p (r.allocated b) s.cat.places }
    writer := s.writer.mark (.place p) }) hq (findNumber_put_same hc.1.1 hf rfl)
  have hstay : ¬Config.maxBlocks ≤ positionOf s.store.pageIndex := Nat.not_le.mpr hp
  rw [State.storeProgram, if_neg (not_not_intro hi), if_neg hstay, boundRecord_some hq hf]
  dsimp only
  rw [halloc, hclaim]
  dsimp only
  rw [State.storeAskProgram_bound hbound]
  simp only [hi]
  rfl

/-- A 49th position is OVERSIZE, NO BLOCK is NO_SPACE (R58, R59). -/
theorem State.storeProgram_fails (hc : Canonical s) (hi : s.store.pageIndex % 64 = 0)
    (hq : s.store.queue = n :: rest) (hf : findNumber n s.cat.places = some (p, r))
    (hno : 48 ≤ s.store.pageIndex / 64 ∨ s.map.allocate r.remaining = none) (data : List Byte) :
    s.storeProgram data =
      s.storeFailBound (if 48 ≤ s.store.pageIndex / 64 then .oversize else .noSpace) := by
  have hrec : s.record p = some r := hc.record_of_number hf
  rw [State.storeProgram, if_neg (not_not_intro hi)]
  by_cases hp : 48 ≤ s.store.pageIndex / 64
  · refine (if_pos hp).trans ?_
    rw [if_pos hp]
  · have halloc : s.allocateFor p PicRecord.appendExtent = (s, none) := by
      rw [State.allocateFor, hrec]
      dsimp only
      rw [hno.resolve_left hp]
    refine (if_neg hp).trans ?_
    rw [if_neg hp, boundRecord_some hq hf]
    dsimp only
    rw [halloc]

/-! ### The failure of a record -/

/-- The engine after its bound record has failed (R68, R69). -/
def StoreEngine.closed (flying : Bool) (e : StoreEngine) : StoreEngine :=
  { e with
    stream := .closed, heldEnd := none, fullOrder := [], recovery := none
    bufA := clearBuffer flying e.bufA, bufB := clearBuffer flying e.bufB
    marks := e.marks ++ e.recovery.elim [] (·.failed) }

/-- The port after the Store Engine's program has been withdrawn or discarded (R68, R69). -/
def FlashPort.storeDropped (f : FlashPort) : FlashPort :=
  { f with
    store := f.store.filter (·.isMark)
    inFlight := f.inFlight.map fun x => if x.claimant = .store then { x with discard := true } else x }

theorem FlashPort.flies_discarded (d : Claimant) (f : FlashPort) :
    ({ f with inFlight := f.inFlight.map fun x => if x.claimant = .store then { x with discard := true } else x } :
      FlashPort).flies d = f.flies d := by
  rcases hf : f.inFlight with _ | x
  · simp [FlashPort.flies, hf]
  · simp only [FlashPort.flies, hf, Option.map_some]
    split <;> rfl

theorem State.storeClose_eq (s : State) : s.storeClose = { s with
    store := s.store.closed (s.flash.flies .store), flash := s.flash.storeDropped
    timers := { s.timers with data := none } } := by
  have hwithdraw : s.storeWithdraw false = s.onFlash fun f => { f with store := f.store.filter (·.isMark) } := by
    rcases hop : s.flash.store with _ | op
    · simp only [State.storeWithdraw, hop, State.onFlash, Option.filter_none]
      rw [← hop]
    · by_cases hm : op.isMark = true
      · simp only [State.storeWithdraw, hop, hm, State.onFlash, Option.filter_some_pos, Bool.not_false, Bool.and_true,
          if_true]
        rw [← hop]
      · rw [Bool.not_eq_true] at hm
        have hnone : (some op).filter (·.isMark) = none := Option.filter_some_neg (by simp [hm])
        simp [State.storeWithdraw, hop, hm, State.onFlash, State.flashWithdraw, FlashPort.waitingOf,
          FlashPort.setWaiting, hnone]
  have hflies : ((s.storeWithdraw false).flashDiscard .store).flash.flies .store = s.flash.flies .store := by
    rw [hwithdraw]
    exact FlashPort.flies_discarded .store _
  unfold State.storeClose
  dsimp only
  rw [hflies, hwithdraw]
  rcases hrec : s.store.recovery with _ | v
  · simp [State.onFlash, State.onStore, State.flashDiscard, FlashPort.storeDropped, StoreEngine.closed, hrec]
  · simp [State.onFlash, State.onStore, State.flashDiscard, FlashPort.storeDropped, StoreEngine.closed, hrec]

/-- The state after record `r` at place `p` has failed with cause `c` (R9, R68). -/
def State.recordFailed (p : Nat) (r : PicRecord) (c : FailCause) (s : State) : State :=
  { s with
    map := (s.map.release r.remaining).returnAll (.begins p) r.extent
    cat := { s.cat with places := Table.put p (r.failedWith c) s.cat.places }
    writer := s.writer.mark (.place p) }

theorem State.failPlace_some (hr : s.record p = some r) (c : FailCause) : s.failPlace p c = s.recordFailed p r c := by
  rw [State.failPlace, hr]
  rfl

/-- The state after the bound record has failed, before anything goes on (R68). -/
def State.boundFailed (p : Nat) (r : PicRecord) (c : FailCause) (rest : List Nat) (s : State) : State :=
  { (s.recordFailed p r c).setFlag .storeFailed with
    store := ({ s.store with queue := rest } : StoreEngine).closed (s.flash.flies .store), flash := s.flash.storeDropped
    timers := { s.timers with data := none } }

theorem State.storeFail_bound (hc : Canonical s) (ho : s.store.stream ≠ .closed) (hq : s.store.queue = n :: rest)
    (hf : findNumber n s.cat.places = some (p, r)) (c : FailCause) :
    s.storeFail n c = s.boundFailed p r c rest := by
  have hbound : isBound n s = true := by simp [isBound, ho, hq]
  unfold State.storeFail
  rw [State.onNumber_some hf, State.failPlace_some (hc.record_of_number hf), hbound]
  dsimp only
  rw [if_pos rfl, State.storeClose_eq]
  simp [State.onStore, State.recordFailed, State.boundFailed, State.setFlag, hq, removeFirst]

theorem State.storeFail_queued (hc : Canonical s) (hb : isBound n s = false)
    (hf : findNumber n s.cat.places = some (p, r)) (c : FailCause) :
    s.storeFail n c = ({ s.recordFailed p r c with
      store := { s.store with queue := removeFirst n s.store.queue } }).setFlag .storeFailed := by
  unfold State.storeFail
  rw [State.onNumber_some hf, State.failPlace_some (hc.record_of_number hf), hb]
  rfl

theorem State.storeFailBound_eq (hc : Canonical s) (ho : s.store.stream ≠ .closed) (hq : s.store.queue = n :: rest)
    (hf : findNumber n s.cat.places = some (p, r)) (c : FailCause) :
    s.storeFailBound c = s.boundFailed p r c rest := by
  rw [State.storeFailBound, hq]
  exact State.storeFail_bound hc ho hq hf c

/-- The records after one of them has failed. -/
theorem State.record_recordFailed (p : Nat) (r : PicRecord) (c : FailCause) (s : State) :
    (s.recordFailed p r c).record p = some (r.failedWith c) ∧
    ∀ j, j ≠ p → (s.recordFailed p r c).record j = s.record j :=
  ⟨Table.get_put_same _ _ _, fun _ hj => Table.get_put_other hj _ _⟩

/-- The Block Map after a record has failed: its reservation released, its blocks DIRTY (R9, R43). -/
theorem State.recordFailed_map (hc : Canonical s) (p : Nat) (r : PicRecord) (c : FailCause) :
    (s.recordFailed p r c).map.reserved = s.map.reserved - r.remaining ∧
    (∀ b ∈ r.extent, s.map.stateOf b = .inUse → (s.recordFailed p r c).map.stateOf b = .dirty (.begins p)) ∧
    ∀ b, b ∉ r.extent → (s.recordFailed p r c).map.stateOf b = s.map.stateOf b :=
  ⟨BlockMap.returnAll_reserved _ _ _,
    fun _ hb hi => BlockMap.returnAll_inUse (m := s.map.release r.remaining) hc.2.2.2.1 (.begins p) hb hi,
    fun _ hb => BlockMap.returnAll_other (m := s.map.release r.remaining) (.begins p) hb⟩

end Sys2Proof.Machine
end

section
/-! PROOFS. PICTURE DATA: the In Lane's row, the two page buffers, and the page that is programmed next (R51, R57, R58). -/

namespace Sys2Proof.Machine

variable {s : State} {n p i : Nat} {r : PicRecord} {rest : List Nat} {c : FailCause}

/-! ### After a change -/

/-- A page inside a position is programmed (R58). -/
theorem State.storeGoOn_inside (hf : s.flash.free .store = true) (hr : s.store.recovery = none)
    (hm : s.store.marks = []) {side : BufId} {o : List BufId} (ho : s.store.fullOrder = side :: o)
    (hb : boundRecord s = some (p, r)) (hk : s.store.pageIndex = i) (hi : i % 64 ≠ 0)
    (hh : s.store.heldStart = false ∨ s.store.stream ≠ .closed)
    (hs : ¬(s.shot.state = .queueWait ∧ s.store.queue.length < 8)) : s.storeGoOn = { s with
      flash := { s.flash with store := some (.program (r.extent.getD (i / 64) 0) (i % 64) (s.store.buf side).data) } } := by
  subst hk
  have hkick := (State.storeKick_page hf hr hm ho).trans (State.storeProgram_inside hi hb _)
  rw [State.storeGoOn, hkick, State.storeHeldStart_idle (by exact hh), State.shotQueueShrunk_idle (by exact hs)]

/-- The first page of a position is programmed into a block allocated for it (R58, R59). -/
theorem State.storeGoOn_begins (hc : Canonical s) (hf : s.flash.free .store = true) (hr : s.store.recovery = none)
    (hm : s.store.marks = []) {side : BufId} {o : List BufId} (ho : s.store.fullOrder = side :: o)
    (hq : s.store.queue = n :: rest) (hn : findNumber n s.cat.places = some (p, r)) (hk : s.store.pageIndex = i)
    (hi : i % 64 = 0) (hp : i / 64 < 48) {b : Nat} {y : BlockMap} (ha : s.map.allocate r.remaining = some (b, y))
    (hh : s.store.heldStart = false ∨ s.store.stream ≠ .closed)
    (hs : ¬(s.shot.state = .queueWait ∧ s.store.queue.length < 8)) : s.storeGoOn = { s with
      map := y, cat := { s.cat with places := Table.put p (r.allocated b) s.cat.places }
      writer := s.writer.mark (.place p)
      flash := { s.flash with store := some (.program ((r.extent ++ [b]).getD (i / 64) 0) 0 (s.store.buf side).data) } } := by
  subst hk
  have hkick := (State.storeKick_page hf hr hm ho).trans (State.storeProgram_begins hc hi hp hq hn ha _)
  rw [State.storeGoOn, hkick, State.storeHeldStart_idle (by exact hh), State.shotQueueShrunk_idle (by exact hs)]

/-- OVERSIZE and NO_SPACE: the bound record fails, then a held start is acted on (R58, R59, R68). -/
theorem State.storeGoOn_fails (hc : Canonical s) (hf : s.flash.free .store = true) (hr : s.store.recovery = none)
    (hm : s.store.marks = []) {side : BufId} {o : List BufId} (ho : s.store.fullOrder = side :: o)
    (hopen : s.store.stream ≠ .closed) (hq : s.store.queue = n :: rest)
    (hn : findNumber n s.cat.places = some (p, r)) (hk : s.store.pageIndex = i) (hi : i % 64 = 0)
    (hno : 48 ≤ i / 64 ∨ s.map.allocate r.remaining = none) : s.storeGoOn =
      (s.boundFailed p r (if 48 ≤ i / 64 then .oversize else .noSpace) rest).storeHeldStart.shotQueueShrunk := by
  subst hk
  have hkick := (State.storeKick_page hf hr hm ho).trans ((State.storeProgram_fails hc hi hq hn hno _).trans
    (State.storeFailBound_eq hc hopen hq hn _))
  rw [State.storeGoOn, hkick]

theorem State.boundFailed_rests (hh : s.store.heldStart = false) (hs : s.shot.state ≠ .queueWait) :
    (s.boundFailed p r c rest).storeHeldStart.shotQueueShrunk = s.boundFailed p r c rest := by
  rw [State.storeHeldStart_idle (s := s.boundFailed p r c rest) (.inl hh)]
  exact State.shotQueueShrunk_idle fun h => hs h.1

theorem State.boundFailed_record : (s.boundFailed p r c rest).record p = some (r.failedWith c) :=
  Table.get_put_same _ _ _

/-! ### The page buffers -/

theorem StoreEngine.pour_open {e : StoreEngine} {side : BufId} (h : e.openBuf = some side) (bytes : List Byte) :
    e.pour bytes = (if ((e.buf side).data ++ bytes.take (4096 - (e.buf side).data.length)).length = 4096
      then e.fill side ((e.buf side).data ++ bytes.take (4096 - (e.buf side).data.length))
      else e.setBuf side
        { state := .filling, data := (e.buf side).data ++ bytes.take (4096 - (e.buf side).data.length) },
      bytes.drop (4096 - (e.buf side).data.length)) := by
  rw [StoreEngine.pour, h]

/-- Bytes that leave the page short of 4,096 (R57). -/
theorem StoreEngine.pour_short {e : StoreEngine} {side : BufId} {d bytes : List Byte} (h : e.openBuf = some side)
    (hd : (e.buf side).data = d) (hl : d.length + bytes.length < 4096) :
    e.pour bytes = (e.setBuf side { state := .filling, data := d ++ bytes }, []) := by
  subst hd
  have hb : bytes.length ≤ 4096 - (e.buf side).data.length := by omega
  rw [StoreEngine.pour_open h, List.take_of_length_le hb, List.drop_of_length_le hb,
    if_neg (by rw [List.length_append]; omega)]

/-- Bytes that fill the page (R57). -/
theorem StoreEngine.pour_fills {e : StoreEngine} {side : BufId} {d bytes : List Byte} (h : e.openBuf = some side)
    (hd : (e.buf side).data = d) (hle : d.length ≤ 4096) (hl : 4096 ≤ d.length + bytes.length) :
    e.pour bytes = (e.fill side (d ++ bytes.take (4096 - d.length)), bytes.drop (4096 - d.length)) := by
  subst hd
  rw [StoreEngine.pour_open h,
    if_pos (by rw [List.length_append, List.length_take, Nat.min_eq_left (by omega)]; omega)]

/-- The engine's count and check after a body (R57). -/
def StoreEngine.counted (bytes : List Byte) (e e' : StoreEngine) : StoreEngine :=
  { e' with received := e.received + bytes.length, check := pictureCheck e.check bytes }

theorem StoreEngine.take_short {e : StoreEngine} {side : BufId} {d bytes : List Byte} (h : e.openBuf = some side)
    (hd : (e.buf side).data = d) (hl : d.length + bytes.length < 4096) :
    e.take bytes = e.counted bytes (e.setBuf side { state := .filling, data := d ++ bytes }) := by
  rw [StoreEngine.take, StoreEngine.pour_short h hd hl]
  rfl

theorem StoreEngine.take_fills {e : StoreEngine} {side : BufId} {d bytes : List Byte} (h : e.openBuf = some side)
    (hd : (e.buf side).data = d) (hl : d.length + bytes.length = 4096) :
    e.take bytes = e.counted bytes (e.fill side (d ++ bytes)) := by
  rw [StoreEngine.take, StoreEngine.pour_fills h hd (by omega) (by omega), List.take_of_length_le (by omega),
    List.drop_of_length_le (by omega)]
  rfl

/-- A body that fills the page and goes on in the other buffer (R57). -/
theorem StoreEngine.take_spills {e : StoreEngine} {side other : BufId} {d bytes : List Byte}
    (h : e.openBuf = some side) (hd : (e.buf side).data = d) (hle : d.length < 4096)
    (hl : 4096 < d.length + bytes.length) (hb : bytes.length ≤ 4096)
    (ho : (e.fill side (d ++ bytes.take (4096 - d.length))).openBuf = some other)
    (hn : ((e.fill side (d ++ bytes.take (4096 - d.length))).buf other).data = []) :
    e.take bytes = e.counted bytes ((e.fill side (d ++ bytes.take (4096 - d.length))).setBuf other
      { state := .filling, data := bytes.drop (4096 - d.length) }) := by
  have hrest : (bytes.drop (4096 - d.length)).isEmpty = false := by
    rw [List.isEmpty_eq_false_iff, ← List.length_pos_iff, List.length_drop]
    omega
  have hpour := StoreEngine.pour_short (bytes := bytes.drop (4096 - d.length)) ho hn (by
    rw [List.length_nil, List.length_drop]
    omega)
  rw [StoreEngine.take, StoreEngine.pour_fills h hd (Nat.le_of_lt hle) (Nat.le_of_lt hl)]
  dsimp only
  rw [hrest, hpour]
  rfl

theorem StoreEngine.setBuf_frame (side : BufId) (x : PageBuffer) (e : StoreEngine) :
    (e.setBuf side x).stream = e.stream ∧ (e.setBuf side x).queue = e.queue ∧
    (e.setBuf side x).recovery = e.recovery ∧ (e.setBuf side x).marks = e.marks ∧
    (e.setBuf side x).pageIndex = e.pageIndex ∧ (e.setBuf side x).heldStart = e.heldStart ∧
    (e.setBuf side x).fullOrder = e.fullOrder := by
  cases side <;> exact ⟨rfl, rfl, rfl, rfl, rfl, rfl, rfl⟩

/-! ### The open buffer -/

theorem StoreEngine.openBuf_fillingA {e : StoreEngine} (h : e.bufA.state = .filling) : e.openBuf = some .a := if_pos h

theorem StoreEngine.openBuf_fillingB {e : StoreEngine} (ha : e.bufA.state ≠ .filling) (h : e.bufB.state = .filling) :
    e.openBuf = some .b := (if_neg ha).trans (if_pos h)

theorem StoreEngine.openBuf_emptyA {e : StoreEngine} (h : e.bufA.state = .empty) (hb : e.bufB.state ≠ .filling) :
    e.openBuf = some .a := by
  simp [StoreEngine.openBuf, h, hb]

theorem StoreEngine.openBuf_emptyB {e : StoreEngine} (ha : e.bufA.state = .full ∨ e.bufA.state = .programming)
    (h : e.bufB.state = .empty) : e.openBuf = some .b := by
  obtain ha | ha := ha <;> simp [StoreEngine.openBuf, h, ha]

/-! ### The row -/

/-- A PICTURE_DATA body that is clocked in reaches the stream (R51, R52). -/
theorem dataBlock_taken {k : Nat} (h : (LaneOpens 3#8 k s ∧ inLaneReady s = true) ∨
    (∃ b, s.lane = .block b ∧ b.kind = 3#8 ∧ b.length = k ∧ b.discard = false ∧
      (inLaneReady s = true ∨ 0 < b.got))) (f : State → State) : dataBlock k f s = f s.laneFree := by
  unfold dataBlock
  split
  next b hb =>
    obtain ⟨ho, -⟩ | ⟨b', hb', hk, hl, hd, hw⟩ := h
    · exact absurd hb (laneOpens_not_block ho b)
    · cases hb.symm.trans hb'
      have hwaits : ¬b.waits s = true := by
        obtain hw | hw := hw
        · simp [LaneBlock.waits, hw]
        · simp [LaneBlock.waits, Nat.ne_of_gt hw]
      rw [if_pos ⟨hk, hl, hwaits⟩, laneDataEnd, hd]
      rfl
  next _ hblock =>
    obtain ⟨ho, hr⟩ | ⟨b, hb, -⟩ := h
    · rw [if_pos ((laneOpens_iff _ _ s).mpr ho), if_pos hr]
    · exact (hblock b hb).elim

/-- With ready low the header is taken and its body waits (R51, R52). -/
theorem dataBlock_opens_low {k : Nat} (ho : LaneOpens 3#8 k s) (hr : inLaneReady s = false) (f : State → State) :
    dataBlock k f s = s.laneHeader 3#8 k := by
  unfold dataBlock
  split
  next b hb => exact absurd hb (laneOpens_not_block ho b)
  next => rw [if_pos ((laneOpens_iff _ _ s).mpr ho), if_neg (by simp [hr])]

theorem dataBlock_block {k : Nat} {b : LaneBlock} (hl : s.lane = .block b) (f : State → State) : dataBlock k f s =
    if b.kind = 3#8 ∧ b.length = k ∧ ¬b.waits s = true then laneDataEnd b.discard f s else s := by
  unfold dataBlock
  split
  next b' hb' =>
    cases hl.symm.trans hb'
    rfl
  next h => exact absurd hl (h b)

theorem laneLengthOk_data (k : Nat) : laneLengthOk 3#8 k = true ↔ 1 ≤ k ∧ k ≤ 4096 := by
  rw [show laneLengthOk 3#8 k = (1 ≤ k && k ≤ Config.pageBytes) from rfl, Bool.and_eq_true, decide_eq_true_eq,
    decide_eq_true_eq]

theorem State.pictureData_dropped {bytes : List Byte} (hl : laneLengthOk 3#8 bytes.length = true)
    (ho : s.store.stream ≠ .opened) : s.pictureData bytes = s := by
  unfold State.pictureData
  rw [if_neg (by simp [hl]), if_neg ho]

theorem State.pictureData_opened {bytes : List Byte} (hl : laneLengthOk 3#8 bytes.length = true)
    (ho : s.store.stream = .opened) : s.pictureData bytes =
      ({ s with store := s.store.take bytes, timers := { s.timers with data := some 0 } }).storeGoOn := by
  unfold State.pictureData
  rw [if_neg (by simp [hl]), if_pos ho]
  rfl

/-! ### The picture check -/

theorem pictureCheckBit_eq (r : Word) (x : Bool) : pictureCheckBit r x =
    if r.getLsbD 0 = x then r >>> 1 else (r >>> 1) ^^^ BitVec.reverse 0x04C11DB7#32 := by
  have hpoly : BitVec.reverse 0x04C11DB7#32 = 0xEDB88320#32 := by decide +kernel
  rw [hpoly, pictureCheckBit]
  by_cases h : r.getLsbD 0 = x
  · rw [if_pos h, if_neg (by simp only [h, bne_self_eq_false, Bool.false_eq_true, not_false_eq_true])]
  · rw [if_neg h, if_pos (by simpa using h)]

theorem pictureCheck_append (r : Word) (bs : List Byte) (b : Byte) : pictureCheck r (bs ++ [b]) =
    [0, 1, 2, 3, 4, 5, 6, 7].foldl (fun r i => pictureCheckBit r (b.getLsbD i)) (pictureCheck r bs) := by
  rw [pictureCheck, List.foldl_append]
  rfl

end Sys2Proof.Machine
end

section
/-! PROOFS. PICTURE DATA fills the buffers (R51, R57 to R59). -/

namespace Sys2Proof.Machine

variable {s : State}

/-- The part after a PICTURE_DATA body has entered the buffers, which have become `e` (R57). -/
def State.dataTaken (e : StoreEngine) (s : State) : State :=
  { s with lane := .hunting, store := e, timers := { s.timers with data := some 0 } }

/-- What of the engine a body leaves as it is. -/
def StoreEngine.SameStream (e e' : StoreEngine) : Prop :=
  e'.stream = e.stream ∧ e'.queue = e.queue ∧ e'.recovery = e.recovery ∧ e'.marks = e.marks ∧
    e'.pageIndex = e.pageIndex ∧ e'.heldStart = e.heldStart

theorem StoreEngine.sameStream_setBuf (side : BufId) (x : PageBuffer) {e e' : StoreEngine} (h : e.SameStream e') :
    e.SameStream (e'.setBuf side x) := by
  obtain ⟨hs, hq, hr, hm, hi, hh, -⟩ := StoreEngine.setBuf_frame side x e'
  obtain ⟨gs, gq, gr, gm, gi, gh⟩ := h
  exact ⟨hs.trans gs, hq.trans gq, hr.trans gr, hm.trans gm, hi.trans gi, hh.trans gh⟩

theorem StoreEngine.sameStream_fill (side : BufId) (d : List Byte) (e : StoreEngine) : e.SameStream (e.fill side d) :=
  StoreEngine.sameStream_setBuf side _ ⟨rfl, rfl, rfl, rfl, rfl, rfl⟩

/-- A body after which nothing is asked for: only the buffers, the counts and the data timer change (R57). -/
theorem State.dataTaken_rests {e : StoreEngine} (ho : s.store.stream = .opened) (hsame : s.store.SameStream e)
    (hs : ¬(s.shot.state = .queueWait ∧ s.store.queue.length < 8))
    (hk : s.flash.free .store = false ∨ s.store.recovery ≠ none ∨ (s.store.marks = [] ∧ e.fullOrder = [])) :
    (s.dataTaken e).storeGoOn = s.dataTaken e := by
  obtain ⟨hstream, hqueue, hrec, hmarks, -, -⟩ := hsame
  refine State.storeGoOn_idle (s := s.dataTaken e) (by rwa [State.dataTaken, hqueue]) (.inr ?_) ?_
  · rw [State.dataTaken, hstream, ho]
    simp
  · obtain hk | hk | ⟨hm, hf⟩ := hk
    · exact State.storeKick_busy (.inl hk)
    · refine State.storeKick_busy (.inr ?_)
      rwa [State.dataTaken, hrec]
    · exact State.storeKick_none (s := s.dataTaken e) (hmarks.trans hm) hf

/-- What a body does whose bytes complete a page while the engine has no other operation: the page's program (R58, R59). -/
def PageGoesOn (s : State) (e : StoreEngine) (page : List Byte) : Prop :=
  ∀ n rest p r, s.store.queue = n :: rest → findNumber n s.cat.places = some (p, r) → Canonical s →
    (s.store.pageIndex % 64 ≠ 0 → (s.dataTaken e).storeGoOn = { s.dataTaken e with
      flash := { s.flash with
        store := some (.program (r.extent.getD (s.store.pageIndex / 64) 0) (s.store.pageIndex % 64) page) } }) ∧
    (∀ c y, s.store.pageIndex % 64 = 0 → s.store.pageIndex / 64 < 48 →
      s.map.allocate r.remaining = some (c, y) → (s.dataTaken e).storeGoOn = { s.dataTaken e with
      map := y, cat := { s.cat with places := Table.put p (r.allocated c) s.cat.places }
      writer := s.writer.mark (.place p)
      flash := { s.flash with
        store := some (.program ((r.extent ++ [c]).getD (s.store.pageIndex / 64) 0) 0 page) } }) ∧
    (s.store.pageIndex % 64 = 0 → s.store.heldStart = false → s.shot.state ≠ .queueWait →
      48 ≤ s.store.pageIndex / 64 ∨ s.map.allocate r.remaining = none →
      (s.dataTaken e).storeGoOn = (s.dataTaken e).boundFailed p r
        (if 48 ≤ s.store.pageIndex / 64 then .oversize else .noSpace) rest)

theorem State.dataTaken_goesOn {e : StoreEngine} {side : BufId} (ho : s.store.stream = .opened)
    (hsame : s.store.SameStream e) (hs : ¬(s.shot.state = .queueWait ∧ s.store.queue.length < 8))
    (hf : s.flash.free .store = true) (hr : s.store.recovery = none) (hm : s.store.marks = [])
    (he : e.fullOrder = [side]) : PageGoesOn s e (e.buf side).data := by
  intro n rest p r hq hn hc
  let v := s.dataTaken e
  obtain ⟨hstream, hqueue, hrec, hmarks, hindex, hheld⟩ := hsame
  have hopen : v.store.stream ≠ .closed := by
    rw [show v.store.stream = s.store.stream from hstream, ho]
    simp
  have hshot : ¬(v.shot.state = .queueWait ∧ v.store.queue.length < 8) := by
    rwa [show v.store.queue = s.store.queue from hqueue]
  have hq' : v.store.queue = n :: rest := hqueue.trans hq
  refine ⟨fun hi => ?_, fun c y hi hp ha => ?_, fun hi hh hw hno => ?_⟩
  · exact State.storeGoOn_inside (s := v) hf (hrec.trans hr) (hmarks.trans hm) he (boundRecord_some hq' hn) hindex hi
      (.inr hopen) hshot
  · exact State.storeGoOn_begins (s := v) hc hf (hrec.trans hr) (hmarks.trans hm) he hq' hn hindex hi hp ha
      (.inr hopen) hshot
  · rw [State.storeGoOn_fails (s := v) hc hf (hrec.trans hr) (hmarks.trans hm) he hopen hq' hn hindex hi hno]
    exact State.boundFailed_rests (s := v) (hheld.trans hh) hw

theorem StoreEngine.sameStream_counted (bytes : List Byte) {e e' : StoreEngine} (h : e.SameStream e') :
    e.SameStream (e.counted bytes e') := h

theorem FlashPort.free_of {f : FlashPort} (hs : f.store = none) (hx : ∀ x, f.inFlight = some x → x.claimant ≠ .store) :
    f.free .store = true := f.free_store.mpr ⟨hs, hx⟩

/-- Settles O36: the row by the block in hand, the body by the buffer it enters, the page it completes by the page index. -/
theorem pictureDataFillsTheBuffers : Obligations.PictureDataFillsTheBuffers := by
  unfold Obligations.PictureDataFillsTheBuffers
  refine ⟨?_, ?_⟩
  · intro m s bytes hp u i taken v becomes programs completes
    have hexec : exec (.pictureData m bytes) s = .next (dataBlock bytes.length (State.pictureData bytes) u) := by
      change execPictureData m bytes s = _
      rw [execPictureData, event_powered hp]
    refine ⟨fun hr => ⟨fun ho hlow => ?_, fun ho hlow => ?_, fun b hb hg => ?_⟩, fun b hb hne => ?_,
      fun h1 h2 hin => ?_⟩
    · rw [hexec, dataBlock_opens_low ho hr, State.laneHeader]
      exact congrArg _ (congrArg (fun l => { u with lane := l }) (laneHeaded_taken _ (.inl hlow)))
    · rw [hexec, dataBlock_opens_low ho hr, State.laneHeader]
      exact congrArg _ (congrArg (fun l => { u with lane := l }) (laneHeaded_dropped _ hlow rfl))
    · rw [hexec, dataBlock_block hb, if_neg]
      rintro ⟨hk, -, hw⟩
      have hready : inLaneReady u = false := hr
      exact hw (by simp [LaneBlock.waits, hk, hg, hready])
    · rw [hexec, dataBlock_block hb, if_neg]
      rintro ⟨hk, hl, -⟩
      exact hne.elim (fun h => h hk) fun h => h hl
    · have hlen : laneLengthOk 3#8 bytes.length = true := (laneLengthOk_data _).mpr ⟨h1, h2⟩
      rw [dataBlock_taken (s := u) hin] at hexec
      refine ⟨fun hno => ?_, fun ho hshot => ?_⟩
      · rw [hexec, State.pictureData_dropped (s := u.laneFree) hlen hno]
        rfl
      · rw [State.pictureData_opened (s := u.laneFree) hlen ho] at hexec
        have hbecomes : ∀ e', s.store.take bytes = s.store.counted bytes e' → s.store.SameStream e' →
            s.flash.free .store = false ∨ s.store.recovery ≠ none ∨ (s.store.marks = [] ∧ e'.fullOrder = []) →
            becomes (s.store.counted bytes e') := by
          intro e' he hsame hk
          refine hexec.trans (congrArg _ ?_)
          have hrest := State.dataTaken_rests (s := u) (e := s.store.counted bytes e') ho hsame hshot hk
          rw [← he] at hrest ⊢
          exact hrest
        have hcompletes : ∀ e' side page, s.store.take bytes = s.store.counted bytes e' → s.store.SameStream e' →
            e'.fullOrder = s.store.fullOrder ++ [side] → (e'.buf side).data = page →
            completes (s.store.counted bytes e') page := by
          intro e' side page he hsame hfull hpage
          refine ⟨fun hk => hbecomes e' he hsame (hk.imp_right .inl), fun hst hx hrec hm hord => ?_⟩
          have hbuf : ((s.store.counted bytes e').buf side).data = page := by
            rw [← hpage]
            cases side <;> rfl
          have hgo := State.dataTaken_goesOn (s := u) (e := s.store.counted bytes e') (side := side) ho hsame hshot
            (FlashPort.free_of hst hx) hrec hm (hfull.trans (by rw [hord]; rfl))
          rw [hbuf] at hgo
          have hrun : exec (.pictureData m bytes) s = .next (u.dataTaken (s.store.counted bytes e')).storeGoOn := by
            rw [← he]
            exact hexec
          intro n rest p r hq hf hc
          obtain ⟨hinside, hbegins, hfails⟩ := hgo n rest p r hq hf hc
          refine ⟨fun hi => hrun.trans (congrArg _ (hinside hi)), fun c y hi hlt ha => ?_, fun hi hh hw =>
            ⟨fun hover => ?_, fun hlt ha => ?_⟩⟩
          · exact ⟨_, hrun.trans (congrArg _ (hbegins c y hi hlt ha)), rfl, rfl, rfl, Table.get_put_same _ _ _, rfl, rfl⟩
          · refine ⟨_, _, hrun.trans (congrArg _ (hfails hi hh hw (.inl hover))), State.boundFailed_record, rfl, ?_, rfl⟩
            exact congrArg some (if_pos hover)
          · refine ⟨_, _, hrun.trans (congrArg _ (hfails hi hh hw (.inr ha))), State.boundFailed_record, rfl, ?_, rfl⟩
            exact congrArg some (if_neg (Nat.not_le.mpr hlt))
        have hself : s.store.SameStream s.store := ⟨rfl, rfl, rfl, rfl, rfl, rfl⟩
        have hshort : ∀ side d, s.store.openBuf = some side → (s.store.buf side).data = d →
            d.length + bytes.length < 4096 →
            s.flash.free .store = false ∨ s.store.recovery ≠ none ∨ (s.store.marks = [] ∧ s.store.fullOrder = []) →
            becomes (s.store.counted bytes (s.store.setBuf side { state := .filling, data := d ++ bytes })) := by
          intro side d hopen hd hl hk
          obtain ⟨-, -, -, -, -, -, hfull⟩ :=
            StoreEngine.setBuf_frame side { state := .filling, data := d ++ bytes } s.store
          refine hbecomes _ (StoreEngine.take_short hopen hd hl) (StoreEngine.sameStream_setBuf side _ hself) ?_
          rw [hfull]
          exact hk
        have hexact : ∀ side d, s.store.openBuf = some side → (s.store.buf side).data = d →
            d.length + bytes.length = 4096 →
            completes (s.store.counted bytes (s.store.fill side (d ++ bytes))) (d ++ bytes) := fun side d hopen hd hl =>
          hcompletes _ side _ (StoreEngine.take_fills hopen hd hl) (StoreEngine.sameStream_fill side _ _) rfl
            (by cases side <;> rfl)
        have hspill : ∀ side other d, side ≠ other → s.store.openBuf = some side → (s.store.buf side).data = d →
            d.length < 4096 → 4096 < d.length + bytes.length →
            (s.store.fill side (d ++ bytes.take (4096 - d.length))).openBuf = some other →
            ((s.store.fill side (d ++ bytes.take (4096 - d.length))).buf other).data = [] →
            completes (s.store.counted bytes ((s.store.fill side (d ++ bytes.take (4096 - d.length))).setBuf other
              { state := .filling, data := bytes.drop (4096 - d.length) })) (d ++ bytes.take (4096 - d.length)) := by
          intro side other d hne hopen hd hlt hl ho' hn
          refine hcompletes _ side _ (StoreEngine.take_spills hopen hd hlt hl h2 ho' hn)
            (StoreEngine.sameStream_setBuf other _ (StoreEngine.sameStream_fill side _ _)) ?_ ?_
          · cases other <;> rfl
          · cases side <;> cases other
            · exact absurd rfl hne
            · rfl
            · rfl
            · exact absurd rfl hne
        refine ⟨fun hk => ⟨fun d ha hl => ?_, fun d ha hb hl => ?_, fun ha hb hl => ?_, fun ha hb hl => ?_⟩,
          fun d ha hd => ⟨fun hl => ?_, fun hb hl => ?_⟩, fun d ha hb hd => ⟨fun hl => ?_, fun ha' hl => ?_⟩,
          fun ha hb hl => ?_, fun ha hb hl => ?_⟩
        · exact hshort .a d (StoreEngine.openBuf_fillingA (by rw [ha])) (by rw [StoreEngine.buf, ha]) hl hk
        · exact hshort .b d (StoreEngine.openBuf_fillingB ha (by rw [hb])) (by rw [StoreEngine.buf, hb]) hl hk
        · exact hshort .a [] (StoreEngine.openBuf_emptyA (by rw [ha]) hb) (by rw [StoreEngine.buf, ha])
            (by rwa [List.length_nil, Nat.zero_add]) hk
        · exact hshort .b [] (StoreEngine.openBuf_emptyB ha (by rw [hb])) (by rw [StoreEngine.buf, hb])
            (by rwa [List.length_nil, Nat.zero_add]) hk
        · exact hexact .a d (StoreEngine.openBuf_fillingA (by rw [ha])) (by rw [StoreEngine.buf, ha]) hl
        · refine hspill .a .b d (by simp) (StoreEngine.openBuf_fillingA (by rw [ha])) (by rw [StoreEngine.buf, ha]) hd hl
            (StoreEngine.openBuf_emptyB (.inl rfl) ?_) ?_
          · exact congrArg PageBuffer.state hb
          · exact congrArg PageBuffer.data hb
        · exact hexact .b d (StoreEngine.openBuf_fillingB ha (by rw [hb])) (by rw [StoreEngine.buf, hb]) hl
        · refine hspill .b .a d (by simp) (StoreEngine.openBuf_fillingB ha (by rw [hb])) (by rw [StoreEngine.buf, hb]) hd
            hl (StoreEngine.openBuf_emptyA ?_ ?_) ?_
          · exact congrArg PageBuffer.state ha'
          · simp [StoreEngine.fill, StoreEngine.setBuf]
          · exact congrArg PageBuffer.data ha'
        · exact hexact .a [] (StoreEngine.openBuf_emptyA (by rw [ha]) hb) (by rw [StoreEngine.buf, ha])
            (by rwa [List.length_nil, Nat.zero_add])
        · exact hexact .b [] (StoreEngine.openBuf_emptyB ha (by rw [hb])) (by rw [StoreEngine.buf, hb])
            (by rwa [List.length_nil, Nat.zero_add])
  · intro bit r bs b
    refine ⟨rfl, (pictureCheck_append r bs b).trans ?_⟩
    exact congrArg (fun f => [0, 1, 2, 3, 4, 5, 6, 7].foldl (fun r i => f r (b.getLsbD i)) (pictureCheck r bs))
      (funext fun r => funext fun x => pictureCheckBit_eq r x)

end Sys2Proof.Machine
end

section
/-! PROOFS. PICTURE END and END TAKEN (R57, R63, R64), and a PICTURE_START held until the stream is CLOSED. -/

namespace Sys2Proof.Machine

variable {s : State} {n p : Nat} {r : PicRecord} {rest : List Nat}

/-! ### A held start -/

/-- A held start on an empty queue is refused (R55, R63). -/
theorem State.storeHeldStart_refused (hh : s.store.heldStart = true) (hs : s.store.stream = .closed)
    (hq : s.store.queue = []) :
    s.storeHeldStart = ({ s with store := { s.store with heldStart := false } }).setFlag .storeFailed := by
  rw [State.storeHeldStart_acts hh hs]
  exact State.storeStart_empty (s := s.onStore fun e => { e with heldStart := false }) hq

/-- A held start binds the head of the queue (R55, R63). -/
theorem State.storeHeldStart_binds (hh : s.store.heldStart = true) (hs : s.store.stream = .closed)
    (hq : s.store.queue = n :: rest) (hf : findNumber n s.cat.places = some (p, r)) : s.storeHeldStart = { s with
      cat := { s.cat with places := Table.put p { r with state := .storing } s.cat.places }
      writer := s.writer.mark (.place p)
      store := { s.store with
        heldStart := false, stream := .opened, received := 0, check := 0xFFFFFFFF#32, pageIndex := 0, loss := false }
      timers := { s.timers with data := some 0 } } := by
  rw [State.storeHeldStart_acts hh hs]
  exact State.storeStart_bound (s := s.onStore fun e => { e with heldStart := false }) hq hf

theorem State.storeGoOn_of_kick {v : State} (hk : s.storeKick = v) (hs : v.shot.state ≠ .queueWait)
    (hheld : v.storeHeldStart.shot = v.shot) : s.storeGoOn = v.storeHeldStart := by
  rw [State.storeGoOn, hk]
  exact State.shotQueueShrunk_idle fun h => hs (hheld ▸ h.1)

/-! ### The end of a picture -/

theorem State.pictureEnd_opened (ho : s.store.stream = .opened) (x : EndFields) : s.pictureEnd x =
    ({ s with
      store := { s.store.pad with stream := .ending, heldEnd := some x }
      timers := { s.timers with data := none } }).storeGoOn := if_pos ho

theorem StoreEngine.pad_filling {e : StoreEngine} {d : List Byte} {side : BufId}
    (h : (e.bufA = { state := .filling, data := d } ∧ side = .a) ∨
      (e.bufA.state ≠ .filling ∧ e.bufB = { state := .filling, data := d } ∧ side = .b)) :
    e.pad = e.fill side (d ++ List.replicate (4096 - d.length) 255#8) := by
  unfold StoreEngine.pad
  obtain ⟨ha, rfl⟩ | ⟨ha, hb, rfl⟩ := h
  · have hfind : ([BufId.a, BufId.b].find? fun i => (e.buf i).state == .filling) = some .a :=
      List.find?_cons_of_pos (by simp [StoreEngine.buf, ha])
    rw [hfind]
    dsimp only
    rw [show (e.buf .a).data = d from congrArg PageBuffer.data ha]
  · have hfind : ([BufId.a, BufId.b].find? fun i => (e.buf i).state == .filling) = some .b := by
      rw [List.find?_cons_of_neg (by simpa [StoreEngine.buf] using ha)]
      exact List.find?_cons_of_pos (by simp [StoreEngine.buf, hb])
    rw [hfind]
    dsimp only
    rw [show (e.buf .b).data = d from congrArg PageBuffer.data hb]

theorem StoreEngine.pad_none {e : StoreEngine} (ha : e.bufA.state ≠ .filling) (hb : e.bufB.state ≠ .filling) :
    e.pad = e := by
  have hfind : ([BufId.a, BufId.b].find? fun i => (e.buf i).state == .filling) = none :=
    List.find?_eq_none.mpr fun i _ => by cases i <;> simp [StoreEngine.buf, ha, hb]
  rw [StoreEngine.pad, hfind]

/-- The record STORED, its picture as the end gives it (R8, R64). -/
def PicRecord.storedWith (x : EndFields) (r : PicRecord) : PicRecord :=
  { r with state := .stored, remaining := 0
           picture := some { length := x.length, check := x.check, width := x.width, height := x.height } }

/-- The part after a good end has been taken, before anything goes on (R64). -/
def State.endStored (p : Nat) (r : PicRecord) (x : EndFields) (rest : List Nat) (s : State) : State :=
  ({ s with
    map := s.map.release r.remaining
    cat := { s.cat with places := Table.put p (r.storedWith x) s.cat.places }
    writer := s.writer.mark (.place p)
    store := { s.store with queue := rest, stream := .closed, heldEnd := none } }).setFlag .pictureStored

theorem State.storeStored_eq (hq : s.store.queue = n :: rest) (hf : findNumber n s.cat.places = some (p, r))
    (x : EndFields) : s.storeStored x n = s.endStored p r x rest := by
  unfold State.storeStored
  rw [State.onNumber_some hf]
  simp only [State.onStore]
  rw [show ((s.onMap (·.release r.remaining)).claim p _).store.queue = n :: rest from hq]
  rfl

theorem endGood_iff (x : EndFields) (e : StoreEngine) : endGood x e = true ↔
    1 ≤ e.received ∧ e.received ≤ 12582912 ∧ e.received = x.length ∧ ~~~e.check = x.check ∧ 1 ≤ x.width ∧
      x.width ≤ 16383 ∧ 1 ≤ x.height ∧ x.height ≤ 16383 ∧ e.loss = false := by
  simp only [endGood, Bool.and_eq_true, decide_eq_true_eq, beq_iff_eq, Bool.not_eq_true', and_assoc]
  rfl

theorem endDue_iff (e : StoreEngine) : endDue e = true ↔
    e.stream = .ending ∧ e.bufA.state = .empty ∧ e.bufB.state = .empty := by
  simp only [endDue, Bool.and_eq_true, beq_iff_eq, and_assoc]

theorem exec_endTaken {m : Moment} (hp : s.supply.powered = true) : exec (.endTaken m) s =
    .next (if endDue s.store then (s.arrive m).storeEnd else s.arrive m) := by
  change execEndTaken m s = _
  rw [execEndTaken, event_powered hp]
  rfl

theorem State.storeEnd_of {x : EndFields} (hx : s.store.heldEnd = some x) (hq : s.store.queue = n :: rest) :
    s.storeEnd = (if endGood x s.store then s.storeStored x n else s.storeFailBound .dataCheck).storeGoOn := by
  rw [State.storeEnd, hx, hq]

theorem toNat_append_byte {k : Nat} (x : BitVec k) (y : Byte) : (x ++ y).toNat = x.toNat * 256 + y.toNat := by
  rw [BitVec.toNat_append, ← Nat.shiftLeft_add_eq_or_of_lt y.isLt, Nat.shiftLeft_eq]

/-- The fields of a PICTURE_END (section 10.4). -/
theorem endOf_bytes (a b c d e f g h i j k l : Byte) : endOf [a, b, c, d, e, f, g, h, i, j, k, l] =
    { length := ((a.toNat * 256 + b.toNat) * 256 + c.toNat) * 256 + d.toNat, check := e ++ f ++ g ++ h
      width := i.toNat * 256 + j.toNat, height := k.toNat * 256 + l.toNat } := by
  have hlength : wordAt [a, b, c, d, e, f, g, h, i, j, k, l] 0 =
      ((a.toNat * 256 + b.toNat) * 256 + c.toNat) * 256 + d.toNat := by
    change (a.toNat * 256 + b.toNat) * 65536 + (c.toNat * 256 + d.toNat) = _
    omega
  have hcheck : BitVec.ofNat 32 (wordAt [a, b, c, d, e, f, g, h, i, j, k, l] 4) = e ++ f ++ g ++ h := by
    apply BitVec.eq_of_toNat_eq
    rw [toNat_append_byte (e ++ f ++ g), toNat_append_byte (e ++ f), toNat_append_byte e, BitVec.toNat_ofNat]
    change ((e.toNat * 256 + f.toNat) * 65536 + (g.toNat * 256 + h.toNat)) % 2 ^ 32 = _
    have := e.isLt
    have := f.isLt
    have := g.isLt
    have := h.isLt
    omega
  rw [endOf, hlength, hcheck]
  rfl

/-- Settles O37: the end's page as any FULL page, the end taken by the held start that follows it. -/
theorem pictureEndsAreHeldAndTaken : Obligations.PictureEndsAreHeldAndTaken := by
  unfold Obligations.PictureEndsAreHeldAndTaken
  intro m s hp u
  refine ⟨fun ht body => ?_, fun n rest p r x marks flash hs ha hb hx hq hf => ?_, fun hno => ?_,
    endOf_bytes⟩
  · have hexec : exec (.pictureEnd m body) s = .next (u.laneFree.pictureEnd (endOf body)) := by
      change execPictureEnd m body s = _
      rw [execPictureEnd, event_powered hp]
      exact congrArg _ (laneBlock_taken (s := u) ht (by decide) _)
    refine ⟨fun ho => hexec.trans (congrArg _ (if_neg ho)), fun ho hshot => ?_⟩
    rw [State.pictureEnd_opened (s := u.laneFree) ho] at hexec
    have hpad : ∀ d side, (s.store.bufA = { state := .filling, data := d } ∧ side = BufId.a) ∨
        (s.store.bufA.state ≠ .filling ∧ s.store.bufB = { state := .filling, data := d } ∧ side = BufId.b) →
        exec (.pictureEnd m body) s = .next ({ u with
          lane := .hunting
          store := { s.store.fill side (d ++ List.replicate (4096 - d.length) 255#8) with
            stream := .ending, heldEnd := some (endOf body) }
          timers := { u.timers with data := none } } : State).storeGoOn := by
      intro d side hside
      rw [← StoreEngine.pad_filling hside]
      exact hexec
    refine ⟨fun hk => ⟨fun d ha => ?_, fun d ha hb => ?_⟩, fun hst hfl hrec hm hord d n rest p r side hq hf hc hside => ?_,
      fun hk ha hb => ?_⟩
    · rw [hpad d .a (.inl ⟨ha, rfl⟩)]
      exact congrArg _ (State.storeGoOn_idle (by exact hshot) (.inr (by simp)) (State.storeKick_busy (by exact hk)))
    · rw [hpad d .b (.inr ⟨ha, hb, rfl⟩)]
      exact congrArg _ (State.storeGoOn_idle (by exact hshot) (.inr (by simp)) (State.storeKick_busy (by exact hk)))
    · rw [hpad d side hside]
      intro i page e
      let w : State := { u with lane := .hunting, store := e, timers := { u.timers with data := none } }
      have hw : ({ u with
          lane := .hunting
          store := { s.store.fill side (d ++ List.replicate (4096 - d.length) 255#8) with
            stream := .ending, heldEnd := some (endOf body) }
          timers := { u.timers with data := none } } : State) = w := by
        have hfill : s.store.fill side page = { s.store.setBuf side { state := .full, data := page } with
            fullOrder := [side] } := by
          rw [StoreEngine.fill, hord]
          rfl
        rw [show d ++ List.replicate (4096 - d.length) 255#8 = page from rfl, hfill]
      rw [hw]
      obtain ⟨-, gq, gr, gm, gi, gh, -⟩ := StoreEngine.setBuf_frame side { state := .full, data := page } s.store
      have hfree : w.flash.free .store = true := FlashPort.free_of hst hfl
      have hq' : w.store.queue = n :: rest := gq.trans hq
      have hopen : w.store.stream ≠ .closed := by simp [w, e]
      have hdata : (w.store.buf side).data = page := by cases side <;> rfl
      have hshot' : ¬(w.shot.state = .queueWait ∧ w.store.queue.length < 8) := by rwa [hq', ← hq]
      refine ⟨fun hi => ?_, fun c y hi hlt hal => ?_, fun hi hh hwait hno => ?_⟩
      · rw [State.storeGoOn_inside (s := w) hfree (gr.trans hrec) (gm.trans hm) rfl (boundRecord_some hq' hf) gi hi
          (.inr hopen) hshot', hdata]
        rfl
      · rw [State.storeGoOn_begins (s := w) hc hfree (gr.trans hrec) (gm.trans hm) rfl hq' hf gi hi hlt hal (.inr hopen)
          hshot', hdata]
        exact ⟨_, rfl, rfl, rfl, Table.get_put_same _ _ _, rfl⟩
      · rw [State.storeGoOn_fails (s := w) hc hfree (gr.trans hrec) (gm.trans hm) rfl hopen hq' hf gi hi hno,
          State.boundFailed_rests (s := w) (gh.trans hh) hwait]
        exact ⟨_, _, rfl, State.boundFailed_record, rfl, rfl, rfl⟩
    · rw [hexec, State.laneFree, show ({ u with lane := .hunting } : State).store = s.store from rfl,
        StoreEngine.pad_none ha hb]
      refine congrArg _ (State.storeGoOn_idle (by exact hshot) (.inr (by simp)) ?_)
      obtain hk | hk | ⟨hm, hord⟩ := hk
      · exact State.storeKick_busy (.inl hk)
      · exact State.storeKick_busy (.inr hk)
      · exact State.storeKick_none hm hord
  · intro h1 h2 h3 h4 h5 h6 h7 h8 hloss hord hshot hmarks stored
    have hgood : endGood x s.store = true := (endGood_iff x s.store).mpr ⟨h1, h2, h3, h4, h5, h6, h7, h8, hloss⟩
    have hexec : exec (.endTaken m) s = .next (u.endStored p r x rest).storeGoOn := by
      rw [exec_endTaken hp, if_pos ((endDue_iff s.store).mpr ⟨hs, ha, hb⟩), State.storeEnd_of (s := u) hx hq,
        if_pos (by exact hgood), State.storeStored_eq (s := u) hq hf]
    have hkick : (u.endStored p r x rest).storeKick = { stored with
        store := { stored.store with heldStart := s.store.heldStart } } := by
      obtain ⟨rfl, rfl, hno⟩ | ⟨hfree, hrec, k, hm, rfl⟩ := hmarks
      · obtain hm | hfree := hno
        · exact State.storeKick_none (s := u.endStored p r x rest) hm hord
        · exact State.storeKick_busy (s := u.endStored p r x rest) (.inl hfree)
      · exact State.storeKick_mark (s := u.endStored p r x rest) hfree hrec hm
    have hgo := State.storeGoOn_of_kick hkick (by exact hshot)
    refine ⟨fun hh => ?_, fun hh he => ?_, fun n' p' r' rest' hh he hne hc hf' => ?_⟩
    · have hheld := State.storeHeldStart_idle (s := { stored with
        store := { stored.store with heldStart := s.store.heldStart } }) (.inl hh)
      rw [hexec, hgo (by rw [hheld]), hheld]
      exact congrArg _ (by rw [hh]; rfl)
    · have hheld := State.storeHeldStart_refused (s := { stored with
        store := { stored.store with heldStart := s.store.heldStart } }) hh rfl he
      rw [hexec, hgo (by rw [hheld]; rfl), hheld]
      rfl
    · have hput : findNumber n' (Table.put p (r.storedWith x) s.cat.places) = some (p', r') :=
        findNumber_put_other (x := r.storedWith x) hc.1.1 (findNumber_mem hf).1 rfl hf'
          (findNumber_place_ne hc.1.1 hf hf' hne)
      have hheld := State.storeHeldStart_binds (s := { stored with
        store := { stored.store with heldStart := s.store.heldStart } }) hh rfl he hput
      rw [hexec, hgo (by rw [hheld]), hheld]
      rfl
  · rw [exec_endTaken hp, if_neg]
    intro hdue
    obtain ⟨hs, ha, hb⟩ := (endDue_iff s.store).mp hdue
    simp [hs, ha, hb] at hno

end Sys2Proof.Machine
end

section
/-! PROOFS. The ways the In Lane fails the bound picture (R51, R55, R56, R65, R66, R68, R69, R193). -/

namespace Sys2Proof.Machine

variable {s t : State} {n p : Nat} {r : PicRecord} {rest : List Nat} {c : FailCause}

/-! ### The part after its bound record has failed -/

/-- What is left of a bound record that has failed, whatever goes on then (R68, R69). -/
def State.Gone (p : Nat) (r : PicRecord) (c : FailCause) (rest : List Nat) (s t : State) : Prop :=
  t.record p = some (r.failedWith c) ∧ t.map = (s.recordFailed p r c).map ∧ t.store.queue = rest ∧
  t.store.heldEnd = none ∧ t.store.recovery = none ∧ t.events = (s.setFlag .storeFailed).events ∧
  t.store.fullOrder = [] ∧ t.store.bufA = clearBuffer (s.flash.flies .store) s.store.bufA ∧
  t.store.bufB = clearBuffer (s.flash.flies .store) s.store.bufB ∧
  t.flash.inFlight = s.flash.storeDropped.inFlight ∧ ∀ op, t.flash.store = some op → ∃ b, op = .grownMark b

/-- The next operation asked for after a failure: at most a grown mark (R62). -/
def State.kicked (marks : List Nat) (op : Option FlashOp) (s : State) : State :=
  { s with store := { s.store with marks := marks }, flash := { s.flash with store := op } }

theorem FlashPort.storeDropped_mark {f : FlashPort} {op : FlashOp} (h : f.storeDropped.store = some op) :
    ∃ b, op = .grownMark b := by
  have hmark : op.isMark = true := (Option.filter_eq_some_iff.mp h).2
  exact (FlashOp.isMark_iff op).mp hmark

theorem State.boundFailed_kick : ∃ marks op, (s.boundFailed p r c rest).storeKick =
    (s.boundFailed p r c rest).kicked marks op ∧ ∀ o, op = some o → ∃ b, o = .grownMark b := by
  obtain ⟨marks, op, hk, hop⟩ := State.storeKick_calm (s := s.boundFailed p r c rest) rfl
  refine ⟨marks, op, hk, fun o ho => ?_⟩
  obtain rfl | ⟨b, rfl⟩ := hop
  · exact FlashPort.storeDropped_mark ho
  · exact ⟨b, (Option.some_inj.mp ho).symm⟩

theorem State.kicked_gone {marks : List Nat} {op : Option FlashOp} (hop : ∀ o, op = some o → ∃ b, o = .grownMark b) :
    s.Gone p r c rest ((s.boundFailed p r c rest).kicked marks op) :=
  ⟨Table.get_put_same _ _ _, rfl, rfl, rfl, rfl, rfl, rfl, rfl, rfl, rfl, hop⟩

/-- What a held start makes of the failure when none is held, or none can bind (R55, R63). -/
theorem State.kicked_ends {marks : List Nat} {op : Option FlashOp} (hop : ∀ o, op = some o → ∃ b, o = .grownMark b)
    (hs : s.shot.state ≠ .queueWait) (hh : s.store.heldStart = false ∨ rest = []) :
    let t := ((s.boundFailed p r c rest).kicked marks op).storeHeldStart.shotQueueShrunk
    (s.Gone p r c rest t ∧ (∀ j, j ≠ p → t.record j = s.record j) ∧ t.writer = s.writer.mark (.place p) ∧
      t.store.stream = .closed ∧ t.timers.data = none ∧ t.store.heldStart = false) ∧
    t.store.marks = marks ∧ t.flash.store = op := by
  have hgone := State.kicked_gone (s := s) (p := p) (r := r) (c := c) (rest := rest) (marks := marks) hop
  have hother : ∀ j, j ≠ p → (s.boundFailed p r c rest).record j = s.record j := fun j hj => Table.get_put_other hj _ _
  rcases hheld : s.store.heldStart with _ | _
  · have hrest := State.storeHeldStart_idle (s := (s.boundFailed p r c rest).kicked marks op) (.inl hheld)
    have hshot := State.shotQueueShrunk_idle (s := (s.boundFailed p r c rest).kicked marks op) fun h => hs h.1
    rw [hrest, hshot]
    exact ⟨⟨hgone, hother, rfl, rfl, rfl, hheld⟩, rfl, rfl⟩
  · have hno : rest = [] := hh.resolve_left (by simp [hheld])
    have hrefuse := State.storeHeldStart_refused (s := (s.boundFailed p r c rest).kicked marks op) hheld rfl hno
    have hev := congrArg State.events (State.setFlag_setFlag s .storeFailed)
    rw [hrefuse, State.shotQueueShrunk_idle (by exact fun h => hs h.1)]
    obtain ⟨hrec, hmap, hq, he, hrv, -, hf, ha, hb, hfl, hst⟩ := hgone
    exact ⟨⟨⟨hrec, hmap, hq, he, hrv, hev, hf, ha, hb, hfl, hst⟩, hother, rfl, rfl, rfl, rfl⟩, rfl, rfl⟩

/-- What goes on after the failure when no start is held, or none can bind (R55, R63). -/
theorem State.boundFailed_ends (hs : s.shot.state ≠ .queueWait) (hh : s.store.heldStart = false ∨ rest = []) :
    let t := (s.boundFailed p r c rest).storeGoOn
    s.Gone p r c rest t ∧ (∀ j, j ≠ p → t.record j = s.record j) ∧ t.writer = s.writer.mark (.place p) ∧
      t.store.stream = .closed ∧ t.timers.data = none ∧ t.store.heldStart = false := by
  obtain ⟨marks, op, hk, hop⟩ := State.boundFailed_kick (s := s) (p := p) (r := r) (c := c) (rest := rest)
  rw [State.storeGoOn, hk]
  exact (State.kicked_ends hop hs hh).1

/-- What a start that binds after a failure leaves (R55). -/
def State.Rebound (p : Nat) (r : PicRecord) (c : FailCause) (rest : List Nat) (p' : Nat) (r' : PicRecord) (s t : State) :
    Prop :=
  s.Gone p r c rest t ∧ t.record p' = some { r' with state := .storing } ∧
    (∀ j, j ≠ p → j ≠ p' → t.record j = s.record j) ∧ t.writer = (s.writer.mark (.place p)).mark (.place p') ∧
    t.store.stream = .opened ∧ t.store.received = 0 ∧ t.store.check = 0xFFFFFFFF#32 ∧ t.store.pageIndex = 0 ∧
    t.store.loss = false ∧ t.store.heldStart = false ∧ t.timers.data = some 0

/-- The next record of the queue after the bound one has failed. -/
theorem findNumber_failed (hc : Canonical s) (hf : findNumber n s.cat.places = some (p, r)) {n' p' : Nat}
    {r' : PicRecord} (hne : n' ≠ n) (hf' : findNumber n' s.cat.places = some (p', r')) (c : FailCause) :
    findNumber n' (Table.put p (r.failedWith c) s.cat.places) = some (p', r') ∧ p' ≠ p :=
  have hp := findNumber_place_ne hc.1.1 hf hf' hne
  ⟨findNumber_put_other (x := r.failedWith c) hc.1.1 (findNumber_mem hf).1 rfl hf' hp, hp⟩

/-- The catalogue of a part in which `p` has failed and `p'` has been bound. -/
theorem rebound_record {p' : Nat} {r' : PicRecord} (hp : p' ≠ p) (l : List (Nat × PicRecord)) (c : FailCause) :
    Table.get p (Table.put p' { r' with state := .storing } (Table.put p (r.failedWith c) l)) = some (r.failedWith c) ∧
    Table.get p' (Table.put p' { r' with state := .storing } (Table.put p (r.failedWith c) l)) =
      some { r' with state := .storing } ∧
    ∀ j, j ≠ p → j ≠ p' →
      Table.get j (Table.put p' { r' with state := .storing } (Table.put p (r.failedWith c) l)) = Table.get j l := by
  refine ⟨?_, Table.get_put_same _ _ _, fun j hj hj' => ?_⟩
  · rw [Table.get_put_other hp.symm, Table.get_put_same]
  · rw [Table.get_put_other hj', Table.get_put_other hj]

/-- A held start binds the next record after the failure (R55, R63, R68). -/
theorem State.kicked_binds {marks : List Nat} {op : Option FlashOp} (hop : ∀ o, op = some o → ∃ b, o = .grownMark b)
    (hc : Canonical s) (hf : findNumber n s.cat.places = some (p, r)) (hs : s.shot.state ≠ .queueWait)
    (hh : s.store.heldStart = true) {n' p' : Nat} {r' : PicRecord} {rest' : List Nat} (hq : rest = n' :: rest')
    (hne : n' ≠ n) (hf' : findNumber n' s.cat.places = some (p', r')) :
    let t := ((s.boundFailed p r c rest).kicked marks op).storeHeldStart.shotQueueShrunk
    s.Rebound p r c rest p' r' t ∧ t.store.marks = marks ∧ t.flash.store = op := by
  obtain ⟨hfind, hp⟩ := findNumber_failed hc hf hne hf' c
  have hbind := State.storeHeldStart_binds (s := (s.boundFailed p r c rest).kicked marks op) hh rfl hq hfind
  rw [hbind, State.shotQueueShrunk_idle (by exact fun h => hs h.1)]
  obtain ⟨hrec, hrec', hother⟩ := rebound_record (r := r) (r' := r') hp s.cat.places c
  exact ⟨⟨⟨hrec, rfl, rfl, rfl, rfl, rfl, rfl, rfl, rfl, rfl, hop⟩, hrec', hother, rfl, rfl, rfl, rfl, rfl, rfl, rfl,
    rfl⟩, rfl, rfl⟩

/-- A held start binds the next record after the failure has gone on (R55, R63, R68). -/
theorem State.boundFailed_binds (hc : Canonical s) (hf : findNumber n s.cat.places = some (p, r))
    (hs : s.shot.state ≠ .queueWait) (hh : s.store.heldStart = true) {n' p' : Nat} {r' : PicRecord} {rest' : List Nat}
    (hq : rest = n' :: rest') (hne : n' ≠ n) (hf' : findNumber n' s.cat.places = some (p', r')) :
    s.Rebound p r c rest p' r' (s.boundFailed p r c rest).storeGoOn := by
  obtain ⟨marks, op, hk, hop⟩ := State.boundFailed_kick (s := s) (p := p) (r := r) (c := c) (rest := rest)
  rw [State.storeGoOn, hk]
  exact (State.kicked_binds hop hc hf hs hh hq hne hf').1

/-- A second start after the failure: it binds the next record of the queue (R55). -/
theorem State.boundFailed_restarts (hc : Canonical s) (hf : findNumber n s.cat.places = some (p, r))
    (hs : s.shot.state ≠ .queueWait) (hh : s.store.heldStart = false) {n' p' : Nat} {r' : PicRecord} {rest' : List Nat}
    (hq : rest = n' :: rest') (hne : n' ≠ n) (hf' : findNumber n' s.cat.places = some (p', r')) :
    s.Rebound p r c rest p' r' (s.boundFailed p r c rest).storeStart.storeGoOn := by
  obtain ⟨hfind, hp⟩ := findNumber_failed hc hf hne hf' c
  have hstart := State.storeStart_bound (s := s.boundFailed p r c rest) hq hfind
  obtain ⟨marks, op, hk, hop⟩ := State.storeKick_calm (s := (s.boundFailed p r c rest).storeStart) (by rw [hstart]; rfl)
  rw [hstart] at hk hop ⊢
  have hidle := State.storeHeldStart_idle (s := State.kicked marks op { s.boundFailed p r c rest with
    cat := { s.cat with places := Table.put p' { r' with state := .storing } (Table.put p (r.failedWith c) s.cat.places) }
    writer := (s.writer.mark (.place p)).mark (.place p')
    store := { (s.boundFailed p r c rest).store with
      stream := .opened, received := 0, check := 0xFFFFFFFF#32, pageIndex := 0, loss := false }
    timers := { s.timers with data := some 0 } }) (.inl hh)
  rw [State.storeGoOn_of_kick hk (by exact hs) (congrArg State.shot hidle)]
  refine hidle ▸ ?_
  obtain ⟨hrec, hrec', hother⟩ := rebound_record (r := r) (r' := r') hp s.cat.places c
  refine ⟨⟨hrec, rfl, rfl, rfl, rfl, rfl, rfl, rfl, rfl, rfl, fun o ho => ?_⟩, hrec', hother, rfl, rfl, rfl, rfl, rfl,
    rfl, hh, rfl⟩
  obtain rfl | ⟨b, rfl⟩ := hop
  · exact FlashPort.storeDropped_mark ho
  · exact ⟨b, (Option.some_inj.mp ho).symm⟩

/-- A second start on an empty queue is refused, and the stream stays CLOSED (R55). -/
theorem State.boundFailed_restart_refused (hq : rest = []) :
    (s.boundFailed p r c rest).storeStart.storeGoOn = (s.boundFailed p r c rest).storeGoOn := by
  rw [State.storeStart_empty (s := s.boundFailed p r c rest) hq]
  exact congrArg (fun e => ({ s.boundFailed p r c rest with events := e } : State).storeGoOn)
    (congrArg State.events (State.setFlag_setFlag s .storeFailed))

end Sys2Proof.Machine
end

section
/-! PROOFS. The In Lane's rows that fail the bound picture (R51, R55, R56, R65, R66, R193). -/

namespace Sys2Proof.Machine

variable {s : State} {m : Moment}

/-! ### Blocks dropped and gaps -/

theorem laneArrival_opens {k : Byte} {n : Nat} (h : LaneOpens k n s) : laneArrival k n s =
    some { kind := k, length := n, discard := decide (s.supply.shutdown = .starting) } := by
  unfold laneArrival
  split
  next b hb => exact absurd hb (laneOpens_not_block h b)
  next => exact if_pos ((laneOpens_iff k n s).mpr h)

theorem laneArrival_block {k : Byte} {n : Nat} {b : LaneBlock} (hl : s.lane = .block b) :
    laneArrival k n s = if b.kind = k ∧ b.length = n then some b else none := by
  unfold laneArrival
  split
  next b' hb' =>
    cases hl.symm.trans hb'
    rfl
  next h => exact absurd hl (h b)

theorem laneArrival_shut {k : Byte} {n : Nat} (hb : ∀ b, s.lane ≠ .block b) (h : ¬LaneOpens k n s) :
    laneArrival k n s = none := by
  unfold laneArrival
  split
  next b hb' => exact absurd hb' (hb b)
  next => exact if_neg fun ho => h ((laneOpens_iff k n s).mp ho)

theorem exec_blockDropped_some (hp : s.supply.powered = true) {k : Byte} {n : Nat} {b : LaneBlock}
    (h : laneArrival k n (s.arrive m) = some b) : exec (.inLaneBlockDropped m k n) s = .next
      (if b.dropped then
        (if k = 3#8 then dataBlock n State.pictureDataBad (s.arrive m) else (s.arrive m).laneFree)
      else s.arrive m) := by
  change execInLaneBlockDropped m k n s = _
  rw [execInLaneBlockDropped, event_powered hp, h]

theorem exec_blockDropped_none (hp : s.supply.powered = true) {k : Byte} {n : Nat}
    (h : laneArrival k n (s.arrive m) = none) : exec (.inLaneBlockDropped m k n) s = .next (s.arrive m) := by
  change execInLaneBlockDropped m k n s = _
  rw [execInLaneBlockDropped, event_powered hp, h]

theorem exec_framingFault (hp : s.supply.powered = true) :
    exec (.inLaneFramingFault m) s = .next (s.arrive m).laneFault := by
  change execInLaneFramingFault m s = _
  rw [execInLaneFramingFault, event_powered hp]

theorem State.laneFault_hunting (h : s.lane = .hunting) : s.laneFault = s := by
  rw [State.laneFault, h]

theorem State.laneFault_data {l : List Byte} (h : s.lane = .header (3#8 :: l)) :
    s.laneFault = laneDataEnd (decide (s.supply.shutdown = .starting)) State.pictureDataBad s := by
  rw [State.laneFault, h]
  exact if_pos rfl

theorem State.laneFault_header {l : List Byte} (h : s.lane = .header l) (hk : l.head? ≠ some 3#8) :
    s.laneFault = s.laneFree := by
  rw [State.laneFault, h]
  match l, hk with
  | [], _ => rfl
  | k :: l, hk => exact if_neg fun he => hk (congrArg some he)

theorem State.laneFault_block {b : LaneBlock} (h : s.lane = .block b) : s.laneFault =
    if b.waits s = true ∨ b.length ≤ b.got then s
    else if b.kind = 3#8 then laneDataEnd b.discard State.pictureDataBad s
    else s.laneFree := by
  rw [State.laneFault, h]

theorem State.pictureDataBad_opened (ho : s.store.stream = .opened) :
    s.pictureDataBad = (s.storeFailBound .brokenStream).storeGoOn := if_pos ho

theorem State.pictureDataBad_other (ho : s.store.stream ≠ .opened) : s.pictureDataBad = s := if_neg ho

theorem laneLengthOk_bad {k : Nat} (h : k = 0 ∨ 4096 < k) : laneLengthOk 3#8 k = false := by
  rw [← Bool.not_eq_true, laneLengthOk_data]
  omega

theorem exec_dataTimeout (hp : s.supply.powered = true) : exec (.dataTimeout m) s = .next
    (if s.store.stream = .opened ∧ reached Config.dataLimit (s.arrive m).timers.data = true then
      ((s.arrive m).storeFailBound .dataTimeout).storeGoOn
    else s.arrive m) := by
  change execDataTimeout m s = _
  rw [execDataTimeout, event_powered hp]
  rfl

theorem exec_pictureAbort (hp : s.supply.powered = true) : exec (.pictureAbort m) s = .next
    (laneBlock 5#8 0 (fun s => if s.store.stream = .closed then s else (s.storeFailBound .aborted).storeGoOn)
      (s.arrive m)) := by
  change execPictureAbort m s = _
  rw [execPictureAbort, event_powered hp]

theorem exec_pictureStart (hp : s.supply.powered = true) :
    exec (.pictureStart m) s = .next (laneBlock 2#8 0 State.pictureStart (s.arrive m)) := by
  change execPictureStart m s = _
  rw [execPictureStart, event_powered hp]

theorem exec_pictureData (hp : s.supply.powered = true) (bytes : List Byte) : exec (.pictureData m bytes) s =
    .next (dataBlock bytes.length (State.pictureData bytes) (s.arrive m)) := by
  change execPictureData m bytes s = _
  rw [execPictureData, event_powered hp]

theorem State.pictureStart_opened (hlow : s.supply.powerLow = false) (hs : s.store.stream = .opened) :
    s.pictureStart = (s.storeFailBound .brokenStream).storeStart.storeGoOn := by
  rw [State.pictureStart, hlow, hs]
  rfl

theorem clearBuffer_empty {flying : Bool} {x : PageBuffer} (h : x.state ≠ .programming ∨ flying = false) :
    clearBuffer flying x = { state := .empty, data := [] } := by
  unfold clearBuffer
  rcases hs : x.state with _ | _ | _ | _
  case programming =>
    rw [h.resolve_left (by simp [hs])]
    rfl
  case empty | filling | full => rfl

theorem FlashPort.flies_store_false {f : FlashPort} (h : ∀ x, f.inFlight = some x → x.claimant ≠ .store) :
    f.flies .store = false := by
  rcases hf : f.inFlight with _ | x
  · simp [FlashPort.flies, hf]
  · simpa [FlashPort.flies, hf] using h x hf

/-- Settles O38: each row leads to the failure of the bound record, whose consequences are one lemma. -/
theorem failedPicturesGiveBackTheirBlocks : Obligations.FailedPicturesGiveBackTheirBlocks := by
  unfold Obligations.FailedPicturesGiveBackTheirBlocks
  intro m s n p r rest hc hp hstarted hq hf hwait u gone failed binds fails
  have hgone : ∀ c t, s.Gone p r c rest t → gone c t := by
    rintro c t ⟨hrec, hmap, hq, he, hrv, hev, hord, ha, hb, hfl, hst⟩
    obtain ⟨hres, hdirty, hother⟩ := State.recordFailed_map (s := s) hc p r c
    refine ⟨hrec, hmap ▸ hres, hmap ▸ hdirty, hmap ▸ hother, hq, he, hrv, hev, hord, fun i hi => ?_, hst,
      fun x hx hcl => ?_⟩
    · have hclear : clearBuffer (s.flash.flies .store) (s.store.buf i) = { state := .empty, data := [] } :=
        clearBuffer_empty (hi.imp_right FlashPort.flies_store_false)
      cases i
      · exact ha.trans hclear
      · exact hb.trans hclear
    · rw [hfl, FlashPort.storeDropped, hx]
      exact congrArg some (if_pos hcl)
  have hfails : ∀ i c l, s.store.stream ≠ .closed →
      exec i s = .next (({ u with lane := l } : State).storeFailBound c).storeGoOn → fails i c := by
    intro i c l ho he
    rw [State.storeFailBound_eq (s := { u with lane := l }) hc ho hq hf] at he
    refine ⟨fun hh => ?_, fun hh n' p' r' rest' hq' hf' hne => ?_⟩
    · obtain ⟨hg, hother, hw, hst, htm, hheld⟩ := State.boundFailed_ends (s := { u with lane := l }) (p := p) (r := r)
        (c := c) (rest := rest) hwait hh
      exact ⟨_, he, ⟨hgone c _ hg, hother, hw, hst, htm⟩, hheld⟩
    · obtain ⟨hg, hrest⟩ := State.boundFailed_binds (s := { u with lane := l }) (c := c) hc hf hwait hh hq' hne hf'
      exact ⟨_, he, hgone c _ hg, hrest⟩
  refine ⟨fun ho ht => ?_, fun ho k hk ht => ⟨?_, fun bytes hb => ?_⟩, fun b ho hb hk hd hgot hw => ?_,
    fun l ho hl => ?_, fun x ho hx hle => ?_, fun x hs ha hb hx hbad => ?_, fun ho hh hlow ht => ?_⟩
  · refine hfails _ _ .hunting ho ((exec_pictureAbort hp).trans (congrArg _ ?_))
    rw [laneBlock_taken (s := u) (ht.imp_left fun h => ⟨h, hstarted⟩) (by decide)]
    exact if_neg ho
  · obtain ⟨b, hb, hk', hl⟩ : ∃ b, laneArrival 3#8 k u = some b ∧ b.kind = 3#8 ∧ b.length = k := by
      obtain ⟨ho', -⟩ | ⟨b, hb, hk', hl, -⟩ := ht
      · exact ⟨_, laneArrival_opens ho', rfl, rfl⟩
      · exact ⟨b, (laneArrival_block hb).trans (if_pos ⟨hk', hl⟩), hk', hl⟩
    have hdrop : b.dropped = true := by simp [LaneBlock.dropped, hk', hl, laneLengthOk_bad hk]
    refine hfails _ _ .hunting (by simp [ho]) ((exec_blockDropped_some hp hb).trans (congrArg _ ?_))
    rw [if_pos hdrop, if_pos rfl, dataBlock_taken (s := u) ht]
    exact State.pictureDataBad_opened (s := u.laneFree) ho
  · refine hfails _ _ .hunting (by simp [ho]) ((exec_pictureData hp bytes).trans (congrArg _ ?_))
    rw [hb, dataBlock_taken (s := u) ht, State.pictureData, hb, laneLengthOk_bad hk]
    exact State.pictureDataBad_opened (s := u.laneFree) ho
  · refine hfails _ _ .hunting (by simp [ho]) ((exec_framingFault hp).trans (congrArg _ ?_))
    have hgoes : ¬(b.waits u = true ∨ b.length ≤ b.got) := by
      rintro (hwt | hle)
      · obtain hw | hw := hw
        · have hready : inLaneReady u = true := hw
          simp [LaneBlock.waits, hready] at hwt
        · simp [LaneBlock.waits, Nat.ne_of_gt hw] at hwt
      · omega
    rw [State.laneFault_block hb, if_neg hgoes, if_pos hk, laneDataEnd, hd]
    exact State.pictureDataBad_opened (s := u.laneFree) ho
  · refine hfails _ _ .hunting (by simp [ho]) ((exec_framingFault hp).trans (congrArg _ ?_))
    rw [State.laneFault_data hl, laneDataEnd]
    refine (if_neg fun h => hstarted (of_decide_eq_true h)).trans ?_
    exact State.pictureDataBad_opened (s := u.laneFree) ho
  · refine hfails _ _ u.lane (by simp [ho]) ((exec_dataTimeout hp).trans (congrArg _ (if_pos ⟨ho, ?_⟩)))
    rw [show (s.arrive m).timers.data = some x from hx]
    exact decide_eq_true hle
  · refine hfails _ _ u.lane (by simp [hs]) ((exec_endTaken hp).trans (congrArg _ ?_))
    have hbad' : ¬endGood x s.store = true := by
      rw [endGood_iff]
      rintro ⟨h1, h2, h3, h4, h5, h6, h7, h8, h9⟩
      obtain h | h | h | h | h | h | h | h | h := hbad
      · omega
      · omega
      · exact h h3
      · exact h h4
      · omega
      · omega
      · omega
      · omega
      · simp [h9] at h
    rw [if_pos ((endDue_iff s.store).mpr ⟨hs, ha, hb⟩), State.storeEnd_of (s := u) hx hq, if_neg (by exact hbad')]
  · have hexec : exec (.pictureStart m) s =
        .next ((u.laneFree.boundFailed p r .brokenStream rest).storeStart.storeGoOn) := by
      rw [exec_pictureStart hp, laneBlock_taken (s := u) (ht.imp_left fun h => ⟨h, hstarted⟩) (by decide),
        State.pictureStart_opened (s := u.laneFree) hlow ho,
        State.storeFailBound_eq (s := u.laneFree) hc (by exact ho ▸ nofun) hq hf]
    refine ⟨fun he => ⟨fun _ => ?_, fun hh' => absurd (hh.symm.trans hh') (by simp)⟩,
      fun n' p' r' rest' hq' hf' hne => ?_⟩
    · rw [State.boundFailed_restart_refused (s := u.laneFree) he] at hexec
      obtain ⟨hg, hother, hw, hst, htm, hheld⟩ := State.boundFailed_ends (s := u.laneFree) (p := p) (r := r)
        (c := .brokenStream) (rest := rest) hwait (.inl hh)
      exact ⟨_, hexec, ⟨hgone _ _ hg, hother, hw, hst, htm⟩, hheld⟩
    · obtain ⟨hg, hrest⟩ := State.boundFailed_restarts (s := u.laneFree) (c := .brokenStream) hc hf hwait hh hq' hne hf'
      exact ⟨_, hexec, hgone _ _ hg, hrest⟩

end Sys2Proof.Machine
end

section
/-! PROOFS. ABANDON (R67, R68), and the In Lane blocks that have no effect (R51, R56, R193). -/

namespace Sys2Proof.Machine

variable {s : State} {m : Moment} {n p : Nat} {r : PicRecord} {rest : List Nat}

/-! ### ABANDON -/

theorem exec_abandon_refused (h : Taking s) (m : Moment) {e : Code}
    (hx : (s.map.mode = .preparing ∧ e = .busy) ∨ (s.map.mode ≠ .preparing ∧ numberOk n = false ∧ e = .badField) ∨
      (s.map.mode ≠ .preparing ∧ numberOk n = true ∧ findNumber n s.cat.places = none ∧ e = .noSuchRecord) ∨
      (s.map.mode ≠ .preparing ∧ numberOk n = true ∧ findNumber n s.cat.places = some (p, r) ∧
        r.state ≠ .awaiting ∧ r.state ≠ .storing ∧ e = .wrongState)) :
    exec (.abandon m n) s = .next ((taken 9 m s).respond 9 (refuse e)) := by
  refine (request_taking h 9 m _).trans ?_
  rw [show (taken 9 m s).map = s.map from rfl, show (taken 9 m s).cat.places = s.cat.places from rfl]
  obtain ⟨hm, rfl⟩ | ⟨hm, hn, rfl⟩ | ⟨hm, hn, hf, rfl⟩ | ⟨hm, hn, hf, ha, hs, rfl⟩ := hx
  · rw [if_pos hm]
  · rw [if_neg hm, hn] <;> rfl
  · rw [if_neg hm, hn, if_neg (by simp), hf]
  · rw [if_neg hm, hn, if_neg (by simp), hf]
    dsimp only
    rw [if_pos ⟨ha, hs⟩]

theorem exec_abandon_ok (h : Taking s) (m : Moment) (hm : s.map.mode ≠ .preparing) (hn : numberOk n = true)
    (hf : findNumber n s.cat.places = some (p, r)) (hr : r.state = .awaiting ∨ r.state = .storing) :
    exec (.abandon m n) s = .next ((((taken 9 m s).storeFail n .aborted).storeGoOn).respond 9 ok) := by
  refine (request_taking h 9 m _).trans ?_
  rw [show (taken 9 m s).map = s.map from rfl, show (taken 9 m s).cat.places = s.cat.places from rfl, if_neg hm, hn,
    if_neg (by simp), hf]
  dsimp only
  rw [if_neg fun hh => hr.elim hh.1 hh.2]

theorem isBound_iff : isBound n s = true ↔ s.store.stream ≠ .closed ∧ s.store.queue.head? = some n := by
  rw [isBound, Bool.and_eq_true, bne_iff_ne, beq_iff_eq]

theorem isBound_queue (h : isBound n s = true) : ∃ rest, s.store.queue = n :: rest := by
  obtain ⟨-, hh⟩ := isBound_iff.mp h
  exact List.head?_eq_some_iff.mp hh

/-- A record that fails while it waits in the queue: the bound one goes on (R68). -/
theorem State.storeFail_queued_goOn (hc : Canonical s) (hb : isBound n s = false)
    (hf : findNumber n s.cat.places = some (p, r)) (c : FailCause) (hs : s.shot.state ≠ .queueWait)
    (hh : s.store.heldStart = false ∨ s.store.stream ≠ .closed)
    (hk : s.store.fullOrder = [] ∨ s.flash.free .store = false ∨ s.store.recovery ≠ none) :
    ∃ marks op, (s.storeFail n c).storeGoOn = (({ s.recordFailed p r c with
      store := { s.store with queue := removeFirst n s.store.queue } }).setFlag .storeFailed).kicked marks op := by
  rw [State.storeFail_queued hc hb hf]
  obtain ⟨marks, op, hkick⟩ : ∃ marks op, State.storeKick (({ s.recordFailed p r c with
      store := { s.store with queue := removeFirst n s.store.queue } }).setFlag .storeFailed) =
        State.kicked marks op (({ s.recordFailed p r c with
          store := { s.store with queue := removeFirst n s.store.queue } }).setFlag .storeFailed) := by
    obtain hk | hk := hk
    · obtain ⟨marks, op, hkick, -⟩ := State.storeKick_calm (s := ({ s.recordFailed p r c with
        store := { s.store with queue := removeFirst n s.store.queue } }).setFlag .storeFailed) hk
      exact ⟨marks, op, hkick⟩
    · exact ⟨s.store.marks, s.flash.store, State.storeKick_busy (by exact hk)⟩
  refine ⟨marks, op, ?_⟩
  rw [State.storeGoOn, hkick, State.storeHeldStart_idle (by exact hh)]
  exact State.shotQueueShrunk_idle fun h => hs h.1

/-! ### Blocks without effect -/

theorem laneLengthOk_iff (k : Byte) (n : Nat) : laneLengthOk k n = true ↔ (k = 1#8 ∧ n = 243) ∨ (k = 2#8 ∧ n = 0) ∨
    (k = 3#8 ∧ 1 ≤ n ∧ n ≤ 4096) ∨ (k = 4#8 ∧ n = 12) ∨ (k = 5#8 ∧ n = 0) := by
  by_cases h1 : k = 1#8
  · subst h1
    simp [laneLengthOk]
  · by_cases h2 : k = 2#8
    · subst h2
      simp [laneLengthOk, kindStatistics]
    · by_cases h3 : k = 3#8
      · subst h3
        simp [laneLengthOk, kindStatistics, kindStart, kindAbort, Config.pageBytes]
      · by_cases h4 : k = 4#8
        · subst h4
          simp [laneLengthOk, kindStatistics, kindStart, kindAbort, kindData]
        · by_cases h5 : k = 5#8
          · subst h5
            simp [laneLengthOk, kindStatistics]
          · simp [laneLengthOk, h1, h2, h3, h4, h5]

/-- A block in hand that reaches no owner (R51, R193). -/
theorem LaneBlock.dropped_iff (b : LaneBlock) : b.dropped = true ↔ b.discard = true ∨
    (b.kind = 1#8 ∧ b.length ≠ 243) ∨ (b.kind = 2#8 ∧ b.length ≠ 0) ∨
    (b.kind = 3#8 ∧ (b.length = 0 ∨ 4096 < b.length)) ∨ (b.kind = 4#8 ∧ b.length ≠ 12) ∨
    (b.kind = 5#8 ∧ b.length ≠ 0) ∨
    (b.kind ≠ 1#8 ∧ b.kind ≠ 2#8 ∧ b.kind ≠ 3#8 ∧ b.kind ≠ 4#8 ∧ b.kind ≠ 5#8) := by
  rw [LaneBlock.dropped, Bool.or_eq_true, Bool.not_eq_true', ← Bool.not_eq_true, laneLengthOk_iff]
  refine or_congr_right ?_
  by_cases h1 : b.kind = 1#8
  · simp [h1]
  · by_cases h2 : b.kind = 2#8
    · simp [h2]
    · by_cases h3 : b.kind = 3#8
      · simp [h3]
        omega
      · by_cases h4 : b.kind = 4#8
        · simp [h4]
        · by_cases h5 : b.kind = 5#8
          · simp [h5]
          · simp [h1, h2, h3, h4, h5]

theorem LaneBlock.waits_iff (b : LaneBlock) : b.waits s = true ↔ b.kind = 3#8 ∧ b.got = 0 ∧ inLaneReady s = false := by
  simp [LaneBlock.waits, and_assoc]

theorem laneDataEnd_dropped {discard : Bool} (h : discard = true ∨ s.store.stream ≠ .opened) :
    laneDataEnd discard State.pictureDataBad s = s.laneFree := by
  unfold laneDataEnd
  obtain rfl | h := h
  · rfl
  · split
    · rfl
    · exact State.pictureDataBad_other h

/-- Settles O39: ABANDON by whether the record is the bound one, the blocks by the block in hand. -/
theorem abandonAndDroppedBlocks : Obligations.AbandonAndDroppedBlocks := by
  unfold Obligations.AbandonAndDroppedBlocks
  refine ⟨fun m s n h hc => ?_, fun m s hp hstarted => ?_, fun m s hp hno => ?_, fun m s b hp hl => ?_⟩
  · intro u refused
    refine ⟨fun hm => exec_abandon_refused (p := 0) (r := unreadableRecord) h m (.inl ⟨hm, rfl⟩), fun hm hn =>
      exec_abandon_refused (p := 0) (r := unreadableRecord) h m (.inr (.inl ⟨hm, ?_, rfl⟩)), fun hm h1 h2 =>
      ⟨fun hf => ?_, fun p r hf => ⟨fun ha hs => ?_, fun hr hwait hheld hkick => ?_, fun rest hr hwait hh ho hq => ?_⟩⟩⟩
    · rw [← Bool.not_eq_true, numberOk_iff]
      omega
    · exact exec_abandon_refused (p := 0) (r := unreadableRecord) h m
        (.inr (.inr (.inl ⟨hm, (numberOk_iff n).mpr ⟨h1, h2⟩, hf, rfl⟩)))
    · exact exec_abandon_refused h m (.inr (.inr (.inr ⟨hm, (numberOk_iff n).mpr ⟨h1, h2⟩, hf, ha, hs, rfl⟩)))
    · have hexec := exec_abandon_ok h m hm ((numberOk_iff n).mpr ⟨h1, h2⟩) hf hr
      obtain ⟨hres, hdirty, hother⟩ := State.recordFailed_map (s := s) hc p r .aborted
      rcases hb : isBound n s with _ | _
      · have hnb : ¬(s.store.stream ≠ .closed ∧ s.store.queue.head? = some n) := fun hh => by
          rw [isBound_iff.mpr hh] at hb
          cases hb
        obtain ⟨marks, op, hgo⟩ := State.storeFail_queued_goOn (s := u) hc hb hf .aborted hwait
          (hheld.imp_right fun hh => hh.1) (hkick.imp_right fun hk => hk.imp_right fun hk => hk.resolve_right hnb)
        rw [hgo] at hexec
        refine ⟨_, hexec, Table.get_put_same _ _ _, fun j hj => Table.get_put_other hj _ _, rfl, hres, hdirty, hother,
          rfl, has_setFlag_same _ _, rfl, fun _ => ⟨rfl, rfl, rfl⟩, fun hhead => ?_, rfl⟩
        exact Classical.not_not.mp fun ho => hnb ⟨ho, hhead⟩
      · obtain ⟨ho, hhead⟩ := isBound_iff.mp hb
        obtain ⟨rest, hq⟩ := isBound_queue hb
        have hh : s.store.heldStart = false := hheld.resolve_right fun hh => hh.2 hhead
        rw [State.storeFail_bound (s := u) hc ho hq hf] at hexec
        obtain ⟨⟨hrec, hmap, hqueue, -, -, hev, -⟩, hothers, hw, hst, -, hhs⟩ := State.boundFailed_ends (s := u) (p := p)
          (r := r) (c := .aborted) (rest := rest) hwait (.inl hh)
        refine ⟨_, hexec, hrec, hothers, hw, (congrArg BlockMap.reserved hmap).trans hres, fun b hbe hi => ?_, fun b hbe => ?_, ?_, ?_,
          hhs.trans hh.symm, fun hne => absurd hhead hne, fun _ => hst, rfl⟩
        · exact (congrArg (·.stateOf b) hmap).trans (hdirty b hbe hi)
        · exact (congrArg (·.stateOf b) hmap).trans (hother b hbe)
        · rw [hq, removeFirst, if_pos rfl]
          exact hqueue
        · exact (congrArg (·.has .storeFailed) hev).trans (has_setFlag_same _ _)
    · have hexec := exec_abandon_ok h m hm ((numberOk_iff n).mpr ⟨h1, h2⟩) hf hr
      obtain ⟨hres, hdirty, hother⟩ := State.recordFailed_map (s := s) hc p r .aborted
      rw [State.storeFail_bound (s := u) hc ho hq hf] at hexec
      have hfailed : ∀ t : State, u.Gone p r .aborted rest t → t.store.heldStart = false →
          t.record p = some (r.failedWith .aborted) ∧ t.map.reserved = s.map.reserved - r.remaining ∧
          t.store.queue = rest ∧ t.store.heldStart = false ∧ t.store.heldEnd = none ∧
          t.events.has .storeFailed = true := by
        rintro t ⟨hrec, hmap, hqueue, he, -, hev, -⟩ hhs
        exact ⟨hrec, (congrArg BlockMap.reserved hmap).trans hres, hqueue, hhs, he,
          (congrArg (·.has .storeFailed) hev).trans (has_setFlag_same _ _)⟩
      intro failed
      refine ⟨fun he => ?_, fun n' p' r' rest' hq' hne hf' => ?_⟩
      · obtain ⟨hg, hothers, hw, hst, -, hhs⟩ := State.boundFailed_ends (s := u) (p := p) (r := r) (c := .aborted)
          (rest := rest) hwait (.inr he)
        obtain ⟨hrec, hres', hqueue, hhs, hend, hev⟩ := hfailed _ hg hhs
        exact ⟨_, hexec, ⟨hrec, hres', hqueue, hhs, hend, hev, rfl⟩, hst, hothers, hw⟩
      · obtain ⟨hg, hrec', hothers, hw, hst, hre, hck, hpi, hlo, hhs, htm⟩ := State.boundFailed_binds (s := u)
          (c := .aborted) hc hf hwait hh hq' hne hf'
        obtain ⟨hrec, hres', hqueue, hhs, hend, hev⟩ := hfailed _ hg hhs
        exact ⟨_, hexec, ⟨hrec, hres', hqueue, hhs, hend, hev, rfl⟩, hst, hrec', hothers, hw, hre, hck, hpi, hlo, htm⟩
  · intro u gone
    refine ⟨fun k n ho => ?_, fun h k n hl ho => exec_blockDropped_none hp (laneArrival_shut (s := u) (fun b hb => ?_) ho),
      fun hl => (exec_framingFault hp).trans (congrArg _ (State.laneFault_hunting hl)), fun h hl hk => ?_, fun hs ho => ?_⟩
    · intro taken
      have hb := laneArrival_opens (s := u) ho
      have hdec : decide (u.supply.shutdown = .starting) = false := decide_eq_false hstarted
      rw [hdec] at hb
      have hexec := exec_blockDropped_some hp hb
      have hdrop : ({ kind := k, length := n, discard := false } : LaneBlock).dropped = !laneLengthOk k n := rfl
      rw [hdrop] at hexec
      have hbad : ¬taken → (!laneLengthOk k n) = true := fun ht => by
        rw [Bool.not_eq_true', ← Bool.not_eq_true, laneLengthOk_iff]
        exact ht
      refine ⟨fun ht => hexec.trans (congrArg _ (if_neg (by simp [(laneLengthOk_iff k n).mpr ht]))), fun ht hk => ?_,
        fun ht hk => ?_⟩
      · exact hexec.trans (congrArg _ ((if_pos (hbad ht)).trans (if_neg hk)))
      · have hdata := hexec.trans (congrArg _ ((if_pos (hbad ht)).trans (if_pos hk)))
        subst hk
        refine ⟨fun hr hs => ?_, fun hr hlow => ?_, fun hlow => ?_⟩
        · rw [hdata, dataBlock_taken (s := u) (.inl ⟨ho, hr⟩), State.pictureDataBad_other (by exact hs)]
          rfl
        · rw [hdata, dataBlock_opens_low (s := u) ho hr, State.laneHeader, laneHeaded_taken (s := u) n (.inl hlow), hdec]
        · have hr : inLaneReady s = false := by
            rw [← Bool.not_eq_true, inLaneReady_iff hp, hlow]
            simp
          rw [hdata, dataBlock_opens_low (s := u) ho hr, State.laneHeader, laneHeaded_dropped (s := u) n hlow rfl]
    · exact absurd (hl.symm.trans hb) (by simp)
    · refine (exec_framingFault hp).trans (congrArg _ ?_)
      by_cases hhead : h.head? = some 3#8
      · obtain ⟨l, rfl⟩ : ∃ l, h = 3#8 :: l := List.head?_eq_some_iff.mp hhead
        rw [State.laneFault_data hl, laneDataEnd_dropped (s := u) (.inr (hk.resolve_left fun hne => hne rfl))]
        rfl
      · exact State.laneFault_header hl hhead
    · rw [exec_pictureAbort hp, laneBlock_taken (s := u) (.inl ⟨ho, hstarted⟩) (by decide)]
      exact congrArg _ (if_pos hs)
  · refine (exec_dataTimeout hp).trans (congrArg _ (if_neg ?_))
    rintro ⟨ho, hr⟩
    obtain hno | hno := hno
    · exact hno ho
    · rcases ht : (s.arrive m).timers.data with _ | x
      · rw [ht] at hr
        cases hr
      · rw [ht] at hr
        exact absurd (of_decide_eq_true hr) (Nat.not_le.mpr (hno x ht))
  · intro u gone lost waits drops broken
    have harr : laneArrival b.kind b.length u = some b := (laneArrival_block hl).trans (if_pos ⟨rfl, rfl⟩)
    have hdrops := exec_blockDropped_some hp harr
    have hbroken := (exec_framingFault hp).trans (congrArg _ (State.laneFault_block hl))
    refine ⟨fun hw => ?_, fun hw hgot hk => ?_, fun hlost => ?_, fun hlost hk => ?_, fun hlost hw => ?_,
      fun hlost hw hk hs => ?_⟩
    · exact hbroken.trans (congrArg _ (if_pos (hw.imp_left (b.waits_iff (s := u)).mpr)))
    · have hgoes : ¬(b.waits u = true ∨ b.length ≤ b.got) := fun h =>
        h.elim (fun h => hw ((b.waits_iff (s := u)).mp h)) (Nat.not_le.mpr hgot)
      refine hbroken.trans (congrArg _ ((if_neg hgoes).trans ?_))
      by_cases hkind : b.kind = 3#8
      · exact (if_pos hkind).trans (laneDataEnd_dropped (s := u) (hk.resolve_left fun h => h hkind))
      · exact if_neg hkind
    · exact hdrops.trans (congrArg _ (if_neg fun h => hlost (b.dropped_iff.mp h)))
    · exact hdrops.trans (congrArg _ ((if_pos (b.dropped_iff.mpr hlost)).trans (if_neg hk)))
    · obtain ⟨hk, -⟩ := id hw
      refine hdrops.trans (congrArg _ ((if_pos (b.dropped_iff.mpr hlost)).trans ((if_pos hk).trans ?_)))
      rw [dataBlock_block hl, if_neg fun h => h.2.2 ((b.waits_iff (s := u)).mpr hw)]
    · refine hdrops.trans (congrArg _ ((if_pos (b.dropped_iff.mpr hlost)).trans ((if_pos hk).trans ?_)))
      rw [dataBlock_block hl, if_pos ⟨hk, rfl, fun h => hw ((b.waits_iff (s := u)).mp h)⟩]
      exact laneDataEnd_dropped (s := u) hs

end Sys2Proof.Machine
end

section
/-! PROOFS. The Store Engine's recovery, and what a program's result leaves (R40, R58 to R62, R69). -/

namespace Sys2Proof.Machine

variable {s : State} {n p i : Nat} {r : PicRecord} {rest : List Nat} {c : FailCause} {q : List Instr}

/-! ### A program that has passed -/

theorem StoreEngine.programmed_eq (e : StoreEngine) : e.programmed =
    if e.bufA.state = .programming then { e with bufA := { state := .empty, data := [] } }
    else if e.bufB.state = .programming then { e with bufB := { state := .empty, data := [] } }
    else e := rfl

/-- The PROGRAMMING buffer is emptied (R58, R69). -/
theorem StoreEngine.programmed_side {e : StoreEngine} {side other : BufId}
    (hside : side = .a ∧ other = .b ∨ side = .b ∧ other = .a) (h : (e.buf side).state = .programming)
    (ho : (e.buf other).state ≠ .programming) : e.programmed = e.setBuf side { state := .empty, data := [] } := by
  rw [StoreEngine.programmed_eq]
  obtain ⟨rfl, rfl⟩ | ⟨rfl, rfl⟩ := hside
  · exact if_pos h
  · exact (if_neg ho).trans (if_pos h)

/-- What of the engine a result leaves as it is. -/
theorem StoreEngine.programmed_frame (e : StoreEngine) : e.programmed.stream = e.stream ∧
    e.programmed.queue = e.queue ∧ e.programmed.recovery = e.recovery ∧ e.programmed.marks = e.marks ∧
    e.programmed.pageIndex = e.pageIndex ∧ e.programmed.heldStart = e.heldStart ∧
    e.programmed.fullOrder = e.fullOrder := by
  rw [StoreEngine.programmed_eq]
  split
  · exact ⟨rfl, rfl, rfl, rfl, rfl, rfl, rfl⟩
  · split
    · exact ⟨rfl, rfl, rfl, rfl, rfl, rfl, rfl⟩
    · exact ⟨rfl, rfl, rfl, rfl, rfl, rfl, rfl⟩

/-- A FULL buffer keeps its page when the other one is emptied. -/
theorem StoreEngine.programmed_full {e : StoreEngine} {side : BufId} (h : (e.buf side).state = .full) :
    e.programmed.buf side = e.buf side := by
  rw [StoreEngine.programmed_eq]
  cases side with
  | a =>
    have ha : e.bufA.state ≠ .programming := by
      rw [show e.bufA.state = .full from h]
      decide
    rw [if_neg ha]
    split <;> rfl
  | b =>
    have hb : e.bufB.state ≠ .programming := by
      rw [show e.bufB.state = .full from h]
      decide
    rw [if_neg hb]
    split <;> rfl

theorem StoreEngine.setBuf_other {side other : BufId} (hside : side = .a ∧ other = .b ∨ side = .b ∧ other = .a)
    (x : PageBuffer) (e : StoreEngine) : (e.setBuf side x).buf other = e.buf other := by
  obtain ⟨rfl, rfl⟩ | ⟨rfl, rfl⟩ := hside <;> rfl

/-- A program that passes: its page is counted, a recovery's grown marks are owed (R58, R62). -/
theorem State.storeProgramDone_pass (hr : s.store.recovery.elim [] (·.failed) = l) :
    s.storeProgramDone false true = ({ s with store := { s.store.programmed with
      pageIndex := s.store.pageIndex + 1, recovery := none, marks := s.store.marks ++ l } }).storeGoOn := by
  subst hr
  unfold State.storeProgramDone
  rcases hv : s.store.recovery with _ | v
  · simp [State.onStore, hv]
  · simp [State.onStore, hv]

theorem StoreEngine.programmingData_a {e : StoreEngine} (h : e.bufA.state = .programming) :
    e.programmingData = e.bufA.data := if_pos h

theorem StoreEngine.programmingData_b {e : StoreEngine} (h : e.bufA.state ≠ .programming) :
    e.programmingData = e.bufB.data := if_neg h

/-! ### The next step of a recovery -/

theorem State.storeRecoverNext_copies {v : Recovery} (hv : v.copied < v.good) (hb : boundRecord s = some (p, r))
    (hk : s.store.pageIndex = i) : s.storeRecoverNext v = { s with
      store := { s.store with recovery := some v }
      flash := { s.flash with
        store := some (.copyBack v.source v.copied (r.extent.getD (i / 64) 0) v.copied) } } := by
  subst hk
  unfold State.storeRecoverNext
  dsimp only
  rw [if_pos hv, show boundRecord (s.onStore fun e => { e with recovery := some v }) = boundRecord s from rfl, hb]
  rfl

theorem State.storeRecoverNext_programs {v : Recovery} (hv : v.good ≤ v.copied) (hb : boundRecord s = some (p, r))
    (hk : s.store.pageIndex = i) : s.storeRecoverNext v = { s with
      store := { s.store with recovery := some v }
      flash := { s.flash with
        store := some (.program (r.extent.getD (i / 64) 0) (i % 64) s.store.programmingData) } } := by
  subst hk
  unfold State.storeRecoverNext
  dsimp only
  rw [if_neg (Nat.not_lt.mpr hv)]
  exact State.storeAskProgram_bound (s := s.onStore fun e => { e with recovery := some v }) hb _

/-! ### A replacement -/

/-- The Block Map after a block has become BAD (R45). -/
def BlockMap.badAt (b : Nat) (m : BlockMap) : BlockMap :=
  { m with
    blocks := Table.put b .bad m.blocks
    badList := if m.badList.length < 256 then Table.put b .grown m.badList else m.badList
    mode := if 256 ≤ m.badList.length ∧ m.mode = .writable then .readOnly else m.mode }

/-- A block that becomes BAD, and STORE_READ_ONLY where the list is full (R45). -/
theorem State.makeBad_spec {b : Nat} (hb : b < s.map.total) :
    (s.makeBad b .grown).map = s.map.badAt b ∧ (s.makeBad b .grown).cat = s.cat ∧
    (s.makeBad b .grown).store = s.store ∧ (s.makeBad b .grown).flash = s.flash ∧
    (s.makeBad b .grown).shot = s.shot ∧
    (256 ≤ s.map.badList.length ∧ s.map.mode = .writable →
      (s.makeBad b .grown).events = (s.setFlag .storeReadOnly).events) ∧
    (¬(256 ≤ s.map.badList.length ∧ s.map.mode = .writable) → (s.makeBad b .grown).events = s.events) := by
  by_cases hl : s.map.badList.length < 256
  · have hfull : ¬(256 ≤ s.map.badList.length ∧ s.map.mode = .writable) := fun h => absurd h.1 (Nat.not_le.mpr hl)
    rw [State.makeBad_listed hb hl, BlockMap.badAt, if_pos hl, if_neg hfull]
    exact ⟨rfl, rfl, rfl, rfl, rfl, fun h => absurd h hfull, fun _ => rfl⟩
  · have hl' : 256 ≤ s.map.badList.length := Nat.not_lt.mp hl
    rw [State.makeBad_full hb hl', BlockMap.badAt, if_neg hl]
    by_cases hm : s.map.mode = .writable
    · rw [if_pos hm, if_pos ⟨hl', hm⟩]
      exact ⟨rfl, rfl, rfl, rfl, rfl, fun _ => rfl, fun h => absurd ⟨hl', hm⟩ h⟩
    · have hfull : ¬(256 ≤ s.map.badList.length ∧ s.map.mode = .writable) := fun h => hm h.2
      rw [if_neg hm, if_neg hfull]
      exact ⟨rfl, rfl, rfl, rfl, rfl, fun h => absurd h hfull, fun _ => rfl⟩

/-- The record of a replacement with the block found (R40). -/
def PicRecord.replaced (i b : Nat) (r : PicRecord) : PicRecord :=
  { r with extent := r.extent.set i b, remaining := r.remaining - 1 }

theorem State.replaceBlock_found {b k : Nat} {y : BlockMap} (hr : (s.makeBad b .grown).record p = some r)
    (ha : (s.makeBad b .grown).map.allocate r.remaining = some (k, y)) : s.replaceBlock p i b false =
      (({ s.makeBad b .grown with map := y }).claimChanged p r (r.replaced i k), some k) := by
  have halloc : (s.makeBad b .grown).allocateFor p (fun b r => r.onList false (replaceAt · i b)) =
      (({ s.makeBad b .grown with map := y }).claimChanged p r (r.replaced i k), some k) := by
    rw [State.allocateFor, hr]
    dsimp only
    rw [ha]
    rfl
  unfold State.replaceBlock
  dsimp only
  rw [halloc]

/-- Without an ERASED block the position closes up (R40). -/
theorem State.replaceBlock_none {b : Nat} (hr : (s.makeBad b .grown).record p = some r)
    (ha : (s.makeBad b .grown).map.allocate r.remaining = none) : s.replaceBlock p i b false =
      ((s.makeBad b .grown).claimChanged p r { r with extent := r.extent.eraseIdx i }, none) := by
  have halloc : (s.makeBad b .grown).allocateFor p (fun b r => r.onList false (replaceAt · i b)) =
      (s.makeBad b .grown, none) := by
    rw [State.allocateFor, hr]
    dsimp only
    rw [ha]
  unfold State.replaceBlock
  dsimp only
  rw [halloc]
  dsimp only
  rw [hr]
  rfl

/-- The recovery after a further FAIL (R60). -/
def Recovery.again (b good : Nat) (v : Option Recovery) : Recovery :=
  { v.getD { source := b, good := good, copied := 0, failed := [] } with
    copied := 0, failed := (v.getD { source := b, good := good, copied := 0, failed := [] }).failed ++ [b] }

/-- A FAIL whose position gets another block: the copy-backs start again, or the program with none to copy (R60). -/
theorem State.storeReplace_found (hc : Canonical s) (hq : s.store.queue = n :: rest)
    (hf : findNumber n s.cat.places = some (p, r)) (hk : s.store.pageIndex = i) {b k : Nat} {y : BlockMap}
    (hb : b = r.extent.getD (i / 64) 0) (hi : i / 64 < r.extent.length) (ht : b < s.map.total)
    (ha : (s.map.badAt b).allocate r.remaining = some (k, y)) :
    let v := Recovery.again b (i % 64) s.store.recovery
    s.storeReplace.map = y ∧ s.storeReplace.events = (s.makeBad b .grown).events ∧
    s.storeReplace.record p = some (r.replaced (i / 64) k) ∧
    s.storeReplace.store = { s.store with recovery := some v } ∧
    (0 < v.good → s.storeReplace.flash.store = some (.copyBack v.source 0 k 0)) ∧
    (v.good = 0 → s.storeReplace.flash.store = some (.program k (i % 64) s.store.programmingData)) := by
  intro v
  obtain ⟨hmap, hcat, hstore, hflash, -, -, -⟩ := State.makeBad_spec ht
  have hrec : (s.makeBad b .grown).record p = some r := by
    rw [State.record, hcat]
    exact hc.record_of_number hf
  have hrepl := State.replaceBlock_found (i := i / 64) hrec (hmap ▸ ha)
  generalize ht' : ({ s.makeBad b .grown with map := y }).claimChanged p r (r.replaced (i / 64) k) = t at hrepl
  obtain ⟨-, -, -, -, hev, -, -, -, htm, -, -, -, hts, -⟩ :=
    State.claimChanged_frame (s := { s.makeBad b .grown with map := y }) p r (r.replaced (i / 64) k)
  have htc := State.claimChanged_cat (s := { s.makeBad b .grown with map := y }) p r (r.replaced (i / 64) k)
  rw [ht'] at hev htm hts htc
  have htcat : t.cat.places = Table.put p (r.replaced (i / 64) k) s.cat.places := by
    rw [htc, ← hcat]
  have hts' : t.store = s.store := hts.trans hstore
  have hbound : boundRecord t = some (p, r.replaced (i / 64) k) := by
    refine boundRecord_some (by rw [hts', hq]) ?_
    rw [htcat]
    exact findNumber_put_same hc.1.1 hf rfl
  have hrun : s.storeReplace = t.storeRecoverNext v := by
    unfold State.storeReplace
    rw [boundRecord_some hq hf]
    dsimp only
    rw [hk, show nth r.extent (positionOf i) = b from hb.symm, show positionOf i = i / 64 from rfl, hrepl]
    rfl
  have hnew : (r.replaced (i / 64) k).extent.getD (i / 64) 0 = k := by
    simp [PicRecord.replaced, hi]
  have hkt : t.store.pageIndex = i := by rw [hts', hk]
  rw [hrun]
  by_cases hgood : 0 < v.good
  · rw [State.storeRecoverNext_copies hgood hbound hkt, hnew]
    refine ⟨htm, hev, ?_, by rw [hts'], fun _ => rfl, fun h => absurd h (Nat.ne_of_gt hgood)⟩
    change Table.get p t.cat.places = _
    rw [htcat, Table.get_put_same]
  · rw [State.storeRecoverNext_programs (Nat.not_lt.mp hgood) hbound hkt, hnew]
    refine ⟨htm, hev, ?_, by rw [hts'], fun h => absurd h hgood, fun _ => by rw [hts']⟩
    change Table.get p t.cat.places = _
    rw [htcat, Table.get_put_same]

/-- A FAIL for which no block is found: the record fails with NO_SPACE (R60, R62). -/
theorem State.storeReplace_none (hk' : Kept q s) (hq : s.store.queue = n :: rest)
    (hf : findNumber n s.cat.places = some (p, r)) (hk : s.store.pageIndex = i) {b : Nat}
    (hb : b = r.extent.getD (i / 64) 0) (ht : b < s.map.total) (hopen : s.store.stream ≠ .closed)
    (ha : (s.map.badAt b).allocate r.remaining = none) : ∃ w : State,
    s.storeReplace = (w.boundFailed p { r with extent := r.extent.eraseIdx (i / 64) } .noSpace rest).storeGoOn ∧
    Canonical w ∧ w.cat.places = Table.put p { r with extent := r.extent.eraseIdx (i / 64) } s.cat.places ∧
    w.map = s.map.badAt b ∧ w.events = (s.makeBad b .grown).events ∧ w.flash = s.flash ∧ w.shot = s.shot ∧
    w.store = { s.store with recovery := some (Recovery.again b (i % 64) s.store.recovery) } := by
  subst hk
  have hc : Canonical s := hk'.2
  obtain ⟨hmap, hcat, hstore, hflash, hshot, -, -⟩ := State.makeBad_spec ht
  have hrec : (s.makeBad b .grown).record p = some r := by
    rw [State.record, hcat]
    exact hc.record_of_number hf
  have hrepl := State.replaceBlock_none (i := s.store.pageIndex / 64) hrec (hmap ▸ ha)
  generalize ht' : (s.makeBad b .grown).claimChanged p r
    { r with extent := r.extent.eraseIdx (s.store.pageIndex / 64) } = t at hrepl
  have htk : Kept q t := by
    rw [← ht']
    exact State.claimChanged_kept (State.makeBad_kept hk' b .grown) (hk'.number_lt hf) _ _
  obtain ⟨-, -, -, -, hev, -, -, -, htm, htf, -, -, hts, -, -, -, -, -, hsh⟩ :=
    State.claimChanged_frame (s := s.makeBad b .grown) p r
      { r with extent := r.extent.eraseIdx (s.store.pageIndex / 64) }
  have htc := State.claimChanged_cat (s := s.makeBad b .grown) p r
    { r with extent := r.extent.eraseIdx (s.store.pageIndex / 64) }
  rw [ht'] at hev htm htf hts hsh htc
  have htcat : t.cat.places =
      Table.put p { r with extent := r.extent.eraseIdx (s.store.pageIndex / 64) } s.cat.places := by
    rw [htc, ← hcat]
  have hts' : t.store = s.store := hts.trans hstore
  let e : StoreEngine :=
    { s.store with recovery := some (Recovery.again b (s.store.pageIndex % 64) s.store.recovery) }
  refine ⟨{ t with store := e }, ?_, htk.2, htcat, htm.trans hmap, hev, htf.trans hflash, hsh.trans hshot, rfl⟩
  have hfail := State.storeFailBound_eq
    (s := { t with store := e }) htk.2 hopen hq
    (by
      change findNumber n t.cat.places = _
      rw [htcat]
      exact findNumber_put_same hc.1.1 hf rfl) .noSpace
  rw [← hfail]
  unfold State.storeReplace
  rw [boundRecord_some hq hf]
  dsimp only
  rw [show nth r.extent (positionOf s.store.pageIndex) = b from hb.symm,
    show positionOf s.store.pageIndex = s.store.pageIndex / 64 from rfl, hrepl]
  dsimp only
  rw [State.onStore, hts']
  rfl

end Sys2Proof.Machine
end

section
/-! PROOFS. Store Engine programs pass or recover (R58 to R62, R69). -/

namespace Sys2Proof.Machine

variable {s : State} {n p i : Nat} {r : PicRecord} {rest : List Nat} {c : FailCause} {q : Instr}

/-! ### The record ends FAILED -/

/-- A command fails the bound record, and a held start is acted on (R63, R68). -/
def StoreEnds (s : State) (q : Instr) (p : Nat) (c : FailCause) (more : State → Prop) : Prop :=
  (s.store.heldStart = false ∨ s.store.queue.tail = [] → ∃ t y, exec q s = .next t ∧ t.record p = some y ∧
    y.state = .failed ∧ y.cause = some c ∧ y.extent = [] ∧ t.store.stream = .closed ∧ t.store.heldStart = false ∧
    t.events.has .storeFailed = true ∧ more t) ∧
  (∀ n' p' r' rest', s.store.heldStart = true → s.store.queue.tail = n' :: rest' → s.store.queue.head? ≠ some n' →
    findNumber n' s.cat.places = some (p', r') → ∃ t y, exec q s = .next t ∧ t.record p = some y ∧
      y.state = .failed ∧ y.cause = some c ∧ y.extent = [] ∧ t.store.stream = .opened ∧ t.store.heldStart = false ∧
      t.record p' = some { r' with state := .storing } ∧ t.store.queue = n' :: rest' ∧ t.store.received = 0 ∧
      t.store.check = 0xFFFFFFFF#32 ∧ t.store.pageIndex = 0 ∧ t.store.loss = false ∧ t.timers.data = some 0 ∧
      t.events.has .storeFailed = true ∧ more t)

/-- The failure seen from the part `w` in which it happens. -/
theorem storeEnds_of {w : State} {marks : List Nat} {op : Option FlashOp} {more : State → Prop}
    (he : exec q s = .next ((w.boundFailed p r c rest).kicked marks op).storeHeldStart.shotQueueShrunk)
    (hop : ∀ o, op = some o → ∃ b, o = .grownMark b) (hc : Canonical w)
    (hf : findNumber n w.cat.places = some (p, r)) (hs : w.shot.state ≠ .queueWait)
    (hheld : w.store.heldStart = s.store.heldStart) (hq : s.store.queue = n :: rest)
    (hnext : ∀ n' e, n' ≠ n → findNumber n' s.cat.places = some e → findNumber n' w.cat.places = some e)
    (hmore : ∀ t, w.Gone p r c rest t → t.store.marks = marks → t.flash.store = op → more t) :
    StoreEnds s q p c more := by
  have hflag : ∀ t, w.Gone p r c rest t → t.events.has .storeFailed = true := by
    rintro t ⟨-, -, -, -, -, hev, -⟩
    rw [hev]
    exact has_setFlag_same _ _
  refine ⟨fun hh => ?_, fun n' p' r' rest' hh hq' hne hf' => ?_⟩
  · rw [hq, List.tail_cons, ← hheld] at hh
    obtain ⟨⟨hg, -, -, hst, -, hhs⟩, hm, ho⟩ := State.kicked_ends (s := w) (p := p) (r := r) (c := c) (rest := rest)
      (marks := marks) hop hs hh
    exact ⟨_, _, he, hg.1, rfl, rfl, rfl, hst, hhs, hflag _ hg, hmore _ hg hm ho⟩
  · rw [hq, List.tail_cons] at hq'
    have hn : n' ≠ n := fun e => hne (by rw [hq, e]; rfl)
    obtain ⟨⟨hg, hrec, -, -, hst, hre, hck, hpi, hlo, hhs, htm⟩, hm, ho⟩ := State.kicked_binds (s := w) (p := p) (r := r)
      (c := c) (marks := marks) hop hc hf hs (hheld.trans hh) hq' hn (hnext n' _ hn hf')
    obtain ⟨hrecord, -, hqueue, -⟩ := id hg
    exact ⟨_, _, he, hrecord, rfl, rfl, rfl, hst, hhs, hrec, hqueue.trans hq', hre, hck, hpi, hlo, htm, hflag _ hg,
      hmore _ hg hm ho⟩

/-- OVERSIZE or NO_SPACE at the page that waits (R58, R59). -/
theorem storeEnds_page {w : State} (he : exec q s = .next w.storeGoOn) (hc : Canonical w)
    (hfree : w.flash.free .store = true) (hr : w.store.recovery = none) (hm : w.store.marks = []) {side : BufId}
    {o : List BufId} (ho : w.store.fullOrder = side :: o) (hopen : w.store.stream ≠ .closed)
    (hq : w.store.queue = n :: rest) (hf : findNumber n w.cat.places = some (p, r)) (hk : w.store.pageIndex = i)
    (hi : i % 64 = 0) (hno : 48 ≤ i / 64 ∨ w.map.allocate r.remaining = none) (hs : w.shot.state ≠ .queueWait)
    (hheld : w.store.heldStart = s.store.heldStart) (hqueue : s.store.queue = w.store.queue)
    (hplaces : w.cat.places = s.cat.places) :
    StoreEnds s q p (if 48 ≤ i / 64 then .oversize else .noSpace) fun _ => True := by
  rw [State.storeGoOn_fails hc hfree hr hm ho hopen hq hf hk hi hno] at he
  exact storeEnds_of (marks := (w.boundFailed p r (if 48 ≤ i / 64 then .oversize else .noSpace) rest).store.marks)
    (op := w.flash.storeDropped.store) he (fun _ h => FlashPort.storeDropped_mark h) hc hf hs hheld (hqueue.trans hq)
    (fun _ _ _ h => hplaces ▸ h) fun _ _ _ _ => trivial

/-! ### Results at the Store Engine -/

/-- The part with its flash port replaced. -/
def State.flashAt (f : FlashPort) (s : State) : State := { s with flash := f }

section
variable {x : InFlightOp} {m : Moment} (hp : s.supply.powered = true) (hx : s.flash.inFlight = some x)
  (hcl : x.claimant = .store) (hdue : s.flash.protectDue = false)
include hp hx hcl hdue

theorem exec_storeProgram (hk : x.op.isProgram = true) (pass : Bool) : exec (.pageProgramDone m pass) s = .next
    (((s.arrive m).flashAt { s.flash with inFlight := none }).storeProgramDone x.discard pass) := by
  rw [exec_pageProgramDone hp hx m hk, hcl, State.landed_free (by exact hdue)] <;> rfl

theorem exec_storeCopy (hk : x.op.isCopy = true) (f : CopyRead) (pass : Bool) : exec (.copyBackDone m f pass) s = .next
    (((s.arrive m).flashAt { s.flash with
      inFlight := none, register := some (f.data, pageCodes f.data) }).storeCopyDone x.discard f.counts pass) := by
  rw [exec_copyBackDone hp hx m hk, hcl, State.landed_free (by exact hdue)] <;> rfl

theorem exec_storeMark (hk : x.op.isMark = true) (pass : Bool) : exec (.grownMarkProgramDone m pass) s = .next
    (((s.arrive m).flashAt { s.flash with inFlight := none }).storeGoOn) := by
  rw [exec_grownMarkProgramDone hp hx m hk, hcl, State.landed_free (by exact hdue)] <;> rfl

end

theorem State.storeCopyDone_pass {v : Recovery} (hv : s.store.recovery = some v) (counts : List SectorCount) :
    s.storeCopyDone false counts true = ({ s with
      store := { s.store with loss := s.store.loss || counts.any (· == .uncorrectable) } } : State).storeRecoverNext
        { v with copied := v.copied + 1 } := by
  unfold State.storeCopyDone
  rw [show anyUncorrectable counts = counts.any (· == .uncorrectable) from rfl]
  by_cases ha : counts.any (· == .uncorrectable) = true
  · simp [ha, hv, State.onStore]
  · rw [Bool.not_eq_true] at ha
    have hsame : ({ s with store := { s.store with loss := s.store.loss || false } } : State) = s := by
      rw [Bool.or_false]
    rw [ha, hsame]
    simp [hv]

theorem State.storeCopyDone_fail (hv : s.store.recovery ≠ none) {counts : List SectorCount}
    (hk : ∀ k ∈ counts, k ≠ SectorCount.uncorrectable) : s.storeCopyDone false counts false = s.storeReplace := by
  have ha : anyUncorrectable counts = false := List.any_eq_false.mpr fun k hm => by simpa using hk k hm
  obtain ⟨v, hv⟩ := Option.ne_none_iff_exists'.mp hv
  unfold State.storeCopyDone
  simp [ha, hv]

theorem State.storeCopyDone_discarded (counts : List SectorCount) (pass : Bool) :
    s.storeCopyDone true counts pass = ({ s with store := s.store.programmed }).storeGoOn := if_pos rfl

theorem State.storeProgramDone_discarded (pass : Bool) :
    s.storeProgramDone true pass = ({ s with store := s.store.programmed }).storeGoOn := if_pos rfl

/-- The page that waits goes on, its block allocated at the start of a position (R58, R59). -/
structure PageWaits (w : State) (side : BufId) (n p i : Nat) (r : PicRecord) (rest : List Nat) : Prop where
  canonical : Canonical w
  free : w.flash.free .store = true
  recovery : w.store.recovery = none
  marks : w.store.marks = []
  waits : ∃ o, w.store.fullOrder = side :: o
  queue : w.store.queue = n :: rest
  number : findNumber n w.cat.places = some (p, r)
  index : w.store.pageIndex = i
  held : w.store.heldStart = false ∨ w.store.stream ≠ .closed
  shot : w.shot.state ≠ .queueWait

theorem PageWaits.inside {w : State} {side : BufId} (h : PageWaits w side n p i r rest) (hi : i % 64 ≠ 0) :
    w.storeGoOn = { w with flash := { w.flash with
      store := some (.program (r.extent.getD (i / 64) 0) (i % 64) (w.store.buf side).data) } } := by
  obtain ⟨o, ho⟩ := h.waits
  exact State.storeGoOn_inside h.free h.recovery h.marks ho (boundRecord_some h.queue h.number) h.index hi h.held
    fun hs => h.shot hs.1

theorem PageWaits.begins {w : State} {side : BufId} (h : PageWaits w side n p i r rest) (hi : i % 64 = 0)
    (hlt : i / 64 < 48) {b : Nat} {y : BlockMap} (ha : w.map.allocate r.remaining = some (b, y)) :
    w.storeGoOn = { w with
      map := y, cat := { w.cat with places := Table.put p (r.allocated b) w.cat.places }
      writer := w.writer.mark (.place p)
      flash := { w.flash with
        store := some (.program ((r.extent ++ [b]).getD (i / 64) 0) 0 (w.store.buf side).data) } } := by
  obtain ⟨o, ho⟩ := h.waits
  exact State.storeGoOn_begins h.canonical h.free h.recovery h.marks ho h.queue h.number h.index hi hlt ha h.held
    fun hs => h.shot hs.1

theorem PageWaits.ends {w : State} {side : BufId} (h : PageWaits w side n p i r rest)
    (he : exec q s = .next w.storeGoOn) (hopen : w.store.stream ≠ .closed) (hi : i % 64 = 0)
    (hno : 48 ≤ i / 64 ∨ w.map.allocate r.remaining = none) (hheld : w.store.heldStart = s.store.heldStart)
    (hqueue : s.store.queue = w.store.queue) (hplaces : w.cat.places = s.cat.places) :
    StoreEnds s q p (if 48 ≤ i / 64 then .oversize else .noSpace) fun _ => True := by
  obtain ⟨o, ho⟩ := h.waits
  exact storeEnds_page he h.canonical h.free h.recovery h.marks ho hopen h.queue h.number h.index hi hno h.shot hheld
    hqueue hplaces

end Sys2Proof.Machine
end

section
/-! PROOFS. The results of the Store Engine's operations (R58 to R62, R69). -/

namespace Sys2Proof.Machine

variable {s : State} {n p i : Nat} {r : PicRecord} {rest : List Nat} {q : Instr} {m : Moment}

theorem storeCalm {w : State} (hs : w.shot.state ≠ .queueWait)
    (hh : w.store.heldStart = false ∨ w.store.stream ≠ .closed) (hk : w.storeKick = w) : w.storeGoOn = w :=
  State.storeGoOn_idle (fun h => hs h.1) hh hk

/-- A grown mark that is owed is asked for (R62). -/
theorem State.storeGoOn_mark {w : State} (hs : w.shot.state ≠ .queueWait)
    (hh : w.store.heldStart = false ∨ w.store.stream ≠ .closed) (hf : w.flash.free .store = true)
    (hr : w.store.recovery = none) {b : Nat} {marks : List Nat} (hm : w.store.marks = b :: marks) :
    w.storeGoOn = { w with
      store := { w.store with marks := marks }, flash := { w.flash with store := some (.grownMark b) } } := by
  rw [State.storeGoOn, State.storeKick_mark hf hr hm, State.storeHeldStart_idle (by exact hh)]
  exact State.shotQueueShrunk_idle fun h => hs h.1

theorem FlashPort.free_landed {f : FlashPort} (h : f.store = none) (reg : Option (List Byte × List (List Byte))) :
    ({ f with inFlight := none, register := reg } : FlashPort).free .store = true :=
  FlashPort.free_of h nofun

/-- A FAIL of a program or a copy-back starts the replacement (R60, R61). -/
theorem exec_storeFailed {x : InFlightOp} (hp : s.supply.powered = true) (hx : s.flash.inFlight = some x)
    (hcl : x.claimant = .store) (hd : x.discard = false) (hdue : s.flash.protectDue = false) {f : CopyRead}
    (h : ((∃ a g d, x.op = .program a g d) ∧ q = .pageProgramDone m false) ∨
      ((∃ a g c h, x.op = .copyBack a g c h) ∧ q = .copyBackDone m f false ∧ s.store.recovery ≠ none ∧
        ∀ k ∈ f.counts, k ≠ SectorCount.uncorrectable)) :
    ∃ reg, exec q s = .next
      (((s.arrive m).flashAt { s.flash with inFlight := none, register := reg }).storeReplace) := by
  obtain ⟨⟨a, g, d, ho⟩, rfl⟩ | ⟨⟨a, g, c, h, ho⟩, rfl, hrec, hk⟩ := h
  · refine ⟨s.flash.register, (exec_storeProgram hp hx hcl hdue (by rw [ho]; rfl) false).trans ?_⟩
    rw [hd]
    rfl
  · refine ⟨some (f.data, pageCodes f.data), (exec_storeCopy hp hx hcl hdue (by rw [ho]; rfl) f false).trans ?_⟩
    rw [hd, State.storeCopyDone_fail (by exact hrec) hk]

/-- A block that is not IN_USE is not returned (R43). -/
theorem BlockMap.returnAll_kept {y : BlockMap} (h : mapOk y) (w : ReturnWait) (bs : List Nat) {j : Nat}
    (hj : y.stateOf j ≠ .inUse) : (y.returnAll w bs).stateOf j = y.stateOf j := by
  induction bs generalizing y with
  | nil => rfl
  | cons b bs ih =>
    have hone : (y.returnOne w b).stateOf j = y.stateOf j := by
      rw [BlockMap.returnOne_state h, if_neg]
      rintro ⟨rfl, hi⟩
      exact hj hi
    exact (ih (y := y.returnOne w b) (BlockMap.returnAll_ok h w [b]) (hone ▸ hj)).trans hone

/-- A discarded result empties its buffer, and what waits goes on (R69). -/
theorem exec_storeDiscarded {x : InFlightOp} (hp : s.supply.powered = true) (hx : s.flash.inFlight = some x)
    (hcl : x.claimant = .store) (hd : x.discard = true) (hdue : s.flash.protectDue = false)
    {reg : Option (List Byte × List (List Byte))}
    (h : (∃ b g d pass, x.op = .program b g d ∧ q = .pageProgramDone m pass ∧ reg = s.flash.register) ∨
      (∃ (b g c h : Nat) (src : CopyRead) (pass : Bool), x.op = .copyBack b g c h ∧ q = .copyBackDone m src pass ∧
        reg = some (src.data, pageCodes src.data))) :
    exec q s = .next ((((s.arrive m).flashAt { s.flash with
      inFlight := none, register := reg }).onStore (·.programmed)).storeGoOn) := by
  obtain ⟨b, g, d, pass, ho, rfl, rfl⟩ | ⟨b, g, c, h, src, pass, ho, rfl, rfl⟩ := h
  · refine (exec_storeProgram hp hx hcl hdue (by rw [ho]; rfl) pass).trans ?_
    rw [hd]
    rfl
  · refine (exec_storeCopy hp hx hcl hdue (by rw [ho]; rfl) src pass).trans ?_
    rw [hd]
    rfl

/-- Settles O40: each result by what the engine then asks for; the replacement by whether a block is found. -/
theorem storeProgramsPassOrRecover : Obligations.StoreProgramsPassOrRecover := by
  unfold Obligations.StoreProgramsPassOrRecover
  intro ends
  refine ⟨fun m s x n p r rest hp hx hcl hd hdue hst hopen hshot hq hf hc hm => ?_,
    fun m s x b ok hp hx hcl ho hdue hst hrec hshot hheld => ?_,
    fun m s x q reg hp hx hcl hd hdue hshot hheld hq => ?_⟩
  · intro u i registered
    refine ⟨fun b g d side other ho hside hprog hother => ?_, fun q f b hq' hb hi ht => ?_,
      fun a g v c f ho hv hcop => ?_, fun b ok ho hcalm => ?_⟩
    · intro e page
      have hpass : ∀ l, s.store.recovery.elim [] (·.failed) = l → exec (.pageProgramDone m true) s =
          .next (({ u with store := { e with marks := l }, flash := { s.flash with inFlight := none } } :
            State).storeGoOn) := by
        intro l hl
        refine (exec_storeProgram hp hx hcl hdue (by rw [ho]; rfl) true).trans ?_
        rw [hd, State.storeProgramDone_pass (s := u.flashAt { s.flash with inFlight := none }) (l := l) hl,
          show (u.flashAt { s.flash with inFlight := none }).store = s.store from rfl, hm,
          StoreEngine.programmed_side hside hprog hother]
        rfl
      obtain ⟨gs, gq, gr, gm, gi, gh, go⟩ :=
        StoreEngine.setBuf_frame side { state := .empty, data := [] } s.store
      have hmarks : e.marks = [] := gm.trans hm
      have hself : ({ e with marks := [] } : StoreEngine) = e := by rw [← hmarks]
      have hstream : e.stream ≠ .closed := gs ▸ hopen
      have hpage : (e.buf other).data = page :=
        congrArg PageBuffer.data (StoreEngine.setBuf_other hside { state := .empty, data := [] } s.store)
      let w : State := { u with store := e, flash := { s.flash with inFlight := none } }
      have hfree : w.flash.free .store = true := FlashPort.free_landed hst _
      have hrun : s.store.recovery = none → exec (.pageProgramDone m true) s = .next w.storeGoOn := fun hr => by
        rw [hpass [] (by rw [hr]; rfl), hself]
      have hwaits : ∀ o, s.store.fullOrder = other :: o → PageWaits w other n p (i + 1) r rest := fun o hfull =>
        ⟨hc, hfree, rfl, hmarks, ⟨o, go.trans hfull⟩, gq.trans hq, hf, rfl, .inr hstream, hshot⟩
      refine ⟨fun hr hfull => ?_, fun v k tl hv hl => ?_, fun o hr hfull hne => ?_, fun o c y hr hfull hz hlt ha => ?_,
        fun o hr hfull hz => ⟨fun hover => ?_, fun hlt ha => ?_⟩⟩
      · rw [hrun hr, storeCalm (w := w) hshot (.inr hstream) (State.storeKick_none (s := w) hmarks (go.trans hfull))]
      · rw [hpass (k :: tl) (by rw [hv]; exact hl)]
        exact congrArg _ (State.storeGoOn_mark (w := { w with store := { e with marks := k :: tl } }) hshot
          (.inr hstream) hfree rfl rfl)
      · rw [hrun hr, (hwaits o hfull).inside hne, ← hpage]
      · refine ⟨_, (hrun hr).trans (congrArg _ ((hwaits o hfull).begins hz hlt ha)), rfl, Table.get_put_same _ _ _, rfl,
          rfl, ?_⟩
        rw [← hpage]
      · have := (hwaits o hfull).ends (hrun hr) hstream hz (.inl hover) gh gq.symm rfl
        rwa [if_pos hover] at this
      · have := (hwaits o hfull).ends (hrun hr) hstream hz (.inr ha) gh gq.symm rfl
        rwa [if_neg (Nat.not_le.mpr hlt)] at this
    · intro v full bad
      obtain ⟨reg, hrun⟩ := exec_storeFailed hp hx hcl hd hdue hq'
      let w : State := { u with flash := { s.flash with inFlight := none, register := reg } }
      have hfree : w.flash.free .store = true := FlashPort.free_landed hst _
      obtain ⟨-, -, -, -, -, hro, hno⟩ := State.makeBad_spec (s := w) ht
      refine ⟨fun c y ha => ?_, fun ha => ?_⟩
      · obtain ⟨hmap, hev, hrec, hstore, hcopy, hprog⟩ := State.storeReplace_found (s := w) (i := i) hc hq hf rfl hb hi ht
          ha
        refine ⟨_, hrun, hmap, fun h => hev.trans (hro h), fun h => hev.trans (hno h), hrec, hstore, fun hg => ?_,
          fun hg hA => ?_, fun hg hA => ?_⟩
        · exact hcopy hg
        · exact (hprog hg).trans (by rw [StoreEngine.programmingData_a (e := w.store) hA]; rfl)
        · exact (hprog hg).trans (by rw [StoreEngine.programmingData_b (e := w.store) hA]; rfl)
      · obtain ⟨z, hz, hzc, hzp, hzm, hze, hzf, hzs, hzst⟩ := State.storeReplace_none (s := w) (i := i)
          (q := s.pending) ⟨rfl, hc⟩ hq hf rfl hb ht hopen ha
        have hfind := findNumber_put_same (x := { r with extent := r.extent.eraseIdx (i / 64) }) hc.1.1 hf rfl
        obtain ⟨marks, op, hk, hop⟩ := State.boundFailed_kick (s := z)
          (p := p) (r := { r with extent := r.extent.eraseIdx (i / 64) }) (c := .noSpace) (rest := rest)
        have hend := hrun.trans (congrArg Host.Outcome.next hz)
        rw [State.storeGoOn, hk] at hend
        refine storeEnds_of hend hop hzc (hzp ▸ hfind) (hzs ▸ hshot) (by rw [hzst]; rfl) hq (fun n' e hne hf' => ?_)
          fun t hg htm hto => ?_
        · obtain ⟨p', r'⟩ := e
          rw [hzp]
          exact findNumber_put_other (x := { r with extent := r.extent.eraseIdx (i / 64) }) hc.1.1 (findNumber_mem hf).1
            rfl hf' (findNumber_place_ne hc.1.1 hf hf' hne)
        · obtain ⟨-, hmap, -, -, hrv, hev, -⟩ := hg
          have hbad : z.map.stateOf b = .bad := by
            rw [hzm, BlockMap.stateOf, BlockMap.badAt, Table.get_put_same]
            rfl
          have hframe := BlockMap.returnAll_frame (.begins p) (r.extent.eraseIdx (i / 64)) (z.map.release r.remaining)
          refine ⟨hrv, ?_, fun hfull hwr => ⟨?_, ?_⟩, fun k tl hk' => ?_⟩
          · rw [hmap]
            have hne : z.map.stateOf b ≠ .inUse := by
              rw [hbad]
              decide
            exact (BlockMap.returnAll_kept (y := z.map.release r.remaining) hzc.2.2.2.1 (.begins p) _ hne).trans hbad
          · rw [hmap]
            refine (congrArg BlockMap.mode hframe).trans ((congrArg BlockMap.mode hzm).trans ?_)
            exact if_pos ⟨hfull, hwr⟩
          · rw [hev, has_setFlag, show z.events.has .storeReadOnly = true from ?_, Bool.or_true]
            rw [hze, hro ⟨hfull, hwr⟩]
            exact has_setFlag_same _ _
          · have hmarks : (z.boundFailed p { r with extent := r.extent.eraseIdx (i / 64) } .noSpace rest).store.marks =
                k :: tl := by
              rw [← hk']
              change z.store.marks ++ z.store.recovery.elim [] (·.failed) = _
              rw [hzst]
              change s.store.marks ++ _ = _
              rw [hm]
              rfl
            have hport : z.flash.storeDropped.free .store = true := by
              refine FlashPort.free_of ?_ ?_
              · rw [hzf]
                exact congrArg (Option.filter (·.isMark)) hst
              · rw [hzf]
                exact nofun
            have hsame := hk.symm.trans (State.storeKick_mark
              (s := z.boundFailed p { r with extent := r.extent.eraseIdx (i / 64) } .noSpace rest) hport rfl hmarks)
            exact ⟨hto.trans (congrArg (·.flash.store) hsame), htm.trans (congrArg (·.store.marks) hsame)⟩
    · intro loss e claims
      subst hcop
      let w : State := { u with
        store := { s.store with loss := loss }
        flash := { s.flash with inFlight := none, register := some (f.data, pageCodes f.data) } }
      have hrun : exec (.copyBackDone m f true) s = .next (w.storeRecoverNext { v with copied := v.copied + 1 }) := by
        rw [exec_storeCopy hp hx hcl hdue (by rw [ho]; rfl), hd, State.storeCopyDone_pass (by exact hv)]
        rfl
      have hbound := boundRecord_some (s := w) hq hf
      have hprog : v.good ≤ v.copied + 1 → w.storeRecoverNext { v with copied := v.copied + 1 } = _ := fun hle =>
        State.storeRecoverNext_programs (s := w) (v := { v with copied := v.copied + 1 }) hle hbound rfl
      refine ⟨fun hlt => hrun.trans (congrArg _ (State.storeRecoverNext_copies (s := w)
        (v := { v with copied := v.copied + 1 }) hlt hbound rfl)), fun hle hA => ?_, fun hle hA => ?_⟩
      · have hdata := StoreEngine.programmingData_a (e := w.store) hA
        have hnext := hprog hle
        rw [hdata] at hnext
        exact hrun.trans (congrArg _ hnext)
      · have hdata := StoreEngine.programmingData_b (e := w.store) hA
        have hnext := hprog hle
        rw [hdata] at hnext
        exact hrun.trans (congrArg _ hnext)
    · refine (exec_storeMark hp hx hcl hdue (by rw [ho]; rfl) ok).trans (congrArg _ (storeCalm (by exact hshot)
        (.inr (by exact hopen)) ?_))
      obtain hfull | hrec := hcalm
      · exact State.storeKick_none hm hfull
      · exact State.storeKick_busy (.inr hrec)
  · intro u i idle
    have hrun := exec_storeMark hp hx hcl hdue (m := m) (by rw [ho]; rfl) ok
    have hfree : idle.free .store = true := FlashPort.free_landed hst s.flash.register
    refine ⟨fun k tl hm => hrun.trans (congrArg _
        (State.storeGoOn_mark (w := u.flashAt idle) hshot hheld hfree hrec hm)),
      fun side o n rest p r hm hfull hq hf hc => ?_⟩
    have hw : PageWaits (u.flashAt idle) side n p i r rest :=
      ⟨hc, hfree, hrec, hm, ⟨o, hfull⟩, hq, hf, rfl, hheld, hshot⟩
    refine ⟨fun hi => hrun.trans (congrArg _ (hw.inside hi)), fun c y hi hlt ha => ?_, fun hi hopen hno =>
      hw.ends hrun hopen hi hno rfl rfl rfl⟩
    exact ⟨_, hrun.trans (congrArg _ (hw.begins hi hlt ha)), rfl, rfl, Table.get_put_same _ _ _, rfl, rfl⟩
  · intro empty e idle
    have hrun := exec_storeDiscarded hp hx hcl hd hdue hq
    obtain ⟨gs, gq, gr, gm, gi, gh, go⟩ := s.store.programmed_frame
    have hheld' : s.store.programmed.heldStart = false ∨ s.store.programmed.stream ≠ .closed := by
      rw [gh, gs]
      exact hheld
    have hfree : s.flash.store = none → idle.free .store = true := fun hst => FlashPort.free_landed hst reg
    refine ⟨fun hcalm => ?_, fun k tl hst hrec hm => ?_, fun n rest p r side o hst hrec hm hfull hside hq hf hc => ?_⟩
    · refine hrun.trans (congrArg _ (storeCalm (by exact hshot) hheld' ?_))
      obtain hst | hrec | ⟨hm, hfull⟩ := hcalm
      · refine State.storeKick_busy (.inl ?_)
        rw [← Bool.not_eq_true, FlashPort.free_store]
        exact fun h => hst h.1
      · exact State.storeKick_busy (.inr (by exact gr.symm ▸ hrec))
      · exact State.storeKick_none (gm.trans hm) (go.trans hfull)
    · exact hrun.trans (congrArg _
        (State.storeGoOn_mark (w := ((s.arrive m).flashAt idle).onStore (·.programmed)) hshot hheld'
          (hfree hst) (gr.trans hrec) (gm.trans hm)))
    · intro i page
      have hw : PageWaits (((s.arrive m).flashAt idle).onStore (·.programmed)) side n p i r rest :=
        ⟨hc, hfree hst, gr.trans hrec, gm.trans hm, ⟨o, go.trans hfull⟩, gq.trans hq, hf, gi, hheld', hshot⟩
      have hpage : (s.store.programmed.buf side).data = page := by rw [StoreEngine.programmed_full hside]
      refine ⟨fun hi => ?_, fun c y hi hlt ha => ?_, fun hi hopen hno =>
        hw.ends hrun (by exact gs.symm ▸ hopen) hi hno gh gq.symm rfl⟩
      · rw [← hpage]
        exact hrun.trans (congrArg _ (hw.inside hi))
      · rw [← hpage]
        exact ⟨_, hrun.trans (congrArg _ (hw.begins hi hlt ha)), rfl, rfl, Table.get_put_same _ _ _, rfl, rfl⟩

end Sys2Proof.Machine
end

section
/-! PROOFS. CHAIN ADD and CHAIN CANCEL (R72, R73, R80). -/

namespace Sys2Proof.Machine

variable {s : State} {n p offset length : Nat} {r : PicRecord}

/-! ### CHAIN ADD -/

theorem chainAdd_fields (n offset length : Nat) :
    (!numberOk n || decide (Config.maxPicture ≤ offset) || decide (Config.maxPicture < length)) = true ↔
      n = 0 ∨ 9999 < n ∨ 12582912 ≤ offset ∨ 12582912 < length := by
  rw [Bool.or_eq_true, Bool.or_eq_true, Bool.not_eq_true', ← Bool.not_eq_true, numberOk_iff, decide_eq_true_eq,
    decide_eq_true_eq, show Config.maxPicture = 12582912 from rfl]
  omega

section
variable (hm : s.map.mode ≠ .preparing) (h1 : 1 ≤ n) (h2 : n ≤ 9999) (h3 : offset < 12582912)
  (h4 : length ≤ 12582912)
include hm h1 h2 h3 h4

theorem chainAddCheck_full (hl : 16 ≤ s.chain.chain.length) : chainAddCheck n offset length s = .error .chainFull := by
  have hok := mt (chainAdd_fields n offset length).mp (by omega)
  have hfull : Config.maxChain ≤ s.chain.chain.length := hl
  rw [chainAddCheck, if_neg hm, if_neg hok, if_pos hfull]

theorem chainAddCheck_unknown (hl : s.chain.chain.length < 16) (hf : findNumber n s.cat.places = none) :
    chainAddCheck n offset length s = .error .noSuchRecord := by
  have hok := mt (chainAdd_fields n offset length).mp (by omega)
  have hfull : ¬Config.maxChain ≤ s.chain.chain.length := Nat.not_le.mpr hl
  rw [chainAddCheck, if_neg hm, if_neg hok, if_neg hfull, hf]

theorem chainAddCheck_state (hl : s.chain.chain.length < 16) (hf : findNumber n s.cat.places = some (p, r))
    (hs : r.state ≠ .stored) : chainAddCheck n offset length s = .error .wrongState := by
  have hok := mt (chainAdd_fields n offset length).mp (by omega)
  have hfull : ¬Config.maxChain ≤ s.chain.chain.length := Nat.not_le.mpr hl
  rw [chainAddCheck, if_neg hm, if_neg hok, if_neg hfull, hf]
  dsimp only
  split
  next h _ => exact absurd h hs
  next => rfl

theorem chainAddCheck_stored (hl : s.chain.chain.length < 16) (hf : findNumber n s.cat.places = some (p, r))
    (hs : r.state = .stored) {x : PictureFields} (hx : r.picture = some x) : chainAddCheck n offset length s =
      if x.length ≤ offset ∨ (length ≠ 0 ∧ x.length < offset + length) then .error .badField else .ok (p, r, x) := by
  have hok := mt (chainAdd_fields n offset length).mp (by omega)
  have hfull : ¬Config.maxChain ≤ s.chain.chain.length := Nat.not_le.mpr hl
  rw [chainAddCheck, if_neg hm, if_neg hok, if_neg hfull, hf]
  dsimp only
  rw [hs, hx]
  refine ite_congr (propext ?_) (fun _ => rfl) fun _ => rfl
  simp

end

theorem exec_chainAdd_error (h : Taking s) (m : Moment) (notify : Bool) {e : Code}
    (hx : chainAddCheck n offset length s = .error e) :
    exec (.chainAdd m n offset length notify) s = .next ((taken 10 m s).respond 10 (refuse e)) := by
  refine (request_taking h 10 m _).trans ?_
  rw [show chainAddCheck n offset length (taken 10 m s) = chainAddCheck n offset length s from rfl, hx]

theorem exec_chainAdd_ok (h : Taking s) (m : Moment) (notify : Bool) {x : PictureFields}
    (hx : chainAddCheck n offset length s = .ok (p, r, x)) {l : Nat} (hl : l = if length = 0 then x.length - offset else length) :
    exec (.chainAdd m n offset length notify) s = .next (((taken 10 m s).chainAppend p n offset l notify).respond 10
      (okBody (.chainLength ((taken 10 m s).chainAppend p n offset l notify).chain.chain.length))) := by
  subst hl
  refine (request_taking h 10 m _).trans ?_
  rw [show chainAddCheck n offset length (taken 10 m s) = chainAddCheck n offset length s from rfl, hx]

theorem State.chainAppend_eq (hr : s.record p = some r) (n offset l : Nat) (notify : Bool) :
    s.chainAppend p n offset l notify = { s with
      cat := { s.cat with places := Table.put p { r with holds := r.holds + 1 } s.cat.places }
      chain := { s.chain with
        chain := s.chain.chain ++ [{ number := n, offset := offset, length := l, notify := notify, position := 0
                                     damage := false }]
        run := if s.chain.chain = [] then some .waiting else s.chain.run } } := by
  unfold State.chainAppend State.addHold
  rw [hr]
  rcases hc : s.chain.chain with _ | ⟨d, t⟩
  · simp [State.onChain, State.setRecord, hc]
  · simp [State.onChain, State.setRecord, hc]

/-! ### Holds given back -/

/-- The records after one hold has been given back. -/
theorem State.findNumber_dropHold (hw : Table.wf anyValue s.cat.places = true)
    (hf : findNumber n s.cat.places = some (p, r)) (k : Nat) :
    Table.wf anyValue (s.dropHold k).cat.places = true ∧ findNumber n (s.dropHold k).cat.places =
      some (p, { r with holds := r.holds - if k = n then 1 else 0 }) := by
  unfold State.dropHold
  rcases hk : findNumber k s.cat.places with _ | ⟨j, y⟩
  · have hne : k ≠ n := by
      rintro rfl
      cases hf.symm.trans hk
    rw [State.onNumber, hk]
    exact ⟨hw, by rw [if_neg hne]; exact hf⟩
  · rw [State.onNumber_some hk]
    refine ⟨Table.wf_put rfl hw, ?_⟩
    change findNumber n (Table.put j { y with holds := y.holds - 1 } s.cat.places) = _
    by_cases hkn : k = n
    · subst hkn
      cases hf.symm.trans hk
      rw [if_pos rfl, findNumber_put_same (x := { r with holds := r.holds - 1 }) hw hf rfl]
    · rw [if_neg hkn, findNumber_put_other (x := { y with holds := y.holds - 1 }) hw (findNumber_mem hk).1 rfl hf
        (findNumber_place_ne hw hk hf (Ne.symm hkn))]
      rfl

/-- The records after every descriptor has given its hold back (R80). -/
theorem State.findNumber_dropHolds (l : List Descriptor) (hw : Table.wf anyValue s.cat.places = true)
    (hf : findNumber n s.cat.places = some (p, r)) :
    Table.wf anyValue (l.foldl (fun s d => s.dropHold d.number) s).cat.places = true ∧
    findNumber n (l.foldl (fun s d => s.dropHold d.number) s).cat.places =
      some (p, { r with holds := r.holds - (l.filter fun d => d.number = n).length }) := by
  induction l generalizing s r with
  | nil => exact ⟨hw, hf⟩
  | cons d l ih =>
    obtain ⟨hw', hf'⟩ := State.findNumber_dropHold hw hf d.number
    obtain ⟨hw'', hf''⟩ := ih hw' hf'
    refine ⟨hw'', hf''.trans ?_⟩
    by_cases hd : d.number = n
    · simp only [hd, decide_true, List.filter_cons_of_pos, List.length_cons, if_true, Nat.sub_sub, Nat.add_comm]
    · simp only [hd, decide_false, Bool.false_eq_true, not_false_eq_true, List.filter_cons_of_neg, if_false, Nat.sub_zero]

/-- A hold given back changes the catalogue only (R4, R22). -/
theorem State.dropHold_catOnly (k : Nat) (s : State) : ∃ c, s.dropHold k = { s with cat := c } := by
  unfold State.dropHold State.onNumber
  split
  next p r _ => exact ⟨_, rfl⟩
  next => exact ⟨s.cat, rfl⟩

theorem State.dropHolds_catOnly (l : List Descriptor) (s : State) :
    ∃ c, l.foldl (fun s d => s.dropHold d.number) s = { s with cat := c } := by
  induction l generalizing s with
  | nil => exact ⟨s.cat, rfl⟩
  | cons d l ih =>
    obtain ⟨c, hc⟩ := s.dropHold_catOnly d.number
    obtain ⟨c', hc'⟩ := ih (s.dropHold d.number)
    refine ⟨c', hc'.trans ?_⟩
    rw [hc]

/-! ### CHAIN CANCEL -/

/-- The port after the Read Chain's read has been withdrawn or discarded (R80). -/
def FlashPort.readDropped (f : FlashPort) : FlashPort :=
  { f with
    read := none
    inFlight := f.inFlight.map fun x => if x.claimant = .readChain then { x with discard := true } else x }

theorem FlashPort.withdrawn_read (f : FlashPort) : f.withdrawn .readChain = { f with read := none } := by
  unfold FlashPort.withdrawn
  rcases hr : f.read with _ | op
  · simp [FlashPort.waitingOf, hr]
    rw [← hr]
  · simp [FlashPort.waitingOf, FlashPort.setWaiting, hr]

theorem State.chainEmpty_eq (owed : Option (Nat × Bool)) (s : State) : s.chainEmpty owed = { s with
    cat := (s.chain.chain.foldl (fun s d => s.dropHold d.number) s).cat
    chain := { s.chain with
      chain := [], run := none, buffer := none, owed := owed
      item := s.chain.item.map fun x => { x with live := false } }
    flash := s.flash.readDropped } := by
  obtain ⟨c, hc⟩ := State.dropHolds_catOnly s.chain.chain s
  unfold State.chainEmpty
  dsimp only
  rw [hc, State.flashWithdraw_eq]
  simp only [State.onChain, State.onFlash, State.flashDiscard, FlashPort.withdrawn_read]
  rfl

theorem FlashPort.readDropped_discards {f : FlashPort} {x : InFlightOp} (h : f.readDropped.inFlight = some x)
    (hc : x.claimant = .readChain) : x.discard = true := by
  obtain ⟨y, -, rfl⟩ := Option.map_eq_some_iff.mp h
  by_cases hy : y.claimant = .readChain
  · rw [if_pos hy]
  · rw [if_neg hy] at hc
    exact absurd hc hy

/-- What CHAIN CANCEL owes, by the head's run state and the item being sent (R80). -/
theorem cancelOwed_absent {c : ReadChain} (hc : c.chain = []) (hr : c.run = none) : cancelOwed c = c.owed := by
  obtain ⟨chain, run, buffer, owed, item, refresh, marks⟩ := c
  subst hc hr
  rcases item with _ | ⟨k, kind, live, notify⟩
  · rfl
  · cases kind <;> rfl

theorem cancelOwed_waiting {c : ReadChain} (hr : c.run = some .waiting) (hi : c.item = none) :
    cancelOwed c = c.owed := by
  obtain ⟨chain, run, buffer, owed, item, refresh, marks⟩ := c
  subst hr hi
  cases chain <;> rfl

theorem cancelOwed_started {c : ReadChain} {d : Descriptor} {rest : List Descriptor} (hc : c.chain = d :: rest)
    (hr : c.run = some .needsPage ∨ c.run = some .reading ∨ c.run = some .sending)
    (hi : ∀ x o, c.item = some x → x.kind ≠ .finish o) : cancelOwed c = some (d.number, d.notify) := by
  obtain ⟨chain, run, buffer, owed, item, refresh, marks⟩ := c
  subst hc
  rcases item with _ | ⟨k, kind, live, notify⟩
  · obtain rfl | rfl | rfl := hr <;> rfl
  · cases kind with
    | start o l => obtain rfl | rfl | rfl := hr <;> rfl
    | data b => obtain rfl | rfl | rfl := hr <;> rfl
    | finish o => exact absurd rfl (hi _ o rfl)

theorem cancelOwed_ending {c : ReadChain} {d : Descriptor} {rest : List Descriptor} (hc : c.chain = d :: rest)
    (hr : c.run = some .ending) (hi : c.item = none) : cancelOwed c = some (d.number, d.notify) := by
  obtain ⟨chain, run, buffer, owed, item, refresh, marks⟩ := c
  subst hc hr hi
  rfl

theorem cancelOwed_finishing {c : ReadChain} {x : OutItem} {o : EndOutcome} (hi : c.item = some x)
    (hx : x.kind = .finish o) (hr : c.run = some .ending) : cancelOwed c = c.owed := by
  obtain ⟨chain, run, buffer, owed, item, refresh, marks⟩ := c
  obtain ⟨k, kind, live, notify⟩ := x
  subst hi hx hr
  cases chain <;> rfl

theorem exec_chainCancel (h : Taking s) (m : Moment) : exec (.chainCancel m) s =
    .next (((taken 11 m s).chainEmpty (cancelOwed s.chain)).respond 11 ok) :=
  request_taking h 11 m _

/-- Settles O41: CHAIN ADD by its checks in order, CHAIN CANCEL by the holds given back and the marker owed. -/
theorem chainRequestsAddAndCancel : Obligations.ChainRequestsAddAndCancel := by
  unfold Obligations.ChainRequestsAddAndCancel
  intro m s h hc
  refine ⟨fun n offset length notify => ?_, ?_⟩
  · intro u refused
    have hrefuse : ∀ {e}, chainAddCheck n offset length s = .error e → refused e := fun he =>
      exec_chainAdd_error h m notify he
    refine ⟨fun hm => hrefuse (if_pos hm), fun hm hbad => hrefuse ?_, fun hm h1 h2 h3 h4 =>
      ⟨fun hl => hrefuse (chainAddCheck_full hm h1 h2 h3 h4 hl),
        fun hl hf => hrefuse (chainAddCheck_unknown hm h1 h2 h3 h4 hl hf), fun hl p r hf =>
        ⟨fun hs => hrefuse (chainAddCheck_state hm h1 h2 h3 h4 hl hf hs), fun x hs hx => ?_⟩⟩⟩
    · rw [chainAddCheck, if_neg hm, if_pos ((chainAdd_fields n offset length).mpr hbad)]
    · have hcheck := chainAddCheck_stored hm h1 h2 h3 h4 hl hf hs hx
      refine ⟨fun hbad => hrefuse (hcheck.trans (if_pos hbad)), fun hoff hlen => ?_⟩
      rw [if_neg (by omega)] at hcheck
      rw [exec_chainAdd_ok h m notify hcheck rfl, State.chainAppend_eq (s := taken 10 m s) (r := r)
        (by exact hc.record_of_number hf)]
      simp only [List.length_append, List.length_singleton]
      rfl
  · have hexec := exec_chainCancel h m
    rw [State.chainEmpty_eq] at hexec
    refine ⟨_, hexec, rfl, rfl, rfl, rfl, rfl, rfl, fun x hx hcl => FlashPort.readDropped_discards hx hcl, rfl, rfl,
      fun n p r hf => ?_, cancelOwed_absent, cancelOwed_waiting, fun d rest hd hr hi => cancelOwed_started hd hr hi,
      fun d rest hd hr hi => cancelOwed_ending hd hr hi, fun x o hi hx _ hr => cancelOwed_finishing hi hx hr⟩
    obtain ⟨hw, hf'⟩ := State.findNumber_dropHolds (s := taken 11 m s) s.chain.chain hc.1.1 hf
    exact Table.get_of_mem hw (findNumber_mem hf').1

end Sys2Proof.Machine
end

section
/-! PROOFS. The Out Lane's items (R74, R75, R78, R80). -/

namespace Sys2Proof.Machine

variable {s : State} {m : Moment} {n p : Nat} {r : PicRecord}

/-! ### The item owed -/

theorem exec_outLaneItemBegin_idle (hp : s.supply.powered = true)
    (h : s.chain.item ≠ none ∨ s.supply.powerLow = true ∨ m.outReady = false) :
    exec (.outLaneItemBegin m) s = .next (s.arrive m) := by
  change execOutLaneItemBegin m s = _
  rw [execOutLaneItemBegin, event_powered hp]
  refine congrArg _ (if_neg ?_)
  rw [show (s.arrive m).lines.outReady = m.outReady from rfl, show (s.arrive m).chain = s.chain from rfl,
    show (s.arrive m).supply = s.supply from rfl]
  obtain h | h | h := h
  · simp [h]
  · simp [h]
  · simp [h]

section
variable (hp : s.supply.powered = true) (hi : s.chain.item = none) (hlow : s.supply.powerLow = false)
  (hready : m.outReady = true)
include hp hi hlow hready

theorem exec_outLaneItemBegin_some {x : OutItem} (hx : nextItem s.chain = some x) : exec (.outLaneItemBegin m) s =
    .next ((s.arrive m).onChain fun c => { c with item := some x, owed := none }) := by
  change execOutLaneItemBegin m s = _
  rw [execOutLaneItemBegin, event_powered hp]
  refine congrArg _ ((if_pos ?_).trans ?_)
  · simp [hi, hlow, hready]
  · rw [show (s.arrive m).chain = s.chain from rfl, hx]

theorem exec_outLaneItemBegin_none (hx : nextItem s.chain = none) :
    exec (.outLaneItemBegin m) s = .next (s.arrive m) := by
  change execOutLaneItemBegin m s = _
  rw [execOutLaneItemBegin, event_powered hp]
  refine congrArg _ ((if_pos ?_).trans ?_)
  · simp [hi, hlow, hready]
  · rw [show (s.arrive m).chain = s.chain from rfl, hx]

end

theorem nextItem_owed {c : ReadChain} {k : Bool} (h : c.owed = some (n, k)) :
    nextItem c = some { number := n, kind := .finish .cancelled, live := false, notify := k } := by
  rw [nextItem, h]

section
variable {c : ReadChain} {d : Descriptor} {rest : List Descriptor} (ho : c.owed = none) (hc : c.chain = d :: rest)
include ho hc

theorem nextItem_waiting (hr : c.run = some .waiting) :
    nextItem c = some { number := d.number, kind := .start d.offset d.length, live := true, notify := d.notify } := by
  rw [nextItem, ho, hc, hr]

theorem nextItem_sending (hr : c.run = some .sending) :
    nextItem c = some { number := d.number, kind := .data (nextData d c.buffer), live := true, notify := d.notify } := by
  rw [nextItem, ho, hc, hr]

theorem nextItem_ending (hr : c.run = some .ending) :
    nextItem c = some { number := d.number, kind := .finish d.outcome, live := true, notify := d.notify } := by
  rw [nextItem, ho, hc, hr]

theorem nextItem_reading (hr : c.run = some .needsPage ∨ c.run = some .reading) : nextItem c = none := by
  rw [nextItem, ho, hc]
  obtain hr | hr := hr <;> rw [hr]

end

theorem nextItem_empty {c : ReadChain} (ho : c.owed = none) (hc : c.chain = []) : nextItem c = none := by
  rw [nextItem, ho, hc]

/-! ### What the sending of an item does -/

section
variable (hp : s.supply.powered = true) {k o l : Nat} {live notify : Bool}
include hp

theorem exec_startSent (hx : s.chain.item = some { number := k, kind := .start o l, live := live, notify := notify }) :
    exec (.descriptorStartSent m) s = .next (if live then
      ((s.arrive m).itemGone.onChain fun c => { c with run := some .needsPage }).chainAskPage
      else (s.arrive m).itemGone) := by
  change execDescriptorStartSent m s = _
  rw [execDescriptorStartSent, event_powered hp, show (s.arrive m).chain = s.chain from rfl, hx]

theorem exec_dataSent {b : List Byte}
    (hx : s.chain.item = some { number := k, kind := .data b, live := live, notify := notify }) :
    exec (.dataItemSent m) s = .next (if live then (s.arrive m).itemGone.chainSent b.length
      else (s.arrive m).itemGone) := by
  change execDataItemSent m s = _
  rw [execDataItemSent, event_powered hp, show (s.arrive m).chain = s.chain from rfl, hx]

theorem exec_endSent {e : EndOutcome}
    (hx : s.chain.item = some { number := k, kind := .finish e, live := live, notify := notify }) (he : e ≠ .cancelled) :
    exec (.descriptorEndSent m) s = .next ((if live then (s.arrive m).itemGone.chainPop
      else (s.arrive m).itemGone).setFlagIf notify .readNotice) := by
  change execDescriptorEndSent m s = _
  rw [execDescriptorEndSent, event_powered hp, show (s.arrive m).chain = s.chain from rfl, hx]
  exact congrArg _ (if_neg he)

theorem exec_cancelledSent
    (hx : s.chain.item = some { number := k, kind := .finish .cancelled, live := live, notify := notify }) :
    exec (.cancelledEndSent m) s = .next ((s.arrive m).itemGone.setFlagIf notify .readNotice) := by
  change execCancelledEndSent m s = _
  rw [execCancelledEndSent, event_powered hp, show (s.arrive m).chain = s.chain from rfl, hx]

end

theorem State.chainAskPage_eq {d : Descriptor} {rest : List Descriptor} (hc : s.chain.chain = d :: rest)
    (hf : findNumber d.number s.cat.places = some (p, r)) : s.chainAskPage = { s with
      chain := { s.chain with run := some .reading }
      flash := { s.flash with read := some (.pageRead (r.extent.getD ((d.offset + d.position) / 4096 / 64) 0)
        ((d.offset + d.position) / 4096 % 64)) } } := by
  rw [State.chainAskPage, hc]
  dsimp only
  rw [hf]
  rfl

section
variable {d : Descriptor} {rest : List Descriptor} {k : Nat} (hc : s.chain.chain = d :: rest)
include hc

theorem State.onHead_eq (f : Descriptor → Descriptor) :
    s.onHead f = { s with chain := { s.chain with chain := f d :: rest } } := by
  unfold State.onHead
  rw [State.onChain, hc]

/-- The last bytes of a descriptor have been sent (R75). -/
theorem State.chainSent_ends (h : d.length ≤ d.position + k) : s.chainSent k = { s with
    chain := { s.chain with
      chain := { d with position := d.position + k } :: rest, buffer := none, run := some .ending } } := by
  unfold State.chainSent
  rw [State.onHead_eq hc]
  exact if_pos h

/-- A page has been sent and more is wanted (R75). -/
theorem State.chainSent_turns (hf : findNumber d.number s.cat.places = some (p, r)) (h : d.position + k < d.length)
    (ho : (d.offset + (d.position + k)) % 4096 = 0) : s.chainSent k = { s with
      chain := { s.chain with
        chain := { d with position := d.position + k } :: rest, buffer := none, run := some .reading }
      flash := { s.flash with read := some (.pageRead
        (r.extent.getD ((d.offset + (d.position + k)) / 4096 / 64) 0)
        ((d.offset + (d.position + k)) / 4096 % 64)) } } := by
  unfold State.chainSent
  rw [State.onHead_eq hc]
  refine (if_neg (Nat.not_le.mpr h)).trans ((if_pos ho).trans ?_)
  exact State.chainAskPage_eq (s := { s with chain := { s.chain with
    chain := { d with position := d.position + k } :: rest, buffer := none, run := some .needsPage } }) rfl hf

/-- More bytes of the page are wanted (R75). -/
theorem State.chainSent_stays (h : d.position + k < d.length) (ho : (d.offset + (d.position + k)) % 4096 ≠ 0) :
    s.chainSent k = { s with chain := { s.chain with chain := { d with position := d.position + k } :: rest } } := by
  unfold State.chainSent
  rw [State.onHead_eq hc]
  exact (if_neg (Nat.not_le.mpr h)).trans (if_neg ho)

theorem State.chainPop_eq (hf : findNumber d.number s.cat.places = some (p, r)) : s.chainPop = { s with
    cat := { s.cat with places := Table.put p { r with holds := r.holds - 1 } s.cat.places }
    chain := { s.chain with chain := rest, run := if rest = [] then none else some .waiting, buffer := none } } := by
  rw [State.chainPop, hc]
  dsimp only
  rw [State.dropHold, State.onNumber_some hf]
  cases rest <;> rfl

end

/-- Settles O42: the item owed by run state, then what the sending of each kind of item does. -/
theorem outLaneItemsDriveTheChain : Obligations.OutLaneItemsDriveTheChain := by
  unfold Obligations.OutLaneItemsDriveTheChain
  intro m s hp u begun
  refine ⟨exec_outLaneItemBegin_idle hp, fun hi hlow hready => ⟨fun n k ho => ?_, fun d rest ho hc =>
    ⟨fun hr => ?_, fun b hr hb => ?_, fun hr => ?_, fun hr => ?_⟩, fun ho hc => ?_⟩, fun x hx => ?_,
    fun n o l live notify d => ?_⟩
  · exact exec_outLaneItemBegin_some hp hi hlow hready (nextItem_owed ho)
  · exact exec_outLaneItemBegin_some hp hi hlow hready (nextItem_waiting ho hc hr)
  · have hnext := nextItem_sending ho hc hr
    rw [hb] at hnext
    exact exec_outLaneItemBegin_some hp hi hlow hready hnext
  · exact exec_outLaneItemBegin_some hp hi hlow hready (nextItem_ending ho hc hr)
  · exact exec_outLaneItemBegin_none hp hi hlow hready (nextItem_reading ho hc hr)
  · exact exec_outLaneItemBegin_none hp hi hlow hready (nextItem_empty ho hc)
  · intro c
    obtain ⟨k, kind, live, notify⟩ := x
    refine ⟨?_, ?_, ?_, ?_, ?_, ?_, ?_⟩
    · rintro o l d rest p r rfl rfl hc hf
      refine (exec_startSent hp hx).trans (congrArg _ ?_)
      exact State.chainAskPage_eq (s := u.itemGone.onChain fun c => { c with run := some .needsPage }) hc hf
    · rintro o l rfl rfl
      exact exec_startSent hp hx
    · rintro bs d rest p r rfl rfl hc hf
      have hrun := exec_dataSent (m := m) hp hx
      intro e page
      refine ⟨fun h => ?_, fun h ho => ?_, fun h ho => ?_⟩
      · exact hrun.trans (congrArg _ (State.chainSent_ends (s := u.itemGone) hc h))
      · exact hrun.trans (congrArg _ (State.chainSent_turns (s := u.itemGone) hc hf h ho))
      · exact hrun.trans (congrArg _ (State.chainSent_stays (s := u.itemGone) hc h ho))
    · rintro bs rfl rfl
      exact exec_dataSent hp hx
    · rintro o d rest p r rfl ho rfl hc hf
      refine (exec_endSent hp hx ho).trans (congrArg _ (congrArg (State.setFlagIf notify .readNotice) ?_))
      exact State.chainPop_eq (s := u.itemGone) hc hf
    · rintro o rfl ho rfl
      exact exec_endSent hp hx ho
    · rintro rfl
      exact exec_cancelledSent hp hx
  · refine ⟨?_, ?_, ?_, ?_, ?_⟩ <;> simp [OutItem.bytes, beBytes, EndOutcome.value]

end Sys2Proof.Machine
end

section
/-! PROOFS. Page reads report to the record (R28, R75 to R77). -/

namespace Sys2Proof.Machine

variable {s : State} {n p : Nat} {r : PicRecord}

/-! ### The sectors taken -/

theorem sectorTaken_iff (range : Nat × Nat) (i : Nat) :
    sectorTaken range i = true ↔ i * 1024 < range.2 ∧ range.1 < (i + 1) * 1024 := by
  rw [sectorTaken, Bool.and_eq_true, decide_eq_true_eq, decide_eq_true_eq, show Config.sectorBytes = 1024 from rfl]

theorem mem_countsTaken {range : Nat × Nat} {cs : List SectorCount} {c : SectorCount} :
    c ∈ countsTaken range cs ↔ ∃ i, (i * 1024 < range.2 ∧ range.1 < (i + 1) * 1024) ∧ cs[i]? = some c := by
  simp only [countsTaken, List.mem_map, List.mem_filter, sectorTaken_iff, Prod.exists]
  constructor
  · rintro ⟨a, i, ⟨hm, ht⟩, rfl⟩
    exact ⟨i, ht, List.mem_zipIdx_iff_getElem?.mp hm⟩
  · rintro ⟨i, ht, hg⟩
    exact ⟨c, i, ⟨List.mem_zipIdx_iff_getElem?.mpr hg, ht⟩, rfl⟩

/-! ### The counts reported -/

/-- What the counts of some sectors make of a record (R76, R77). -/
theorem report_fold (cs : List SectorCount) (r : PicRecord) :
    let y := cs.foldl PicRecord.report r
    y = { r with peak := y.peak, weak := y.weak, unreadable := y.unreadable } ∧ r.peak ≤ y.peak ∧
    (∀ k, .corrected k ∈ cs → k ≤ y.peak) ∧ (y.peak = r.peak ∨ .corrected y.peak ∈ cs) ∧
    (y.weak = true ↔ r.weak = true ∨ ∃ k, .corrected k ∈ cs ∧ 6 ≤ k) ∧
    (y.unreadable = true ↔ r.unreadable = true ∨ .uncorrectable ∈ cs) := by
  induction cs generalizing r with
  | nil => simp
  | cons c cs ih =>
    intro y
    obtain ⟨hsame, hle, hall, hmax, hweak, hun⟩ := ih (r.report c)
    cases c with
    | corrected k =>
      have hpeak : (r.report (.corrected k)).peak = max r.peak k := rfl
      have hwk : (r.report (.corrected k)).weak = (r.weak || decide (6 ≤ k)) := rfl
      have hur : (r.report (.corrected k)).unreadable = r.unreadable := rfl
      rw [hpeak] at hle hmax
      rw [hwk] at hweak
      rw [hur] at hun
      refine ⟨hsame, Nat.le_trans (Nat.le_max_left _ _) hle, fun j hj => ?_, ?_, ?_, ?_⟩
      · obtain hj | hj := List.mem_cons.mp hj
        · rw [SectorCount.corrected.inj hj]
          exact Nat.le_trans (Nat.le_max_right _ _) hle
        · exact hall j hj
      · obtain hmax | hmax := hmax
        · obtain h | h : max r.peak k = r.peak ∨ max r.peak k = k := by omega
          · exact .inl (hmax.trans h)
          · refine .inr (List.mem_cons.mpr (.inl ?_))
            rw [show y.peak = k from hmax.trans h]
        · exact .inr (List.mem_cons_of_mem _ hmax)
      · refine hweak.trans ?_
        simp only [Bool.or_eq_true, decide_eq_true_eq, List.mem_cons, SectorCount.corrected.injEq, or_and_right,
          exists_or, exists_eq_left, or_assoc]
      · refine hun.trans ?_
        simp
    | uncorrectable =>
      refine ⟨hsame, hle, fun j hj => hall j ((List.mem_cons.mp hj).resolve_left (by simp)), hmax.imp_right
        (List.mem_cons_of_mem _), ?_, ?_⟩
      · refine hweak.trans ?_
        simp [PicRecord.report]
      · refine hun.trans ?_
        simp [PicRecord.report]

theorem State.chainReport_eq (hf : findNumber n s.cat.places = some (p, r)) (cs : List SectorCount) :
    s.chainReport n cs = if cs.foldl PicRecord.report r = r then s
      else (s.claim p (cs.foldl PicRecord.report r)).setFlagIf ((cs.foldl PicRecord.report r).weak && !r.weak)
        .weakFound := by
  rw [State.chainReport, State.onNumber_some hf]

/-- The report to a record, part by part (R76, R77). -/
theorem State.chainReport_spec (hc : Canonical s) (hf : findNumber n s.cat.places = some (p, r))
    (cs : List SectorCount) :
    let y := cs.foldl PicRecord.report r
    let t := s.chainReport n cs
    t.record p = some y ∧ (∀ j, j ≠ p → t.record j = s.record j) ∧ (y = r → t.writer = s.writer) ∧
    (y ≠ r → t.writer = s.writer.mark (.place p)) ∧
    (y.weak = true → r.weak = false → t.events = (s.setFlag .weakFound).events) ∧
    (y.weak = r.weak → t.events = s.events) ∧ t.flash = s.flash ∧ t.chain = s.chain := by
  intro y t
  have ht : t = _ := State.chainReport_eq hf cs
  by_cases hy : y = r
  · rw [if_pos hy] at ht
    rw [ht]
    refine ⟨(hc.record_of_number hf).trans (congrArg some hy.symm), fun _ _ => rfl, fun _ => rfl,
      fun h => absurd hy h, fun hw hr => ?_, fun _ => rfl, rfl, rfl⟩
    rw [hy, hr] at hw
    cases hw
  · rw [if_neg hy] at ht
    have hclaim : ∀ j, j ≠ p → (s.claim p y).record j = s.record j := fun j hj => Table.get_put_other hj _ _
    have hsame : (s.claim p y).record p = some y := Table.get_put_same _ _ _
    by_cases hw : (y.weak && !r.weak) = true
    · have ht' : t = (s.claim p y).setFlag .weakFound := ht.trans (if_pos hw)
      rw [ht']
      refine ⟨hsame, hclaim, fun h => absurd h hy, fun _ => rfl, fun _ _ => rfl, fun he => ?_, rfl, rfl⟩
      rw [he] at hw
      simp at hw
    · have ht' : t = s.claim p y := ht.trans (if_neg hw)
      rw [ht']
      refine ⟨hsame, hclaim, fun h => absurd h hy, fun _ => rfl, fun hy' hr => ?_, fun _ => rfl, rfl, rfl⟩
      exact absurd (by simp [hy', hr]) hw

theorem State.chainPageRead_eq {d : Descriptor} {rest : List Descriptor} (hc : s.chain.chain = d :: rest)
    (x : PageRead) (hchain : (s.chainReport d.number (countsTaken (wantedRange d) x.counts)).chain = s.chain) :
    s.chainPageRead x = { s.chainReport d.number (countsTaken (wantedRange d) x.counts) with
      chain := { s.chain with
        chain := { d with damage := d.damage || anyUncorrectable (countsTaken (wantedRange d) x.counts) } :: rest
        buffer := some { data := x.data, counts := x.counts }, run := some .sending } } := by
  rw [State.chainPageRead, hc]
  dsimp only
  rw [State.onHead_eq (hchain ▸ hc), State.onChain, hchain]

theorem exec_readChain {x : InFlightOp} (hp : s.supply.powered = true) (hx : s.flash.inFlight = some x)
    (hcl : x.claimant = .readChain) (hdue : s.flash.protectDue = false) (m : Moment) (hk : x.op.isRead = true)
    (data : PageRead) : exec (.pageReadDone m data) s = .next (if x.discard = true
      then (s.arrive m).flashAt { s.flash with inFlight := none }
      else ((s.arrive m).flashAt { s.flash with inFlight := none }).chainPageRead data) := by
  rw [exec_pageReadDone hp hx m hk, State.landed_free (by exact hdue), pageReadResult, hcl]
  rfl

theorem anyUncorrectable_iff (cs : List SectorCount) : anyUncorrectable cs = true ↔ .uncorrectable ∈ cs := by
  simp [anyUncorrectable]

/-- Settles O43: the sectors taken by their positions, their counts folded into the record. -/
theorem pageReadsReportToTheRecord : Obligations.PageReadsReportToTheRecord := by
  unfold Obligations.PageReadsReportToTheRecord
  intro m s x b g data hc hp hx hcl hop hdue
  have hrun := exec_readChain hp hx hcl hdue m (by rw [hop]; rfl) data
  refine ⟨fun hd => hrun.trans (congrArg _ (if_pos hd)), fun hd d rest p r hchain hf => ?_⟩
  intro o wanted uncorrectable
  let u : State := (s.arrive m).flashAt { s.flash with inFlight := none }
  let cs := countsTaken (wantedRange d) data.counts
  have hwanted : ∀ c, c ∈ cs ↔ ∃ i, wanted i ∧ data.counts[i]? = some c := fun c => mem_countsTaken
  obtain ⟨hsame, hle, hall, hmax, hweak, hun⟩ := report_fold cs r
  obtain ⟨hrec, hother, hstay, hmark, hset, hkeep, hflash, hch⟩ := State.chainReport_spec (s := u) hc hf cs
  rw [if_neg (by simp [hd]), State.chainPageRead_eq (s := u) hchain data hch] at hrun
  refine ⟨_, _, hrun, hrec, hother, hsame, hle, fun i k hi hk => hall k ((hwanted _).mpr ⟨i, hi, hk⟩),
    hmax.imp_right (hwanted _).mp, hweak.trans (or_congr_right ?_), hun.trans (or_congr_right (hwanted _)),
    hstay, hmark, hset, hkeep, hflash, _, rfl, rfl, ?_⟩
  · constructor
    · rintro ⟨k, hk, h6⟩
      obtain ⟨i, hi, hg⟩ := (hwanted _).mp hk
      exact ⟨i, k, hi, hg, h6⟩
    · rintro ⟨i, k, hi, hg, h6⟩
      exact ⟨k, (hwanted _).mpr ⟨i, hi, hg⟩, h6⟩
  · exact Bool.or_eq_true_iff.trans (or_congr_right ((anyUncorrectable_iff cs).trans (hwanted _)))

end Sys2Proof.Machine
end

section
/-! PROOFS. The refresh's operations: what it asks for next, how it starts, recovers, completes and is abandoned (R83 to
R87). -/

namespace Sys2Proof.Machine

variable {s : State} {n p i : Nat} {r : PicRecord} {f : Refresh} {ns : List Nat}

/-! ### The port -/

/-- The refresh neither waits nor has an operation in flight. -/
def FlashPort.refreshIdle (f : FlashPort) : Prop := f.refresh = none ∧ ∀ x, f.inFlight = some x → x.claimant ≠ .refresh

theorem FlashPort.free_refresh {f : FlashPort} (h : f.refreshIdle) : f.free .refresh = true := by
  obtain ⟨hr, hx⟩ := h
  rcases hf : f.inFlight with _ | x
  · simp [FlashPort.free, FlashPort.waitingOf, FlashPort.flies, hr, hf]
  · simpa [FlashPort.free, FlashPort.waitingOf, FlashPort.flies, hr, hf] using hx x hf

theorem FlashPort.refreshIdle_landed {f : FlashPort} (h : f.refresh = none) (reg : Option (List Byte × List (List Byte))) :
    ({ f with inFlight := none, register := reg } : FlashPort).refreshIdle := ⟨h, nofun⟩

/-- An idle refresh has nothing withdrawn or discarded. -/
theorem State.flashDrop_refresh (h : s.flash.refreshIdle) : (s.flashWithdraw .refresh).flashDiscard .refresh = s := by
  obtain ⟨hr, hx⟩ := h
  have hw : s.flashWithdraw .refresh = s := if_neg (by simp [FlashPort.waitingOf, hr])
  rw [hw]
  have hmap : (s.flash.inFlight.map fun x => if x.claimant = .refresh then { x with discard := true } else x) =
      s.flash.inFlight := by
    rcases hf : s.flash.inFlight with _ | x
    · rfl
    · rw [Option.map_some, if_neg (hx x hf)]
  rw [State.flashDiscard, State.onFlash, hmap]

/-! ### What is owed next -/

/-- The grown marks owed once the refresh is over (R85 to R87). -/
def refreshFailed (c : ReadChain) : List Nat := c.refreshMarks ++ (c.refresh.bind (·.recovery)).elim [] (·.failed)

theorem refreshFailed_of {c : ReadChain} (hf : c.refresh = some f) :
    refreshFailed c = c.refreshMarks ++ f.recovery.elim [] (·.failed) := by
  rw [refreshFailed, hf]
  rfl

theorem State.refreshMarkNext_eq (h : s.flash.refreshIdle) : s.refreshMarkNext = { s with
    chain := { s.chain with refreshMarks := s.chain.refreshMarks.tail }
    flash := { s.flash with refresh := s.chain.refreshMarks.head?.map .grownMark } } := by
  rw [State.refreshMarkNext, FlashPort.free_refresh h]
  rcases hm : s.chain.refreshMarks with _ | ⟨b, t⟩
  · simp only [List.tail_nil, List.head?_nil, Option.map_none]
    rw [← hm, ← h.1]
  · rfl

/-- The part after the refresh is over: `y` its Block Map, `r` its record, the marks of `marks` owed (R86, R87). -/
def State.refreshLeft (y : BlockMap) (p : Nat) (r : PicRecord) (marks : List Nat) (s : State) : State :=
  ({ s with
    map := y
    cat := { s.cat with places := Table.put p r s.cat.places }
    writer := s.writer.mark (.place p)
    chain := { s.chain with refresh := none, refreshMarks := marks.tail }
    flash := { s.flash with refresh := marks.head?.map .grownMark } }).setFlag .maintenanceDone

theorem State.refreshOver_eq (h : s.flash.refreshIdle) :
    s.refreshOver = { s with chain := { s.chain with refresh := none, refreshMarks := refreshFailed s.chain } } := by
  refine Eq.trans ?_ (State.flashDrop_refresh
    (s := { s with chain := { s.chain with refresh := none, refreshMarks := refreshFailed s.chain } }) h)
  unfold State.refreshOver
  rcases hf : s.chain.refresh with _ | ⟨number, position, page, pages, buffer, recovery⟩
  · simp [State.onChain, refreshFailed, hf]
  · rcases recovery with _ | v
    · simp [State.onChain, refreshFailed, hf]
    · simp [State.onChain, refreshFailed, hf]

theorem refreshRecord_some (hf : s.chain.refresh = some f) (hn : findNumber f.number s.cat.places = some (p, r)) :
    refreshRecord s = some (p, r) := by
  rw [refreshRecord, hf]
  exact hn

/-- Abandonment (R87). -/
theorem State.refreshAbandon_eq (h : s.flash.refreshIdle) (hr : refreshRecord s = some (p, r)) (unreadable : Bool) :
    s.refreshAbandon unreadable = s.refreshLeft
      ((s.map.release r.remaining).returnAll .ready (r.refreshExtent.getD [])) p
      { r with refreshExtent := none, remaining := 0, holds := r.holds - 1, unreadable := r.unreadable || unreadable }
      (refreshFailed s.chain) := by
  unfold State.refreshAbandon State.refreshDrop
  rw [hr]
  dsimp only
  rw [State.refreshOver_eq (by exact h), State.refreshMarkNext_eq (by exact h)]
  rfl

/-- Completion: the swap (R86). -/
theorem State.refreshComplete_eq (h : s.flash.refreshIdle) (hr : refreshRecord s = some (p, r)) :
    s.refreshComplete = s.refreshLeft
      ((s.map.release r.remaining).returnAll (.begins p) r.extent) p
      { r with extent := r.refreshExtent.getD [], refreshExtent := none, remaining := 0, peak := 0, weak := false
               holds := r.holds - 1 }
      (refreshFailed s.chain) := by
  unfold State.refreshComplete
  rw [hr]
  dsimp only
  rw [State.refreshOver_eq (by exact h), State.refreshMarkNext_eq (by exact h)]
  rfl

/-! ### The next page -/

theorem State.refreshRead_inside (hf : s.chain.refresh = some f) (hr : refreshRecord s = some (p, r))
    (hp : f.page ≠ 0) : s.refreshRead = { s with flash := { s.flash with
      refresh := some (.pageRead (r.extent.getD (f.position - 1) 0) f.page) } } := by
  rw [State.refreshRead, hf, hr]
  exact if_neg hp

/-- The record of a refresh for which a block has been allocated (R85). -/
def PicRecord.refreshed (ns : List Nat) (c : Nat) (r : PicRecord) : PicRecord :=
  { r with remaining := r.remaining - 1, refreshExtent := some (ns ++ [c]) }

/-- A change to the refresh extent marks the place through the reservation alone (R4, log 42). -/
theorem State.claimChanged_refresh {r' : PicRecord} (he : r'.durable = { r with remaining := r.remaining - 1 }.durable) :
    s.claimChanged p r r' = { s with
      cat := { s.cat with places := Table.put p r' s.cat.places }
      writer := if r.remaining = 0 then s.writer else s.writer.mark (.place p) } := by
  unfold State.claimChanged
  by_cases hz : r.remaining = 0
  · have hrem : r.remaining - 1 = r.remaining := by omega
    have hsame : r'.durable = r.durable := by rw [he, hrem]
    rw [if_pos hsame, if_pos hz]
    rfl
  · have hdiff : r'.durable ≠ r.durable := fun hd => by
      have : r.remaining - 1 = r.remaining := congrArg PicRecord.remaining (he.symm.trans hd)
      omega
    rw [if_neg hdiff, if_neg hz]
    rfl

theorem State.refreshRead_found (hf : s.chain.refresh = some f) (hr : refreshRecord s = some (p, r)) (hp : f.page = 0)
    (hrec : s.record p = some r) (hns : r.refreshExtent = some ns) {c : Nat} {y : BlockMap}
    (ha : s.map.allocate r.remaining = some (c, y)) : s.refreshRead = { s with
      map := y, cat := { s.cat with places := Table.put p (r.refreshed ns c) s.cat.places }
      writer := if r.remaining = 0 then s.writer else s.writer.mark (.place p)
      flash := { s.flash with refresh := some (.pageRead (r.extent.getD (f.position - 1) 0) 0) } } := by
  have hplace : ({ r with remaining := r.remaining - 1 } : PicRecord).appendRefresh c = r.refreshed ns c := by
    rw [PicRecord.appendRefresh, hns]
    rfl
  have halloc : s.allocateFor p PicRecord.appendRefresh =
      (({ s with map := y } : State).claimChanged p r (r.refreshed ns c), some c) := by
    rw [State.allocateFor, hrec]
    dsimp only
    rw [ha]
    dsimp only
    rw [← hplace]
  have hclaim := State.claimChanged_refresh (s := { s with map := y }) (p := p) (r := r) (r' := r.refreshed ns c) rfl
  rw [State.refreshRead, hf, hr]
  refine (if_pos hp).trans ?_
  rw [halloc, hclaim, hp]
  rfl

theorem State.refreshRead_none (hf : s.chain.refresh = some f) (hr : refreshRecord s = some (p, r)) (hp : f.page = 0)
    (hrec : s.record p = some r) (ha : s.map.allocate r.remaining = none) :
    s.refreshRead = s.refreshAbandon false := by
  have halloc : s.allocateFor p PicRecord.appendRefresh = (s, none) := by
    rw [State.allocateFor, hrec]
    dsimp only
    rw [ha]
  rw [State.refreshRead, hf, hr]
  refine (if_pos hp).trans ?_
  rw [halloc]

theorem State.refreshKick_page (h : s.flash.refreshIdle) (hm : s.chain.refreshMarks = []) :
    s.refreshKick = s.refreshRead := by
  unfold State.refreshKick
  rw [if_pos (FlashPort.free_refresh h), hm]

theorem State.refreshKick_mark (h : s.flash.refreshIdle) {b : Nat} {t : List Nat} (hm : s.chain.refreshMarks = b :: t) :
    s.refreshKick = { s with
      chain := { s.chain with refreshMarks := t }, flash := { s.flash with refresh := some (.grownMark b) } } := by
  unfold State.refreshKick
  rw [if_pos (FlashPort.free_refresh h), hm]
  refine (State.refreshMarkNext_eq h).trans ?_
  rw [hm]
  rfl

theorem State.refreshRead_idle (hf : s.chain.refresh = none) : s.refreshRead = s := by
  rw [State.refreshRead, hf]

/-! ### Programs and copy-backs -/

theorem State.refreshAskProgram_eq (hf : s.chain.refresh = some f) (hr : refreshRecord s = some (p, r))
    (hns : r.refreshExtent = some ns) : s.refreshAskProgram = { s with flash := { s.flash with
      refresh := some (.program (ns.getD (f.position - 1) 0) f.page f.buffer) } } := by
  rw [State.refreshAskProgram, hf, hr]
  dsimp only
  rw [refreshTarget, hns]
  rfl

theorem State.refreshRecovered_eq (hf : s.chain.refresh = some f) : s.refreshRecovered = { s with
    chain := { s.chain with refreshMarks := refreshFailed s.chain, refresh := some { f with recovery := none } } } := by
  obtain ⟨number, position, page, pages, buffer, recovery⟩ := f
  unfold State.refreshRecovered
  rcases recovery with _ | v
  · simp [State.onChain, refreshFailed, hf]
  · simp [State.onChain, refreshFailed, hf]

section
variable {v : Recovery} (hf : s.chain.refresh = some f) (hn : findNumber f.number s.cat.places = some (p, r))
  (hns : r.refreshExtent = some ns)
include hf hn hns

theorem State.refreshRecoverNext_copies (hv : v.copied < v.good) : s.refreshRecoverNext v = { s with
    chain := { s.chain with refresh := some { f with recovery := some v } }
    flash := { s.flash with
      refresh := some (.copyBack v.source v.copied (ns.getD (f.position - 1) 0) v.copied) } } := by
  have hon : s.onRefresh (fun r => { r with recovery := some v }) =
      { s with chain := { s.chain with refresh := some { f with recovery := some v } } } := by
    rw [State.onRefresh, State.onChain, hf]
    rfl
  unfold State.refreshRecoverNext
  dsimp only
  have hrec := refreshRecord_some (s := { s with chain := { s.chain with refresh := some { f with recovery := some v } } })
    (f := { f with recovery := some v }) rfl hn
  rw [hon, if_pos hv, hrec]
  dsimp only
  rw [refreshTarget, hns]
  rfl

theorem State.refreshRecoverNext_programs (hv : v.good ≤ v.copied) : s.refreshRecoverNext v = { s with
    chain := { s.chain with refresh := some { f with recovery := some v } }
    flash := { s.flash with refresh := some (.program (ns.getD (f.position - 1) 0) f.page f.buffer) } } := by
  have hon : s.onRefresh (fun r => { r with recovery := some v }) =
      { s with chain := { s.chain with refresh := some { f with recovery := some v } } } := by
    rw [State.onRefresh, State.onChain, hf]
    rfl
  unfold State.refreshRecoverNext
  dsimp only
  rw [hon, if_neg (Nat.not_lt.mpr hv)]
  exact State.refreshAskProgram_eq (s := { s with chain := { s.chain with refresh := some { f with recovery := some v } } })
    (f := { f with recovery := some v }) rfl (refreshRecord_some (f := { f with recovery := some v }) rfl hn) hns

end

end Sys2Proof.Machine
end

section
/-! PROOFS. The refresh's replacement, and the rows that bring its results (R83 to R87). -/

namespace Sys2Proof.Machine

variable {s : State} {n p i b : Nat} {r : PicRecord} {f : Refresh} {ns : List Nat} {m : Moment}

/-! ### A replacement in the refresh extent -/

theorem State.makeBad_writer (hb : b < s.map.total) : (s.makeBad b .grown).writer =
    if s.map.badList.length < 256 then s.writer.mark .badList else s.writer := by
  by_cases hl : s.map.badList.length < 256
  · rw [State.makeBad_listed hb hl, if_pos hl]
  · rw [State.makeBad_full hb (Nat.not_lt.mp hl), if_neg hl]
    split <;> rfl

theorem State.replaceBlock_refreshFound {c : Nat} {y : BlockMap} (hr : (s.makeBad b .grown).record p = some r)
    (hns : r.refreshExtent = some ns) (ha : (s.makeBad b .grown).map.allocate r.remaining = some (c, y)) :
    s.replaceBlock p i b true = (({ s.makeBad b .grown with map := y }).claimChanged p r
      { r with remaining := r.remaining - 1, refreshExtent := some (ns.set i c) }, some c) := by
  have halloc : (s.makeBad b .grown).allocateFor p (fun b r => r.onList true (replaceAt · i b)) =
      (({ s.makeBad b .grown with map := y }).claimChanged p r
        { r with remaining := r.remaining - 1, refreshExtent := some (ns.set i c) }, some c) := by
    rw [State.allocateFor, hr]
    dsimp only
    rw [ha]
    dsimp only
    rw [PicRecord.onList, if_pos rfl, PicRecord.onRefresh]
    rw [hns]
    rfl
  unfold State.replaceBlock
  dsimp only
  rw [halloc]

theorem State.replaceBlock_refreshNone (hr : (s.makeBad b .grown).record p = some r)
    (hns : r.refreshExtent = some ns) (ha : (s.makeBad b .grown).map.allocate r.remaining = none) :
    s.replaceBlock p i b true =
      ((s.makeBad b .grown).setRecord p { r with refreshExtent := some (ns.eraseIdx i) }, none) := by
  have halloc : (s.makeBad b .grown).allocateFor p (fun b r => r.onList true (replaceAt · i b)) =
      (s.makeBad b .grown, none) := by
    rw [State.allocateFor, hr]
    dsimp only
    rw [ha]
  have hlist : r.onList true (removeAt · i) = { r with refreshExtent := some (ns.eraseIdx i) } := by
    rw [PicRecord.onList, if_pos rfl, PicRecord.onRefresh, hns]
    rfl
  unfold State.replaceBlock
  dsimp only
  rw [halloc]
  dsimp only
  rw [hr]
  dsimp only
  rw [hlist]
  exact congrArg (·, none) (if_pos rfl)

section
variable (hc : Canonical s) (hf : s.chain.refresh = some f) (hn : findNumber f.number s.cat.places = some (p, r))
  (hns : r.refreshExtent = some ns) (hi : i = f.position - 1) (hb : b = ns.getD i 0) (ht : b < s.map.total)
include hc hf hn hns hi hb ht

/-- A FAIL in the refresh whose position gets another block (R85). -/
theorem State.refreshReplace_found (hlt : i < ns.length) {c : Nat} {y : BlockMap}
    (ha : (s.map.badAt b).allocate r.remaining = some (c, y)) :
    let v := Recovery.again b f.page f.recovery
    let t := s.refreshReplace
    t.map = y ∧ t.writer = (if r.remaining = 0 then (s.makeBad b .grown).writer
      else (s.makeBad b .grown).writer.mark (.place p)) ∧ t.events = (s.makeBad b .grown).events ∧
    t.record p = some { r with refreshExtent := some (ns.set i c), remaining := r.remaining - 1 } ∧
    t.chain = { s.chain with refresh := some { f with recovery := some v } } ∧
    (0 < v.good → t.flash.refresh = some (.copyBack v.source 0 c 0)) ∧
    (v.good = 0 → t.flash.refresh = some (.program c f.page f.buffer)) := by
  intro v t
  obtain ⟨hmap, hcat, -, -, -, -, -⟩ := State.makeBad_spec ht
  have hchain : (s.makeBad b .grown).chain = s.chain := by
    by_cases hl : s.map.badList.length < 256
    · rw [State.makeBad_listed ht hl]
    · rw [State.makeBad_full ht (Nat.not_lt.mp hl)]
      split <;> rfl
  have hrec : (s.makeBad b .grown).record p = some r := by
    rw [State.record, hcat]
    exact hc.record_of_number hn
  let r' : PicRecord := { r with remaining := r.remaining - 1, refreshExtent := some (ns.set i c) }
  have hrepl := State.replaceBlock_refreshFound (i := i) hrec hns (hmap ▸ ha)
  rw [State.claimChanged_refresh (s := { s.makeBad b .grown with map := y }) (r' := r') rfl] at hrepl
  generalize hw : ({ s.makeBad b .grown with
    map := y, cat := { (s.makeBad b .grown).cat with places := Table.put p r' (s.makeBad b .grown).cat.places }
    writer := if r.remaining = 0 then (s.makeBad b .grown).writer
      else (s.makeBad b .grown).writer.mark (.place p) } : State) = w at hrepl
  have hrun : t = w.refreshRecoverNext v := by
    change s.refreshReplace = _
    rw [State.refreshReplace, hf, refreshRecord_some hf hn]
    dsimp only
    rw [show refreshTarget f r = b by rw [hb, hi, refreshTarget, hns]; rfl, ← hi, hrepl]
    rfl
  have hwf : w.chain.refresh = some f := by rw [← hw]; exact hchain ▸ hf
  have hwn : findNumber f.number w.cat.places = some (p, r') := by
    rw [← hw]
    change findNumber f.number (Table.put p r' (s.makeBad b .grown).cat.places) = _
    rw [hcat]
    exact findNumber_put_same hc.1.1 hn rfl
  have hnew : (ns.set i c).getD (f.position - 1) 0 = c := by simp [← hi, hlt]
  have hwrec : w.record p = some r' := by
    rw [← hw]
    exact Table.get_put_same _ _ _
  have hwc : w.chain = s.chain := by
    rw [← hw]
    exact hchain
  rw [hrun]
  by_cases hgood : 0 < v.good
  · rw [State.refreshRecoverNext_copies hwf hwn rfl hgood, hnew]
    refine ⟨?_, ?_, ?_, hwrec, by rw [hwc], fun _ => rfl, fun h => absurd h (Nat.ne_of_gt hgood)⟩ <;> rw [← hw]
  · rw [State.refreshRecoverNext_programs hwf hwn rfl (Nat.not_lt.mp hgood), hnew]
    refine ⟨?_, ?_, ?_, hwrec, by rw [hwc], fun h => absurd h hgood, fun _ => rfl⟩ <;> rw [← hw]

/-- A FAIL in the refresh with no block found abandons it (R85, R87). -/
theorem State.refreshReplace_none (hidle : s.flash.refreshIdle)
    (ha : (s.map.badAt b).allocate r.remaining = none) :
    s.refreshReplace = (({ s.makeBad b .grown with
      cat := { s.cat with places := Table.put p { r with refreshExtent := some (ns.eraseIdx i) } s.cat.places } }) :
      State).refreshLeft
        (((s.map.badAt b).release r.remaining).returnAll .ready (ns.eraseIdx i)) p
        { r with refreshExtent := none, remaining := 0, holds := r.holds - 1 }
        (s.chain.refreshMarks ++ (Recovery.again b f.page f.recovery).failed) := by
  obtain ⟨hmap, hcat, -, hflash, -, -, -⟩ := State.makeBad_spec ht
  have hchain : (s.makeBad b .grown).chain = s.chain := by
    by_cases hl : s.map.badList.length < 256
    · rw [State.makeBad_listed ht hl]
    · rw [State.makeBad_full ht (Nat.not_lt.mp hl)]
      split <;> rfl
  have hrec : (s.makeBad b .grown).record p = some r := by
    rw [State.record, hcat]
    exact hc.record_of_number hn
  have hrepl := State.replaceBlock_refreshNone (i := i) hrec hns (hmap ▸ ha)
  let r' : PicRecord := { r with refreshExtent := some (ns.eraseIdx i) }
  let w : State := { s.makeBad b .grown with
    cat := { s.cat with places := Table.put p r' s.cat.places }
    chain := { s.chain with refresh := some { f with recovery := some (Recovery.again b f.page f.recovery) } } }
  have hset : ((s.makeBad b .grown).setRecord p r').onRefresh
      (fun g => { g with recovery := some (Recovery.again b f.page f.recovery) }) = w := by
    simp only [State.onRefresh, State.onChain, State.setRecord, hchain, hcat, hf, Option.map_some, w]
  have hrun : s.refreshReplace = w.refreshAbandon false := by
    rw [← hset, State.refreshReplace, hf, refreshRecord_some hf hn]
    dsimp only
    rw [show refreshTarget f r = b by rw [hb, hi, refreshTarget, hns]; rfl, ← hi, hrepl]
    rfl
  have hwidle : w.flash.refreshIdle := by
    change (s.makeBad b .grown).flash.refreshIdle
    rw [hflash]
    exact hidle
  have hwrec := refreshRecord_some (s := w)
    (f := { f with recovery := some (Recovery.again b f.page f.recovery) }) rfl (findNumber_put_same (x := r') hc.1.1 hn rfl)
  rw [hrun, State.refreshAbandon_eq hwidle hwrec, refreshFailed_of (c := w.chain) rfl,
    show w.map = s.map.badAt b from hmap]
  simp only [Bool.or_false, State.refreshLeft, w, r', hchain]
  rfl

end

end Sys2Proof.Machine
end

section
/-! PROOFS. A refresh copies and swaps (R83 to R88). -/

namespace Sys2Proof.Machine

variable {s : State} {n p : Nat} {r : PicRecord} {f : Refresh} {ns : List Nat} {m : Moment}

/-! ### REFRESH -/

theorem refreshMarks_idle (h : s.flash.refreshIdle) : s.flash.marking .refresh = false := by
  obtain ⟨hr, hx⟩ := h
  rw [← Bool.not_eq_true, FlashPort.marking_iff]
  rintro (⟨b, ho⟩ | ⟨x, b, hf, hc, -⟩)
  · exact absurd (hr.symm.trans ho) (by simp)
  · exact hx x hf hc

theorem exec_refresh_error (h : Taking s) (m : Moment) {e : Code} (hx : refreshCheck n s = .error e) :
    exec (.refresh m n) s = .next ((taken 12 m s).respond 12 (refuse e)) := by
  refine (request_taking h 12 m _).trans ?_
  rw [show refreshCheck n (taken 12 m s) = refreshCheck n s from rfl, hx]

theorem exec_refresh_ok (h : Taking s) (m : Moment) (hx : refreshCheck n s = .ok (p, r)) :
    exec (.refresh m n) s = .next (((taken 12 m s).refreshStart p r).respond 12 ok) := by
  refine (request_taking h 12 m _).trans ?_
  rw [show refreshCheck n (taken 12 m s) = refreshCheck n s from rfl, hx]

section
variable (hm : s.map.mode ≠ .preparing) (h1 : 1 ≤ n) (h2 : n ≤ 9999)
include hm h1 h2

theorem refreshCheck_unknown (hf : findNumber n s.cat.places = none) : refreshCheck n s = .error .noSuchRecord := by
  rw [refreshCheck, if_neg hm, if_neg (by simp [(numberOk_iff n).mpr ⟨h1, h2⟩]), hf]

theorem refreshCheck_state (hf : findNumber n s.cat.places = some (p, r)) (hs : r.state ≠ .stored) :
    refreshCheck n s = .error .wrongState := by
  rw [refreshCheck, if_neg hm, if_neg (by simp [(numberOk_iff n).mpr ⟨h1, h2⟩]), hf]
  exact if_pos hs

theorem refreshCheck_busy (hf : findNumber n s.cat.places = some (p, r)) (hs : r.state = .stored)
    (hb : s.chain.refresh ≠ none ∨ s.chain.refreshMarks ≠ [] ∨ s.flash.marking .refresh = true) :
    refreshCheck n s = .error .busy := by
  rw [refreshCheck, if_neg hm, if_neg (by simp [(numberOk_iff n).mpr ⟨h1, h2⟩]), hf]
  refine (if_neg (not_not_intro hs)).trans (if_pos ?_)
  obtain hb | hb | hb := hb
  · simp [Option.isSome_iff_ne_none.mpr hb]
  · simp [hb]
  · simp [hb]

theorem refreshCheck_free (hf : findNumber n s.cat.places = some (p, r)) (hs : r.state = .stored)
    (hn : s.chain.refresh = none) (hk : s.chain.refreshMarks = []) (hi : s.flash.refreshIdle) : refreshCheck n s =
      if s.map.mode = .readOnly then .error .storeReadOnly
      else if s.map.mode = .unprepared then .error .storeUnprepared
      else if !s.map.canReserve r.extent.length then .error .noSpace
      else .ok (p, r) := by
  rw [refreshCheck, if_neg hm, if_neg (by simp [(numberOk_iff n).mpr ⟨h1, h2⟩]), hf]
  exact (if_neg (not_not_intro hs)).trans (if_neg (by simp [hn, hk, refreshMarks_idle hi]))

end

/-- A refresh starts with the reservation, the hold, the first block and the first read (R84, R85). -/
theorem State.refreshStart_eq (hc : Canonical s) (hf : findNumber n s.cat.places = some (p, r)) (hi : s.flash.refreshIdle)
    (hk : s.chain.refreshMarks = []) {x : PictureFields} (hx : r.picture = some x) {c : Nat} {y : BlockMap}
    (ha : (s.map.reserve r.extent.length).allocate r.extent.length = some (c, y)) :
    (s.refreshStart p r).map = y ∧ (s.refreshStart p r).record p = some { r with
      remaining := r.extent.length - 1, holds := r.holds + 1, refreshExtent := some [c] } ∧
    (s.refreshStart p r).chain.refresh = some { number := n, position := 1, page := 0, pages := (x.length + 4095) / 4096
                                                buffer := [], recovery := none } ∧
    (s.refreshStart p r).flash.refresh = some (.pageRead (r.extent.getD 0 0) 0) ∧
    (s.refreshStart p r).writer = s.writer.mark (.place p) := by
  let r' : PicRecord := { r with remaining := r.extent.length, holds := r.holds + 1, refreshExtent := some [] }
  let g : Refresh :=
    { number := n, position := 1, page := 0, pages := (x.length + 4095) / 4096, buffer := [], recovery := none }
  let w : State := { s with
    map := s.map.reserve r.extent.length
    cat := { s.cat with places := Table.put p r' s.cat.places }
    writer := s.writer.mark (.place p)
    chain := { s.chain with refresh := some g } }
  have hg : ({ number := r.number.getD 0, position := 1, page := 0
               pages := pagesOf (match r.picture with | some x => x.length | none => 0)
               buffer := [], recovery := none } : Refresh) = g := by
    rw [(findNumber_mem hf).2, hx] <;> rfl
  have hstart : s.refreshStart p r = w.refreshKick :=
    congrArg (fun g => ({ w with chain := { s.chain with refresh := some g } } : State).refreshKick) hg
  have hput : findNumber g.number w.cat.places = some (p, r') := findNumber_put_same (x := r') hc.1.1 hf rfl
  rw [hstart, State.refreshKick_page (s := w) hi hk, State.refreshRead_found (s := w) (f := g) (r := r') rfl
    (refreshRecord_some (s := w) (f := g) rfl hput) rfl (Table.get_put_same _ _ _) rfl ha]
  refine ⟨rfl, Table.get_put_same _ _ _, rfl, rfl, ?_⟩
  change (if r.extent.length = 0 then s.writer.mark (.place p) else (s.writer.mark (.place p)).mark (.place p)) = _
  rw [Writer.mark_mark, ite_self]

/-! ### Rows -/

section
variable {x : InFlightOp} (hp : s.supply.powered = true) (hx : s.flash.inFlight = some x)
  (hcl : x.claimant = .refresh) (hdue : s.flash.protectDue = false)
include hp hx hcl hdue

theorem exec_refreshRead (hk : x.op.isRead = true) (data : PageRead) : exec (.pageReadDone m data) s = .next
    (if x.discard = true then ((s.arrive m).flashAt { s.flash with inFlight := none }).refreshKick
    else ((s.arrive m).flashAt { s.flash with inFlight := none }).refreshPageRead data) := by
  rw [exec_pageReadDone hp hx m hk, State.landed_free (by exact hdue), pageReadResult, hcl]
  rfl

theorem exec_refreshProgram (hk : x.op.isProgram = true) (pass : Bool) : exec (.pageProgramDone m pass) s = .next
    (if x.discard = true then ((s.arrive m).flashAt { s.flash with inFlight := none }).refreshKick
    else ((s.arrive m).flashAt { s.flash with inFlight := none }).refreshProgramDone pass) := by
  rw [exec_pageProgramDone hp hx m hk, hcl, State.landed_free (by exact hdue)] <;> rfl

theorem exec_refreshCopy (hk : x.op.isCopy = true) (src : CopyRead) (pass : Bool) :
    exec (.copyBackDone m src pass) s = .next
    (if x.discard = true then ((s.arrive m).flashAt { s.flash with
      inFlight := none, register := some (src.data, pageCodes src.data) }).refreshKick
    else ((s.arrive m).flashAt { s.flash with
      inFlight := none, register := some (src.data, pageCodes src.data) }).refreshCopyDone src.counts pass) := by
  rw [exec_copyBackDone hp hx m hk, hcl, State.landed_free (by exact hdue)] <;> rfl

theorem exec_refreshMark (hk : x.op.isMark = true) (pass : Bool) : exec (.grownMarkProgramDone m pass) s = .next
    (((s.arrive m).flashAt { s.flash with inFlight := none }).refreshKick) := by
  rw [exec_grownMarkProgramDone hp hx m hk, hcl, State.landed_free (by exact hdue)] <;> rfl

/-- A grown mark done, or a discarded result, leads to what is owed next (R87). -/
theorem exec_refreshGoesOn {q : Instr} {reg : Option (List Byte × List (List Byte))}
    (h : (∃ b ok, x.op = .grownMark b ∧ q = .grownMarkProgramDone m ok ∧ reg = s.flash.register) ∨
      (x.discard = true ∧
        ((∃ b g data, x.op = .pageRead b g ∧ q = .pageReadDone m data ∧ reg = s.flash.register) ∨
          (∃ b g d pass, x.op = .program b g d ∧ q = .pageProgramDone m pass ∧ reg = s.flash.register) ∨
          (∃ (b g c h : Nat) (src : CopyRead) (pass : Bool), x.op = .copyBack b g c h ∧ q = .copyBackDone m src pass ∧
            reg = some (src.data, pageCodes src.data))))) :
    exec q s = .next ((s.arrive m).flashAt { s.flash with inFlight := none, register := reg }).refreshKick := by
  obtain ⟨b, ok, ho, rfl, rfl⟩ | ⟨hd, ⟨b, g, data, ho, rfl, rfl⟩ | ⟨b, g, d, pass, ho, rfl, rfl⟩ |
    ⟨b, g, c, h, src, pass, ho, rfl, rfl⟩⟩ := h
  · exact exec_refreshMark hp hx hcl hdue (by rw [ho]; rfl) ok
  · exact (exec_refreshRead hp hx hcl hdue (by rw [ho]; rfl) data).trans (congrArg _ (if_pos hd))
  · exact (exec_refreshProgram hp hx hcl hdue (by rw [ho]; rfl) pass).trans (congrArg _ (if_pos hd))
  · exact (exec_refreshCopy hp hx hcl hdue (by rw [ho]; rfl) src pass).trans (congrArg _ (if_pos hd))

end

/-! ### Results -/

theorem State.refreshPageRead_good (hf : s.chain.refresh = some f) (hn : findNumber f.number s.cat.places = some (p, r))
    (hns : r.refreshExtent = some ns) {data : PageRead} (hk : ∀ c ∈ data.counts, c ≠ SectorCount.uncorrectable) :
    s.refreshPageRead data = { s with
      chain := { s.chain with refresh := some { f with buffer := data.data } }
      flash := { s.flash with refresh := some (.program (ns.getD (f.position - 1) 0) f.page data.data) } } := by
  have ha : ¬anyUncorrectable data.counts = true := by
    rw [anyUncorrectable_iff]
    exact fun h => hk _ h rfl
  have hon : s.onRefresh (fun r => { r with buffer := data.data }) =
      { s with chain := { s.chain with refresh := some { f with buffer := data.data } } } := by
    rw [State.onRefresh, State.onChain, hf]
    rfl
  rw [State.refreshPageRead, if_neg ha, hon]
  exact State.refreshAskProgram_eq
    (s := { s with chain := { s.chain with refresh := some { f with buffer := data.data } } })
    (f := { f with buffer := data.data }) rfl (refreshRecord_some (f := { f with buffer := data.data }) rfl hn) hns

theorem State.refreshPageRead_bad {data : PageRead} (hk : SectorCount.uncorrectable ∈ data.counts) :
    s.refreshPageRead data = s.refreshAbandon true := if_pos ((anyUncorrectable_iff _).mpr hk)

/-- The refresh after a page that has passed, its recovery over (R85). -/
def State.refreshPassed (f : Refresh) (s : State) : State :=
  { s with chain := { s.chain with refreshMarks := refreshFailed s.chain, refresh := some { f with recovery := none } } }

theorem State.refreshProgramDone_last (hf : s.chain.refresh = some f)
    (hl : f.pages ≤ (f.position - 1) * 64 + f.page + 1) :
    s.refreshProgramDone true = (s.refreshPassed f).refreshComplete := by
  rw [State.refreshProgramDone, hf]
  refine (if_pos rfl).trans ?_
  dsimp only
  rw [State.refreshRecovered_eq hf]
  exact if_neg (Nat.not_lt.mpr hl)

/-- The page after a page that has passed. -/
def Refresh.after (f : Refresh) : Refresh :=
  { f with
    recovery := none, page := if f.page + 1 = 64 then 0 else f.page + 1
    position := if f.page + 1 = 64 then f.position + 1 else f.position }

theorem State.refreshProgramDone_more (hf : s.chain.refresh = some f)
    (hl : (f.position - 1) * 64 + f.page + 1 < f.pages) : s.refreshProgramDone true = ({ s with chain := { s.chain with
      refreshMarks := refreshFailed s.chain, refresh := some f.after } } : State).refreshKick := by
  have hnext : Refresh.next { f with recovery := none } = f.after := by
    rw [Refresh.next, Refresh.after, show Config.blockPages = 64 from rfl]
    dsimp only
    by_cases h : f.page + 1 = 64
    · rw [if_pos h, if_pos h, if_pos h]
    · rw [if_neg h, if_neg h, if_neg h]
  rw [State.refreshProgramDone, hf]
  refine (if_pos rfl).trans ?_
  dsimp only
  rw [State.refreshRecovered_eq hf]
  refine (if_pos hl).trans ?_
  rw [← hnext]
  rfl

theorem State.refreshProgramDone_fail (hf : s.chain.refresh = some f) :
    s.refreshProgramDone false = s.refreshReplace := by
  rw [State.refreshProgramDone, hf]
  rfl

section
variable {v : Recovery} (hf : s.chain.refresh = some f) (hv : f.recovery = some v)
include hf hv

theorem State.refreshCopyDone_bad {counts : List SectorCount} (hk : SectorCount.uncorrectable ∈ counts) (pass : Bool) :
    s.refreshCopyDone counts pass = s.refreshAbandon false := by
  obtain ⟨number, position, page, pages, buffer, recovery⟩ := f
  subst hv
  rw [State.refreshCopyDone, hf]
  exact if_pos ((anyUncorrectable_iff _).mpr hk)

theorem State.refreshCopyDone_good {counts : List SectorCount} (hk : ∀ k ∈ counts, k ≠ SectorCount.uncorrectable)
    (pass : Bool) : s.refreshCopyDone counts pass =
      if pass then s.refreshRecoverNext { v with copied := v.copied + 1 } else s.refreshReplace := by
  obtain ⟨number, position, page, pages, buffer, recovery⟩ := f
  subst hv
  have ha : ¬anyUncorrectable counts = true := by
    rw [anyUncorrectable_iff]
    exact fun h => hk _ h rfl
  rw [State.refreshCopyDone, hf]
  exact if_neg ha

end

end Sys2Proof.Machine
end

section
/-! PROOFS. The refresh from its request to its end (R83 to R88). -/

namespace Sys2Proof.Machine

variable {s : State} {p : Nat} {r : PicRecord} {f : Refresh} {ns : List Nat} {m : Moment}

/-! ### The refresh that has left -/

theorem State.refreshLeft_record (y : BlockMap) (p : Nat) (r : PicRecord) (marks : List Nat) (s : State) :
    (s.refreshLeft y p r marks).record p = some r := Table.get_put_same _ _ _

theorem release_returned_reserved (w : ReturnWait) (k : Nat) (bs : List Nat) (y : BlockMap) :
    ((y.release k).returnAll w bs).reserved = y.reserved - k := BlockMap.returnAll_reserved w bs _

theorem release_returned_inUse {y : BlockMap} (h : mapOk y) (w : ReturnWait) (k : Nat) {bs : List Nat} :
    ∀ b ∈ bs, y.stateOf b = .inUse → ((y.release k).returnAll w bs).stateOf b = .dirty w := fun _ hb hi =>
  BlockMap.returnAll_inUse (m := y.release k) h w hb hi

theorem refreshMarks_empty {c : ReadChain} (hf : c.refresh = some f) (hm : c.refreshMarks = []) (hr : f.recovery = none) :
    refreshFailed c = [] := by
  rw [refreshFailed_of hf, hm, hr]
  rfl

theorem refreshMarks_failed {c : ReadChain} {v : Recovery} (hf : c.refresh = some f) (hm : c.refreshMarks = [])
    (hr : f.recovery = some v) : refreshFailed c = v.failed := by
  rw [refreshFailed_of hf, hm, hr]
  rfl

/-- Settles O44: the request, the results of a refresh without and with a recovery, and what a discarded result leaves. -/
theorem refreshCopiesAndSwaps : Obligations.RefreshCopiesAndSwaps := by
  unfold Obligations.RefreshCopiesAndSwaps
  refine ⟨fun m s n h hc => ?_, fun m s x f p r ns hp hx hcl hd hdue hidle hf hm hn hns hrv hc => ?_,
    fun m s x f p r ns hp hx hcl hd hdue hidle hf hm hn hns hc => ?_, fun m s x q reg hp hx hcl hdue hidle hq => ?_⟩
  · intro u refused
    have hrefuse : ∀ {e}, refreshCheck n s = .error e → refused e := fun he => exec_refresh_error h m he
    refine ⟨fun hmode => hrefuse (if_pos hmode), fun hmode hbad => hrefuse ?_, fun hmode h1 h2 hf =>
      hrefuse (refreshCheck_unknown hmode h1 h2 hf), fun hmode h1 h2 p r hf =>
      ⟨fun hs => hrefuse (refreshCheck_state hmode h1 h2 hf hs), fun hs hbusy => hrefuse ?_,
        fun hs hno hk hport hfly => ?_⟩⟩
    · refine (if_neg hmode).trans (if_pos ?_)
      rw [Bool.not_eq_true', ← Bool.not_eq_true, numberOk_iff]
      omega
    · refine refreshCheck_busy hmode h1 h2 hf hs (hbusy.imp_right (Or.imp_right fun hb => ?_))
      exact (FlashPort.marking_iff _ _).mpr hb
    · have hcheck := refreshCheck_free hmode h1 h2 hf hs hno hk ⟨hport, hfly⟩
      refine ⟨fun hro => hrefuse (hcheck.trans (if_pos hro)), fun hun => hrefuse (hcheck.trans ?_), fun hw hlt =>
        hrefuse (hcheck.trans ?_), fun hw hle c y x ha hx => ?_⟩
      · rw [if_neg (by simp [hun]), if_pos hun]
      · rw [if_neg (by simp [hw]), if_neg (by simp [hw]), if_pos]
        simp [BlockMap.canReserve, hw, hlt]
      · rw [if_neg (by simp [hw]), if_neg (by simp [hw]), if_neg (by simp [BlockMap.canReserve, hw, hle])] at hcheck
        obtain ⟨hmap, hrec, hch, hfl, hwr⟩ := State.refreshStart_eq (s := u) hc hf ⟨hport, hfly⟩ hk hx ha
        exact ⟨_, exec_refresh_ok h m hcheck, hmap, hrec, hch, hfl, hwr, rfl⟩
  · intro u page
    let w : State := u.flashAt { s.flash with inFlight := none }
    have hw : w.flash.refreshIdle := FlashPort.refreshIdle_landed hidle s.flash.register
    have hrecord : refreshRecord w = some (p, r) := refreshRecord_some (s := w) hf hn
    have hmap := hc.2.2.2.1
    have hdisc : ¬x.discard = true := by simp [hd]
    have hgetD : r.refreshExtent.getD [] = ns := by rw [hns]; rfl
    have hclean : refreshFailed w.chain = [] := refreshMarks_empty hf hm hrv
    refine ⟨fun b g data ho => ?_, fun b g d ho => ?_⟩
    · have hrun := (exec_refreshRead hp hx hcl hdue (m := m) (by rw [ho]; rfl) data).trans (congrArg _ (if_neg hdisc))
      refine ⟨fun hk => hrun.trans (congrArg _ (State.refreshPageRead_good (s := w) hf hn hns hk)), fun hk => ?_⟩
      rw [State.refreshPageRead_bad hk, State.refreshAbandon_eq hw hrecord, hgetD] at hrun
      refine ⟨_, hrun, rfl, ?_, rfl, release_returned_reserved .ready _ _ _, release_returned_inUse hmap .ready _, rfl⟩
      rw [State.refreshLeft_record, Bool.or_true]
    · have hrun := (exec_refreshProgram hp hx hcl hdue (m := m) (by rw [ho]; rfl) true).trans
        (congrArg _ (if_neg hdisc))
      have hmore : page + 1 < f.pages → exec (.pageProgramDone m true) s = .next (({ w with chain := { s.chain with
          refresh := some f.after } } : State).refreshRead) := fun hlt => by
        rw [State.refreshProgramDone_more (s := w) hf hlt] at hrun
        refine hrun.trans (congrArg _ ?_)
        rw [hclean]
        refine (State.refreshKick_page (by exact hw) rfl).trans ?_
        rw [← hm]
        rfl
      refine ⟨fun hlt hpg => ?_, fun hlt hpg => ⟨fun c y ha => ?_, fun ha => ?_⟩, fun hle => ?_⟩
      · have hafter : f.after = { f with page := f.page + 1 } := by
          rw [Refresh.after, if_neg (by omega), if_neg (by omega), ← hrv]
        rw [hmore hlt, hafter]
        exact congrArg _ (State.refreshRead_inside (s := { w with chain := { s.chain with
          refresh := some { f with page := f.page + 1 } } }) (f := { f with page := f.page + 1 }) rfl
          (refreshRecord_some (f := { f with page := f.page + 1 }) rfl hn) (Nat.succ_ne_zero _))
      · have hafter : f.after = { f with position := f.position + 1, page := 0 } := by
          rw [Refresh.after, if_pos hpg, if_pos hpg, ← hrv]
        rw [hmore hlt, hafter, State.refreshRead_found (s := { w with chain := { s.chain with
          refresh := some { f with position := f.position + 1, page := 0 } } })
          (f := { f with position := f.position + 1, page := 0 }) rfl
          (refreshRecord_some (f := { f with position := f.position + 1, page := 0 }) rfl hn) rfl
          (by exact hc.record_of_number hn) hns ha]
        exact ⟨_, rfl, rfl, rfl, Table.get_put_same _ _ _, fun j hj => Table.get_put_other hj _ _, rfl, rfl⟩
      · have hafter : f.after = { f with position := f.position + 1, page := 0 } := by
          rw [Refresh.after, if_pos hpg, if_pos hpg, ← hrv]
        let z : State := { w with chain := { s.chain with
          refresh := some { f with position := f.position + 1, page := 0 } } }
        have hzrec : refreshRecord z = some (p, r) :=
          refreshRecord_some (s := z) (f := { f with position := f.position + 1, page := 0 }) rfl hn
        have hread := State.refreshRead_none (s := z) rfl hzrec rfl (by exact hc.record_of_number hn) ha
        rw [State.refreshAbandon_eq (s := z) hw hzrec, hgetD] at hread
        rw [hmore hlt, hafter, hread]
        refine ⟨_, rfl, rfl, release_returned_reserved .ready _ _ _, rfl, ?_, release_returned_inUse hmap .ready _, rfl⟩
        rw [State.refreshLeft_record, Bool.or_false]
      · rw [State.refreshProgramDone_last (s := w) hf hle, State.refreshComplete_eq (s := w.refreshPassed f) hw
          (refreshRecord_some (f := { f with recovery := none }) rfl hn), hgetD] at hrun
        exact ⟨_, hrun, rfl, State.refreshLeft_record _ _ _ _ _, release_returned_reserved (.begins p) _ _ _, rfl,
          release_returned_inUse hmap (.begins p) _, rfl⟩
  · intro u i b registered abandoned
    have hdisc : ¬x.discard = true := by simp [hd]
    have hmap := hc.2.2.2.1
    have hgetD : r.refreshExtent.getD [] = ns := by rw [hns]; rfl
    let port (reg : Option (List Byte × List (List Byte))) : State :=
      u.flashAt { s.flash with inFlight := none, register := reg }
    have hport : ∀ reg, (port reg).flash.refreshIdle := fun reg => FlashPort.refreshIdle_landed hidle reg
    have hrecord : ∀ reg, refreshRecord (port reg) = some (p, r) := fun reg =>
      refreshRecord_some (s := port reg) hf hn
    have habandoned : ∀ (z : State) (y : BlockMap) (r' : PicRecord) (marks : List Nat) (w : Writer), z.writer = w →
        y.reserved = s.map.reserved - r.remaining →
        r' = { r with refreshExtent := none, remaining := 0, holds := r.holds - 1 } →
        abandoned (z.refreshLeft y p r' marks) w marks := by
      rintro z y r' marks w rfl hres rfl
      refine ⟨rfl, rfl, State.refreshLeft_record _ _ _ _ _, hres, ?_, ?_⟩
      · rintro k tl rfl
        exact ⟨rfl, rfl⟩
      · rintro rfl
        exact ⟨rfl, rfl⟩
    refine ⟨fun q hq hlt ht => ?_, fun v a g c h src ho hv => ?_, fun v a g d k tl ho hv hk hlt => ?_,
      fun v a g d k tl ho hv hk hle => ?_⟩
    · obtain ⟨reg, hrun⟩ : ∃ reg, exec q s = .next (port reg).refreshReplace := by
        obtain ⟨⟨a, g, d, ho⟩, rfl⟩ | ⟨a, g, c, h, src, ho, rfl, hrv, hk⟩ := hq
        · refine ⟨s.flash.register, (exec_refreshProgram hp hx hcl hdue (m := m) (by rw [ho]; rfl) false).trans
            (congrArg _ ((if_neg hdisc).trans ?_))⟩
          exact State.refreshProgramDone_fail hf
        · obtain ⟨v, hv⟩ := Option.ne_none_iff_exists'.mp hrv
          refine ⟨some (src.data, pageCodes src.data), (exec_refreshCopy hp hx hcl hdue (m := m) (by rw [ho]; rfl) src
            false).trans (congrArg _ ((if_neg hdisc).trans ?_))⟩
          exact State.refreshCopyDone_good (by exact hf) hv hk false
      obtain ⟨-, -, -, -, -, hro, hno⟩ := State.makeBad_spec (s := port reg) ht
      have hwriter := State.makeBad_writer (s := port reg) ht
      intro v bad full w
      refine ⟨fun c y ha => ?_, fun ha => ?_⟩
      · obtain ⟨hy, hw, hev, hrec, hch, hcopy, hprog⟩ := State.refreshReplace_found (s := port reg) hc hf hn hns rfl rfl ht
          hlt ha
        rw [hwriter] at hw
        exact ⟨_, hrun, hy, hw, fun h => hev.trans (hro h), fun h => hev.trans (hno h), hrec, hch, hcopy, hprog⟩
      · rw [State.refreshReplace_none (s := port reg) hc hf hn hns rfl rfl ht (hport reg) ha] at hrun
        have hbad : (s.map.badAt b).stateOf b = .bad := by
          rw [BlockMap.stateOf, BlockMap.badAt, Table.get_put_same]
          rfl
        have hne : (s.map.badAt b).stateOf b ≠ .inUse := by
          rw [hbad]
          decide
        have hok : mapOk (s.map.badAt b) := by
          obtain ⟨hmk, -⟩ := State.makeBad_spec (s := port reg) ht
          have hkept := (State.makeBad_kept (q := s.pending) (s := port reg) ⟨rfl, hc⟩ b .grown).map
          rwa [hmk] at hkept
        refine ⟨_, hrun, ?_, ?_, ?_, fun h => ?_, fun h => ?_⟩
        · have hmarks : s.chain.refreshMarks ++ (Recovery.again b f.page f.recovery).failed = v.failed ++ [b] := by
            rw [hm]
            rfl
          change abandoned (State.refreshLeft _ p _ (s.chain.refreshMarks ++ _) _) w _
          rw [hmarks]
          exact habandoned _ _ _ _ _ hwriter (release_returned_reserved .ready _ _ _) rfl
        · exact (BlockMap.returnAll_kept (y := (s.map.badAt b).release r.remaining) hok .ready _ hne).trans hbad
        · have hmode := congrArg BlockMap.mode
            (BlockMap.returnAll_frame .ready (ns.eraseIdx i) ((s.map.badAt b).release r.remaining))
          exact hmode
        · exact congrArg (fun e => (State.setFlag .maintenanceDone { s with events := e }).events) (hro h)
        · exact congrArg (fun e => (State.setFlag .maintenanceDone { s with events := e }).events) (hno h)
    · have hrun : ∀ pass, exec (.copyBackDone m src pass) s =
          .next ((port (some (src.data, pageCodes src.data))).refreshCopyDone src.counts pass) := fun pass =>
        (exec_refreshCopy hp hx hcl hdue (m := m) (by rw [ho]; rfl) src pass).trans (congrArg _ (if_neg hdisc))
      intro claims
      refine ⟨fun hk => ?_, fun hk pass => ?_⟩
      · have hgood := (hrun true).trans (congrArg _ (State.refreshCopyDone_good (by exact hf) hv hk true))
        refine ⟨fun hlt => hgood.trans (congrArg _ ?_), fun hle => hgood.trans (congrArg _ ?_)⟩
        · exact State.refreshRecoverNext_copies (s := port (some (src.data, pageCodes src.data)))
            (v := { v with copied := v.copied + 1 }) hf hn hns hlt
        · exact State.refreshRecoverNext_programs (s := port (some (src.data, pageCodes src.data)))
            (v := { v with copied := v.copied + 1 }) hf hn hns hle
      · have hbad := hrun pass
        rw [State.refreshCopyDone_bad (by exact hf) hv hk, State.refreshAbandon_eq (hport _) (hrecord _),
          refreshMarks_failed (by exact hf) (by exact hm) hv] at hbad
        exact ⟨_, hbad, habandoned _ _ _ _ _ rfl (release_returned_reserved .ready _ _ _) (by rw [Bool.or_false]), rfl⟩
    · have hrun := (exec_refreshProgram hp hx hcl hdue (m := m) (by rw [ho]; rfl) true).trans
        (congrArg _ (if_neg hdisc))
      rw [State.refreshProgramDone_more (s := port s.flash.register) hf hlt,
        refreshMarks_failed (by exact hf) (by exact hm) hv, hk] at hrun
      exact hrun.trans (congrArg _ (State.refreshKick_mark (s := { port s.flash.register with chain := { s.chain with
        refreshMarks := k :: tl, refresh := some f.after } }) (hport _) rfl))
    · have hrun := (exec_refreshProgram hp hx hcl hdue (m := m) (by rw [ho]; rfl) true).trans
        (congrArg _ (if_neg hdisc))
      let z : State := (port s.flash.register).refreshPassed f
      have hzrec : refreshRecord z = some (p, r) :=
        refreshRecord_some (s := z) (f := { f with recovery := none }) rfl hn
      have hmarks : refreshFailed z.chain = k :: tl := by
        rw [refreshFailed_of (c := z.chain) (f := { f with recovery := none }) rfl]
        change refreshFailed s.chain ++ [] = _
        rw [List.append_nil, refreshMarks_failed hf hm hv, hk]
      rw [State.refreshProgramDone_last (s := port s.flash.register) hf hle,
        State.refreshComplete_eq (s := z) (hport _) hzrec, hgetD, hmarks] at hrun
      exact ⟨_, hrun, rfl, State.refreshLeft_record _ _ _ _ _, release_returned_reserved (.begins p) _ _ _, rfl,
        release_returned_inUse hmap (.begins p) _, rfl, rfl, rfl⟩
  · intro u idle
    have hrun := exec_refreshGoesOn (m := m) hp hx hcl hdue hq
    let w : State := u.flashAt idle
    have hw : w.flash.refreshIdle := FlashPort.refreshIdle_landed hidle reg
    refine ⟨fun k tl hm => hrun.trans (congrArg _ (State.refreshKick_mark (s := w) hw hm)), fun hm hf => ?_,
      fun f p r ns hm hf hn hns hc => ?_⟩
    · exact hrun.trans (congrArg _ ((State.refreshKick_page (s := w) hw hm).trans (State.refreshRead_idle hf)))
    · have hpage := hrun.trans (congrArg _ (State.refreshKick_page (s := w) hw hm))
      have hrecord : refreshRecord w = some (p, r) := refreshRecord_some (s := w) hf hn
      have hrec : w.record p = some r := hc.record_of_number hn
      refine ⟨fun hpg => hpage.trans (congrArg _ (State.refreshRead_inside (s := w) hf hrecord hpg)),
        fun c y hpg ha => ?_, fun hpg hrv ha => ?_⟩
      · exact ⟨_, hpage.trans (congrArg _ (State.refreshRead_found (s := w) hf hrecord hpg hrec hns ha)), rfl,
          Table.get_put_same _ _ _, rfl, rfl, rfl⟩
      · rw [State.refreshRead_none (s := w) hf hrecord hpg hrec ha, State.refreshAbandon_eq hw hrecord,
          show r.refreshExtent.getD [] = ns by rw [hns]; rfl] at hpage
        refine ⟨_, hpage, rfl, release_returned_reserved .ready _ _ _, rfl, ?_,
          release_returned_inUse hc.2.2.2.1 .ready _, rfl⟩
        rw [State.refreshLeft_record, Bool.or_false]

end Sys2Proof.Machine
end

section
/-! PROOFS. The Metering Unit's requests, its blocks and the block watch (R90 to R97, R103 to R108). -/

namespace Sys2Proof.Machine

variable {s t : State}

/-! ### The exposure -/

/-- The exposure computed afresh, but under a SHOT lock (R98, R107). -/
theorem State.meterInput_eq (s : State) : s.meterInput =
    if s.meter.owner = .shot then s else { s with meter := { s.meter with exposure := computeExposure s } } := rfl

/-- What the computed exposure is a function of: the scene, the setup, the lens and the steadying (R98). -/
theorem computeExposure_congr (hstate : t.meter.state = s.meter.state) (hfiltered : t.meter.filtered = s.meter.filtered)
    (hsetup : t.meter.setup = s.meter.setup) (hzoom : t.zoom = s.zoom) (hsteady : t.steady = s.steady) :
    computeExposure t = computeExposure s := by
  have hscene : reportedScene t.meter = reportedScene s.meter := by rw [reportedScene, hfiltered, reportedScene]
  have hentry (k : Nat) : stationEntry t k = stationEntry s k := by rw [stationEntry, hzoom, stationEntry]
  unfold computeExposure
  rw [hstate, hscene, hzoom, hentry, hsteady, hsetup]

/-- A metering input leaves all of the Metering Unit but the exposure. -/
theorem State.meterInput_meter (s : State) : s.meterInput.meter =
    { s.meter with exposure := if s.meter.owner = .shot then s.meter.exposure else computeExposure s.meterInput } := by
  have hexposure : computeExposure s.meterInput = computeExposure s := by
    rw [State.meterInput_eq]
    split
    · rfl
    · exact computeExposure_congr rfl rfl rfl rfl rfl
  rw [hexposure, State.meterInput_eq]
  split <;> rfl

/-- A metering input leaves all but the exposure, which is that of the state it leaves. -/
theorem State.meterInput_fixed (s : State) : s.meterInput =
    { s with meter := { s.meter with
      exposure := if s.meter.owner = .shot then s.meter.exposure else computeExposure s.meterInput } } := by
  rw [← State.meterInput_meter, State.meterInput_eq]
  split <;> rfl

/-! ### METER SETUP -/

/-- The sensitivity's Sv, chosen or from AUTO (R103). -/
def svOf : Sensitivity → Int
  | .auto b => b
  | .fixed b => b

theorem svOf_iff (x : Sensitivity) (b : Int) : svOf x = b ↔ x = .auto b ∨ x = .fixed b := by
  cases x <;> simp [svOf]

/-- METER SETUP's numbers in range, and MANUAL not with AUTO (R103). -/
structure SetupAllowed (x : MeterSetupFields) (mo : ExposureMode) (se : Sensitivity) : Prop where
  sv : 0 ≤ svOf se ∧ svOf se ≤ 18
  compensation : -9 ≤ x.compensation ∧ x.compensation ≤ 9
  av : 6 ≤ x.av ∧ x.av ≤ 27
  tv : -15 ≤ x.tv ∧ x.tv ≤ 36
  pair : mo = .manual → ∀ b, se ≠ .auto b

/-- The setup that present fields give. -/
def givenSetup (x : MeterSetupFields) (mo : ExposureMode) (p : Pattern) (se : Sensitivity) : MeterSetup :=
  { mode := mo, pattern := p, sensitivity := se, compensation := x.compensation, av := x.av, tv := x.tv }

open Classical in
theorem meterSetupOf_present {x : MeterSetupFields} {mo : ExposureMode} {p : Pattern} {se : Sensitivity}
    (hmode : x.mode = some mo) (hpattern : x.pattern = some p) (hsens : x.sensitivity = some se) :
    meterSetupOf x = if SetupAllowed x mo se then some (givenSetup x mo p se) else none := by
  have hallowed : SetupAllowed x mo se ↔ (0 ≤ svOf se ∧ svOf se ≤ 18) ∧
      (-9 ≤ x.compensation ∧ x.compensation ≤ 9) ∧ (6 ≤ x.av ∧ x.av ≤ 27) ∧ (-15 ≤ x.tv ∧ x.tv ≤ 36) ∧
      (mo = .manual → ∀ b, se ≠ .auto b) :=
    ⟨fun ⟨a, b, c, d, e⟩ => ⟨a, b, c, d, e⟩, fun ⟨a, b, c, d, e⟩ => ⟨a, b, c, d, e⟩⟩
  unfold meterSetupOf
  rw [hmode, hpattern, hsens]
  refine ite_congr (propext ?_) (fun _ => rfl) fun _ => rfl
  rw [hallowed]
  cases se <;> cases mo <;> simp [inRange, svOf, and_assoc]

theorem meterSetupOf_allowed {x : MeterSetupFields} {mo : ExposureMode} {p : Pattern} {se : Sensitivity}
    (hmode : x.mode = some mo) (hpattern : x.pattern = some p) (hsens : x.sensitivity = some se)
    (h : SetupAllowed x mo se) : meterSetupOf x = some (givenSetup x mo p se) :=
  (meterSetupOf_present hmode hpattern hsens).trans (if_pos h)

/-- A setup in force came from present fields that are allowed. -/
theorem meterSetupOf_some {x : MeterSetupFields} {y : MeterSetup} (h : meterSetupOf x = some y) :
    ∃ mo p se, x.mode = some mo ∧ x.pattern = some p ∧ x.sensitivity = some se ∧ SetupAllowed x mo se := by
  obtain hmode | ⟨mo, hmode⟩ := Option.eq_none_or_eq_some x.mode
  · simp [meterSetupOf, hmode] at h
  obtain hpattern | ⟨p, hpattern⟩ := Option.eq_none_or_eq_some x.pattern
  · simp [meterSetupOf, hmode, hpattern] at h
  obtain hsens | ⟨se, hsens⟩ := Option.eq_none_or_eq_some x.sensitivity
  · simp [meterSetupOf, hmode, hpattern, hsens] at h
  refine ⟨mo, p, se, hmode, hpattern, hsens, ?_⟩
  refine Classical.byContradiction fun hno => ?_
  rw [meterSetupOf_present hmode hpattern hsens, if_neg hno] at h
  cases h

theorem exec_meterSetup_armed (h : Taking s) (m : Moment) (x : MeterSetupFields) (hs : s.shot.state ≠ .idle) :
    exec (.meterSetup m x) s = .next ((taken 13 m s).respond 13 (.shotArmed, .empty, none)) := by
  refine (request_taking h 13 m _).trans ?_
  rw [show (taken 13 m s).shot = s.shot by simp, if_pos hs]
  rfl

theorem exec_meterSetup_badField (h : Taking s) (m : Moment) {x : MeterSetupFields} (hs : s.shot.state = .idle)
    (hx : meterSetupOf x = none) :
    exec (.meterSetup m x) s = .next ((taken 13 m s).respond 13 (.badField, .empty, none)) := by
  refine (request_taking h 13 m _).trans ?_
  rw [show (taken 13 m s).shot = s.shot by simp, if_neg (not_not_intro hs), hx]
  rfl

theorem exec_meterSetup_taken (h : Taking s) (m : Moment) {x : MeterSetupFields} {y : MeterSetup}
    (hs : s.shot.state = .idle) (hx : meterSetupOf x = some y) :
    exec (.meterSetup m x) s = .next ((State.meterInput { taken 13 m s with
      meter := { (taken 13 m s).meter with setup := y } }).respond 13 (.ok, .empty, none)) := by
  refine (request_taking h 13 m _).trans ?_
  rw [show (taken 13 m s).shot = s.shot by simp, if_neg (not_not_intro hs), hx]
  rfl

/-! ### METER LOCK and METER UNLOCK -/

theorem exec_meterLock_noData (h : Taking s) (m : Moment) (hn : s.meter.state = .noData) :
    exec (.meterLock m) s = .next ((taken 14 m s).respond 14 (.notReady, .empty, none)) := by
  refine (request_taking h 14 m _).trans ?_
  rw [show (taken 14 m s).meter = s.meter by simp, if_pos hn]
  rfl

theorem exec_meterLock_free (h : Taking s) (m : Moment) (hn : s.meter.state ≠ .noData) (ho : s.meter.owner = .none) :
    exec (.meterLock m) s = .next ((State.meterInput { taken 14 m s with
      meter := { (taken 14 m s).meter with state := .locked, owner := .request } }).respond 14
        (.ok, .empty, none)) := by
  have hmeter : (taken 14 m s).meter = s.meter := by simp
  refine (request_taking h 14 m _).trans ?_
  rw [if_neg (by rw [hmeter]; exact hn), show (taken 14 m s).meter.owner = .none by rw [hmeter]; exact ho]
  rfl

theorem exec_meterLock_again (h : Taking s) (m : Moment) (hn : s.meter.state ≠ .noData)
    (ho : s.meter.owner = .request) :
    exec (.meterLock m) s = .next ((taken 14 m s).respond 14 (.ok, .empty, none)) := by
  have hmeter : (taken 14 m s).meter = s.meter := by simp
  refine (request_taking h 14 m _).trans ?_
  rw [if_neg (by rw [hmeter]; exact hn), show (taken 14 m s).meter.owner = .request by rw [hmeter]; exact ho]
  rfl

theorem exec_meterLock_shot (h : Taking s) (m : Moment) (hn : s.meter.state ≠ .noData) (ho : s.meter.owner = .shot) :
    exec (.meterLock m) s = .next (State.respond 14 (.ok, .empty, none) { taken 14 m s with
      meter := { (taken 14 m s).meter with note := true } }) := by
  have hmeter : (taken 14 m s).meter = s.meter := by simp
  refine (request_taking h 14 m _).trans ?_
  rw [if_neg (by rw [hmeter]; exact hn), show (taken 14 m s).meter.owner = .shot by rw [hmeter]; exact ho]
  rfl

theorem exec_meterUnlock_free (h : Taking s) (m : Moment) (ho : s.meter.owner = .none) :
    exec (.meterUnlock m) s = .next ((taken 15 m s).respond 15 (.ok, .empty, none)) := by
  refine (request_taking h 15 m _).trans ?_
  rw [show (taken 15 m s).meter.owner = .none by rw [show (taken 15 m s).meter = s.meter by simp]; exact ho]
  rfl

theorem exec_meterUnlock_request (h : Taking s) (m : Moment) (ho : s.meter.owner = .request) :
    exec (.meterUnlock m) s = .next ((taken 15 m s).meterUnlocked.respond 15 (.ok, .empty, none)) := by
  refine (request_taking h 15 m _).trans ?_
  rw [show (taken 15 m s).meter.owner = .request by rw [show (taken 15 m s).meter = s.meter by simp]; exact ho]
  rfl

theorem exec_meterUnlock_shot (h : Taking s) (m : Moment) (ho : s.meter.owner = .shot) :
    exec (.meterUnlock m) s = .next (State.respond 15 (.ok, .empty, none) { taken 15 m s with
      meter := { (taken 15 m s).meter with note := false } }) := by
  refine (request_taking h 15 m _).trans ?_
  rw [show (taken 15 m s).meter.owner = .shot by rw [show (taken 15 m s).meter = s.meter by simp]; exact ho]
  rfl

/-- The state an unlock leaves by the block watch (R106, R108). -/
theorem unlockedState_eq (s : State) : unlockedState s = if s.timers.block = none then .stale else .tracking := by
  unfold unlockedState
  cases s.timers.block <;> rfl

/-- Settles O45: METER SETUP by whether its fields give a setup, METER LOCK and METER UNLOCK by the lock's owner. -/
theorem meteringRequestsActByTheOwner : Obligations.MeteringRequestsActByTheOwner := by
  unfold Obligations.MeteringRequestsActByTheOwner
  intro m s h fresh
  refine ⟨fun x => ?_, ?_, ?_⟩
  · intro u refused
    refine ⟨exec_meterSetup_armed h m x, fun hs hbad => ?_, ?_⟩
    · refine exec_meterSetup_badField h m hs (Option.eq_none_iff_forall_ne_some.mpr fun y hy => ?_)
      obtain ⟨mo, p, se, hmode, hpattern, hsens, hsv, hcomp, hav, htv, hpair⟩ := meterSetupOf_some hy
      obtain hb | hb | hb | ⟨b, hb, hrange⟩ | hb | hb | hb | hb | hb | hb | ⟨hb, b, hauto⟩ := hbad
      · exact nomatch hmode.symm.trans hb
      · exact nomatch hpattern.symm.trans hb
      · exact nomatch hsens.symm.trans hb
      · have hvalue : svOf se = b := (svOf_iff se b).mpr (hb.imp (fun e => Option.some.inj (hsens.symm.trans e))
          fun e => Option.some.inj (hsens.symm.trans e))
        omega
      iterate 6 omega
      · exact hpair (Option.some.inj (hmode.symm.trans hb)) b (Option.some.inj (hsens.symm.trans hauto))
    · intro mo p se hs hmode hpattern hsens hsv hc1 hc2 ha1 ha2 ht1 ht2 hpair
      exact exec_meterSetup_taken h m hs (meterSetupOf_allowed hmode hpattern hsens
        ⟨hsv _ ((svOf_iff se _).mp rfl), ⟨hc1, hc2⟩, ⟨ha1, ha2⟩, ⟨ht1, ht2⟩, hpair⟩)
  · exact ⟨exec_meterLock_noData h m, fun hn =>
      ⟨exec_meterLock_free h m hn, exec_meterLock_again h m hn, exec_meterLock_shot h m hn⟩⟩
  · refine ⟨exec_meterUnlock_free h m, exec_meterUnlock_shot h m, fun ho => ?_⟩
    have hrun := exec_meterUnlock_request h m ho
    rw [State.meterUnlocked, unlockedState_eq] at hrun
    exact hrun

/-! ### Statistics blocks -/

/-- A block is measured from the setup, the settings, the focus and the block (R91 to R94). -/
theorem measureBlock_congr (hmeter : t.meter = s.meter) (hsettings : t.settings = s.settings)
    (hfocus : t.focus = s.focus) (b : StatBlock) : measureBlock t b = measureBlock s b := by
  unfold measureBlock zoneWeights
  rw [hmeter, hsettings, hfocus]

theorem Meter.measured_seeds {x : Meter} (h : x.state = .noData ∨ x.state = .stale) (v : Int) (frame : Nat) :
    x.measured v frame =
      { x with filtered := some (v * 16), run := 1, state := .tracking, last := some v, frame := some frame } := by
  unfold Meter.measured
  obtain h | h := h <;> rw [h]

/-- The run counts while the measured value agrees with the filtered one, and three in a row are STABLE (R96). -/
theorem meterRun_eq (x : Meter) (v f : Int) : meterRun x v f =
    if (-16 ≤ v * 16 - f && v * 16 - f ≤ 16) = true then
      (min 3 (x.run + 1), if 2 ≤ x.run then .stable else x.state)
    else (0, .tracking) := by
  unfold meterRun
  refine ite_congr (propext ?_) (fun _ => Prod.ext rfl (ite_congr (propext ?_) (fun _ => rfl) fun _ => rfl)) fun _ => rfl
  · simp only [Bool.and_eq_true, decide_eq_true_eq]
    omega
  · omega

theorem Meter.measured_filters {x : Meter} {f : Int} (h : x.state = .tracking ∨ x.state = .stable)
    (hf : x.filtered = some f) (v : Int) (frame : Nat) : x.measured v frame =
      { x with filtered := some (f + Int.tdiv (v * 16 - f) 4), run := (meterRun x v f).1
               state := (meterRun x v f).2, last := some v, frame := some frame } := by
  unfold Meter.measured
  obtain h | h := h <;> rw [h, hf] <;> rfl

/-- The block watch restarts. -/
def State.blockSeen (s : State) : State := { s with timers := { s.timers with block := some 0 } }

theorem State.meterBlock_locked (h : s.meter.state = .locked) (b : StatBlock) : s.meterBlock b = s.blockSeen :=
  if_pos h

/-- Not LOCKED, the block is measured and the exposure follows (R95, R96, R98). -/
theorem State.meterBlock_measured (h : s.meter.state ≠ .locked) (b : StatBlock) : s.meterBlock b =
    State.meterInput { s.blockSeen with meter := s.meter.measured (measureBlock s b) b.frame } := by
  have hmeasure : measureBlock s.blockSeen b = measureBlock s b := measureBlock_congr rfl rfl rfl b
  rw [← hmeasure]
  exact if_neg h

@[simp] theorem State.meterBlock_frame (b : StatBlock) (s : State) :
    (s.meterBlock b).lane = s.lane ∧ (s.meterBlock b).timers.block = some 0 ∧ (s.meterBlock b).zoom = s.zoom ∧
      (s.meterBlock b).steady = s.steady ∧ (s.meterBlock b).shot = s.shot := by
  by_cases h : s.meter.state = .locked
  · rw [State.meterBlock_locked h]
    exact ⟨rfl, rfl, rfl, rfl, rfl⟩
  · rw [State.meterBlock_measured h, State.meterInput_eq]
    split <;> exact ⟨rfl, rfl, rfl, rfl, rfl⟩

@[simp] theorem Meter.measured_owner (x : Meter) (v : Int) (frame : Nat) :
    (x.measured v frame).owner = x.owner ∧ (x.measured v frame).exposure = x.exposure ∧
      (x.measured v frame).setup = x.setup ∧ (x.measured v frame).note = x.note := by
  unfold Meter.measured
  split <;> exact ⟨rfl, rfl, rfl, rfl⟩

/-- The Metering Unit after a block; the exposure is that of any state with its meter, lens and steadying. -/
theorem State.meterBlock_meter (hs : s.meter.state ≠ .locked) (b : StatBlock) (hmeter : t.meter = (s.meterBlock b).meter)
    (hzoom : t.zoom = s.zoom) (hsteady : t.steady = s.steady) : t.meter =
      { s.meter.measured (measureBlock s b) b.frame with
        exposure := if s.meter.owner = .shot then s.meter.exposure else computeExposure t } := by
  have hexposure : computeExposure t = computeExposure (s.meterBlock b) :=
    computeExposure_congr (by rw [hmeter]) (by rw [hmeter]) (by rw [hmeter]) (by simp [hzoom]) (by simp [hsteady])
  rw [hexposure, hmeter, State.meterBlock_measured hs, State.meterInput_meter]
  simp

/-! ### The block watch -/

/-- The watch's expiry stops it, and without a lock there is no scene any more (R97). -/
theorem exec_blockWatchExpiry (hp : s.supply.powered = true) (m : Moment) : exec (.blockWatchExpiry m) s = .next
    (let u := s.arrive m
     if reached Config.blockLimit u.timers.block then
      let w : State := { u with timers := { u.timers with block := none } }
      if w.meter.state = .tracking ∨ w.meter.state = .stable then
        State.meterInput { w with meter := { w.meter with state := .stale, run := 0 } }
      else w
     else u) := by
  change execBlockWatchExpiry m s = _
  rw [execBlockWatchExpiry, event_powered hp]
  refine congrArg _ (ite_congr rfl (fun _ => ?_) fun _ => rfl)
  dsimp only
  cases (s.arrive m).meter.state <;> rfl

theorem exec_statistics (hp : s.supply.powered = true) (m : Moment) (body : List Byte)
    (h : LaneOpens 1#8 243 (s.arrive m) ∧ s.supply.shutdown ≠ .starting ∨ LaneHolds 1#8 243 (s.arrive m)) :
    exec (.statistics m body) s =
      .next (((s.arrive m).laneFree.meterBlock (statOf body)).focusBlock (statOf body)) := by
  change execStatistics m body s = _
  rw [execStatistics, event_powered hp]
  exact congrArg _ (laneBlock_taken h rfl _)

/-! ### The layout of a block -/

theorem halfAt_eq (b : List Byte) (i : Nat) :
    halfAt b i = (b.getD i 0#8).toNat * 256 + (b.getD (i + 1) 0#8).toNat := rfl

theorem statOf_lists (b : List Byte) :
    (statOf b).luminance.length = 48 ∧ (statOf b).clipped.length = 48 ∧ (statOf b).sharpness.length = 48 := by
  simp [statOf]

theorem statOf_zone (b : List Byte) {z : Nat} (hz : z < 48) :
    (statOf b).luminance[z]? = some (halfAt b (3 + 2 * z)) ∧ (statOf b).clipped[z]? = some (byteAt b (99 + z)) ∧
      (statOf b).sharpness[z]? = some (halfAt b (147 + 2 * z)) := by
  simp [statOf, hz]

/-! ### The timers -/

theorem later_eq (dt : Nat) (x : Option Nat) : later dt x = x.map fun n => n + dt := by cases x <;> rfl

/-- Settles O46: the timers' advance, a block through the measurement and past the Focus Unit, the block watch by
whether it has run its time, the layout field by field. -/
theorem blocksDriveTheSceneValue : Obligations.BlocksDriveTheSceneValue := by
  unfold Obligations.BlocksDriveTheSceneValue
  intro m s hp u on
  have hmeter : u.meter = s.meter := by simp [u]
  have hzoom : u.zoom = s.zoom := by simp [u]
  have hsteady : u.steady = s.steady := by simp [u]
  have hshot : u.shot = s.shot := by simp [u]
  have hwatch := exec_blockWatchExpiry hp m
  refine ⟨?_, fun body hbody => ?_, fun hx => ?_, fun x hx hlate => ?_, fun body => ?_⟩
  · rw [show u.timers = _ from s.arrive_timers m]
    simp only [Timers.advance, later_eq, on]
  · intro b v
    have hfree : u.laneFree.meter = s.meter := hmeter
    have hv : measureBlock u.laneFree b = v := measureBlock_congr rfl rfl rfl b
    let t : State := (u.laneFree.meterBlock b).focusBlock b
    have htmeter : t.meter = (u.laneFree.meterBlock b).meter := by simp [t]
    have htzoom : t.zoom = s.zoom := by simpa [t] using hzoom
    have htsteady : t.steady = s.steady := by simpa [t] using hsteady
    have hmeasured (hs : s.meter.state ≠ .locked) : t.meter = { s.meter.measured v b.frame with
        exposure := if s.meter.owner = .shot then s.meter.exposure else computeExposure t } := by
      have hblock := State.meterBlock_meter (s := u.laneFree) (t := t) (by rw [hfree]; exact hs) b htmeter
        (htzoom.trans hzoom.symm) (htsteady.trans hsteady.symm)
      rw [hv, hfree] at hblock
      exact hblock
    refine ⟨t, exec_statistics hp m body hbody, by simp [t, State.laneFree], by simp [t], htzoom, htsteady,
      by simpa [t] using hshot, fun hs => ?_, fun hs => ?_, fun f hs hf => ?_⟩
    · rw [htmeter, State.meterBlock_locked (by rw [hfree]; exact hs)]
      exact hmeter
    · rw [hmeasured (by rintro h; rw [h] at hs; simp at hs), Meter.measured_seeds hs]
    · intro agrees
      rw [hmeasured (by rintro h; rw [h] at hs; simp at hs), Meter.measured_filters hs hf, meterRun_eq]
      by_cases ha : agrees = true
      · rw [if_pos ha, if_pos ha, if_pos ha]
      · rw [if_neg ha, if_neg ha, if_neg ha]
  · refine hwatch.trans (congrArg _ (if_neg fun hr => ?_))
    obtain ⟨k, hk, hlate⟩ := reached_iff.mp hr
    exact absurd (hx k hk) (by simpa [Config.blockLimit] using hlate)
  · intro w
    have hreached : reached Config.blockLimit u.timers.block = true := reached_iff.mpr ⟨x, hx, hlate⟩
    have hwmeter : w.meter = s.meter := hmeter
    refine ⟨fun hs => ⟨_, hwatch.trans (congrArg _ ((if_pos hreached).trans (if_pos ?_))), ?_⟩, fun hs => ?_⟩
    · exact hmeter ▸ hs
    · refine (State.meterInput_fixed _).trans ?_
      rw [hmeter]
    · refine hwatch.trans (congrArg _ ((if_pos hreached).trans (if_neg ?_)))
      change ¬(u.meter.state = .tracking ∨ u.meter.state = .stable)
      rw [hmeter]
      obtain hs | hs | hs := hs <;> rw [hs] <;> simp
  · intro at_ b
    refine ⟨rfl, rfl, ?_⟩
    obtain ⟨hl, hc, hs⟩ := statOf_lists body
    refine ⟨hl, hc, hs, fun z hz => ?_⟩
    have hnext (k : Nat) : k + 2 * z + 1 = k + 1 + 2 * z := by omega
    have hzone := statOf_zone body hz
    rw [halfAt_eq, halfAt_eq, hnext, hnext] at hzone
    exact hzone

end Sys2Proof.Machine
end

section
/-! PROOFS. The measurement: the weights of the patterns, and the logarithm in thirds (R90 to R94). -/

namespace Sys2Proof.Machine

variable {s : State}

/-! ### The logarithm in thirds -/

/-- `(n / d)^6 ≥ 2^(2j − 1)`: the logarithm in thirds is at least `j` after rounding with halves upward (R94). -/
def AtLeastThirds (n d : Nat) (j : Int) : Prop :=
  if 0 ≤ 2 * j - 1 then d ^ 6 * 2 ^ (2 * j - 1).toNat ≤ n ^ 6 else d ^ 6 ≤ n ^ 6 * 2 ^ (1 - 2 * j).toNat

theorem thirdsLog_go_holds {n d : Nat} {k : Int} (h : AtLeastThirds n d k) (f : Nat) : thirdsLog.go n d f k = k := by
  cases f with
  | zero => rfl
  | succ f =>
    refine if_pos ?_
    rw [AtLeastThirds, show (1 - 2 * k) = -(2 * k - 1) by omega] at h
    exact h

theorem thirdsLog_go_fails {n d : Nat} {k : Int} (h : ¬AtLeastThirds n d k) (f : Nat) :
    thirdsLog.go n d (f + 1) k = thirdsLog.go n d f (k - 1) := by
  refine if_neg ?_
  rw [AtLeastThirds, show (1 - 2 * k) = -(2 * k - 1) by omega] at h
  exact h

/-- The search from `k` down through `f` values ends on the greatest one reached, or below them all. -/
theorem thirdsLog_go_spec (n d f : Nat) (k : Int) :
    k - f ≤ thirdsLog.go n d f k ∧ thirdsLog.go n d f k ≤ k ∧
      (k - f < thirdsLog.go n d f k → AtLeastThirds n d (thirdsLog.go n d f k)) ∧
      (thirdsLog.go n d f k < k → ¬AtLeastThirds n d (thirdsLog.go n d f k + 1)) := by
  induction f generalizing k with
  | zero =>
    rw [thirdsLog.go]
    exact ⟨by simp, Int.le_refl _, fun h => absurd h (by simp), fun h => absurd h (Int.lt_irrefl _)⟩
  | succ f ih =>
    by_cases hk : AtLeastThirds n d k
    · rw [thirdsLog_go_holds hk]
      exact ⟨by omega, Int.le_refl _, fun _ => hk, fun h => absurd h (Int.lt_irrefl _)⟩
    · rw [thirdsLog_go_fails hk]
      obtain ⟨hlow, hhigh, hat, hnext⟩ := ih (k - 1)
      refine ⟨by push_cast; omega, by omega, fun h => hat (by push_cast at h; omega), fun h => ?_⟩
      by_cases hr : thirdsLog.go n d f (k - 1) < k - 1
      · exact hnext hr
      · rwa [show thirdsLog.go n d f (k - 1) + 1 = k by omega]

theorem thirdsLog_spec (n d : Nat) :
    -49 ≤ thirdsLog n d ∧ thirdsLog n d ≤ 49 ∧ (-49 < thirdsLog n d → AtLeastThirds n d (thirdsLog n d)) ∧
      (thirdsLog n d < 49 → ¬AtLeastThirds n d (thirdsLog n d + 1)) := thirdsLog_go_spec n d 98 49

/-- A ratio within 16 bits has its sixth power within 96. -/
theorem pow_six_le {a b : Nat} (h : a ≤ 65535 * b) : a ^ 6 ≤ b ^ 6 * 2 ^ 96 := by
  have h16 : a ≤ b * 2 ^ 16 := by omega
  calc a ^ 6 ≤ (b * 2 ^ 16) ^ 6 := Nat.pow_le_pow_left h16 6
    _ = b ^ 6 * 2 ^ 96 := by rw [Nat.mul_pow, ← Nat.pow_mul]

/-- A ratio within 16 bits stays clear of the search's two ends. -/
theorem thirdsLog_inside {n d : Nat} (hn : 1 ≤ n) (hd : 1 ≤ d) (h1 : n ≤ 65535 * d) (h2 : d ≤ 65535 * n) :
    -49 < thirdsLog n d ∧ thirdsLog n d < 49 := by
  obtain ⟨hlow, hhigh, hat, hnext⟩ := thirdsLog_spec n d
  have hn6 : 1 ≤ n ^ 6 := Nat.one_le_pow _ _ hn
  have hd6 : 1 ≤ d ^ 6 := Nat.one_le_pow _ _ hd
  have hp1 := pow_six_le h1
  have hp2 := pow_six_le h2
  refine ⟨Int.lt_iff_le_and_ne.mpr ⟨hlow, fun he => ?_⟩, Int.lt_iff_le_and_ne.mpr ⟨hhigh, fun he => ?_⟩⟩
  · rw [← he] at hnext
    refine hnext (by decide) ?_
    rw [AtLeastThirds, if_neg (by decide)]
    exact Nat.le_trans hp2 (Nat.mul_le_mul_left _ (Nat.pow_le_pow_right (by decide) (by decide)))
  · rw [he] at hat
    have habove := hat (by decide)
    rw [AtLeastThirds, if_pos (by decide)] at habove
    rw [show (2 * 49 - 1 : Int).toNat = 97 from rfl] at habove
    omega

/-! ### MATRIX -/

/-- A zone's weight with the highlight guard (R91). -/
def guardedWeight (w c : List Nat) (z : Nat) : Nat := if 192 < c.getD z 0 then 2 * w.getD z 0 else w.getD z 0

theorem matrixWeights_eq (w c : List Nat) : matrixWeights w c =
    if ((List.range 48).map (guardedWeight w c)).all (· == 0) then List.replicate 48 1
    else (List.range 48).map (guardedWeight w c) := rfl

theorem guarded_all_iff (w c : List Nat) :
    ((List.range 48).map (guardedWeight w c)).all (· == 0) = true ↔ ∀ j, j < 48 → guardedWeight w c j = 0 := by
  simp

theorem matrixWeights_some {w c : List Nat} (h : ∃ j, j < 48 ∧ guardedWeight w c j ≠ 0) {z : Nat} (hz : z < 48) :
    (matrixWeights w c)[z]? = some (guardedWeight w c z) := by
  obtain ⟨j, hj, hne⟩ := h
  rw [matrixWeights_eq, if_neg fun hall => hne ((guarded_all_iff w c).mp hall j hj)]
  simp [hz]

theorem matrixWeights_none {w c : List Nat} (h : ∀ j, j < 48 → guardedWeight w c j = 0) {z : Nat} (hz : z < 48) :
    (matrixWeights w c)[z]? = some 1 := by
  rw [matrixWeights_eq, if_pos ((guarded_all_iff w c).mpr h)]
  exact (List.getElem?_replicate ..).trans (if_pos hz)

/-! ### SPOT -/

theorem zoneWeights_matrix (h : s.meter.setup.pattern = .matrix) (b : StatBlock) :
    zoneWeights s b = matrixWeights s.settings.weights b.clipped := by
  simp only [zoneWeights, h]

theorem zoneWeights_spot (h : s.meter.setup.pattern = .spot) (b : StatBlock) :
    zoneWeights s b = spotWeights (spotRect s.focus) := by
  simp only [zoneWeights, h]

theorem rectCovers_iff (r : Rect) (z : Nat) : rectCovers r z = true ↔
    r.firstCol ≤ z % 8 ∧ z % 8 ≤ r.lastCol ∧ r.firstRow ≤ z / 8 ∧ z / 8 ≤ r.lastRow := by
  simp [rectCovers, and_assoc]

theorem spotWeights_getElem? (r : Rect) {z : Nat} (hz : z < 48) : (spotWeights r)[z]? =
    some (if r.firstCol ≤ z % 8 ∧ z % 8 ≤ r.lastCol ∧ r.firstRow ≤ z / 8 ∧ z / 8 ≤ r.lastRow then 1 else 0) := by
  simp [spotWeights, hz, rectCovers_iff]

/-- SPOT measures the area of a lock as the list stands (R93). -/
theorem spotRect_area {f : Focus} {a : Nat} (h : focusLockArea f = some a) :
    (∀ x, f.areas.find? (fun y => y.id == a) = some x → spotRect f = x.rect) ∧
      (f.areas.find? (fun y => y.id == a) = none → spotRect f = centreRect) := by
  have hrect : spotRect f = areaRect f.areas a := by rw [spotRect, h]
  have harea (y : Option Area) (hy : f.areas.find? (fun y => y.id == a) = y) :
      areaRect f.areas a = (y.map (·.rect)).getD centreRect := by
    rw [← hy, areaRect]
    cases f.areas.find? (fun y => y.id == a) <;> rfl
  exact ⟨fun x hx => hrect.trans (harea _ hx), fun hx => hrect.trans (harea _ hx)⟩

theorem spotRect_centre {f : Focus} (h : focusLockArea f = none) : spotRect f = centreRect := by
  unfold spotRect
  rw [h]

/-! ### The mean -/

theorem foldl_add_eq (g : Nat → Nat) (l : List Nat) (a : Nat) :
    l.foldl (fun a z => a + g z) a = a + (l.map g).sum := by
  induction l generalizing a with
  | nil => rfl
  | cons z l ih => rw [List.foldl_cons, ih, List.map_cons, List.sum_cons, Nat.add_assoc]

theorem weightedSum_eq (w v : List Nat) :
    weightedSum w v = ((List.range 48).map fun z => w.getD z 0 * v.getD z 0).sum :=
  (foldl_add_eq (fun z => nth w z * nth v z) (List.range 48) 0).trans (Nat.zero_add _)

/-- Settles O48: the guarded weights zone by zone, SPOT's rectangle by the area of the focus lock, the logarithm by
its search downward. -/
theorem measurementWeighsZonesAndRounds : Obligations.MeasurementWeighsZonesAndRounds := by
  unfold Obligations.MeasurementWeighsZonesAndRounds
  refine ⟨fun w c z hz => ?_, fun s b h => zoneWeights_matrix h b, fun s b z hz h => ?_, fun f => ?_, weightedSum_eq,
    fun s b => rfl, fun n d => ?_⟩
  · exact ⟨fun h => matrixWeights_some h hz, fun h => matrixWeights_none h hz⟩
  · rw [zoneWeights_spot h]
    exact spotWeights_getElem? _ hz
  · intro centre measures
    refine ⟨fun k a v hs hh => ?_, fun hs hh => ?_, fun i k a v o hs ha => ?_, fun i d o hs ha hd => ?_, fun hs => ?_⟩
    · refine spotRect_area ?_
      unfold focusLockArea
      obtain hs | hs := hs <;> rw [hs, hh]
    · refine spotRect_centre ?_
      unfold focusLockArea
      rw [hs]
      obtain hn | ⟨x, hx⟩ := Option.eq_none_or_eq_some f.held
      · rw [hn]
      · cases x with
        | lock k a v => exact absurd hx (hh k a v)
        | manual k => rw [hx]
    · refine spotRect_area ?_
      unfold focusLockArea
      rw [hs, ha]
    · refine spotRect_centre ?_
      unfold focusLockArea
      rw [hs, ha]
      cases d with
      | hold x =>
        cases x with
        | lock k a v => exact absurd rfl (hd k a v)
        | manual k => rfl
      | failed => rfl
      | idle => rfl
    · refine spotRect_centre ?_
      unfold focusLockArea
      obtain hs | hs | hs | hs | hs := hs <;> rw [hs]
  · obtain ⟨-, -, hat, hnext⟩ := thirdsLog_spec n d
    exact ⟨hat, hnext, thirdsLog_inside⟩

end Sys2Proof.Machine
end

section
/-! PROOFS. The exposure program (R98 to R102). -/

namespace Sys2Proof.Machine

variable {e : StationEntry} {x : MeterSetup} {lim light base tv av sv : Int} {fl : ExposureFlags} {auto : Bool}

/-! ### The steps of the program -/

theorem svRaise_fixed (short sv : Int) : svRaise false short sv = 0 := rfl

theorem svRaise_auto (short : Int) (h : sv ≤ 18) : svRaise true short sv = max 0 (min short (18 - sv)) := by
  unfold svRaise
  split <;> simp_all <;> omega

theorem svDrop_fixed (excess sv : Int) : svDrop false excess sv = 0 := rfl

theorem svDrop_auto (excess : Int) (h : 0 ≤ sv) : svDrop true excess sv = max 0 (min excess sv) := by
  unfold svDrop
  split <;> simp_all <;> omega

theorem limit_eq {lo hi : Int} (h : lo ≤ hi) (x : Int) : limit lo hi x = max lo (min hi x) := by
  unfold limit
  split
  · omega
  · split <;> omega

theorem chosenAv_eq (h : e.widest ≤ e.narrowest) (av : Int) :
    chosenAv e av = max (e.widest : Int) (min (e.narrowest : Int) av) := limit_eq (by omega) av

/-! ### What a split keeps -/

/-- What every split keeps: its Av within the station's range, its Sv within 0 to 18 and a FIXED one as chosen, SLOW by
the handheld limit (R99 to R102). -/
structure SplitLawful (e : StationEntry) (lim base : Int) (auto : Bool) (tv av sv : Int) (fl : ExposureFlags) : Prop where
  cutShort : fl.cutShort = false
  slow : fl.slow = true ↔ tv < lim
  widest : (e.widest : Int) ≤ av
  narrowest : av ≤ e.narrowest
  low : 0 ≤ sv
  high : sv ≤ 18
  fixed : auto = false → sv = base

/-- The limit flags say on which side a split does not balance, and AUTO has lowered Sv to 0 before BRIGHT_LIMIT
(R99 to R101). -/
structure SplitBalances (light : Int) (auto : Bool) (tv av sv : Int) (fl : ExposureFlags) : Prop where
  bright : fl.bright = true ↔ 0 < light + sv - (av + tv)
  dark : fl.dark = true ↔ light + sv - (av + tv) < 0
  spent : auto = true → fl.bright = true → sv = 0

/-- A Tv within −15 to 36, at its end where a limit flag is set (R99, R100). -/
structure TvLimited (tv : Int) (fl : ExposureFlags) : Prop where
  low : -15 ≤ tv
  high : tv ≤ 36
  bright : fl.bright = true → tv = 36
  dark : fl.dark = true → tv = -15

section
variable (hrange : e.widest ≤ e.narrowest) (hlow : -15 < lim) (hhigh : lim ≤ 30) (h0 : 0 ≤ base) (h18 : base ≤ 18)
include hrange hlow hhigh h0 h18

theorem programSplit_spec (h : programSplit e lim light base auto = (tv, av, sv, fl)) :
    SplitLawful e lim base auto tv av sv fl ∧ SplitBalances light auto tv av sv fl ∧ TvLimited tv fl ∧
      ((e.widest : Int) < av → 36 ≤ tv) ∧ (auto = true → tv < lim → sv = 18) ∧
      (auto = true → base < sv → av = e.widest ∧ tv ≤ lim) := by
  unfold programSplit tvLimits at h
  dsimp only at h
  generalize hup : svRaise auto _ _ = up at h
  generalize hstop : (if 36 < light + base - e.widest + up then
    min (light + base - e.widest + up - 36) ((e.narrowest : Int) - e.widest) else 0) = stop at h
  generalize hdown : svDrop auto _ _ = down at h
  rw [limit_eq (by decide)] at h
  simp only [Prod.mk.injEq] at h
  obtain ⟨htv, hav, hsv, hfl⟩ := h
  subst hfl
  have hstop' : stop = max 0 (min (light + base - e.widest + up - 36) ((e.narrowest : Int) - e.widest)) := by
    rw [← hstop]
    split <;> omega
  cases auto with
  | false =>
    rw [svRaise_fixed] at hup
    rw [svDrop_fixed] at hdown
    exact ⟨⟨rfl, decide_eq_true_iff.trans (by omega), by omega, by omega, by omega, by omega,
      fun _ => by omega⟩,
      ⟨decide_eq_true_iff.trans (by omega), decide_eq_true_iff.trans (by omega), nofun⟩,
      ⟨by omega, by omega, fun hb => by have := of_decide_eq_true hb; omega,
      fun hb => by have := of_decide_eq_true hb; omega⟩, by omega, nofun, nofun⟩
  | true =>
    rw [svRaise_auto _ h18] at hup
    rw [svDrop_auto _ (by omega)] at hdown
    exact ⟨⟨rfl, decide_eq_true_iff.trans (by omega), by omega, by omega, by omega, by omega,
      nofun⟩,
      ⟨decide_eq_true_iff.trans (by omega), decide_eq_true_iff.trans (by omega),
      fun _ hb => by have := of_decide_eq_true hb; omega⟩,
      ⟨by omega, by omega, fun hb => by have := of_decide_eq_true hb; omega,
      fun hb => by have := of_decide_eq_true hb; omega⟩,
      by omega, fun _ => by omega, fun _ => by omega⟩

theorem apertureSplit_spec {choice : Int} (h : apertureSplit e lim light base choice auto = (tv, av, sv, fl)) :
    SplitLawful e lim base auto tv av sv fl ∧ SplitBalances light auto tv av sv fl ∧ TvLimited tv fl ∧
      av = chosenAv e choice := by
  have hchosen := chosenAv_eq hrange choice
  unfold apertureSplit tvLimits at h
  dsimp only at h
  generalize hup : svRaise auto _ _ = up at h
  generalize hdown : svDrop auto _ _ = down at h
  rw [limit_eq (by decide)] at h
  simp only [Prod.mk.injEq] at h
  obtain ⟨htv, hav, hsv, hfl⟩ := h
  subst hfl
  cases auto with
  | false =>
    rw [svRaise_fixed] at hup
    rw [svDrop_fixed] at hdown
    exact ⟨⟨rfl, decide_eq_true_iff.trans (by omega), by omega, by omega, by omega, by omega,
      fun _ => by omega⟩,
      ⟨decide_eq_true_iff.trans (by omega), decide_eq_true_iff.trans (by omega), nofun⟩,
      ⟨by omega, by omega, fun hb => by have := of_decide_eq_true hb; omega,
      fun hb => by have := of_decide_eq_true hb; omega⟩, hav.symm⟩
  | true =>
    rw [svRaise_auto _ h18] at hup
    rw [svDrop_auto _ (by omega)] at hdown
    exact ⟨⟨rfl, decide_eq_true_iff.trans (by omega), by omega, by omega, by omega, by omega,
      nofun⟩,
      ⟨decide_eq_true_iff.trans (by omega), decide_eq_true_iff.trans (by omega),
      fun _ hb => by have := of_decide_eq_true hb; omega⟩,
      ⟨by omega, by omega, fun hb => by have := of_decide_eq_true hb; omega,
      fun hb => by have := of_decide_eq_true hb; omega⟩, hav.symm⟩

omit hlow hhigh in
theorem shutterSplit_spec {choice : Int} (h : shutterSplit e lim light base choice auto = (tv, av, sv, fl)) :
    SplitLawful e lim base auto tv av sv fl ∧ SplitBalances light auto tv av sv fl ∧ tv = choice ∧
      (fl.bright = true → av = e.narrowest) ∧ (fl.dark = true → av = e.widest) := by
  unfold shutterSplit at h
  dsimp only at h
  generalize hup : svRaise auto _ _ = up at h
  generalize hdown : svDrop auto _ _ = down at h
  rw [chosenAv_eq hrange] at h
  simp only [Prod.mk.injEq] at h
  obtain ⟨htv, hav, hsv, hfl⟩ := h
  subst hfl
  cases auto with
  | false =>
    rw [svRaise_fixed] at hup
    rw [svDrop_fixed] at hdown
    exact ⟨⟨rfl, decide_eq_true_iff.trans (by omega), by omega, by omega, by omega, by omega,
      fun _ => by omega⟩,
      ⟨decide_eq_true_iff.trans (by omega), decide_eq_true_iff.trans (by omega), nofun⟩,
      htv.symm, fun hb => by have := of_decide_eq_true hb; omega,
      fun hb => by have := of_decide_eq_true hb; omega⟩
  | true =>
    rw [svRaise_auto _ h18] at hup
    rw [svDrop_auto _ (by omega)] at hdown
    exact ⟨⟨rfl, decide_eq_true_iff.trans (by omega), by omega, by omega, by omega, by omega,
      nofun⟩,
      ⟨decide_eq_true_iff.trans (by omega), decide_eq_true_iff.trans (by omega),
      fun _ hb => by have := of_decide_eq_true hb; omega⟩,
      htv.symm, fun hb => by have := of_decide_eq_true hb; omega,
      fun hb => by have := of_decide_eq_true hb; omega⟩

end

/-! ### The split of a setup -/

/-- AUTO sensitivity. -/
def isAuto : Sensitivity → Bool
  | .auto _ => true
  | .fixed _ => false

theorem isAuto_iff (se : Sensitivity) : isAuto se = true ↔ ∃ b, se = .auto b := by cases se <;> simp [isAuto]

theorem isAuto_fixed {se : Sensitivity} {b : Int} (h : se = .fixed b) : isAuto se = false ∧ svOf se = b := by
  rw [h]
  exact ⟨rfl, rfl⟩

theorem isAuto_auto {se : Sensitivity} {b : Int} (h : se = .auto b) : isAuto se = true ∧ svOf se = b := by
  rw [h]
  exact ⟨rfl, rfl⟩

/-- The split by the mode, from the light and the sensitivity's Sv (R99 to R102). -/
theorem splitExposure_eq (x : MeterSetup) (e : StationEntry) (lim scene : Int) : splitExposure x e lim scene =
    match x.mode with
    | .program => programSplit e lim (scene - x.compensation) (svOf x.sensitivity) (isAuto x.sensitivity)
    | .aperture => apertureSplit e lim (scene - x.compensation) (svOf x.sensitivity) x.av (isAuto x.sensitivity)
    | .shutter => shutterSplit e lim (scene - x.compensation) (svOf x.sensitivity) x.tv (isAuto x.sensitivity)
    | .manual => manualSplit e lim (svOf x.sensitivity) x.av x.tv := by
  unfold splitExposure
  cases x.sensitivity <;> cases x.mode <;> rfl

theorem manualSplit_spec (hrange : e.widest ≤ e.narrowest) (h0 : 0 ≤ base) (h18 : base ≤ 18) {av₀ tv₀ : Int}
    (h : manualSplit e lim base av₀ tv₀ = (tv, av, sv, fl)) (auto : Bool) :
    SplitLawful e lim base auto tv av sv fl ∧ fl.bright = false ∧ fl.dark = false ∧ tv = tv₀ ∧ sv = base ∧
      av = chosenAv e av₀ := by
  have hchosen := chosenAv_eq hrange av₀
  simp only [manualSplit, Prod.mk.injEq] at h
  obtain ⟨rfl, rfl, rfl, rfl⟩ := h
  exact ⟨⟨rfl, decide_eq_true_iff, by omega, by omega, h0, h18, fun _ => rfl⟩, rfl, rfl, rfl, rfl, rfl⟩

/-! ### The computed exposure -/

theorem computeExposure_absent {s : State} (h : s.meter.state = .noData ∨ s.zoom.working = none) :
    computeExposure s = none := by
  unfold computeExposure
  obtain h | h := h
  · rw [h]
  · rw [show stationEntry s (s.zoom.current.getD 0) = none by rw [stationEntry, h]]
    split <;> simp_all

theorem computeExposure_present {s : State} {f : Int} {t : List StationEntry} {e : StationEntry}
    (hstate : s.meter.state ≠ .noData) (hf : s.meter.filtered = some f) (ht : s.zoom.working = some t)
    (he : t[s.zoom.current.getD 0]? = some e) :
    ∃ c, computeExposure s = some c ∧ c.station = s.zoom.current.getD 0 ∧ c.focal = e.focal ∧
      c.steadying = steadyingCounts s.steady ∧ c.limit = handheldLimit e.focal c.steadying ∧
      (c.tv, c.av, c.sv, c.flags) = splitExposure s.meter.setup e c.limit (roundHalfUp f 16) ∧
      c.difference = roundHalfUp f 16 + c.sv - s.meter.setup.compensation - (c.av + c.tv) := by
  have hscene : reportedScene s.meter = some (roundHalfUp f 16) := by rw [reportedScene, hf, Option.map_some]
  have hentry : stationEntry s (s.zoom.current.getD 0) = some e := by rw [stationEntry, ht]; exact he
  unfold computeExposure
  rw [hscene, hentry]
  generalize hm : s.meter.state = st
  cases st with
  | noData => exact absurd hm hstate
  | _ => exact ⟨_, rfl, rfl, rfl, rfl, rfl, rfl, rfl⟩

theorem steadyingCounts_iff (x : Steady) : steadyingCounts x = true ↔ x.state = .active ∨ x.mode = .shotOnly := by
  simp [steadyingCounts]

/-- Settles O49: the exposure from its inputs, and what each mode's split keeps. -/
theorem exposuresBalanceOrSayWhy : Obligations.ExposuresBalanceOrSayWhy := by
  unfold Obligations.ExposuresBalanceOrSayWhy
  refine ⟨fun s => computeExposure_absent, fun s f t e hstate hf ht he => ?_, ?_⟩
  · obtain ⟨c, hc, hstation, hfocal, hsteady, hlimit, hsplit, hdiff⟩ := computeExposure_present hstate hf ht he
    exact ⟨c, hc, hstation, hfocal, by rw [hsteady]; exact steadyingCounts_iff _, hlimit, hsplit, hdiff⟩
  · intro x e lim scene hrange hlow hhigh hsens tv av sv fl hsplit off
    have hbase := hsens _ ((svOf_iff x.sensitivity _).mp rfl)
    rw [splitExposure_eq] at hsplit
    have hoff : off = scene - x.compensation + sv - (av + tv) := rfl
    clear_value off
    have common {q : Prop} (hlaw : SplitLawful e lim (svOf x.sensitivity) (isAuto x.sensitivity) tv av sv fl) (hq : q) :
        fl.cutShort = false ∧ (fl.slow = true ↔ tv < lim) ∧ (e.widest : Int) ≤ av ∧ av ≤ e.narrowest ∧
          0 ≤ sv ∧ sv ≤ 18 ∧ (∀ b, x.sensitivity = .fixed b → sv = b) ∧ q :=
      ⟨hlaw.cutShort, hlaw.slow, hlaw.widest, hlaw.narrowest, hlaw.low, hlaw.high,
        fun b hb => (hlaw.fixed (isAuto_fixed hb).1).trans (isAuto_fixed hb).2, hq⟩
    cases hmode : x.mode with
    | program =>
      rw [hmode] at hsplit
      obtain ⟨hlaw, hbal, htv, hstop, hshort, hraised⟩ :=
        programSplit_spec hrange hlow hhigh hbase.1 hbase.2 hsplit
      refine common hlaw ⟨nofun, fun _ => ⟨hoff ▸ hbal.bright, hoff ▸ hbal.dark⟩,
        fun _ => ⟨htv.low, htv.high, htv.bright, htv.dark⟩, nofun, nofun,
        fun b _ hb => hshort (isAuto_auto hb).1, fun b _ hb hlt => hraised (isAuto_auto hb).1 ?_, fun _ => hstop,
        fun b hb _ => hbal.spent (isAuto_auto hb).1⟩
      rwa [(isAuto_auto hb).2]
    | aperture =>
      rw [hmode] at hsplit
      obtain ⟨hlaw, hbal, htv, hav⟩ := apertureSplit_spec hrange hlow hhigh hbase.1 hbase.2 hsplit
      exact common hlaw ⟨nofun, fun _ => ⟨hoff ▸ hbal.bright, hoff ▸ hbal.dark⟩,
        fun _ => ⟨htv.low, htv.high, htv.bright, htv.dark⟩, nofun, fun _ => hav, nofun, nofun, nofun,
        fun b hb _ => hbal.spent (isAuto_auto hb).1⟩
    | shutter =>
      rw [hmode] at hsplit
      obtain ⟨hlaw, hbal, htv, hbright, hdark⟩ := shutterSplit_spec hrange hbase.1 hbase.2 hsplit
      exact common hlaw ⟨nofun, fun _ => ⟨hoff ▸ hbal.bright, hoff ▸ hbal.dark⟩, nofun,
        fun _ => ⟨htv, hbright, hdark⟩, nofun, nofun, nofun, nofun, fun b hb _ => hbal.spent (isAuto_auto hb).1⟩
    | manual =>
      rw [hmode] at hsplit
      obtain ⟨hlaw, hbright, hdark, htv, hsv, hav⟩ :=
        manualSplit_spec hrange hbase.1 hbase.2 hsplit (isAuto x.sensitivity)
      exact common hlaw ⟨fun _ => ⟨hbright, hdark, htv, fun b hb => hsv.trans (isAuto_fixed hb).2, hav⟩,
        fun h => absurd rfl h, nofun, nofun, nofun, nofun, nofun, nofun, fun _ _ h => absurd rfl h⟩

end Sys2Proof.Machine
end

section
/-! PROOFS. The Zoom Drive's operations between a homing and the park sensor, and the Focus Unit's homing (R112 to R116,
R124, R125, R133). -/

namespace Sys2Proof.Machine

variable {s t : State}

/-! ### Homing the focus -/

/-- What the Focus Unit drops when it is asked to home, its end given where one is owed (R133). -/
def State.homingDrop (s : State) : State := (s.focusDrop .unhomed).focusEndedIf (endOwed s.focus) .homing

theorem State.focusHome_running (h : s.focus.homing ≠ none) : s.focusHome = (s, false) :=
  if_pos (Option.isSome_iff_ne_none.mpr h)

theorem State.focusHome_seen (h : s.focus.homing = none) (hl : s.lines.focusHome = true) :
    s.focusHome = (s.homingDrop.focusHomed, true) := by
  unfold State.focusHome
  rw [if_neg (by rw [h]; decide)]
  exact if_pos hl

theorem State.focusHome_begins (h : s.focus.homing = none) (hl : s.lines.focusHome = false) :
    s.focusHome = (s.homingDrop.onFocus fun f => { f with position := none, homing := some 0 }, false) := by
  unfold State.focusHome
  rw [if_neg (by rw [h]; decide)]
  exact if_neg (by rw [hl]; decide)

@[simp] theorem State.homingDrop_aside (s : State) : s.homingDrop.zoom = s.zoom ∧ s.homingDrop.lines = s.lines ∧
    s.homingDrop.timers.stall = s.timers.stall ∧ s.homingDrop.timers.brake = s.timers.brake ∧
    s.homingDrop.link = s.link := by
  simp [State.homingDrop]

@[simp] theorem State.homingDrop_state (s : State) : s.homingDrop.focus.state = .unhomed := by
  unfold State.homingDrop State.focusEndedIf
  split <;> simp [State.focusEnded, State.focusDrop]

@[simp] theorem State.focusHomed_focus (s : State) : s.focusHomed.focus.homing = none ∧
    s.focusHomed.focus.position = some 0 ∧ s.focusHomed.focus.state = .idle := by
  simp [State.focusHomed]

@[simp] theorem State.focusHomed_events (s : State) : s.focusHomed.events = s.events := by simp [State.focusHomed]

@[simp] theorem Focus.steps_homing_iff (n : Nat) (f : Focus) : (f.steps n).homing = none ↔ f.homing = none := by
  unfold Focus.steps
  cases hh : f.homing with
  | some h => simp
  | none => cases hm : f.move <;> cases hp : f.position <;> simp [hh]

/-! ### Rest and retract -/

/-- The lens is PARKED and says so (R115, R125). -/
structure LensParked (t : State) : Prop where
  state : t.zoom.state = .parked
  count : t.zoom.count = some 0
  drive : t.zoom.drive = .off
  ended : t.events.has .zoomEnded = true

/-- The lens retracts in PARKING at the speed of a count (R125). -/
structure LensRetracts (count : Option Int) (t : State) : Prop where
  state : t.zoom.state = .parking
  retract : t.zoom.retract = true
  stall : t.timers.stall = some 0
  drive : t.zoom.drive = retractDrive count

/-- The lens extends from the park position (R115, R116). -/
structure LensExtends (count : Option Int) (t : State) : Prop where
  state : t.zoom.state = .extending
  count : t.zoom.count = count
  stall : t.timers.stall = some 0
  drive : t.zoom.drive = .teleSlow ∨ t.zoom.drive = .teleFull

theorem State.zoomParked_parked (s : State) : LensParked s.zoomParked :=
  ⟨rfl, rfl, rfl, has_setFlag_same _ _⟩

@[simp] theorem State.zoomParked_frame (s : State) : s.zoomParked.focus = s.focus ∧
    s.zoomParked.zoom.lastFault = s.zoom.lastFault ∧ s.zoomParked.link = s.link := ⟨rfl, rfl, rfl⟩

/-- Only ZOOM_ENDED is set by the end of a park. -/
theorem State.zoomParked_has (s : State) {f : EventFlag} (h : f ≠ .zoomEnded) :
    s.zoomParked.events.has f = s.events.has f := by
  unfold State.zoomParked
  rw [has_setFlag, decide_eq_false h, Bool.false_or]
  rfl

theorem State.zoomRetract_seen (h : s.lines.park = true) : s.zoomRetract = s.zoomParked := if_pos h

theorem State.zoomRetract_drives (h : s.lines.park = false) : s.zoomRetract =
    (s.onZoom fun z => { z with retract := true }).zoomDrive (retractDrive s.zoom.count) := if_neg (by rw [h]; decide)

theorem State.zoomRetract_retracts (h : s.lines.park = false) (hs : s.zoom.state = .parking) :
    LensRetracts s.zoom.count s.zoomRetract := by
  rw [State.zoomRetract_drives h]
  exact ⟨hs, rfl, rfl, rfl⟩

@[simp] theorem State.zoomRetract_frame (s : State) : s.zoomRetract.focus = s.focus ∧
    s.zoomRetract.zoom.lastFault = s.zoom.lastFault := by
  unfold State.zoomRetract
  split <;> exact ⟨rfl, rfl⟩

/-- A retract sets no flag but the end of the park. -/
theorem State.zoomRetract_has (s : State) {f : EventFlag} (h : f ≠ .zoomEnded) :
    s.zoomRetract.events.has f = s.events.has f := by
  unfold State.zoomRetract
  split
  · exact State.zoomParked_has s h
  · rfl

/-! ### The homing's report -/

theorem State.zoomHomed_extends (s : State) : LensExtends s.zoom.count (s.zoomHomed true) := by
  refine ⟨rfl, rfl, rfl, ?_⟩
  change approachDrive _ _ = _ ∨ approachDrive _ _ = _
  unfold approachDrive
  split
  · exact .inl rfl
  · exact .inr rfl

/-- FOCUS_HOME is the last fault and LENS_FAULT is set (R115, R125). -/
def State.homeFailed (s : State) : State := (s.onZoom fun z => { z with lastFault := .focusHome }).setFlag .lensFault

theorem State.zoomHomed_fails (s : State) : s.zoomHomed false = s.homeFailed.zoomParked := rfl

theorem State.homeFailed_has (s : State) : s.homeFailed.events.has .lensFault = true := has_setFlag_same _ _

@[simp] theorem State.homeFailed_frame (s : State) : s.homeFailed.focus = s.focus ∧ s.homeFailed.lines = s.lines ∧
    s.homeFailed.zoom = { s.zoom with lastFault := .focusHome } := ⟨rfl, rfl, rfl⟩

@[simp] theorem State.zoomHomed_focus (s : State) (ok : Bool) : (s.zoomHomed ok).focus = s.focus := by
  cases ok <;> rfl

/-- What a homing's report leaves of the last fault and the flags in PARKING (R125). -/
def State.parkReported (ok : Bool) (s : State) : State :=
  (if ok then s else s.homeFailed).onZoom fun z => { z with report := some ok }

@[simp] theorem State.parkReported_frame (ok : Bool) (s : State) : (s.parkReported ok).focus = s.focus ∧
    (s.parkReported ok).lines = s.lines ∧ (s.parkReported ok).link = s.link ∧
    (s.parkReported ok).timers = s.timers := by
  cases ok <;> exact ⟨rfl, rfl, rfl, rfl⟩

theorem State.parkReported_zoom (ok : Bool) (s : State) : (s.parkReported ok).zoom = { s.zoom with
    report := some ok, lastFault := if ok then s.zoom.lastFault else .focusHome } := by
  cases ok <;> rfl

theorem State.zoomReport_parking (h : s.zoom.state = .parking) (ok : Bool) : s.zoomReport ok =
    if s.zoom.stopped && !s.zoom.retract then (s.parkReported ok).zoomRetract else s.parkReported ok := by
  unfold State.zoomReport
  rw [h]
  cases ok <;> rfl

/-- A report while the motor has not stopped, or in the retract, waits. -/
theorem State.zoomReport_parking_waits (h : s.zoom.state = .parking)
    (hw : s.zoom.stopped = false ∨ s.zoom.retract = true) (ok : Bool) : s.zoomReport ok = s.parkReported ok := by
  rw [State.zoomReport_parking h]
  refine if_neg ?_
  obtain hw | hw := hw <;> simp [hw]

theorem State.zoomReport_parking_retracts (h : s.zoom.state = .parking) (hs : s.zoom.stopped = true)
    (hr : s.zoom.retract = false) (ok : Bool) : s.zoomReport ok = (s.parkReported ok).zoomRetract := by
  rw [State.zoomReport_parking h]
  exact if_pos (by simp [hs, hr])

theorem State.zoomReport_homing (h : s.zoom.state = .homing) (ok : Bool) : s.zoomReport ok =
    if s.zoom.stopped then s.zoomHomed ok else s.onZoom fun z => { z with report := some ok } := by
  unfold State.zoomReport
  rw [h]

@[simp] theorem State.zoomReport_focus (s : State) (ok : Bool) : (s.zoomReport ok).focus = s.focus := by
  unfold State.zoomReport
  cases s.zoom.state <;> dsimp only <;> (repeat' split) <;> simp

/-! ### The Focus Unit asked to home -/

theorem State.zoomAskHome_later (h : s.focus.homing ≠ none ∨ s.lines.focusHome = false) :
    s.zoomAskHome = s.focusHome.1 := by
  unfold State.zoomAskHome
  by_cases hh : s.focus.homing = none
  · rw [State.focusHome_begins hh (h.resolve_left (not_not_intro hh))]
    rfl
  · rw [State.focusHome_running hh]
    rfl

theorem State.zoomAskHome_seen (h : s.focus.homing = none) (hl : s.lines.focusHome = true) :
    s.zoomAskHome = s.homingDrop.focusHomed.zoomReport true := by
  unfold State.zoomAskHome
  rw [State.focusHome_seen h hl]
  rfl

/-- A home request that is not answered at once leaves the lens and its watches. -/
theorem State.focusHome_zoom (s : State) : s.focusHome.1.zoom = s.zoom ∧
    s.focusHome.1.timers.stall = s.timers.stall ∧ s.focusHome.1.timers.brake = s.timers.brake := by simp

/-- A home request begins a homing, or ends it at once on the sensor (R133). -/
theorem State.zoomAskHome_begins (h : s.focus.homing = none) (hl : s.lines.focusHome = false) :
    s.zoomAskHome.focus.state = .unhomed ∧ s.zoomAskHome.focus.position = none ∧
      s.zoomAskHome.focus.homing = some 0 := by
  rw [State.zoomAskHome_later (.inr hl), State.focusHome_begins h hl]
  exact ⟨s.homingDrop_state, rfl, rfl⟩

theorem State.zoomAskHome_ends (h : s.focus.homing = none) (hl : s.lines.focusHome = true) :
    s.zoomAskHome.focus.state = .idle ∧ s.zoomAskHome.focus.position = some 0 ∧
      s.zoomAskHome.focus.homing = none := by
  rw [State.zoomAskHome_seen h hl]
  simp

end Sys2Proof.Machine
end

section
/-! PROOFS. EXTEND LENS and PARK LENS, the park sensor, the brake watch and the homing's reports (R112 to R116, R124,
R125, R133). -/

namespace Sys2Proof.Machine

variable {s t : State}

/-! ### EXTEND LENS -/

/-- EXTEND LENS's refusal (R114). -/
def extendRefusal (s : State) : Option Code :=
  if s.shot.state ≠ .idle then some .shotArmed
  else
    match s.zoom.state with
    | .stalled => some .lensFault
    | .homing | .extending | .moving | .braking | .parking => some .busy
    | .ready | .noTableHold => some .wrongState
    | .unhomed | .parked => if s.zoom.working.isNone then some .noLensTable else none

theorem exec_extendLens (h : Taking s) (m : Moment) : exec (.extendLens m) s = .next
    (match extendRefusal s with
     | some c => (taken 17 m s).respond 17 (c, .empty, none)
     | none => (taken 17 m s).zoomExtend.respond 17 (.ok, .empty, none)) := by
  have hrefusal : extendRefusal s = extendRefusal (taken 17 m s) := by simp [extendRefusal]
  refine (request_taking h 17 m _).trans (congrArg _ ?_)
  rw [hrefusal, extendRefusal]
  split
  · rfl
  · generalize (taken 17 m s).zoom.state = z
    cases z with
    | unhomed | parked => dsimp only; split <;> rfl
    | _ => rfl

/-- The lens as EXTEND LENS leaves it before the focus is asked to home (R114, R115). -/
def State.extendBegun (s : State) : State :=
  let t := (s.onZoom fun z => { z with
    state := .homing, target := none, current := none, stopped := s.lines.park, report := none, retract := false
    count := if s.lines.park then some 0 else none }).meterInput
  if s.lines.park then t.zoomRest .off else t.zoomDrive .wideFull

theorem State.zoomExtend_eq (s : State) : s.zoomExtend = s.extendBegun.zoomAskHome := rfl

@[simp] theorem State.extendBegun_frame (s : State) : s.extendBegun.focus = s.focus ∧ s.extendBegun.lines = s.lines := by
  unfold State.extendBegun
  dsimp only
  split <;> simp

theorem State.extendBegun_away (h : s.lines.park = false) : s.extendBegun.zoom = { s.zoom with
    state := .homing, target := none, current := none, stopped := false, report := none, retract := false
    count := none, drive := .wideFull } ∧ s.extendBegun.timers.stall = some 0 ∧
      s.extendBegun.timers.brake = none := by
  simp [State.extendBegun, h]

theorem State.extendBegun_seen (h : s.lines.park = true) : s.extendBegun.zoom = { s.zoom with
    state := .homing, target := none, current := none, stopped := true, report := none, retract := false
    count := some 0, drive := .off } := by
  simp [State.extendBegun, h]

/-- A report while the motor runs waits in HOMING. -/
theorem State.zoomAskHome_homing_waits (h : s.zoom.state = .homing) (hs : s.zoom.stopped = false) :
    ∃ r, s.zoomAskHome.zoom = { s.zoom with report := r } ∧ s.zoomAskHome.timers.stall = s.timers.stall ∧
      s.zoomAskHome.timers.brake = s.timers.brake := by
  by_cases hn : s.focus.homing ≠ none ∨ s.lines.focusHome = false
  · rw [State.zoomAskHome_later hn]
    exact ⟨_, s.focusHome_zoom⟩
  · obtain ⟨hh, hl⟩ := not_or.mp hn
    rw [State.zoomAskHome_seen (Classical.not_not.mp hh) ((Bool.not_eq_false _).mp hl), State.zoomReport_homing (by simpa using h),
      if_neg (by simp [hs])]
    exact ⟨some true, by simp, by simp, by simp⟩

/-! ### PARK LENS -/

theorem exec_parkLens_armed (h : Taking s) (m : Moment) (hs : s.shot.state ≠ .idle) :
    exec (.parkLens m) s = .next ((taken 20 m s).respond 20 (.shotArmed, .empty, none)) := by
  refine (request_taking h 20 m _).trans ?_
  rw [if_pos (by simpa using hs)]
  rfl

theorem exec_parkLens_parked (h : Taking s) (m : Moment) (hs : s.shot.state = .idle)
    (hz : s.zoom.state = .parked ∨ s.zoom.state = .parking) :
    exec (.parkLens m) s = .next ((taken 20 m s).respond 20 (.ok, .empty, none)) := by
  have hzoom : (taken 20 m s).zoom = s.zoom := by simp
  refine (request_taking h 20 m _).trans ?_
  rw [if_neg (by simpa using hs), hzoom]
  obtain hz | hz := hz <;> rw [hz] <;> rfl

theorem exec_parkLens_parks (h : Taking s) (m : Moment) (hs : s.shot.state = .idle) (h1 : s.zoom.state ≠ .parked)
    (h2 : s.zoom.state ≠ .parking) :
    exec (.parkLens m) s = .next ((taken 20 m s).zoomPark.respond 20 (.ok, .empty, none)) := by
  have hzoom : (taken 20 m s).zoom = s.zoom := by simp
  refine (request_taking h 20 m _).trans ?_
  rw [if_neg (by simpa using hs), hzoom]
  generalize s.zoom.state = z at h1 h2
  cases z with
  | parked => exact absurd rfl h1
  | parking => exact absurd rfl h2
  | _ => rfl

/-- The lens as PARK LENS leaves it before the focus is asked to home (R124). -/
def State.parkBegun (s : State) : State :=
  let t := (s.onZoom fun z =>
    { z with state := .parking, target := none, current := none, report := none, retract := false
             stopped := !s.zoom.drive.driven && s.timers.brake.isNone }).meterInput
  if s.zoom.drive.driven then t.zoomBrake else { t with timers := { t.timers with stall := none } }

theorem State.zoomPark_eq (s : State) : s.zoomPark = s.parkBegun.zoomAskHome := rfl

@[simp] theorem State.parkBegun_frame (s : State) : s.parkBegun.focus = s.focus ∧ s.parkBegun.lines = s.lines := by
  unfold State.parkBegun
  dsimp only
  split <;> simp

theorem State.parkBegun_driven (h : s.zoom.drive.driven = true) : s.parkBegun.zoom = { s.zoom with
    state := .parking, target := none, current := none, report := none, retract := false, stopped := false
    drive := .braked } ∧ s.parkBegun.timers.stall = none ∧ s.parkBegun.timers.brake = some 0 := by
  simp [State.parkBegun, h]

theorem State.parkBegun_rests (h : s.zoom.drive.driven = false) : s.parkBegun.zoom = { s.zoom with
    state := .parking, target := none, current := none, report := none, retract := false
    stopped := s.timers.brake.isNone } ∧ s.parkBegun.timers.stall = none ∧
      s.parkBegun.timers.brake = s.timers.brake := by
  simp [State.parkBegun, h]

theorem Drive.driven_iff (d : Drive) : d.driven = true ↔ d ≠ .off ∧ d ≠ .braked := by
  cases d <;> simp [Drive.driven]

theorem Drive.not_driven_iff (d : Drive) : d.driven = false ↔ d = .off ∨ d = .braked := by
  cases d <;> simp [Drive.driven]

/-- A report that comes before the motor has stopped waits in PARKING. -/
theorem State.zoomAskHome_parking_waits (h : s.zoom.state = .parking)
    (hw : s.focus.homing ≠ none ∨ s.lines.focusHome = false ∨ s.zoom.stopped = false) :
    ∃ r, s.zoomAskHome.zoom = { s.zoom with report := r } ∧ s.zoomAskHome.timers.stall = s.timers.stall ∧
      s.zoomAskHome.timers.brake = s.timers.brake := by
  by_cases hn : s.focus.homing ≠ none ∨ s.lines.focusHome = false
  · rw [State.zoomAskHome_later hn]
    exact ⟨_, s.focusHome_zoom⟩
  · obtain ⟨hh, hl⟩ := not_or.mp hn
    have hs : s.zoom.stopped = false := (hw.resolve_left hh).resolve_left hl
    rw [State.zoomAskHome_seen (Classical.not_not.mp hh) ((Bool.not_eq_false _).mp hl),
      State.zoomReport_parking_waits (by simpa using h) (.inl (by simpa using hs)), State.parkReported_zoom]
    exact ⟨some true, by simp, by simp, by simp⟩

theorem State.zoomAskHome_parking_retracts (h : s.zoom.state = .parking) (hh : s.focus.homing = none)
    (hl : s.lines.focusHome = true) (hs : s.zoom.stopped = true) (hr : s.zoom.retract = false) :
    s.zoomAskHome = (s.homingDrop.focusHomed.parkReported true).zoomRetract := by
  rw [State.zoomAskHome_seen hh hl]
  exact State.zoomReport_parking_retracts (by simpa using h) (by simpa using hs) (by simpa using hr) true

/-! ### The park sensor -/

theorem exec_parkSensorChange_same (hp : s.supply.powered = true) (m : Moment) {seen : Bool} (h : s.lines.park = seen) :
    exec (.parkSensorChange m seen) s = .next (s.arrive m) := by
  change execParkSensorChange m seen s = _
  rw [execParkSensorChange, event_powered hp]
  exact congrArg _ (if_pos h)

theorem exec_parkSensorChange_new (hp : s.supply.powered = true) (m : Moment) {seen : Bool} (h : s.lines.park ≠ seen) :
    exec (.parkSensorChange m seen) s = .next
      (let u : State := { s.arrive m with lines := { (s.arrive m).lines with park := seen } }
       if seen then u.zoomParkSeen else u) := by
  change execParkSensorChange m seen s = _
  rw [execParkSensorChange, event_powered hp]
  exact congrArg _ (if_neg h)

theorem State.zoomParkSeen_homes (h : s.zoom.state = .homing ∨ s.zoom.state = .parking)
    (hd : s.zoom.drive.driven = true) : s.zoomParkSeen = s.zoomBrake := by
  unfold State.zoomParkSeen
  obtain h | h := h <;> rw [h] <;> exact if_pos hd

/-! ### The brake watch -/

/-- The brake watch has stopped. -/
def State.brakeOver (s : State) : State := { s with timers := { s.timers with brake := none } }

theorem exec_brakeWatchExpiry_early (hp : s.supply.powered = true) (m : Moment)
    (h : ¬∃ x, (s.arrive m).timers.brake = some x ∧ 10000 ≤ x) :
    exec (.brakeWatchExpiry m) s = .next (s.arrive m) := by
  change execBrakeWatchExpiry m s = _
  rw [execBrakeWatchExpiry, event_powered hp]
  exact congrArg _ (if_neg fun hr => h (reached_iff.mp hr))

theorem exec_brakeWatchExpiry_stops (hp : s.supply.powered = true) (m : Moment)
    (h : ∃ x, (s.arrive m).timers.brake = some x ∧ 10000 ≤ x) :
    exec (.brakeWatchExpiry m) s = .next (s.arrive m).brakeOver.zoomStopped := by
  change execBrakeWatchExpiry m s = _
  rw [execBrakeWatchExpiry, event_powered hp]
  exact congrArg _ (if_pos (reached_iff.mpr h))

/-- The motor has stopped on the sensor in HOMING. -/
def State.homeStopped (s : State) : State := s.onZoom fun z => { z with count := some 0, stopped := true }

theorem State.zoomStopped_homing (h : s.zoom.state = .homing) : s.zoomStopped =
    match s.zoom.report with
    | some r => s.homeStopped.zoomHomed r
    | none => s.homeStopped := by
  unfold State.zoomStopped
  rw [h]
  rfl

theorem State.zoomStopped_parking (h : s.zoom.state = .parking) : s.zoomStopped =
    if s.zoom.retract then s.zoomParked
    else if s.zoom.report.isSome then (s.onZoom fun z => { z with stopped := true }).zoomRetract
    else s.onZoom fun z => { z with stopped := true } := by
  unfold State.zoomStopped
  rw [h]
  rfl

/-! ### The homing's end -/

theorem exec_focusHomingFailed_early (hp : s.supply.powered = true) (m : Moment)
    (h : ¬∃ x, (s.arrive m).focus.homing = some x ∧ 3200 ≤ x) :
    exec (.focusHomingFailed m) s = .next (s.arrive m) := by
  change execFocusHomingFailed m s = _
  rw [execFocusHomingFailed, event_powered hp]
  exact congrArg _ (if_neg fun hr => h (reached_iff.mp hr))

/-- The homing has failed. -/
def State.homingLost (s : State) : State := s.onFocus fun f => { f with homing := none }

theorem exec_focusHomingFailed_reports (hp : s.supply.powered = true) (m : Moment)
    (h : ∃ x, (s.arrive m).focus.homing = some x ∧ 3200 ≤ x) :
    exec (.focusHomingFailed m) s = .next ((s.arrive m).homingLost.zoomReport false) := by
  change execFocusHomingFailed m s = _
  rw [execFocusHomingFailed, event_powered hp]
  exact congrArg _ (if_pos (reached_iff.mpr h))

theorem exec_focusHomeSensorSeen_none (hp : s.supply.powered = true) (m : Moment) (h : s.focus.homing = none) :
    exec (.focusHomeSensorSeen m) s = .next (s.arrive m) := by
  have harrived : (s.arrive m).focus.homing = none := by simpa using h
  change execFocusHomeSensorSeen m s = _
  rw [execFocusHomeSensorSeen, event_powered hp]
  exact congrArg _ (if_neg (by rw [harrived]; decide))

/-- The homing has ended on the home sensor. -/
def State.homeSeen (s : State) : State :=
  State.focusHomed { s with lines := { s.lines with focusHome := true } }

theorem exec_focusHomeSensorSeen_reports (hp : s.supply.powered = true) (m : Moment) (h : s.focus.homing ≠ none) :
    exec (.focusHomeSensorSeen m) s = .next ((s.arrive m).homeSeen.zoomReport true) := by
  have harrived : (s.arrive m).focus.homing ≠ none := by simpa using h
  change execFocusHomeSensorSeen m s = _
  rw [execFocusHomeSensorSeen, event_powered hp]
  exact congrArg _ (if_pos (Option.isSome_iff_ne_none.mpr harrived))

end Sys2Proof.Machine
end

section
/-! PROOFS. EXTEND LENS and PARK LENS lead HOMING and PARKING to their ends on the park sensor (R114, R115, R124,
R125). -/

namespace Sys2Proof.Machine

variable {s t : State}

/-! ### What the two requests leave -/

/-- EXTEND LENS accepted (R114). -/
theorem exec_extendLens_homes (h : Taking s) (m : Moment) (hs : s.shot.state = .idle)
    (hz : s.zoom.state = .unhomed ∨ s.zoom.state = .parked) (hw : s.zoom.working ≠ none) :
    exec (.extendLens m) s = .next ((taken 17 m s).zoomExtend.respond 17 (.ok, .empty, none)) := by
  have hnone : extendRefusal s = none := by
    obtain hz | hz := hz <;> simp [extendRefusal, hs, hz, hw]
  rw [exec_extendLens h m, hnone]

theorem exec_extendLens_refused (h : Taking s) (m : Moment) {c : Code} (hc : extendRefusal s = some c) :
    exec (.extendLens m) s = .next ((taken 17 m s).respond 17 (c, .empty, none)) := by
  rw [exec_extendLens h m, hc]

theorem taken_focusHome (k : Nat) (m : Moment) (s : State) : (taken k m s).lines.focusHome = m.focusHome := by simp

theorem taken_park (k : Nat) (m : Moment) (s : State) : (taken k m s).lines.park = s.lines.park := by simp

theorem taken_homing_iff (k : Nat) (m : Moment) (s : State) :
    (taken k m s).focus.homing = none ↔ s.focus.homing = none := by simp

theorem later_none_iff (dt : Nat) (x : Option Nat) : later dt x = none ↔ x = none := by cases x <;> simp [later]

theorem arrive_brake_none_iff (m : Moment) (s : State) : (s.arrive m).timers.brake = none ↔ s.timers.brake = none :=
  later_none_iff _ _

theorem State.zoomExtend_away (h : s.lines.park = false) :
    s.zoomExtend.zoom.state = .homing ∧ s.zoomExtend.zoom.count = none ∧ s.zoomExtend.zoom.current = none ∧
      s.zoomExtend.zoom.target = none ∧ s.zoomExtend.zoom.drive = .wideFull ∧ s.zoomExtend.timers.stall = some 0 ∧
      s.zoomExtend.timers.brake = none := by
  obtain ⟨hzoom, hstall, hbrake⟩ := State.extendBegun_away h
  obtain ⟨r, hr, hrs, hrb⟩ := State.zoomAskHome_homing_waits (s := s.extendBegun) (by rw [hzoom]) (by rw [hzoom])
  rw [State.zoomExtend_eq, hr, hrs, hrb, hzoom]
  exact ⟨rfl, rfl, rfl, rfl, rfl, hstall, hbrake⟩

theorem State.zoomExtend_seen (h : s.lines.park = true) (hl : s.lines.focusHome = false) :
    s.zoomExtend.zoom.state = .homing ∧ s.zoomExtend.zoom.count = some 0 ∧ s.zoomExtend.zoom.stopped = true ∧
      s.zoomExtend.zoom.drive = .off := by
  rw [State.zoomExtend_eq, State.zoomAskHome_later (.inr (by simpa using hl)), (State.focusHome_zoom _).1,
    State.extendBegun_seen h]
  exact ⟨rfl, rfl, rfl, rfl⟩

/-- The lens on the park sensor with the focus on its own extends at once. -/
theorem State.zoomExtend_extends (h : s.lines.park = true) (hl : s.lines.focusHome = true)
    (hh : s.focus.homing = none) : s.zoomExtend.zoom.state = .extending := by
  have hzoom := State.extendBegun_seen h
  rw [State.zoomExtend_eq, State.zoomAskHome_seen (by simpa using hh) (by simpa using hl),
    State.zoomReport_homing (by simp [hzoom]), if_pos (by simp [hzoom])]
  rfl

theorem State.zoomPark_waits (hw : s.lines.focusHome = false ∨ s.focus.homing ≠ none ∨ s.timers.brake ≠ none ∨
      s.zoom.drive.driven = true) :
    ∃ r, s.zoomPark.zoom = { s.parkBegun.zoom with report := r } ∧
      s.zoomPark.timers.stall = s.parkBegun.timers.stall ∧ s.zoomPark.timers.brake = s.parkBegun.timers.brake := by
  have hstate : s.parkBegun.zoom.state = .parking := by
    by_cases hd : s.zoom.drive.driven = true
    · rw [(State.parkBegun_driven hd).1]
    · rw [(State.parkBegun_rests (Bool.not_eq_true _ ▸ hd)).1]
  rw [State.zoomPark_eq]
  refine State.zoomAskHome_parking_waits hstate ?_
  rw [(State.parkBegun_frame s).1, (State.parkBegun_frame s).2]
  obtain hw | hw | hw | hw := hw
  · exact .inr (.inl hw)
  · exact .inl hw
  · refine .inr (.inr ?_)
    by_cases hd : s.zoom.drive.driven = true
    · rw [(State.parkBegun_driven hd).1]
    · rw [(State.parkBegun_rests (Bool.not_eq_true _ ▸ hd)).1]
      simpa using Option.isSome_iff_ne_none.mpr hw
  · rw [(State.parkBegun_driven hw).1]
    exact .inr (.inr rfl)

/-- At rest, with the focus on its home sensor, the retract begins or ends at once (R125). -/
theorem State.zoomPark_retracts (hl : s.lines.focusHome = true) (hh : s.focus.homing = none)
    (hb : s.timers.brake = none) (hd : s.zoom.drive.driven = false) :
    ∃ t : State, s.zoomPark = t.zoomRetract ∧ t.lines.park = s.lines.park ∧ t.zoom.state = .parking ∧
      t.zoom.count = s.zoom.count ∧ t.zoom.target = none ∧ t.zoom.current = none := by
  obtain ⟨hzoom, -⟩ := State.parkBegun_rests hd
  refine ⟨s.parkBegun.homingDrop.focusHomed.parkReported true, ?_, by simp, ?_⟩
  · exact State.zoomAskHome_parking_retracts (s := s.parkBegun) (by rw [hzoom]) (by simpa using hh) (by simpa using hl)
      (by rw [hzoom]; simp [hb]) (by rw [hzoom])
  · rw [State.parkReported_zoom]
    simp [hzoom]

@[simp] theorem State.zoomRetract_aim (s : State) : s.zoomRetract.zoom.target = s.zoom.target ∧
    s.zoomRetract.zoom.current = s.zoom.current := by
  unfold State.zoomRetract
  split <;> exact ⟨rfl, rfl⟩

/-- An answer changes only the link. -/
theorem LensParked.respond (h : LensParked s) (k : Nat) (a : Answer) : LensParked (s.respond k a) := ⟨h.1, h.2, h.3, h.4⟩

theorem LensRetracts.respond {c : Option Int} (h : LensRetracts c s) (k : Nat) (a : Answer) :
    LensRetracts c (s.respond k a) := ⟨h.1, h.2, h.3, h.4⟩

/-! ### What the brake watch and the homing's reports leave -/

/-- A homing's report in PARKING, or the motor's stop, ends the park or begins the retract. -/
theorem parkEnds (hs : s.zoom.state = .parking) :
    (s.lines.park = true → LensParked s.zoomRetract) ∧
      (s.lines.park = false → LensRetracts s.zoom.count s.zoomRetract) :=
  ⟨fun h => by rw [State.zoomRetract_seen h]; exact s.zoomParked_parked, fun h => State.zoomRetract_retracts h hs⟩

theorem State.parkReported_parking (hs : s.zoom.state = .parking) (ok : Bool) :
    (s.parkReported ok).zoom.state = .parking ∧ (s.parkReported ok).zoom.count = s.zoom.count := by
  rw [State.parkReported_zoom]
  exact ⟨hs, rfl⟩

/-- A failed homing in PARKING: FOCUS_HOME and LENS_FAULT, whatever the park does then (R125). -/
theorem State.parkReported_failed (s : State) : (s.parkReported false).zoom.lastFault = .focusHome ∧
    (s.parkReported false).events.has .lensFault = true := ⟨rfl, s.homeFailed_has⟩

theorem State.zoomRetract_failed (s : State) : (s.parkReported false).zoomRetract.zoom.lastFault = .focusHome ∧
    (s.parkReported false).zoomRetract.events.has .lensFault = true := by
  rw [State.zoomRetract_has _ (by decide), (State.zoomRetract_frame _).2]
  exact s.parkReported_failed

@[simp] theorem State.homeSeen_frame (s : State) : s.homeSeen.zoom = s.zoom ∧ s.homeSeen.timers = s.timers ∧
    s.homeSeen.lines.park = s.lines.park ∧ s.homeSeen.events = s.events ∧ s.homeSeen.focus.state = .idle ∧
    s.homeSeen.focus.position = some 0 ∧ s.homeSeen.focus.homing = none := ⟨rfl, rfl, rfl, rfl, rfl, rfl, rfl⟩

@[simp] theorem State.homingLost_frame (s : State) : s.homingLost.zoom = s.zoom ∧ s.homingLost.timers = s.timers ∧
    s.homingLost.lines = s.lines ∧ s.homingLost.events = s.events ∧
    s.homingLost.focus = { s.focus with homing := none } := ⟨rfl, rfl, rfl, rfl, rfl⟩

@[simp] theorem State.brakeOver_frame (s : State) : s.brakeOver.zoom = s.zoom ∧ s.brakeOver.lines = s.lines :=
  ⟨rfl, rfl⟩

/-- PARK LENS by the focus sensor and the motor. -/
theorem parkLensParks (h : Taking s) (m : Moment) (hs : s.shot.state = .idle) (h1 : s.zoom.state ≠ .parked)
    (h2 : s.zoom.state ≠ .parking) :
    (m.focusHome = false ∨ s.focus.homing ≠ none ∨ s.timers.brake ≠ none ∨ s.zoom.drive.driven = true →
      ∃ t, exec (.parkLens m) s = .next t ∧ t.zoom.state = .parking ∧ t.zoom.target = none ∧ t.zoom.current = none ∧
        t.link.pending = some { kind := 20, code := .ok, body := .empty, held := none } ∧
        (s.zoom.drive.driven = true → t.zoom.drive = .braked ∧ t.timers.brake = some 0 ∧ t.timers.stall = none) ∧
        (s.zoom.drive.driven = false → t.zoom.drive = s.zoom.drive ∧ t.timers.stall = none ∧
          t.timers.brake = (s.arrive m).timers.brake ∧ t.zoom.stopped = decide (s.timers.brake = none))) ∧
    (m.focusHome = true → s.focus.homing = none → s.timers.brake = none → s.zoom.drive.driven = false →
      ∃ t, exec (.parkLens m) s = .next t ∧ t.zoom.target = none ∧ t.zoom.current = none ∧
        t.link.pending = some { kind := 20, code := .ok, body := .empty, held := none } ∧
        t.focus.state = .idle ∧ t.focus.position = some 0 ∧ t.focus.homing = none ∧
        (s.lines.park = true → LensParked t) ∧ (s.lines.park = false → LensRetracts s.zoom.count t)) := by
  let u := taken 20 m s
  have hrun := exec_parkLens_parks h m hs h1 h2
  have hzoom : u.zoom = s.zoom := by simp [u]
  have htimers : u.timers = (s.arrive m).timers := by simp [u]
  have hbrake : u.timers.brake = none ↔ s.timers.brake = none := by
    rw [htimers]
    exact arrive_brake_none_iff m s
  have hhoming : u.focus.homing = none ↔ s.focus.homing = none := taken_homing_iff 20 m s
  have hsensor : u.lines.focusHome = m.focusHome := taken_focusHome 20 m s
  refine ⟨fun hw => ?_, fun hl hh hb hd => ?_⟩
  · obtain ⟨r, hz, hstall, hbr⟩ := State.zoomPark_waits (s := u) (by
      rw [hsensor, hzoom, Ne, Ne, hhoming, hbrake]
      exact hw)
    have hdriven := State.parkBegun_driven (s := u)
    have hrests := State.parkBegun_rests (s := u)
    rw [hzoom] at hdriven hrests
    refine ⟨_, hrun, ?_⟩
    rw [State.respond_link, (State.respond_frame _ _ _).2.1, show ((u.zoomPark.respond 20 _).zoom) = u.zoomPark.zoom from rfl,
      hz, hstall, hbr]
    by_cases hd : s.zoom.drive.driven = true
    · obtain ⟨hz, hs, hb⟩ := hdriven hd
      rw [hz]
      exact ⟨rfl, rfl, rfl, rfl, fun _ => ⟨rfl, hb, hs⟩, fun hf => absurd hd (by rw [hf]; decide)⟩
    · obtain ⟨hz, hs, hb⟩ := hrests ((Bool.not_eq_true _).mp hd)
      rw [hz]
      refine ⟨rfl, rfl, rfl, rfl, fun hf => absurd hf hd, fun _ => ⟨rfl, hs, hb.trans (by rw [htimers]), ?_⟩⟩
      change u.timers.brake.isNone = _
      rw [Bool.eq_iff_iff, Option.isNone_iff_eq_none, decide_eq_true_iff, hbrake]
  · have hfocus := State.zoomAskHome_ends (s := u.parkBegun) (by simpa using hhoming.mpr hh) (by simpa [hl] using hsensor)
    obtain ⟨t, ht, hpark, hstate, hcount, htarget, hcurrent⟩ := State.zoomPark_retracts (s := u)
      (hsensor.trans hl) (hhoming.mpr hh) (hbrake.mpr hb) (by rw [hzoom]; exact hd)
    rw [← State.zoomPark_eq, ht] at hfocus
    obtain ⟨hseen, hgone⟩ := parkEnds hstate
    rw [hpark, show u.lines.park = s.lines.park by simp [u]] at hseen hgone
    rw [hcount, hzoom] at hgone
    refine ⟨_, hrun, ?_⟩
    rw [ht]
    exact ⟨(State.zoomRetract_aim t).1.trans htarget, (State.zoomRetract_aim t).2.trans hcurrent, rfl, hfocus.1,
      hfocus.2.1, hfocus.2.2, fun hp => (hseen hp).respond 20 _, fun hp => (hgone hp).respond 20 _⟩

end Sys2Proof.Machine
end

section
/-! PROOFS. HOMING and PARKING end on the park sensor (R112 to R116, R124, R125, R133). -/

namespace Sys2Proof.Machine

variable {s t : State}

theorem LensParked.fields (h : LensParked t) : t.zoom.state = .parked ∧ t.zoom.count = some 0 ∧ t.zoom.drive = .off ∧
    t.events.has .zoomEnded = true := ⟨h.state, h.count, h.drive, h.ended⟩

theorem LensRetracts.fields {count : Option Int} (h : LensRetracts count t) : t.zoom.state = .parking ∧
    t.zoom.retract = true ∧ t.timers.stall = some 0 ∧ t.zoom.drive = retractDrive count :=
  ⟨h.state, h.retract, h.stall, h.drive⟩

theorem LensExtends.fields {count : Option Int} (h : LensExtends count t) : t.zoom.state = .extending ∧
    t.zoom.count = count ∧ t.timers.stall = some 0 ∧ (t.zoom.drive = .teleSlow ∨ t.zoom.drive = .teleFull) :=
  ⟨h.state, h.count, h.stall, h.drive⟩

/-- The brake watch's stop in HOMING. -/
theorem zoomStopped_homing_ends (hs : s.zoom.state = .homing) :
    (s.zoom.report = none → s.zoomStopped = s.homeStopped) ∧
      (s.zoom.report = some true → LensExtends (some 0) s.zoomStopped) ∧
      (s.zoom.report = some false → LensParked s.zoomStopped ∧ s.zoomStopped.zoom.lastFault = .focusHome ∧
        s.zoomStopped.events.has .lensFault = true) := by
  refine ⟨fun hr => ?_, fun hr => ?_, fun hr => ?_⟩ <;> rw [State.zoomStopped_homing hs, hr]
  · exact s.homeStopped.zoomHomed_extends
  · exact ⟨State.zoomParked_parked _, rfl, (State.zoomParked_has _ (by decide)).trans s.homeStopped.homeFailed_has⟩

/-- A homing's report with the motor stopped on the sensor in HOMING. -/
theorem zoomReport_homing_ends (hs : s.zoom.state = .homing) (hstop : s.zoom.stopped = true) :
    LensExtends s.zoom.count (s.zoomReport true) ∧ LensParked (s.zoomReport false) ∧
      (s.zoomReport false).zoom.lastFault = .focusHome ∧ (s.zoomReport false).events.has .lensFault = true := by
  rw [State.zoomReport_homing hs, State.zoomReport_homing hs, if_pos hstop, if_pos hstop]
  exact ⟨s.zoomHomed_extends, State.zoomParked_parked _, rfl,
    (State.zoomParked_has _ (by decide)).trans s.homeFailed_has⟩

theorem zoomReport_homing_waits (hs : s.zoom.state = .homing) (hstop : s.zoom.stopped = false) (ok : Bool) :
    (s.zoomReport ok).zoom = { s.zoom with report := some ok } := by
  rw [State.zoomReport_homing hs, if_neg (by rw [hstop]; decide)]
  rfl

/-- A report in PARKING leaves the last fault and LENS_FAULT, but for a homing that failed. -/
theorem zoomReport_parking_faults (hs : s.zoom.state = .parking) :
    (s.zoomReport true).zoom.lastFault = s.zoom.lastFault ∧
      (s.zoomReport true).events.has .lensFault = s.events.has .lensFault ∧
      (s.zoomReport false).zoom.lastFault = .focusHome ∧ (s.zoomReport false).events.has .lensFault = true := by
  rw [State.zoomReport_parking hs, State.zoomReport_parking hs]
  split
  · rw [(State.zoomRetract_frame _).2, State.zoomRetract_has _ (by decide), State.parkReported_zoom]
    exact ⟨rfl, rfl, s.zoomRetract_failed⟩
  · rw [State.parkReported_zoom]
    exact ⟨rfl, rfl, s.parkReported_failed⟩

/-- A report in PARKING with the motor stopped before the retract. -/
theorem zoomReport_parking_ends (hs : s.zoom.state = .parking) (hstop : s.zoom.stopped = true)
    (hr : s.zoom.retract = false) (ok : Bool) :
    (s.lines.park = true → LensParked (s.zoomReport ok)) ∧
      (s.lines.park = false → LensRetracts s.zoom.count (s.zoomReport ok)) := by
  obtain ⟨hstate, hcount⟩ := State.parkReported_parking hs ok
  have hends := parkEnds hstate
  rw [hcount, (s.parkReported_frame ok).2.1] at hends
  rw [State.zoomReport_parking_retracts hs hstop hr]
  exact hends

/-- Settles O50: the refusals of the two requests, and the report, the stop and the sensor by the state they meet. -/
theorem homingAndParkingEndOnTheSensor : Obligations.HomingAndParkingEndOnTheSensor := by
  unfold Obligations.HomingAndParkingEndOnTheSensor
  intro parked retracts
  refine ⟨fun m s h => ⟨?_, exec_parkLens_armed h m, exec_parkLens_parked h m, ?_, ?_⟩, fun m s hp => ?_⟩
  · intro refused
    have hrefused {c : Code} (hc : extendRefusal s = some c) : refused c := exec_extendLens_refused h m hc
    refine ⟨fun hs => hrefused (if_pos hs), fun hs => ⟨fun hz => ?_, fun hz => ?_, fun hz => ?_, fun hz => ⟨?_, ?_⟩⟩⟩
    · exact hrefused (by simp [extendRefusal, hs, hz])
    · obtain hz | hz | hz | hz | hz := hz <;> exact hrefused (by simp [extendRefusal, hs, hz])
    · obtain hz | hz := hz <;> exact hrefused (by simp [extendRefusal, hs, hz])
    · intro hw
      obtain hz | hz := hz <;> exact hrefused (by simp [extendRefusal, hs, hz, hw])
    · intro hw
      let u := taken 17 m s
      have hsensor : u.lines.focusHome = m.focusHome := taken_focusHome 17 m s
      have hpark : u.lines.park = s.lines.park := taken_park 17 m s
      have hhoming : u.focus.homing = none ↔ s.focus.homing = none := taken_homing_iff 17 m s
      refine ⟨_, exec_extendLens_homes h m hs hz hw, by simp, fun hl => ?_, fun hl hf => ?_, fun hl hf hh => ?_,
        fun hh hf => ?_, fun hh hf => ?_⟩
      · exact State.zoomExtend_away (hpark.trans hl)
      · exact State.zoomExtend_seen (hpark.trans hl) (hsensor.trans hf)
      · exact State.zoomExtend_extends (hpark.trans hl) (hsensor.trans hf) (hhoming.mpr hh)
      · exact State.zoomAskHome_begins (s := u.extendBegun) (by simpa using hhoming.mpr hh) (by simpa [hf] using hsensor)
      · exact State.zoomAskHome_ends (s := u.extendBegun) (by simpa using hhoming.mpr hh) (by simpa [hf] using hsensor)
  · intro hs h1 h2 hw
    rw [← Drive.driven_iff] at hw
    obtain ⟨t, ht, hstate, htarget, hcurrent, hlink, hdriven, hrests⟩ := (parkLensParks h m hs h1 h2).1 hw
    exact ⟨t, ht, hstate, htarget, hcurrent, hlink, fun ho hb => hdriven ((Drive.driven_iff _).mpr ⟨ho, hb⟩),
      fun hd => hrests ((Drive.not_driven_iff _).mpr hd)⟩
  · intro hs h1 h2 hl hh hb hd
    obtain ⟨t, ht, htarget, hcurrent, hlink, hstate, hposition, hhoming, hseen, haway⟩ :=
      (parkLensParks h m hs h1 h2).2 hl hh hb ((Drive.not_driven_iff _).mpr hd)
    exact ⟨t, ht, htarget, hcurrent, hlink, hstate, hposition, hhoming, fun hp => (hseen hp).fields,
      fun hp => (haway hp).fields⟩
  · intro u stopped ended extends_
    have hbrake (hst : stopped) := exec_brakeWatchExpiry_stops hp m hst
    refine ⟨fun d hl hz hd h1 h2 => ?_, exec_parkSensorChange_same hp m rfl, fun hl => ?_,
      exec_brakeWatchExpiry_early hp m, fun hst hz => ?_, fun hst hz => ?_, exec_focusHomingFailed_early hp m,
      exec_focusHomeSensorSeen_none hp m, fun hh => ?_⟩
    · refine (exec_parkSensorChange_new hp m (by rw [hl]; decide)).trans (congrArg _ ?_)
      rw [if_pos rfl]
      exact State.zoomParkSeen_homes hz ((Drive.driven_iff _).mpr ⟨hd ▸ h1, hd ▸ h2⟩)
    · exact exec_parkSensorChange_new hp m (by rw [hl]; decide)
    · obtain ⟨hnone, htrue, hfalse⟩ := zoomStopped_homing_ends (s := u.brakeOver) hz
      exact ⟨fun hr => (hbrake hst).trans (congrArg _ (hnone hr)), fun hr => ⟨_, hbrake hst, (htrue hr).fields⟩,
        fun hr => ⟨_, hbrake hst, (hfalse hr).1.fields, (hfalse hr).2⟩⟩
    · have hrun := (hbrake hst).trans (congrArg _ (State.zoomStopped_parking (s := u.brakeOver) hz))
      have hreport (h : s.zoom.report ≠ none) : u.brakeOver.zoom.report.isSome = true :=
        Option.isSome_iff_ne_none.mpr h
      have hends := parkEnds (s := u.brakeOver.onZoom fun z => { z with stopped := true }) hz
      refine ⟨fun hr => ⟨_, hrun.trans (congrArg _ (if_pos hr)), (State.zoomParked_parked _).fields⟩,
        fun hr hn => hrun.trans (congrArg _ ((if_neg ?_).trans (if_neg ?_))), fun hr hn hl => ?_, fun hr hn hl => ?_⟩
      · exact Bool.eq_false_iff.mp hr
      · rw [show u.brakeOver.zoom.report = none from hn]
        decide
      · exact ⟨_, hrun.trans (congrArg _ ((if_neg (Bool.eq_false_iff.mp hr)).trans (if_pos (hreport hn)))),
          (hends.1 hl).fields⟩
      · exact ⟨_, hrun.trans (congrArg _ ((if_neg (Bool.eq_false_iff.mp hr)).trans (if_pos (hreport hn)))),
          (hends.2 hl).fields⟩
    · have hseen := exec_focusHomeSensorSeen_reports hp m hh
      have hfailed (he : ended) := exec_focusHomingFailed_reports hp m he
      have hhomed (ok : Bool) : (u.homeSeen.zoomReport ok).focus.state = .idle ∧
          (u.homeSeen.zoomReport ok).focus.position = some 0 ∧ (u.homeSeen.zoomReport ok).focus.homing = none := by
        simp
      have hlost (ok : Bool) : (u.homingLost.zoomReport ok).focus = { u.focus with homing := none } := by simp
      refine ⟨fun hz hst => ⟨fun hc => ?_, fun he => ?_⟩, fun hz hst => ⟨?_, fun he => ?_⟩, fun hz => ?_⟩
      · have hextends := (zoomReport_homing_ends (s := u.homeSeen) hz hst).1
        rw [show u.homeSeen.zoom.count = some 0 from hc] at hextends
        exact ⟨_, hseen, hextends.fields, hhomed true⟩
      · obtain ⟨-, hpark, hfault, hflag⟩ := zoomReport_homing_ends (s := u.homingLost) hz hst
        exact ⟨_, hfailed he, hpark.fields, hfault, hflag, by rw [hlost]⟩
      · exact ⟨_, hseen, zoomReport_homing_waits (s := u.homeSeen) hz hst true, hhomed true⟩
      · exact ⟨_, hfailed he, zoomReport_homing_waits (s := u.homingLost) hz hst false, by rw [hlost]⟩
      · intro homed failed
        obtain ⟨hfault, hflag, -, -⟩ := zoomReport_parking_faults (s := u.homeSeen) hz
        obtain ⟨-, -, hfault', hflag'⟩ := zoomReport_parking_faults (s := u.homingLost) hz
        have hhome : homed (u.homeSeen.zoomReport true) :=
          ⟨(hhomed true).1, (hhomed true).2.1, (hhomed true).2.2, hfault, hflag⟩
        have hfail : failed (u.homingLost.zoomReport false) := ⟨hlost false, hfault', hflag'⟩
        refine ⟨fun hst hr => ?_, fun hw => ⟨⟨_, hseen, hhome, ?_⟩, fun he => ⟨_, hfailed he, hfail, ?_⟩⟩⟩
        · have hends := zoomReport_parking_ends (s := u.homeSeen) hz hst hr true
          have hends' := zoomReport_parking_ends (s := u.homingLost) hz hst hr false
          exact ⟨fun hl => ⟨⟨_, hseen, (hends.1 hl).fields, hhome⟩,
              fun he => ⟨_, hfailed he, (hends'.1 hl).fields, hfail⟩⟩,
            fun hl => ⟨⟨_, hseen, (hends.2 hl).fields, hhome⟩,
              fun he => ⟨_, hfailed he, (hends'.2 hl).fields, hfail⟩⟩⟩
        · rw [State.zoomReport_parking_waits (s := u.homeSeen) hz hw, State.parkReported_zoom]
          rfl
        · rw [State.zoomReport_parking_waits (s := u.homingLost) hz hw, State.parkReported_zoom]
          rfl

end Sys2Proof.Machine
end

section
/-! PROOFS. What a pulse leaves alone, and what it makes of the drive and its watches (R111 to R118, R125). -/

namespace Sys2Proof.Machine

variable {s t : State}

/-! ### What a pulse keeps -/

@[simp] theorem State.zoomFault_keeps (c : ZoomFault) (s : State) : (s.zoomFault c).zoom =
      { s.zoom with state := .stalled, target := none, current := none, lastFault := c, stopped := false
                    report := none, retract := false, drive := .off } ∧
    (s.zoomFault c).lines = s.lines ∧ (s.zoomFault c).steady = s.steady ∧
    (s.zoomFault c).timers.pulse = s.timers.pulse ∧ (s.zoomFault c).timers.stall = none ∧
    (s.zoomFault c).timers.brake = none := by
  simp [State.zoomFault]

@[simp] theorem State.zoomHoldCheck_keeps (s : State) : s.zoomHoldCheck.zoom.count = s.zoom.count ∧
    s.zoomHoldCheck.zoom.period = s.zoom.period ∧ s.zoomHoldCheck.zoom.working = s.zoom.working ∧
    s.zoomHoldCheck.zoom.staging = s.zoom.staging ∧ s.zoomHoldCheck.zoom.drive = s.zoom.drive ∧
    s.zoomHoldCheck.lines = s.lines ∧ s.zoomHoldCheck.steady = s.steady ∧ s.zoomHoldCheck.timers = s.timers ∧
    s.zoomHoldCheck.focus = s.focus ∧ s.zoomHoldCheck.events = s.events := by
  unfold State.zoomHoldCheck
  (repeat' split) <;> simp

@[simp] theorem State.zoomArrive_keeps (k : Nat) (s : State) : (s.zoomArrive k).zoom =
      { s.zoom with state := .ready, current := some k, target := none, drive := .braked } ∧
    (s.zoomArrive k).lines = s.lines ∧ (s.zoomArrive k).steady = s.steady ∧
    (s.zoomArrive k).timers.pulse = s.timers.pulse ∧ (s.zoomArrive k).timers.stall = none ∧
    (s.zoomArrive k).timers.brake = some 0 := by
  simp [State.zoomArrive]

@[simp] theorem State.zoomPassed_keeps (c : Int) (s : State) : (s.zoomPassed c).zoom = s.zoom ∧
    (s.zoomPassed c).lines = s.lines ∧ (s.zoomPassed c).steady = s.steady ∧
    (s.zoomPassed c).timers.pulse = s.timers.pulse ∧ (s.zoomPassed c).timers.stall = s.timers.stall ∧
    (s.zoomPassed c).timers.brake = s.timers.brake := by
  unfold State.zoomPassed
  split <;> simp

@[simp] theorem State.zoomStepReached_keeps (s : State) : s.zoomStepReached.zoom.count = s.zoom.count ∧
    s.zoomStepReached.zoom.period = s.zoom.period ∧ s.zoomStepReached.zoom.working = s.zoom.working ∧
    s.zoomStepReached.zoom.staging = s.zoom.staging ∧ s.zoomStepReached.zoom.drive = s.zoom.drive ∧
    s.zoomStepReached.lines = s.lines ∧ s.zoomStepReached.steady = s.steady ∧ s.zoomStepReached.timers = s.timers ∧
    s.zoomStepReached.focus = s.focus := by
  unfold State.zoomStepReached
  split <;> simp

/-- Station 0's count is reached: braked, no target any more (R116). -/
def State.extendStopped (s : State) : State :=
  (s.zoomBrake.onZoom fun z => { z with current := some 0, target := none }).meterInput

theorem State.zoomExtended_eq (s : State) : s.zoomExtended =
    if (s.extendStopped.focusGoTo (camOf s.extendStopped 0 0)).2 then
      (s.extendStopped.focusGoTo (camOf s.extendStopped 0 0)).1.zoomStepReached
    else (s.extendStopped.focusGoTo (camOf s.extendStopped 0 0)).1 := rfl

@[simp] theorem State.extendStopped_frame (s : State) : s.extendStopped.zoom =
      { s.zoom with current := some 0, target := none, drive := .braked } ∧
    s.extendStopped.lines = s.lines ∧ s.extendStopped.steady = s.steady ∧
    s.extendStopped.timers = { s.timers with stall := none, brake := some 0 } ∧
    s.extendStopped.focus = s.focus := by
  simp [State.extendStopped]

@[simp] theorem State.zoomExtended_keeps (s : State) : s.zoomExtended.zoom.count = s.zoom.count ∧
    s.zoomExtended.zoom.period = s.zoom.period ∧ s.zoomExtended.zoom.working = s.zoom.working ∧
    s.zoomExtended.zoom.staging = s.zoom.staging ∧ s.zoomExtended.zoom.drive = .braked ∧
    s.zoomExtended.lines = s.lines ∧ s.zoomExtended.steady = s.steady ∧
    s.zoomExtended.timers.pulse = s.timers.pulse ∧ s.zoomExtended.timers.stall = none ∧
    s.zoomExtended.timers.brake = some 0 := by
  rw [State.zoomExtended_eq]
  split <;> simp

/-! ### What a pulse makes of the drive -/

/-- A drive with its watches: off, braking begun from MOVING or EXTENDING, or running on as it was (R112). -/
inductive PulseDrives (s t : State) : Prop
  | off (h : t.zoom.drive = .off)
  | brakes (h : t.zoom.drive = .braked) (hstall : t.timers.stall = none) (hbrake : t.timers.brake = some 0)
      (hfrom : s.zoom.state = .moving ∨ s.zoom.state = .extending ∧ s.zoom.current = none)
  | runs (h : t.zoom.drive = s.zoom.drive ∨ t.zoom.drive.driven = true) (hstall : t.timers.stall = s.timers.stall)
      (hbrake : t.timers.brake = s.timers.brake)

/-- What a pulse keeps, once counted, with what it makes of the drive. -/
structure PulseKeeps (s t : State) : Prop where
  count : t.zoom.count = s.zoom.count
  period : t.zoom.period = s.zoom.period
  working : t.zoom.working = s.zoom.working
  staging : t.zoom.staging = s.zoom.staging
  lines : t.lines = s.lines
  steady : t.steady = s.steady
  pulse : t.timers.pulse = s.timers.pulse
  drives : PulseDrives s t

theorem approachDrive_driven (a c : Int) : (approachDrive a c).driven = true := by
  unfold approachDrive
  split <;> rfl

theorem retractDrive_driven (c : Option Int) : (retractDrive c).driven = true := by
  unfold retractDrive
  split
  · split <;> rfl
  · rfl

theorem PulseKeeps.refl (s : State) : PulseKeeps s s := ⟨rfl, rfl, rfl, rfl, rfl, rfl, rfl, .runs (.inl rfl) rfl rfl⟩

theorem State.zoomFault_pulse (c : ZoomFault) (s : State) : PulseKeeps s (s.zoomFault c) := by
  obtain ⟨hz, hl, hs, hp, -, -⟩ := s.zoomFault_keeps c
  exact ⟨by rw [hz], by rw [hz], by rw [hz], by rw [hz], hl, hs, hp, .off (by rw [hz])⟩

theorem State.zoomHoldCheck_pulse (s : State) : PulseKeeps s s.zoomHoldCheck := by
  obtain ⟨hc, hp, hw, hst, hd, hl, hs, ht, -⟩ := s.zoomHoldCheck_keeps
  exact ⟨hc, hp, hw, hst, hl, hs, by rw [ht], .runs (.inl hd) (by rw [ht]) (by rw [ht])⟩

/-- A change of the drive alone to a driven one. -/
theorem State.drivenTo_pulse {d : Drive} (hd : d.driven = true) (s : State) :
    PulseKeeps s (s.onZoom fun z => { z with drive := d }) :=
  ⟨rfl, rfl, rfl, rfl, rfl, rfl, rfl, .runs (.inr hd) rfl rfl⟩

theorem State.zoomExtended_pulse (h : s.zoom.state = .extending) (hc : s.zoom.current = none) :
    PulseKeeps s s.zoomExtended := by
  obtain ⟨hcount, hp, hw, hst, hd, hl, hs, hpulse, hstall, hbrake⟩ := s.zoomExtended_keeps
  exact ⟨hcount, hp, hw, hst, hl, hs, hpulse, .brakes hd hstall hbrake (.inr ⟨h, hc⟩)⟩

theorem State.zoomMoved_pulse (h : s.zoom.state = .moving) (c : Int) : PulseKeeps s (s.zoomMoved c) := by
  obtain ⟨hz, hl, hst, hp, hstall, hbrake⟩ := s.zoomPassed_keeps c
  have hpassed : PulseKeeps s (s.zoomPassed c) :=
    ⟨by rw [hz], by rw [hz], by rw [hz], by rw [hz], hl, hst, hp, .runs (.inl (by rw [hz])) hstall hbrake⟩
  unfold State.zoomMoved
  split
  next k leg ht =>
    split
    next a =>
      split
      · obtain ⟨hz, hl, hst, hp, hstall, hbrake⟩ := s.zoomArrive_keeps k
        exact ⟨by rw [hz], by rw [hz], by rw [hz], by rw [hz], hl, hst, hp,
          .brakes (by rw [hz]) hstall hbrake (.inl h)⟩
      · exact ⟨by simp, by simp, by simp, by simp, by simp, by simp, by simp,
          .runs (.inr (by simpa using approachDrive_driven _ _)) (by simp) (by simp)⟩
    next a =>
      dsimp only
      split
      · exact ⟨by simp, by simp, by simp, by simp, by simp, by simp, by simp,
          .brakes (by simp) (by simp) (by simp) (.inl h)⟩
      · exact hpassed
    next => exact PulseKeeps.refl s
  next => exact PulseKeeps.refl s

/-- Every pulse keeps the count, the tables and the lines, and leaves the drive one of three ways. -/
theorem State.zoomPulse_keeps (s : State) : PulseKeeps s s.zoomPulse := by
  unfold State.zoomPulse
  split
  next c hs hc =>
    split
    · exact s.zoomFault_pulse .range
    · split
      next hn =>
        dsimp only
        split
        · exact State.zoomExtended_pulse hs (Option.isNone_iff_eq_none.mp hn)
        · exact State.drivenTo_pulse (approachDrive_driven _ _) s
      · exact PulseKeeps.refl s
  next c hs hc =>
    split
    · exact s.zoomFault_pulse .range
    · exact State.zoomMoved_pulse hs c
  iterate 2
    next =>
      split
      · exact s.zoomFault_pulse .range
      · exact PulseKeeps.refl s
  next =>
    split
    · exact s.zoomFault_pulse .range
    · exact s.zoomHoldCheck_pulse
  next =>
    split
    · exact State.drivenTo_pulse (retractDrive_driven _) s
    · exact PulseKeeps.refl s
  next => exact PulseKeeps.refl s

end Sys2Proof.Machine
end

section
/-! PROOFS. Focus moves and approaches (R132, R140, R144, R146), and the lens at each pulse (R111, R112, R116, R118,
R125). -/

namespace Sys2Proof.Machine

variable {s t : State}

/-! ### Focus moves -/

theorem State.focusMoveTo_there {aim : Nat} (h : s.focus.position = some aim) (direct : Bool) :
    s.focusMoveTo direct aim = (s.onFocus fun f => { f with move := none }).focusArrive := by
  unfold State.focusMoveTo
  rw [h]
  exact if_pos rfl

theorem State.focusMoveTo_away {aim p : Nat} (h : s.focus.position = some p) (hp : p ≠ aim) (direct : Bool) :
    s.focusMoveTo direct aim = (s.onFocus fun f => { f with move := some (moveFrom direct aim p) }, false) := by
  unfold State.focusMoveTo
  rw [h]
  exact if_neg hp

/-- An approach under way, before its move is ordered. -/
def State.approachBegun (aim : Nat) (dest : FocusDest) (owed : Bool) (s : State) : State :=
  s.onFocus fun f => { f with state := .approaching, held := none, scan := none, trackOwed := false
                              approach := some { aim := aim, dest := dest, owed := owed } }

/-- An approach to another step moves there (R132). -/
theorem State.beginApproach_away {aim p : Nat} (h : s.focus.position = some p) (hp : p ≠ aim) (dest : FocusDest)
    (owed : Bool) : s.beginApproach aim dest owed =
      ((s.approachBegun aim dest owed).onFocus fun f => { f with move := some (moveFrom false aim p) }, false) :=
  State.focusMoveTo_away (s := s.approachBegun aim dest owed) h hp false

/-- An approach to the step the lens stands on is complete at once (R132). -/
theorem State.beginApproach_there {aim : Nat} (h : s.focus.position = some aim) (dest : FocusDest) (owed : Bool) :
    s.beginApproach aim dest owed = ((s.approachBegun aim dest owed).onFocus fun f => { f with move := none }).approachDone
      { aim := aim, dest := dest, owed := owed } :=
  State.focusMoveTo_there (s := s.approachBegun aim dest owed) h false

/-- Without a position no move is ordered. -/
theorem State.beginApproach_lost {aim : Nat} (h : s.focus.position = none) (dest : FocusDest) (owed : Bool) :
    s.beginApproach aim dest owed = (s.approachBegun aim dest owed, false) := by
  change (s.approachBegun aim dest owed).focusMoveTo false aim = _
  unfold State.focusMoveTo
  rw [show (s.approachBegun aim dest owed).focus.position = none from h]

/-! ### Stations -/

theorem stationEntry_congr (h : t.zoom.working = s.zoom.working) (k : Nat) : stationEntry t k = stationEntry s k := by
  rw [stationEntry, h, stationEntry]

theorem stationCount_congr (h : t.zoom.working = s.zoom.working) (k : Nat) : stationCount t k = stationCount s k := by
  rw [stationCount, stationEntry_congr h, stationCount]

theorem camOf_congr (h : t.zoom.working = s.zoom.working) (k cls : Nat) : camOf t k cls = camOf s k cls := by
  rw [camOf, stationEntry_congr h, camOf]

theorem stationEntry_some {tab : List StationEntry} {k : Nat} {e : StationEntry} (ht : s.zoom.working = some tab)
    (he : tab[k]? = some e) : stationEntry s k = some e := by
  rw [stationEntry, ht]
  exact he

theorem stationCount_some {tab : List StationEntry} {k : Nat} {e : StationEntry} (ht : s.zoom.working = some tab)
    (he : tab[k]? = some e) : stationCount s k = some (e.count : Int) := by
  rw [stationCount, stationEntry_some ht he, Option.map_some]

theorem camOf_eq {tab : List StationEntry} {k : Nat} {e : StationEntry} (ht : s.zoom.working = some tab)
    (he : tab[k]? = some e) (cls : Nat) : camOf s k cls = e.cams.getD cls 0 := by
  rw [camOf, stationEntry_some ht he]
  rfl

theorem nearOf_eq {tab : List StationEntry} {k : Nat} {e : StationEntry} (ht : s.zoom.working = some tab)
    (he : tab[k]? = some e) : nearOf s k = e.near := by
  rw [nearOf, stationEntry_some ht he]

/-! ### The pulse by the state -/

theorem exec_encoderPulse (hp : s.supply.powered = true) (m : Moment) (tele : Bool) :
    exec (.encoderPulse m tele) s = .next ((s.arrive m).zoomCount tele).zoomPulse := by
  change execEncoderPulse m tele s = _
  rw [execEncoderPulse, event_powered hp]

theorem outOfRange_iff (c : Int) : outOfRange c = false ↔ 0 ≤ c ∧ c ≤ 3200 := by
  simp [outOfRange]

section
variable {c : Int} (hc : s.zoom.count = some c) (hin : outOfRange c = false)
include hc hin

theorem State.zoomPulse_moving (h : s.zoom.state = .moving) : s.zoomPulse = s.zoomMoved c := by
  unfold State.zoomPulse
  rw [h, hc]
  exact if_neg (by rw [hin]; decide)

theorem State.zoomPulse_ready (h : s.zoom.state = .ready) : s.zoomPulse = s.zoomHoldCheck := by
  unfold State.zoomPulse
  rw [h, hc]
  exact if_neg (by rw [hin]; decide)

theorem State.zoomPulse_extending {a : Int} (h : s.zoom.state = .extending) (hn : s.zoom.current = none)
    (ha : stationCount s 0 = some a) : s.zoomPulse =
      if a ≤ c then s.zoomExtended else s.onZoom fun z => { z with drive := approachDrive a c } := by
  unfold State.zoomPulse
  rw [h, hc]
  dsimp only
  rw [if_neg (by rw [hin]; decide), if_pos (by rw [hn]; rfl), ha, Option.getD_some]

end

theorem State.zoomPulse_parking (h : s.zoom.state = .parking) (hd : s.zoom.drive.driven = true) :
    s.zoomPulse = s.onZoom fun z => { z with drive := retractDrive s.zoom.count } := by
  unfold State.zoomPulse
  rw [h]
  exact if_pos hd

theorem State.zoomPulse_fault {c : Int} (hc : s.zoom.count = some c) (hout : outOfRange c = true)
    (h : s.zoom.state = .extending ∨ s.zoom.state = .moving ∨ s.zoom.state = .braking ∨ s.zoom.state = .ready ∨
      s.zoom.state = .noTableHold) : s.zoomPulse = s.zoomFault .range := by
  unfold State.zoomPulse
  obtain h | h | h | h | h := h <;> rw [h, hc] <;> exact if_pos hout

theorem State.zoomMoved_approach {k : Nat} {a : Int} (h : s.zoom.target = some (k, .approach))
    (ha : stationCount s k = some a) (c : Int) : s.zoomMoved c =
      if a ≤ c then s.zoomArrive k else (s.zoomPassed c).onZoom fun z => { z with drive := approachDrive a c } := by
  unfold State.zoomMoved
  rw [h]
  dsimp only
  rw [ha]

theorem State.zoomMoved_outbound {k : Nat} {a : Int} (h : s.zoom.target = some (k, .outbound))
    (ha : stationCount s k = some a) (c : Int) : s.zoomMoved c =
      if c ≤ a - 30 then ((s.zoomPassed c).onZoom fun z => { z with state := .braking }).zoomBrake
      else s.zoomPassed c := by
  unfold State.zoomMoved
  rw [h]
  dsimp only
  rw [ha]

theorem State.zoomHoldCheck_ready {k : Nat} {a c : Int} (h : s.zoom.state = .ready) (hc : s.zoom.count = some c)
    (hk : s.zoom.current = some k) (ha : stationCount s k = some a) : s.zoomHoldCheck =
      if 3 < (c - a).natAbs then
        (s.onZoom fun z => { z with state := .noTableHold, current := none }).meterInput
      else s := by
  unfold State.zoomHoldCheck
  rw [h, hc, hk]
  dsimp only
  rw [ha]

/-! ### The end of EXTENDING -/

/-- The count has reached station 0's: the focus moves to class 0's step there (R116). -/
theorem State.zoomExtended_moves {p : Nat} (hp : s.focus.position = some p) (hne : p ≠ camOf s 0 0) :
    s.zoomExtended = ((s.extendStopped.approachBegun (camOf s 0 0) .idle false).onFocus fun f =>
      { f with move := some (moveFrom false (camOf s 0 0) p) }) := by
  have hcam : camOf s.extendStopped 0 0 = camOf s 0 0 := 
    camOf_congr (by rw [s.extendStopped_frame.1]) 0 0
  have hgo := State.beginApproach_away (s := s.extendStopped) (by simpa using hp) hne .idle false
  rw [State.zoomExtended_eq, hcam, State.focusGoTo, hgo]
  rfl

/-- The focus stands on that step already: READY, if the count is still within 3 of station 0's (R111, R116). -/
theorem State.zoomExtended_ready (hs : s.zoom.state = .extending) (hp : s.focus.position = some (camOf s 0 0))
    {a c : Int} (hc : s.zoom.count = some c) (ha : stationCount s 0 = some a) (hin : ¬3 < (c - a).natAbs) :
    s.zoomExtended.zoom.state = .ready ∧ s.zoomExtended.zoom.current = some 0 ∧ s.zoomExtended.focus.state = .idle ∧
      s.zoomExtended.events.has .zoomEnded = true := by
  have hz := (s.extendStopped_frame).1
  have hcam : camOf s.extendStopped 0 0 = camOf s 0 0 := camOf_congr (by rw [hz]) 0 0
  have hgo := State.beginApproach_there (s := s.extendStopped) (aim := camOf s 0 0) (by simpa using hp) .idle false
  let v := ((s.extendStopped.approachBegun (camOf s 0 0) .idle false).onFocus fun f => { f with move := none }).onFocus
    fun f => { f with state := .idle, approach := none }
  have hv : v.zoom = s.extendStopped.zoom := by simp [v, State.approachBegun]
  have hdone : s.zoomExtended = v.zoomStepReached := by
    rw [State.zoomExtended_eq, hcam, State.focusGoTo, hgo]
    rfl
  let w : State := v.onZoom fun z => { z with state := .ready, lastFault := .none }
  have hready : v.zoomStepReached = w.zoomHoldCheck.meterInput.setFlag .zoomEnded :=
    if_pos ⟨by rw [hv, hz]; exact hs, by rw [hv, hz]⟩
  have hw : w.zoom = { s.zoom with
      current := some 0, target := none, drive := .braked, state := .ready, lastFault := .none } := by
    rw [State.onZoom_zoom, hv, hz]
  have hhold : w.zoomHoldCheck = w := by
    rw [State.zoomHoldCheck_ready (s := w) (k := 0) (a := a) (c := c) rfl (by rw [hw]; exact hc) (by rw [hw])
      ((stationCount_congr (by rw [hw]) 0).trans ha), if_neg hin]
  rw [hdone, hready, hhold]
  exact ⟨by simp [hw], by simp [hw], by simp [w, v], has_setFlag_same _ _⟩

end Sys2Proof.Machine
end

section
/-! PROOFS. ENCODER PULSE by what the lens does (R111, R112, R116, R118, R125). -/

namespace Sys2Proof.Machine

variable {s t : State}

@[simp] theorem State.zoomCount_frame (tele : Bool) (s : State) :
    (s.zoomCount tele).zoom = { s.zoom with
      period := s.timers.pulse, count := s.zoom.count.map fun c => if tele then c + 1 else c - 1 } ∧
    (s.zoomCount tele).timers = { s.timers with
      pulse := some 0, stall := s.timers.stall.map fun _ => 0, brake := s.timers.brake.map fun _ => 0 } ∧
    (s.zoomCount tele).lines = s.lines ∧ (s.zoomCount tele).steady = s.steady ∧
    (s.zoomCount tele).focus = s.focus := ⟨rfl, rfl, rfl, rfl, rfl⟩

/-- The watches of a lens that runs on after a pulse: the driven motor's stall watch and the braked one's brake watch
restart; where a pulse begins the braking the brake watch starts and the stall watch stops (R112). -/
theorem PulseDrives.watches (h : PulseDrives s t) :
    (t.zoom.drive.driven = true → t.timers.stall = s.timers.stall ∧ t.timers.brake = s.timers.brake) ∧
    (t.zoom.drive = .braked → s.zoom.drive.driven = true → t.timers.stall = none ∧ t.timers.brake = some 0) ∧
    (t.zoom.drive = .braked → s.zoom.state ≠ .moving → s.zoom.state ≠ .extending ∨ s.zoom.current ≠ none →
      t.timers.stall = s.timers.stall ∧ t.timers.brake = s.timers.brake) := by
  cases h with
  | off h => rw [h]; exact ⟨nofun, nofun, nofun⟩
  | brakes h hstall hbrake hfrom =>
    rw [h]
    refine ⟨nofun, fun _ _ => ⟨hstall, hbrake⟩, fun _ hm he => ?_⟩
    obtain hfrom | ⟨hs, hc⟩ := hfrom
    · exact absurd hfrom hm
    · exact he.elim (absurd hs) (absurd hc)
  | runs h hstall hbrake =>
    refine ⟨fun _ => ⟨hstall, hbrake⟩, fun hb hd => ?_, fun _ _ _ => ⟨hstall, hbrake⟩⟩
    rw [hb] at h
    obtain h | h := h
    · rw [← h] at hd
      exact nomatch hd
    · exact nomatch h

theorem Drive.driven_cases (d : Drive) :
    d.driven = true ↔ d = .teleFull ∨ d = .teleSlow ∨ d = .wideFull ∨ d = .wideSlow := by
  cases d <;> simp [Drive.driven]

/-- Settles O51: what every pulse keeps, and the lens's next step by its state. -/
theorem pulsesMoveTheLens : Obligations.PulsesMoveTheLens := by
  unfold Obligations.PulsesMoveTheLens
  intro m s tele hp u i
  let v := u.zoomCount tele
  have hv : v.zoom = { s.zoom with
      period := u.timers.pulse, count := s.zoom.count.map fun c => if tele then c + 1 else c - 1 } :=
    (u.zoomCount_frame tele).1
  have hrun : exec i s = .next v.zoomPulse := exec_encoderPulse hp m tele
  refine ⟨?_, fun tab c htab hcount h0 h3200 => ?_⟩
  · obtain ⟨hcount, hperiod, hworking, hstaging, hlines, hsteady, hpulse, hdrives⟩ := v.zoomPulse_keeps
    rw [hv] at hcount hperiod hworking hstaging
    refine ⟨_, hrun, hperiod, hpulse, hcount, hlines, hworking, hstaging, by simp [v, u], by simp [v, u],
      hsteady.trans (by simp [v, u]), by simp [v, u], by simp [v, u], ?_⟩
    intro driven restarted
    obtain ⟨hdriven, hbraking, hbraked⟩ := hdrives.watches
    have hstall : v.timers.stall = s.timers.stall.map fun _ => 0 := by
      change (later m.dt s.timers.stall).map (fun _ => 0) = _
      cases s.timers.stall <;> rfl
    have hbrake : v.timers.brake = s.timers.brake.map fun _ => 0 := by
      change (later m.dt s.timers.brake).map (fun _ => 0) = _
      cases s.timers.brake <;> rfl
    rw [hstall, hbrake] at hdriven hbraked
    rw [hv] at hbraking hbraked
    exact ⟨fun hd => hdriven ((Drive.driven_cases _).mpr hd),
      fun hb hd => hbraking hb ((Drive.driven_cases _).mpr hd), fun hb _ => hbraked hb⟩
  · have hc : v.zoom.count = some c := by
      rw [hv, hcount]
      cases tele <;> simp
    have hin : outOfRange c = false := (outOfRange_iff c).mpr ⟨h0, h3200⟩
    have hw : v.zoom.working = some tab := by rw [hv]; exact htab
    refine ⟨fun k e hs ht he => ?_, fun k e hs ht he => ?_, fun k e hs hk he => ?_, fun e hs hk he => ?_,
      fun hs h1 h2 => ?_⟩
    · have hcan : v.zoomPulse = _ := (State.zoomPulse_moving hc hin (by rw [hv]; exact hs)).trans
        (State.zoomMoved_approach (by rw [hv]; exact ht) (stationCount_some hw he) c)
      refine ⟨_, hrun, fun hle => ?_, fun hlt => ?_⟩
      · rw [hcan, if_pos hle]
        refine ⟨by simp, by simp, by simp, by simp, by simp, by simp, has_setFlag_same _ _⟩
      · rw [hcan, if_neg (by omega)]
        refine ⟨?_, ?_, rfl⟩ <;> simp [hv, hs, ht]
    · have hcan : v.zoomPulse = _ := (State.zoomPulse_moving hc hin (by rw [hv]; exact hs)).trans
        (State.zoomMoved_outbound (by rw [hv]; exact ht) (stationCount_some hw he) c)
      refine ⟨_, hrun, ?_, fun hle => ?_, fun hlt => ?_⟩
      · rw [hcan]
        split <;> simp [hv, ht]
      · rw [hcan, if_pos hle]
        simp
      · rw [hcan, if_neg (by omega)]
        simp [hv, hs]
    · have hcan : v.zoomPulse = _ := (State.zoomPulse_ready hc hin (by rw [hv]; exact hs)).trans
        (State.zoomHoldCheck_ready (by rw [hv]; exact hs) hc (by rw [hv]; exact hk) (stationCount_some hw he))
      refine ⟨_, hrun, fun h1 h2 => ?_, fun hout => ?_⟩
      · rw [hcan, if_neg (by omega), hv]
        exact ⟨hs, hk⟩
      · rw [hcan, if_pos (by omega)]
        simp
    · have ha := stationCount_some hw he
      have hcam := camOf_eq hw he 0
      have hstate : v.zoom.state = .extending := by rw [hv]; exact hs
      have hcan : v.zoomPulse = _ := State.zoomPulse_extending hc hin hstate (by rw [hv]; exact hk) ha
      refine ⟨_, hrun, fun hlt => ?_, fun p hle hpos hne => ?_, fun hle hnear hpos => ?_⟩
      · rw [hcan, if_neg (by omega)]
        exact ⟨hstate, by rw [State.onZoom_zoom, hv]; exact hk, rfl⟩
      · obtain ⟨-, -, -, -, hdrive, -, -, -, -, hbrake⟩ := v.zoomExtended_keeps
        have hmoves := State.zoomExtended_moves (s := v) hpos (by rw [hcam]; exact hne)
        rw [hcan, if_pos hle]
        refine ⟨?_, ?_, hdrive, hbrake, ?_⟩ <;> rw [hmoves]
        · simp [State.approachBegun, hstate]
        · simp [State.approachBegun]
        · simp [State.approachBegun, hcam]
      · obtain ⟨-, -, -, -, -, -, -, -, -, hbrake⟩ := v.zoomExtended_keeps
        obtain ⟨h1, h2, h3, h4⟩ := State.zoomExtended_ready hstate (hcam ▸ hpos) hc ha (by omega)
        rw [hcan, if_pos hle]
        exact ⟨h1, h2, h3, hbrake, h4⟩
    · have hdriven : v.zoom.drive.driven = true := by rw [hv]; exact (Drive.driven_iff _).mpr ⟨h1, h2⟩
      have hcan : v.zoomPulse = _ := State.zoomPulse_parking (by rw [hv]; exact hs) hdriven
      refine ⟨_, hrun, ?_⟩
      rw [hcan, State.onZoom_zoom, hc]
      rfl

end Sys2Proof.Machine
end

section
/-! PROOFS. The lens's faults and the motor's stops (R112, R113, R119, R125, R147). -/

namespace Sys2Proof.Machine

variable {s t : State}

/-! ### The focus told of a fault -/

/-- The stepper's steps change the position, the move and the homing only (R132, R133). -/
theorem Focus.steps_eq (n : Nat) (f : Focus) : f.steps n =
    { f with position := (f.steps n).position, move := (f.steps n).move, homing := (f.steps n).homing } := by
  unfold Focus.steps
  (repeat' split) <;> rfl

@[simp] theorem Focus.steps_state (n : Nat) (f : Focus) : (f.steps n).state = f.state := by rw [Focus.steps_eq]

theorem FlagsGrow.focusEndedIf (owed : Bool) (c : EndCause) (s : State) : FlagsGrow s (s.focusEndedIf owed c) := by
  unfold State.focusEndedIf
  split
  · exact FlagsGrow.setFlag _ _
  · exact .of_events rfl

theorem FlagsGrow.focusFault (s : State) : FlagsGrow s s.focusFault := by
  unfold State.focusFault
  cases s.focus.state with
  | unhomed | idle | failedNoPeak => exact .of_events rfl
  | _ => exact FlagsGrow.focusEndedIf _ _ (s.focusDrop .idle)

/-- A focus that has nothing to end is not told (R147). -/
theorem State.focusFault_stays (h : s.focus.state = .unhomed ∨ s.focus.state = .idle ∨ s.focus.state = .failedNoPeak) :
    s.focusFault = s := by
  unfold State.focusFault
  obtain h | h | h := h <;> rw [h]

@[simp] theorem State.focusEndedIf_focus (owed : Bool) (c : EndCause) (s : State) : (s.focusEndedIf owed c).focus =
    { s.focus with lastEnd := if owed then c else s.focus.lastEnd } := by
  cases owed <;> rfl

theorem State.focusFault_ends (h : s.focus.state = .scanning ∨ s.focus.state = .approaching ∨ s.focus.state = .locked ∨
      s.focus.state = .manual ∨ s.focus.state = .tracking) :
    s.focusFault.focus.state = .idle ∧ s.focusFault.focus.held = none ∧ s.focusFault.focus.scan = none ∧
      s.focusFault.focus.move = none := by
  unfold State.focusFault
  obtain h | h | h | h | h := h <;> rw [h] <;> simp [State.focusDrop]

/-! ### A fault -/

/-- The lens before the focus is told of a fault. -/
def State.faultBegun (c : ZoomFault) (s : State) : State :=
  ((s.zoomRest .off).onZoom fun z =>
      { z with state := .stalled, target := none, current := none, lastFault := c, stopped := false, report := none
               retract := false }).setFlag .lensFault |>.setFlag .zoomEnded

theorem State.zoomFault_eq (c : ZoomFault) (s : State) : s.zoomFault c = (s.faultBegun c).focusFault.meterInput := rfl

@[simp] theorem State.faultBegun_focus (c : ZoomFault) (s : State) : (s.faultBegun c).focus = s.focus := rfl

/-- Both flags of a fault stand whatever the focus's end sets besides (R113, R147). -/
theorem State.zoomFault_flags (c : ZoomFault) (s : State) : (s.zoomFault c).events.has .lensFault = true ∧
    (s.zoomFault c).events.has .zoomEnded = true := by
  have hgrow : FlagsGrow (s.faultBegun c) (s.zoomFault c) :=
    (FlagsGrow.focusFault _).trans (.of_events (State.meterInput_aside _).2.2.2.2.2)
  exact ⟨hgrow _ (FlagsGrow.setFlag _ _ _ (has_setFlag_same _ _)), hgrow _ (has_setFlag_same _ _)⟩

theorem State.zoomFault_focus (c : ZoomFault) (s : State) :
    (s.focus.state = .scanning ∨ s.focus.state = .approaching ∨ s.focus.state = .locked ∨
        s.focus.state = .manual ∨ s.focus.state = .tracking →
      (s.zoomFault c).focus.state = .idle ∧ (s.zoomFault c).focus.held = none ∧ (s.zoomFault c).focus.scan = none ∧
        (s.zoomFault c).focus.move = none) ∧
    (s.focus.state = .unhomed ∨ s.focus.state = .idle ∨ s.focus.state = .failedNoPeak →
      (s.zoomFault c).focus = s.focus) := by
  rw [State.zoomFault_eq, (State.meterInput_aside _).2.2.1]
  exact ⟨State.focusFault_ends (s := s.faultBegun c),
    fun h => by rw [State.focusFault_stays (s := s.faultBegun c) h, State.faultBegun_focus]⟩

/-! ### The park sensor and the stall watch -/

theorem State.zoomParkSeen_faults (h : s.zoom.state = .extending ∨ s.zoom.state = .moving ∨ s.zoom.state = .braking ∨
      s.zoom.state = .ready ∨ s.zoom.state = .noTableHold) : s.zoomParkSeen = s.zoomFault .parkSensor := by
  unfold State.zoomParkSeen
  obtain h | h | h | h | h := h <;> rw [h]

theorem exec_stallWatchExpiry_early (hp : s.supply.powered = true) (m : Moment)
    (h : ¬∃ x, (s.arrive m).timers.stall = some x ∧ 40000 ≤ x) :
    exec (.stallWatchExpiry m) s = .next (s.arrive m) := by
  change execStallWatchExpiry m s = _
  rw [execStallWatchExpiry, event_powered hp]
  exact congrArg _ (if_neg fun hr => h (reached_iff.mp hr))

theorem exec_stallWatchExpiry_faults (hp : s.supply.powered = true) (m : Moment)
    (h : ∃ x, (s.arrive m).timers.stall = some x ∧ 40000 ≤ x)
    (hz : s.zoom.state = .homing ∨ s.zoom.state = .extending ∨ s.zoom.state = .moving) :
    exec (.stallWatchExpiry m) s = .next ((s.arrive m).zoomFault .stall) := by
  change execStallWatchExpiry m s = _
  rw [execStallWatchExpiry, event_powered hp]
  refine congrArg _ ((if_pos (reached_iff.mpr h)).trans ?_)
  rw [show (s.arrive m).zoom = s.zoom from rfl]
  obtain hz | hz | hz := hz <;> rw [hz]

theorem exec_stallWatchExpiry_unhomes (hp : s.supply.powered = true) (m : Moment)
    (h : ∃ x, (s.arrive m).timers.stall = some x ∧ 40000 ≤ x) (hz : s.zoom.state = .parking) :
    exec (.stallWatchExpiry m) s = .next ((((s.arrive m).zoomRest .off).onZoom fun z =>
      { z with state := .unhomed, count := none, lastFault := .stall, stopped := false, report := none
               retract := false }).setFlag .lensFault |>.setFlag .zoomEnded) := by
  change execStallWatchExpiry m s = _
  rw [execStallWatchExpiry, event_powered hp]
  refine congrArg _ ((if_pos (reached_iff.mpr h)).trans ?_)
  rw [show (s.arrive m).zoom = s.zoom from rfl, hz]

/-! ### The motor's stop outside HOMING and PARKING -/

theorem State.zoomStopped_stays (h : s.zoom.state = .ready ∨ s.zoom.state = .extending ∨ s.zoom.state = .noTableHold) :
    s.zoomStopped = s := by
  unfold State.zoomStopped
  obtain h | h | h := h <;> rw [h]

theorem State.zoomStopped_braking {k : Nat} {leg : Leg} (h : s.zoom.state = .braking)
    (ht : s.zoom.target = some (k, leg)) : s.zoomStopped = s.zoomLeg k := by
  unfold State.zoomStopped
  rw [h, ht]

/-- A leg starts on the side of the station that the lens stands on (R117, R119). -/
theorem State.zoomLeg_eq {k : Nat} {a c : Int} (ha : stationCount s k = some a) (hc : s.zoom.count = some c) :
    s.zoomLeg k = if c < a then s.zoomApproach k a c else s.zoomOutbound k := by
  unfold State.zoomLeg
  rw [ha, hc]

/-- Settles O52: the faults all by what `zoomFault` leaves, the stops by the state they meet. -/
theorem lensFaultsAndStops : Obligations.LensFaultsAndStops := by
  unfold Obligations.LensFaultsAndStops
  intro m s hp u stalled stopped faults
  have hfault {i : Instr} {c : ZoomFault} (v : State) (hrun : exec i s = .next (v.zoomFault c))
      (hw : v.zoom.working = s.zoom.working) (hf : v.focus = u.focus) : faults i c := by
    obtain ⟨hz, -, -, -, hstall, hbrake⟩ := v.zoomFault_keeps c
    obtain ⟨hlens, hended⟩ := v.zoomFault_flags c
    obtain ⟨hends, hstays⟩ := v.zoomFault_focus c
    have hstate : u.focus.state = s.focus.state := by simp [u]
    rw [hf, hstate] at hends hstays
    exact ⟨_, hrun, by rw [hz], by rw [hz], by rw [hz], by rw [hz], by rw [hz], hstall, hbrake, hlens, hended,
      by rw [hz]; exact hw, hends, hstays⟩
  have hbrake (hst : stopped) := exec_brakeWatchExpiry_stops hp m hst
  refine ⟨fun c hz hc => ?_, fun hl hz => ?_, fun hst hz => ?_, fun hst hz => exec_stallWatchExpiry_unhomes hp m hst hz,
    exec_stallWatchExpiry_early hp m, exec_brakeWatchExpiry_early hp m, fun hst hz => ?_,
    fun tab k leg e c hst hz ht hw he hc => ?_⟩
  · have hrange (tele : Bool) (hout : outOfRange (if tele then c + 1 else c - 1) = true) :
        faults (.encoderPulse m tele) .range := by
      have hcount : (u.zoomCount tele).zoom.count = some (if tele then c + 1 else c - 1) := by
        change s.zoom.count.map _ = _
        rw [hc, Option.map_some]
      exact hfault (u.zoomCount tele) ((exec_encoderPulse hp m tele).trans
        (congrArg _ (State.zoomPulse_fault hcount hout hz))) rfl rfl
    refine ⟨fun h => hrange true ?_, fun h => hrange false ?_⟩ <;> simp [outOfRange] <;> omega
  · exact hfault { u with lines := { u.lines with park := true } }
      ((exec_parkSensorChange_new hp m (by rw [hl]; decide)).trans
        (congrArg _ ((if_pos rfl).trans (State.zoomParkSeen_faults hz)))) rfl rfl
  · exact hfault u (exec_stallWatchExpiry_faults hp m hst hz) rfl rfl
  · exact (hbrake hst).trans (congrArg _ (State.zoomStopped_stays (s := u.brakeOver) hz))
  · have hleg := (hbrake hst).trans (congrArg _ ((State.zoomStopped_braking (s := u.brakeOver) hz ht).trans
      (State.zoomLeg_eq (s := u.brakeOver) (stationCount_some hw he) hc)))
    refine ⟨fun hlt => hleg.trans (congrArg _ ((if_pos hlt).trans ?_)),
      fun hle => hleg.trans (congrArg _ (if_neg (by omega)))⟩
    rfl

end Sys2Proof.Machine
end

section
/-! PROOFS. ZOOM TO: its checks, the leg it starts, what its beginning does to the focus, and a new target on the way
(R117 to R121, R145). -/

namespace Sys2Proof.Machine

variable {s t : State}

/-! ### The focus at the beginning of a move -/

theorem State.focusMotionBegins_stays
    (h : s.focus.state = .unhomed ∨ s.focus.state = .idle ∨ s.focus.state = .failedNoPeak) :
    s.focusMotionBegins = s := by
  unfold State.focusMotionBegins
  obtain h | h | h := h <;> rw [h]

theorem State.focusMotionBegins_tracks (h : s.focus.state = .locked ∨ s.focus.state = .manual) :
    s.focusMotionBegins = s.onFocus fun f => { f with state := .tracking, trackOwed := false } := by
  unfold State.focusMotionBegins
  obtain h | h := h <;> rw [h]

theorem State.focusMotionBegins_scanning (h : s.focus.state = .scanning) :
    s.focusMotionBegins = (s.focusDrop .idle).focusEnded .zoomMoved := by
  unfold State.focusMotionBegins
  rw [h]

theorem State.focusMotionBegins_approach {aim : Nat} {x : FocusHeld} {owed : Bool} (h : s.focus.state = .approaching)
    (ha : s.focus.approach = some { aim := aim, dest := .hold x, owed := owed }) :
    s.focusMotionBegins = s.onFocus fun f =>
      { f with state := .tracking, held := some x, approach := none, move := none, trackOwed := owed } := by
  unfold State.focusMotionBegins
  rw [h, ha]

theorem State.focusMotionBegins_failed {aim : Nat} {owed : Bool} (h : s.focus.state = .approaching)
    (ha : s.focus.approach = some { aim := aim, dest := .failed, owed := owed }) :
    s.focusMotionBegins = (s.focusDrop .failedNoPeak).focusEnded .noPeak := by
  unfold State.focusMotionBegins
  rw [h, ha]

/-! ### Legs -/

theorem approachDrive_eq (a c : Int) : approachDrive a c = if a - 40 ≤ c then .teleSlow else .teleFull := rfl

/-- A leg from rest drives the lens and touches nothing else (R117, R119). -/
theorem State.zoomLeg_leaves {k : Nat} {a c : Int} (ha : stationCount s k = some a) (hc : s.zoom.count = some c) :
    (s.zoomLeg k).zoom.state = .moving ∧ (s.zoomLeg k).timers.stall = some 0 ∧
      (c < a → (s.zoomLeg k).zoom.target = some (k, .approach) ∧
        (s.zoomLeg k).zoom.drive = if a - 40 ≤ c then .teleSlow else .teleFull) ∧
      (a ≤ c → (s.zoomLeg k).zoom.target = some (k, .outbound) ∧ (s.zoomLeg k).zoom.drive = .wideFull) ∧
      (s.zoomLeg k).focus = s.focus ∧ (s.zoomLeg k).events = s.events ∧
      (s.zoomLeg k).timers.sample = s.timers.sample := by
  rw [State.zoomLeg_eq ha hc]
  by_cases hlt : c < a
  · rw [if_pos hlt]
    exact ⟨rfl, rfl, fun _ => ⟨rfl, rfl⟩, fun hle => absurd hlt (by omega), rfl, rfl, rfl⟩
  · rw [if_neg hlt]
    exact ⟨rfl, rfl, fun h => absurd h hlt, fun _ => ⟨rfl, rfl⟩, rfl, rfl, rfl⟩

/-! ### A new target -/

/-- A new target keeps the leg under way (R120, log 46). -/
theorem State.zoomRetarget_target {k old : Nat} {leg : Leg} {a c : Int} (ht : s.zoom.target = some (old, leg))
    (ha : stationCount s k = some a) (hc : s.zoom.count = some c) :
    (s.zoomRetarget k).zoom.target = some (k, leg) := by
  unfold State.zoomRetarget
  rw [ht, ha, hc]
  dsimp only
  split
  next h => rw [ht, h]
  next =>
    split
    · cases leg <;> dsimp only <;> split <;> rfl
    · rfl

theorem State.zoomRetarget_same {k : Nat} {leg : Leg} (ht : s.zoom.target = some (k, leg)) : s.zoomRetarget k = s := by
  unfold State.zoomRetarget
  rw [ht]
  split
  next old leg' a c htarget ha hc =>
    cases htarget
    exact if_pos rfl
  next => rfl

/-- Out of MOVING a new target changes the target only. -/
theorem State.zoomRetarget_state {k : Nat} (h : s.zoom.state ≠ .moving) :
    (s.zoomRetarget k).zoom.state = s.zoom.state := by
  unfold State.zoomRetarget
  split
  next =>
    split
    · rfl
    · dsimp only
      rw [if_neg (by exact h)]
      rfl
  next => rfl

section
variable {k old : Nat} {leg : Leg} {a c : Int} (hs : s.zoom.state = .moving) (hne : old ≠ k)
    (ha : stationCount s k = some a) (hc : s.zoom.count = some c)
include hs hne ha hc

theorem State.zoomRetarget_approach (ht : s.zoom.target = some (old, .approach)) : s.zoomRetarget k =
    let v := s.onZoom fun z => { z with target := some (k, .approach) }
    if c < a then v.onZoom fun z => { z with drive := approachDrive a c }
    else (v.onZoom fun z => { z with state := .braking }).zoomBrake := by
  unfold State.zoomRetarget
  rw [ht, ha, hc]
  exact (if_neg hne).trans (if_pos hs)

theorem State.zoomRetarget_outbound (ht : s.zoom.target = some (old, .outbound)) : s.zoomRetarget k =
    let v := s.onZoom fun z => { z with target := some (k, .outbound) }
    if a - 30 < c then v else (v.onZoom fun z => { z with state := .braking }).zoomBrake := by
  unfold State.zoomRetarget
  rw [ht, ha, hc]
  exact (if_neg hne).trans (if_pos hs)

end

/-! ### The request -/

/-- ZOOM TO's refusal (R117). -/
def zoomToRefusal (k : Nat) (s : State) : Option Code :=
  if 47 < k then some .badField
  else if s.shot.state ≠ .idle then some .shotArmed
  else
    match s.zoom.state with
    | .stalled => some .lensFault
    | .unhomed | .homing | .extending | .parking | .parked => some .lensNotReady
    | .ready | .noTableHold | .moving | .braking => none

/-- What ZOOM TO begins (R117, R120). -/
def State.zoomAim (k : Nat) (s : State) : State :=
  match s.zoom.state with
  | .ready => if s.zoom.current = some k then s.setFlag .zoomEnded else s.focusMotionBegins.zoomLeg k
  | .noTableHold => s.focusMotionBegins.zoomLeg k
  | _ => s.zoomRetarget k

theorem exec_zoomTo (h : Taking s) (m : Moment) (k : Nat) : exec (.zoomTo m k) s = .next
    (match zoomToRefusal k s with
     | some c => (taken 18 m s).respond 18 (c, .empty, none)
     | none => ((taken 18 m s).zoomAim k).respond 18 (.ok, .empty, none)) := by
  have hrefusal : zoomToRefusal k s = zoomToRefusal k (taken 18 m s) := by simp [zoomToRefusal]
  refine (request_taking h 18 m _).trans (congrArg _ ?_)
  rw [hrefusal, zoomToRefusal, State.zoomAim]
  split
  · rfl
  · split
    · rfl
    · cases (taken 18 m s).zoom.state <;> rfl

theorem exec_zoomTo_refused (h : Taking s) (m : Moment) {k : Nat} {c : Code} (hc : zoomToRefusal k s = some c) :
    exec (.zoomTo m k) s = .next ((taken 18 m s).respond 18 (c, .empty, none)) := by
  rw [exec_zoomTo h, hc]

theorem exec_zoomTo_aims (h : Taking s) (m : Moment) {k : Nat} (hk : k ≤ 47) (hs : s.shot.state = .idle)
    (hz : s.zoom.state = .ready ∨ s.zoom.state = .noTableHold ∨ s.zoom.state = .moving ∨ s.zoom.state = .braking) :
    exec (.zoomTo m k) s = .next (((taken 18 m s).zoomAim k).respond 18 (.ok, .empty, none)) := by
  have hnone : zoomToRefusal k s = none := by
    obtain hz | hz | hz | hz := hz <;> simp [zoomToRefusal, hs, hz] <;> omega
  rw [exec_zoomTo h, hnone]

theorem State.zoomAim_starts {k : Nat} (hz : s.zoom.state = .ready ∨ s.zoom.state = .noTableHold)
    (hk : s.zoom.current ≠ some k) : s.zoomAim k = s.focusMotionBegins.zoomLeg k := by
  unfold State.zoomAim
  obtain hz | hz := hz <;> rw [hz]
  exact if_neg hk

theorem State.zoomAim_retargets {k : Nat} (hz : s.zoom.state = .moving ∨ s.zoom.state = .braking) :
    s.zoomAim k = s.zoomRetarget k := by
  unfold State.zoomAim
  obtain hz | hz := hz <;> rw [hz]

/-- What a move's start makes of the focus, by its state (R145). -/
structure FocusAtMotion (u t : State) : Prop where
  stays : u.focus.state = .unhomed ∨ u.focus.state = .idle ∨ u.focus.state = .failedNoPeak →
    t.focus = u.focus ∧ t.events = u.events
  tracks : u.focus.state = .locked ∨ u.focus.state = .manual →
    t.focus = { u.focus with state := .tracking, trackOwed := false } ∧ t.events = u.events
  cancels : u.focus.state = .scanning →
    t.focus = { u.focus with state := .idle, held := none, approach := none, scan := none, move := none
                             trackOwed := false, lastEnd := .zoomMoved } ∧
      t.timers.sample = none ∧ t.events = (u.setFlag .focusEnded).events
  follows : ∀ aim h owed, u.focus.state = .approaching →
    u.focus.approach = some { aim := aim, dest := .hold h, owed := owed } →
    t.focus = { u.focus with state := .tracking, held := some h, approach := none, move := none
                             trackOwed := owed } ∧ t.events = u.events
  fails : ∀ aim owed, u.focus.state = .approaching →
    u.focus.approach = some { aim := aim, dest := .failed, owed := owed } →
    t.focus = { u.focus with state := .failedNoPeak, held := none, approach := none, scan := none, move := none
                             trackOwed := false, lastEnd := .noPeak } ∧
      t.events = (u.setFlag .focusEnded).events

theorem State.focusMotionBegins_focus (s : State) : FocusAtMotion s s.focusMotionBegins where
  stays h := by rw [State.focusMotionBegins_stays h]; exact ⟨rfl, rfl⟩
  tracks h := by rw [State.focusMotionBegins_tracks h]; exact ⟨rfl, rfl⟩
  cancels h := by rw [State.focusMotionBegins_scanning h]; exact ⟨rfl, rfl, rfl⟩
  follows aim x owed h ha := by rw [State.focusMotionBegins_approach h ha]; exact ⟨rfl, rfl⟩
  fails aim owed h ha := by rw [State.focusMotionBegins_failed h ha]; exact ⟨rfl, rfl⟩

theorem FocusAtMotion.congr {u t v : State} (h : FocusAtMotion u t) (hf : v.focus = t.focus) (he : v.events = t.events)
    (hs : v.timers.sample = t.timers.sample) : FocusAtMotion u v := by
  obtain ⟨h1, h2, h3, h4, h5⟩ := h
  constructor <;> rw [hf, he]
  · exact h1
  · exact h2
  · rw [hs]; exact h3
  · exact h4
  · exact h5

end Sys2Proof.Machine
end

section
/-! PROOFS. ZOOM STOP's target, LOAD LENS STATION's checks, and the table that COMMIT LENS TABLE validates (R121, R126 to
R128). -/

namespace Sys2Proof.Machine

variable {s t : State}

/-! ### ZOOM STOP -/

/-- The first station above a count (R121). -/
theorem stationAbove_eq {tab : List StationEntry} {c : Int} {j : Nat} {e : StationEntry} (he : tab[j]? = some e)
    (habove : c < (e.count : Int)) (hbelow : ∀ i x, i < j → tab[i]? = some x → (x.count : Int) ≤ c) :
    stationAbove tab c = some j := by
  obtain ⟨hj, he⟩ := List.getElem?_eq_some_iff.mp he
  refine List.findIdx?_eq_some_iff_getElem.mpr ⟨hj, by simpa [he] using habove, fun i hi => ?_⟩
  have := hbelow i _ hi (List.getElem?_eq_getElem (Nat.lt_trans hi hj))
  simp only [decide_eq_true_eq]
  omega

theorem stationAbove_none {tab : List StationEntry} {c : Int} (h : ∀ x ∈ tab, (x.count : Int) ≤ c) :
    stationAbove tab c = none := by
  refine List.findIdx?_eq_none_iff.mpr fun x hx => ?_
  have := h x hx
  simp only [decide_eq_false_iff_not]
  omega

/-- The stations below a count, up to the first that is not. -/
theorem takeWhile_length {α : Type} {p : α → Bool} {l : List α} {n : Nat} (hn : n ≤ l.length)
    (hall : ∀ i x, i < n → l[i]? = some x → p x = true) (hnext : ∀ x, l[n]? = some x → p x = false) :
    (l.takeWhile p).length = n := by
  induction l generalizing n with
  | nil => exact (Nat.le_zero.mp hn).symm
  | cons a l ih =>
    cases n with
    | zero => rw [List.takeWhile_cons_of_neg (by rw [hnext a rfl]; decide), List.length_nil]
    | succ n =>
      rw [List.takeWhile_cons_of_pos (hall 0 a (Nat.succ_pos n) rfl), List.length_cons,
        ih (Nat.le_of_succ_le_succ hn) (fun i x hi hx => hall (i + 1) x (Nat.succ_lt_succ hi) hx) fun x hx => hnext x hx]

/-- The last station below a count (R121). -/
theorem stationBelow_eq {tab : List StationEntry} {c : Int} {j : Nat} {e : StationEntry} (he : tab[j]? = some e)
    (hbelow : ∀ i x, i ≤ j → tab[i]? = some x → (x.count : Int) < c)
    (habove : ∀ x, tab[j + 1]? = some x → c ≤ (x.count : Int)) : stationBelow tab c = j := by
  obtain ⟨hj, -⟩ := List.getElem?_eq_some_iff.mp he
  have hlen : (tab.takeWhile fun e => (e.count : Int) < c).length = j + 1 :=
    takeWhile_length hj (fun i x hi hx => decide_eq_true (hbelow i x (Nat.le_of_lt_succ hi) hx))
      fun x hx => decide_eq_false (by have := habove x hx; omega)
  rw [stationBelow, hlen, Nat.add_sub_cancel]

theorem stationBelow_none {tab : List StationEntry} {c : Int} (h : ∀ x ∈ tab, c ≤ (x.count : Int)) :
    stationBelow tab c = 0 := by
  have hlen : (tab.takeWhile fun e => (e.count : Int) < c).length = 0 :=
    takeWhile_length (Nat.zero_le _) (fun i x hi => absurd hi (Nat.not_lt_zero i))
      fun x hx => decide_eq_false (by have := h x (List.mem_of_getElem? hx); omega)
  rw [stationBelow, hlen]

section
variable {tab : List StationEntry} {k : Nat} {leg : Leg} {c : Int} (ht : s.zoom.working = some tab)
  (hc : s.zoom.count = some c)
include ht hc

theorem stopTarget_approach (hs : s.zoom.state = .moving) (hk : s.zoom.target = some (k, .approach)) :
    stopTarget s = some ((stationAbove tab c).getD k) := by
  unfold stopTarget
  rw [ht, hc, hs, hk]

theorem stopTarget_outbound (hs : s.zoom.state = .moving) (hk : s.zoom.target = some (k, .outbound)) :
    stopTarget s = some (stationBelow tab c) := by
  unfold stopTarget
  rw [ht, hc, hs, hk]

theorem stopTarget_braking (hs : s.zoom.state = .braking) (hk : s.zoom.target = some (k, leg)) :
    stopTarget s = some ((stationAbove tab c).getD 47) := by
  unfold stopTarget
  rw [ht, hc, hs, hk]

end

theorem stopTarget_none (h1 : s.zoom.state ≠ .moving) (h2 : s.zoom.state ≠ .braking) : stopTarget s = none := by
  unfold stopTarget
  split
  · split
    next hs _ => exact absurd hs h1
    next hs _ => exact absurd hs h1
    next hs _ => exact absurd hs h2
    next => rfl
  · rfl

theorem exec_zoomStop (h : Taking s) (m : Moment) : exec (.zoomStop m) s = .next
    ((match stopTarget s with
      | some k => (taken 19 m s).zoomRetarget k
      | none => taken 19 m s).respond 19 (.ok, .empty, none)) := by
  have htarget : stopTarget s = stopTarget (taken 19 m s) := by simp [stopTarget]
  refine (request_taking h 19 m _).trans (congrArg _ ?_)
  rw [htarget]
  cases stopTarget (taken 19 m s) <;> rfl

/-- ZOOM STOP with a target found aims the lens there, on the leg under way (R121). -/
theorem exec_zoomStop_aims (h : Taking s) (m : Moment) {tab : List StationEntry} {old j : Nat} {leg : Leg} {c : Int}
    {e : StationEntry} (ht : s.zoom.working = some tab) (hc : s.zoom.count = some c)
    (hk : s.zoom.target = some (old, leg)) (he : tab[j]? = some e) (hj : stopTarget s = some j) :
    ∃ t, exec (.zoomStop m) s = .next t ∧ t.zoom.target = some (j, leg) ∧
      (s.zoom.state ≠ .moving → t.zoom.state = s.zoom.state) ∧
      t.link.pending = some { kind := 19, code := .ok, body := .empty, held := none } := by
  have hrun := exec_zoomStop h m
  rw [hj] at hrun
  have hzoom : (taken 19 m s).zoom = s.zoom := by simp
  refine ⟨_, hrun, ?_, fun hs => ?_, rfl⟩
  · exact State.zoomRetarget_target (s := taken 19 m s) (by rw [hzoom]; exact hk)
      ((stationCount_congr (by rw [hzoom]) j).trans (stationCount_some ht he)) (by rw [hzoom]; exact hc)
  · refine (State.zoomRetarget_state (s := taken 19 m s) (by rw [hzoom]; exact hs)).trans ?_
    rw [hzoom]

/-! ### LOAD LENS STATION -/

theorem entryOk_iff (e : StationEntry) : entryOk e = true ↔
    200 ≤ e.count ∧ e.count ≤ 3000 ∧ 24 ≤ e.focal ∧ e.focal ≤ 960 ∧ 6 ≤ e.widest ∧ e.widest ≤ 27 ∧
      6 ≤ e.narrowest ∧ e.narrowest ≤ 27 ∧ 10 ≤ e.gain ∧ e.gain ≤ 4000 ∧ e.near ≤ 15 ∧
      e.cams.length = e.near + 1 ∧ ∀ x ∈ e.cams, x ≤ 3071 := by
  simp [entryOk, and_assoc]

theorem exec_loadLensStation_fills (h : Taking s) (m : Moment) {k : Nat} {e : StationEntry} (hk : k ≤ 47)
    (he : entryOk e = true) : exec (.loadLensStation m k e) s = .next (({ taken 21 m s with
      zoom := { (taken 21 m s).zoom with
        staging := (taken 21 m s).zoom.staging.set k (some e) } } : State).respond 21 (.ok, .empty, none)) := by
  refine (request_taking h 21 m _).trans ?_
  rw [if_neg (by simp [he]; omega)]
  rfl

theorem exec_loadLensStation_refused (h : Taking s) (m : Moment) {k : Nat} {e : StationEntry}
    (hbad : 47 < k ∨ ¬entryOk e = true) :
    exec (.loadLensStation m k e) s = .next ((taken 21 m s).respond 21 (.badField, .empty, none)) := by
  refine (request_taking h 21 m _).trans ?_
  rw [if_pos (by simpa using hbad)]
  rfl

/-! ### The first test that fails -/

/-- The entry before position `i` of a list, after `before` (R127). -/
def entryBefore (before : Option StationEntry) (l : List (Option StationEntry)) : Nat → Option StationEntry
  | 0 => before
  | i + 1 => (l[i]?).join

/-- The first entry whose test fails gives the answer. -/
theorem firstBad_some {l : List (Option StationEntry)} {k i : Nat} {before o : Option StationEntry} {x : TableTest}
    (hi : l[i]? = some o) (hx : entryTest (entryBefore before l i) o = some x)
    (hgood : ∀ j y, j < i → l[j]? = some y → entryTest (entryBefore before l j) y = none) :
    firstBad k before l = some (k + i, x) := by
  induction l generalizing k i before with
  | nil => exact nomatch hi
  | cons a l ih =>
    unfold firstBad
    cases i with
    | zero =>
      cases hi
      rw [show entryTest before o = some x from hx]
      rfl
    | succ i =>
      rw [show entryTest before a = none from hgood 0 a (Nat.succ_pos i) rfl]
      have hshift (j : Nat) : entryBefore a l j = entryBefore before (a :: l) (j + 1) := by
        cases j <;> rfl
      have hrest := ih (k := k + 1) (before := a) (i := i) hi (by rw [hshift]; exact hx) fun j y hj hy => by
        rw [hshift]
        exact hgood (j + 1) y (Nat.succ_lt_succ hj) hy
      rw [hrest, Nat.add_right_comm, Nat.add_assoc]

theorem firstBad_none {l : List (Option StationEntry)} {k : Nat} {before : Option StationEntry}
    (hgood : ∀ j y, l[j]? = some y → entryTest (entryBefore before l j) y = none) : firstBad k before l = none := by
  induction l generalizing k before with
  | nil => rfl
  | cons a l ih =>
    unfold firstBad
    rw [show entryTest before a = none from hgood 0 a rfl]
    have hshift (j : Nat) : entryBefore a l j = entryBefore before (a :: l) (j + 1) := by
      cases j <;> rfl
    exact ih fun j y hy => by
      rw [hshift]
      exact hgood (j + 1) y hy

/-- The cam steps do not fall, neighbour by neighbour. -/
theorem camOrdered_false_iff (l : List Nat) :
    camOrdered l = false ↔ ∃ (i a b : Nat), l[i]? = some a ∧ l[i + 1]? = some b ∧ b < a := by
  induction l with
  | nil => simp [camOrdered]
  | cons a l ih =>
    cases l with
    | nil => simp [camOrdered]
    | cons b l =>
      rw [camOrdered, Bool.and_eq_false_iff, ih, decide_eq_false_iff_not, Nat.not_le]
      constructor
      · rintro (hlt | ⟨i, x, y, hx, hy, hlt⟩)
        · exact ⟨0, a, b, rfl, rfl, hlt⟩
        · exact ⟨i + 1, x, y, hx, hy, hlt⟩
      · rintro ⟨i, x, y, hx, hy, hlt⟩
        cases i with
        | zero =>
          cases hx
          cases hy
          exact .inl hlt
        | succ i => exact .inr ⟨i, x, y, hx, hy, hlt⟩

/-- A test of R127 that the staged entry of a station fails. -/
def TableFails (l : List (Option StationEntry)) (k : Nat) : TableTest → Prop
  | .empty => l[k]? = some none
  | .avOrder => ∃ e, l[k]? = some (some e) ∧ e.narrowest < e.widest
  | .camOrder => ∃ e i a b, l[k]? = some (some e) ∧ e.cams[i]? = some a ∧ e.cams[i + 1]? = some b ∧ b < a
  | .countOrder => ∃ e y, l[k]? = some (some e) ∧ 1 ≤ k ∧ l[k - 1]? = some (some y) ∧ e.count ≤ y.count
  | .focalOrder => ∃ e y, l[k]? = some (some e) ∧ 1 ≤ k ∧ l[k - 1]? = some (some y) ∧ e.focal < y.focal

/-- The tests' order (R127). -/
def testRank : TableTest → Nat
  | .empty => 0 | .avOrder => 1 | .camOrder => 2 | .countOrder => 3 | .focalOrder => 4

theorem entryBefore_some_iff (l : List (Option StationEntry)) (k : Nat) (y : StationEntry) :
    entryBefore none l k = some y ↔ 1 ≤ k ∧ l[k - 1]? = some (some y) := by
  cases k with
  | zero => simp [entryBefore]
  | succ k => simp [entryBefore, Option.join_eq_some_iff]

/-- The tests of a filled entry, after the entry before it. -/
theorem tableFails_iff {l : List (Option StationEntry)} {k : Nat} {e : StationEntry} (he : l[k]? = some (some e)) :
    ¬TableFails l k .empty ∧ (TableFails l k .avOrder ↔ e.narrowest < e.widest) ∧
      (TableFails l k .camOrder ↔ camOrdered e.cams = false) ∧
      (TableFails l k .countOrder ↔ ∃ y, entryBefore none l k = some y ∧ e.count ≤ y.count) ∧
      (TableFails l k .focalOrder ↔ ∃ y, entryBefore none l k = some y ∧ e.focal < y.focal) := by
  simp only [TableFails, he, entryBefore_some_iff, camOrdered_false_iff, Option.some.injEq, reduceCtorEq]
  refine ⟨id, ?_, ?_, ?_, ?_⟩
  · exact ⟨fun ⟨_, h, hlt⟩ => h ▸ hlt, fun h => ⟨e, rfl, h⟩⟩
  · exact ⟨fun ⟨_, i, a, b, h, hr⟩ => ⟨i, a, b, h ▸ hr⟩, fun ⟨i, a, b, hr⟩ => ⟨e, i, a, b, rfl, hr⟩⟩
  · exact ⟨fun ⟨_, y, h, h1, h2, hr⟩ => ⟨y, ⟨h1, h2⟩, h ▸ hr⟩, fun ⟨y, ⟨h1, h2⟩, hr⟩ => ⟨e, y, rfl, h1, h2, hr⟩⟩
  · exact ⟨fun ⟨_, y, h, h1, h2, hr⟩ => ⟨y, ⟨h1, h2⟩, h ▸ hr⟩, fun ⟨y, ⟨h1, h2⟩, hr⟩ => ⟨e, y, rfl, h1, h2, hr⟩⟩

/-- A filled entry's tests after the entry before it, if any. -/
theorem entryTest_filled (before : Option StationEntry) (e : StationEntry) : entryTest before (some e) =
    if e.narrowest < e.widest then some .avOrder
    else if camOrdered e.cams = false then some .camOrder
    else if ∃ y, before = some y ∧ e.count ≤ y.count then some .countOrder
    else if ∃ y, before = some y ∧ e.focal < y.focal then some .focalOrder
    else none := by
  unfold entryTest
  cases before <;> simp

/-- The answer of one entry's tests names a test that it fails, with none failed before it. -/
theorem entryTest_spec {l : List (Option StationEntry)} {k : Nat} {o : Option StationEntry} (ho : l[k]? = some o) :
    (∀ x, entryTest (entryBefore none l k) o = some x → TableFails l k x) ∧
    (∀ x, TableFails l k x → ∃ y, entryTest (entryBefore none l k) o = some y ∧ testRank y ≤ testRank x) := by
  cases o with
  | none => exact ⟨fun x hx => Option.some.inj hx ▸ ho, fun x _ => ⟨.empty, rfl, Nat.zero_le _⟩⟩
  | some e =>
    obtain ⟨hempty, hav, hcam, hcount, hfocal⟩ := tableFails_iff ho
    rw [entryTest_filled]
    constructor
    · intro x
      (repeat' split)
      next h => exact fun hx => Option.some.inj hx ▸ hav.mpr h
      next h => exact fun hx => Option.some.inj hx ▸ hcam.mpr h
      next h => exact fun hx => Option.some.inj hx ▸ hcount.mpr h
      next h => exact fun hx => Option.some.inj hx ▸ hfocal.mpr h
      next => exact nofun
    · intro x hx
      (repeat' split)
      all_goals cases x <;> simp_all [testRank]

theorem testRank_injective {x y : TableTest} (h : testRank x = testRank y) : x = y := by
  cases x <;> cases y <;> simp_all [testRank]

/-- The first station that fails, with its first test (R127). -/
theorem firstBad_fails {l : List (Option StationEntry)} {k : Nat} {x : TableTest} (hx : TableFails l k x)
    (hfirst : ∀ y, testRank y < testRank x → ¬TableFails l k y) (hbefore : ∀ j y, j < k → ¬TableFails l j y) :
    firstBad 0 none l = some (k, x) := by
  have hk : ∃ o, l[k]? = some o := by
    cases x with
    | empty => exact ⟨_, hx⟩
    | avOrder =>
      obtain ⟨e, he, -⟩ := hx
      exact ⟨_, he⟩
    | camOrder =>
      obtain ⟨e, -, -, -, he, -⟩ := hx
      exact ⟨_, he⟩
    | countOrder | focalOrder =>
      obtain ⟨e, -, he, -⟩ := hx
      exact ⟨_, he⟩
  obtain ⟨o, ho⟩ := hk
  obtain ⟨hnamed, hfound⟩ := entryTest_spec ho
  obtain ⟨y, hy, hrank⟩ := hfound x hx
  have hsame : y = x := testRank_injective (Nat.le_antisymm hrank (Nat.not_lt.mp fun hlt => hfirst y hlt (hnamed y hy)))
  subst hsame
  rw [firstBad_some ho hy fun j o hj ho => ?_, Nat.zero_add]
  exact Option.eq_none_iff_forall_ne_some.mpr fun z hz => hbefore j z hj ((entryTest_spec ho).1 z hz)

theorem firstBad_passes {l : List (Option StationEntry)} (h : ∀ k x, ¬TableFails l k x) : firstBad 0 none l = none :=
  firstBad_none fun j _ ho => Option.eq_none_iff_forall_ne_some.mpr fun z hz => h j z ((entryTest_spec ho).1 z hz)

/-- A table with every station filled. -/
theorem staged_all {l : List (Option StationEntry)} (h : ∀ k : Nat, l[k]? ≠ some none) : l = (l.filterMap id).map some := by
  induction l with
  | nil => rfl
  | cons a l ih =>
    cases a with
    | none => exact absurd rfl (h 0)
    | some e =>
      exact congrArg (some e :: ·) (ih fun k => h (k + 1))

theorem staged_getElem? {l : List (Option StationEntry)} (h : ∀ k : Nat, l[k]? ≠ some none) (k : Nat) (e : StationEntry) :
    (l.filterMap id)[k]? = some e ↔ l[k]? = some (some e) := by
  conv => rhs; rw [staged_all h]
  simp

/-! ### The nearest station -/

/-- The distance of a count from a station. -/
abbrev stationGap (c : Int) (e : StationEntry) : Nat := (c - (e.count : Int)).natAbs

/-- The station found is one of the list, with its distance. -/
theorem nearestStation_mem {l : List StationEntry} {c : Int} {k j d : Nat} (h : nearestStation c k l = some (j, d)) :
    ∃ (i : Nat) (x : StationEntry), l[i]? = some x ∧ d = stationGap c x := by
  induction l generalizing k with
  | nil => exact nomatch h
  | cons a l ih =>
    unfold nearestStation at h
    dsimp only at h
    split at h
    next j' d' hrest =>
      split at h
      · obtain ⟨i, x, hx, hd⟩ := ih (hrest.trans h)
        exact ⟨i + 1, x, hx, hd⟩
      · cases h
        exact ⟨0, a, rfl, rfl⟩
    next =>
      cases h
      exact ⟨0, a, rfl, rfl⟩

/-- The nearest station, the lower one on a tie (R128). -/
theorem nearestStation_eq {l : List StationEntry} {c : Int} {k i : Nat} {e : StationEntry} (he : l[i]? = some e)
    (hnear : ∀ (j : Nat) (x : StationEntry), l[j]? = some x →
      stationGap c e ≤ stationGap c x ∧ (j < i → stationGap c e < stationGap c x)) :
    nearestStation c k l = some (k + i, stationGap c e) := by
  induction l generalizing k i with
  | nil => exact nomatch he
  | cons a l ih =>
    unfold nearestStation
    dsimp only
    cases i with
    | zero =>
      cases he
      split
      next j d hrest =>
        obtain ⟨i, x, hx, rfl⟩ := nearestStation_mem hrest
        exact if_neg (Nat.not_lt.mpr (hnear (i + 1) x hx).1)
      next => rfl
    | succ i =>
      rw [ih (k := k + 1) (i := i) he fun j x hx =>
        ⟨(hnear (j + 1) x hx).1, fun hj => (hnear (j + 1) x hx).2 (Nat.succ_lt_succ hj)⟩]
      dsimp only
      rw [if_pos ((hnear 0 a rfl).2 (Nat.succ_pos i)), Nat.add_right_comm, Nat.add_assoc]

end Sys2Proof.Machine
end

section
/-! PROOFS. COMMIT LENS TABLE's effect on the lens and the focus (R127, R128, R147). -/

namespace Sys2Proof.Machine

variable {s t : State}

/-! ### The focus on a new cam -/

theorem State.focusCommit_stays (h1 : s.focus.state ≠ .locked) (h2 : s.focus.state ≠ .manual) (st : Nat) :
    s.focusCommit st = s := by
  unfold State.focusCommit
  split
  next h => exact absurd h h1
  next h => exact absurd h h2
  next => rfl

theorem State.focusCommit_resettles (h : s.focus.state = .locked ∨ s.focus.state = .manual) (st : Nat) :
    s.focusCommit st = s.focusResettle st false := by
  unfold State.focusCommit
  obtain h | h := h <;> rw [h]

theorem State.focusResettle_held {x : FocusHeld} (h : s.focus.held = some x) (st : Nat) (owed : Bool) :
    s.focusResettle st owed = (s.beginApproach (camOf s st (x.resolve (nearOf s st)).cls)
      (.hold (x.resolve (nearOf s st))) owed).1 := by
  unfold State.focusResettle
  rw [h]

/-- An approach with no end owed sets no flag, arrived or not (R140, R144). -/
theorem State.beginApproach_events (aim : Nat) (dest : FocusDest) (s : State) :
    (s.beginApproach aim dest false).1.events = s.events := by
  cases hp : s.focus.position with
  | none => rw [State.beginApproach_lost hp]; rfl
  | some p =>
    by_cases hne : p = aim
    · subst hne
      rw [State.beginApproach_there hp]
      cases dest <;> rfl
    · rw [State.beginApproach_away hp hne]
      rfl

theorem State.focusCommit_events (st : Nat) (s : State) : (s.focusCommit st).events = s.events := by
  by_cases h : s.focus.state = .locked ∨ s.focus.state = .manual
  · rw [State.focusCommit_resettles h]
    cases hh : s.focus.held with
    | none => rw [State.focusResettle, hh]
    | some x => rw [State.focusResettle_held hh, State.beginApproach_events]
  · rw [State.focusCommit_stays (fun e => h (.inl e)) fun e => h (.inr e)]

/-- The move from `p` to `aim`, past the aimed step by 24 first where it goes toward home (R132). -/
def orderedMove (p aim : Nat) : FocusMove :=
  { aim := aim, via := if aim < p ∧ aim ≠ 0 then some (aim - 24) else none }

theorem moveFrom_eq (aim p : Nat) : moveFrom false aim p = orderedMove p aim := by
  unfold moveFrom orderedMove
  by_cases hlt : aim < p ∧ aim ≠ 0
  · rw [if_pos hlt, if_neg (by simp; omega)]
  · rw [if_neg hlt, if_pos (by simp; omega)]

/-- The focus that resettles on another step moves there (R147). -/
theorem State.focusResettle_moves {x : FocusHeld} {st p aim : Nat} {kept : FocusHeld} (h : s.focus.held = some x)
    (hkept : x.resolve (nearOf s st) = kept) (haim : camOf s st kept.cls = aim) (hp : s.focus.position = some p)
    (hne : p ≠ aim) : (s.focusResettle st false).focus = { s.focus with
      state := .approaching, held := none, scan := none, trackOwed := false
      approach := some { aim := aim, dest := .hold kept, owed := false }
      move := some (orderedMove p aim) } := by
  rw [State.focusResettle_held h, hkept, haim, State.beginApproach_away hp hne, moveFrom_eq]
  rfl

/-- The focus that stands on its step already holds its class again (R147). -/
theorem State.focusResettle_holds {x : FocusHeld} {st aim : Nat} {kept : FocusHeld} (h : s.focus.held = some x)
    (hkept : x.resolve (nearOf s st) = kept) (haim : camOf s st kept.cls = aim) (hp : s.focus.position = some aim) :
    (s.focusResettle st false).focus = { s.focus with
      state := kept.state, held := some kept, scan := none, trackOwed := false, approach := none, move := none } := by
  rw [State.focusResettle_held h, hkept, haim, State.beginApproach_there hp]
  cases kept <;> rfl

/-! ### The commit -/

/-- The staged entries are the working table, and it is dirty (R128). -/
def State.tableTaken (s : State) : State :=
  (s.onZoom fun z => { z with working := some (s.zoom.staging.filterMap id) }).markDirty .lensTable

@[simp] theorem State.tableTaken_frame (s : State) :
    s.tableTaken.zoom = { s.zoom with working := some (s.zoom.staging.filterMap id) } ∧
      s.tableTaken.focus = s.focus ∧ s.tableTaken.events = s.events ∧
      s.tableTaken.writer = s.writer.mark .lensTable := ⟨rfl, rfl, rfl, rfl⟩

/-- The focus takes the new cam where the lens is READY. -/
def State.cameTaken (s : State) : State :=
  match s.zoom.state, s.zoom.current with
  | .ready, some k => s.focusCommit k
  | _, _ => s

theorem State.zoomCommit_eq (s : State) : s.zoomCommit =
    (State.cameTaken (if s.zoom.state = .ready ∨ s.zoom.state = .noTableHold then
      s.tableTaken.zoomReconcile (s.zoom.staging.filterMap id) else s.tableTaken)).meterInput := rfl

@[simp] theorem State.zoomReconcile_keeps (tab : List StationEntry) (s : State) :
    (s.zoomReconcile tab).zoom.count = s.zoom.count ∧ (s.zoomReconcile tab).zoom.working = s.zoom.working ∧
      (s.zoomReconcile tab).zoom.staging = s.zoom.staging ∧ (s.zoomReconcile tab).events = s.events ∧
      (s.zoomReconcile tab).writer = s.writer ∧ (s.zoomReconcile tab).focus = s.focus := by
  unfold State.zoomReconcile
  (repeat' split) <;> exact ⟨rfl, rfl, rfl, rfl, rfl, rfl⟩

@[simp] theorem State.cameTaken_keeps (s : State) : s.cameTaken.zoom = s.zoom ∧ s.cameTaken.events = s.events ∧
    s.cameTaken.writer = s.writer := by
  unfold State.cameTaken
  split
  · simp [State.focusCommit_events]
  · exact ⟨rfl, rfl, rfl⟩

/-- Every commit leaves the count, the staging and the flags, and makes the staged entries the working table. -/
theorem State.zoomCommit_keeps (s : State) : s.zoomCommit.zoom.working = some (s.zoom.staging.filterMap id) ∧
    s.zoomCommit.zoom.staging = s.zoom.staging ∧ s.zoomCommit.writer = s.writer.mark .lensTable ∧
    s.zoomCommit.zoom.count = s.zoom.count ∧ s.zoomCommit.events = s.events := by
  rw [State.zoomCommit_eq]
  split <;> simp

theorem State.zoomCommit_away (h1 : s.zoom.state ≠ .ready) (h2 : s.zoom.state ≠ .noTableHold) :
    s.zoomCommit.zoom.state = s.zoom.state ∧ s.zoomCommit.focus = s.focus := by
  have hcame : s.tableTaken.cameTaken = s.tableTaken := by
    unfold State.cameTaken
    split
    next h _ => exact absurd h h1
    next => rfl
  rw [State.zoomCommit_eq, if_neg (by rintro (h | h) <;> contradiction), hcame]
  simp

/-- READY on the nearest station within 3 counts (R128). -/
def State.tableReady (k : Nat) (s : State) : State :=
  s.tableTaken.onZoom fun z => { z with state := .ready, current := some k }

theorem State.zoomCommit_near {c : Int} {k d : Nat} (h : s.zoom.state = .ready ∨ s.zoom.state = .noTableHold)
    (hc : s.zoom.count = some c) (hn : nearestStation c 0 (s.zoom.staging.filterMap id) = some (k, d)) (hd : d ≤ 3) :
    s.zoomCommit = ((s.tableReady k).focusCommit k).meterInput := by
  have hreconcile : s.tableTaken.zoomReconcile (s.zoom.staging.filterMap id) = s.tableReady k := by
    unfold State.zoomReconcile
    rw [s.tableTaken_frame.1, hc]
    dsimp only
    rw [hn]
    exact if_pos hd
  rw [State.zoomCommit_eq, if_pos h, hreconcile]
  rfl

theorem State.zoomCommit_far {c : Int} {k d : Nat} (h : s.zoom.state = .ready ∨ s.zoom.state = .noTableHold)
    (hc : s.zoom.count = some c) (hn : nearestStation c 0 (s.zoom.staging.filterMap id) = some (k, d)) (hd : 3 < d) :
    s.zoomCommit = (s.tableTaken.onZoom fun z => { z with state := .noTableHold, current := none }).meterInput := by
  have hreconcile : s.tableTaken.zoomReconcile (s.zoom.staging.filterMap id) =
      s.tableTaken.onZoom fun z => { z with state := .noTableHold, current := none } := by
    unfold State.zoomReconcile
    rw [s.tableTaken_frame.1, hc]
    dsimp only
    rw [hn]
    exact if_neg (by omega)
  rw [State.zoomCommit_eq, if_pos h, hreconcile]
  rfl

/-! ### The request -/

/-- COMMIT LENS TABLE's refusal before its table is tested (R127). -/
def commitRefusal (s : State) : Option Code :=
  if s.shot.state ≠ .idle then some .shotArmed
  else
    match s.zoom.state with
    | .homing | .extending | .moving | .braking | .parking => some .busy
    | .unhomed | .ready | .parked | .stalled | .noTableHold => if s.focus.state.busy then some .focusBusy else none

theorem exec_commitLensTable (h : Taking s) (m : Moment) : exec (.commitLensTable m) s = .next
    (match commitRefusal s with
     | some c => (taken 22 m s).respond 22 (c, .empty, none)
     | none =>
       match firstBad 0 none s.zoom.staging with
       | some (k, x) => (taken 22 m s).respond 22 (.badField, .badStation k x, none)
       | none => (taken 22 m s).zoomCommit.respond 22 (.ok, .empty, none)) := by
  have hrefusal : commitRefusal s = commitRefusal (taken 22 m s) := by simp [commitRefusal]
  have hstaging : s.zoom.staging = (taken 22 m s).zoom.staging := by simp
  refine (request_taking h 22 m _).trans (congrArg _ ?_)
  rw [hrefusal, hstaging, commitRefusal]
  split
  · rfl
  · cases (taken 22 m s).zoom.state with
    | homing | extending | moving | braking | parking => rfl
    | _ =>
      dsimp only
      split
      · rfl
      · cases firstBad 0 none (taken 22 m s).zoom.staging <;> rfl

theorem exec_commitLensTable_refused (h : Taking s) (m : Moment) {c : Code} (hc : commitRefusal s = some c) :
    exec (.commitLensTable m) s = .next ((taken 22 m s).respond 22 (c, .empty, none)) := by
  rw [exec_commitLensTable h, hc]

theorem exec_commitLensTable_bad (h : Taking s) (m : Moment) {k : Nat} {x : TableTest} (hc : commitRefusal s = none)
    (hb : firstBad 0 none s.zoom.staging = some (k, x)) :
    exec (.commitLensTable m) s = .next ((taken 22 m s).respond 22 (.badField, .badStation k x, none)) := by
  rw [exec_commitLensTable h, hc, hb]

theorem exec_commitLensTable_takes (h : Taking s) (m : Moment) (hc : commitRefusal s = none)
    (hb : firstBad 0 none s.zoom.staging = none) :
    exec (.commitLensTable m) s = .next ((taken 22 m s).zoomCommit.respond 22 (.ok, .empty, none)) := by
  rw [exec_commitLensTable h, hc, hb]

end Sys2Proof.Machine
end

section
/-! PROOFS. ZOOM TO, ZOOM STOP, LOAD LENS STATION and COMMIT LENS TABLE (R117 to R121, R126 to R128, R145, R147). -/

namespace Sys2Proof.Machine

variable {s t : State}

@[simp] theorem Focus.steps_keeps (n : Nat) (f : Focus) : (f.steps n).approach = f.approach ∧
    (f.steps n).held = f.held ∧ (f.steps n).scan = f.scan ∧ (f.steps n).mode = f.mode ∧
    (f.steps n).areas = f.areas ∧ (f.steps n).curve = f.curve ∧ (f.steps n).follow = f.follow ∧
    (f.steps n).suspended = f.suspended ∧ (f.steps n).lastEnd = f.lastEnd ∧
    (f.steps n).trackOwed = f.trackOwed := by
  rw [Focus.steps_eq]
  exact ⟨rfl, rfl, rfl, rfl, rfl, rfl, rfl, rfl, rfl, rfl⟩

/-- ZOOM TO from rest: the leg and what the focus makes of the motion (R117, R119, R145). -/
theorem zoomTo_starts (h : Taking s) (m : Moment) {k : Nat} {tab : List StationEntry} {e : StationEntry} {c : Int}
    (hk : k ≤ 47) (hs : s.shot.state = .idle) (hz : s.zoom.state = .ready ∨ s.zoom.state = .noTableHold)
    (hcur : s.zoom.current ≠ some k) (ht : s.zoom.working = some tab) (he : tab[k]? = some e)
    (hc : s.zoom.count = some c) :
    ∃ t, exec (.zoomTo m k) s = .next t ∧ t.zoom.state = .moving ∧ t.timers.stall = some 0 ∧
      t.link.pending = some { kind := 18, code := .ok, body := .empty, held := none } ∧
      (c < (e.count : Int) → t.zoom.target = some (k, .approach) ∧
        t.zoom.drive = if (e.count : Int) - 40 ≤ c then .teleSlow else .teleFull) ∧
      ((e.count : Int) ≤ c → t.zoom.target = some (k, .outbound) ∧ t.zoom.drive = .wideFull) ∧
      FocusAtMotion (taken 18 m s) t := by
  let u := taken 18 m s
  have hzoom : u.zoom = s.zoom := by simp [u]
  have hbegun : u.focusMotionBegins.zoom = s.zoom := by simpa using hzoom
  have haim : u.zoomAim k = u.focusMotionBegins.zoomLeg k :=
    State.zoomAim_starts (by rw [hzoom]; exact hz) (by rw [hzoom]; exact hcur)
  obtain ⟨hstate, hstall, happroach, hout, hfocus, hevents, hsample⟩ :=
    State.zoomLeg_leaves (s := u.focusMotionBegins) (k := k) (a := (e.count : Int)) (c := c)
      ((stationCount_congr (by rw [hbegun]) k).trans (stationCount_some ht he)) (by rw [hbegun]; exact hc)
  refine ⟨_, exec_zoomTo_aims h m hk hs (hz.imp id .inl), ?_⟩
  rw [haim]
  exact ⟨hstate, hstall, rfl, happroach, hout, u.focusMotionBegins_focus.congr hfocus hevents hsample⟩

/-- ZOOM TO on the way: the new target, on the leg under way (R120). -/
theorem zoomTo_retargets (h : Taking s) (m : Moment) {k old : Nat} {leg : Leg} {tab : List StationEntry}
    {e : StationEntry} {c : Int} (hk : k ≤ 47) (hs : s.shot.state = .idle)
    (hz : s.zoom.state = .moving ∨ s.zoom.state = .braking) (hold : s.zoom.target = some (old, leg)) (hne : old ≠ k)
    (ht : s.zoom.working = some tab) (he : tab[k]? = some e) (hc : s.zoom.count = some c) :
    ∃ t, exec (.zoomTo m k) s = .next t ∧ t.zoom.target = some (k, leg) ∧
      (s.zoom.state = .moving → leg = .approach → c < (e.count : Int) → t.zoom.state = .moving ∧
        t.zoom.drive = if (e.count : Int) - 40 ≤ c then .teleSlow else .teleFull) ∧
      (s.zoom.state = .moving → leg = .approach → (e.count : Int) ≤ c → t.zoom.state = .braking ∧
        t.zoom.drive = .braked ∧ t.timers.brake = some 0) ∧
      (s.zoom.state = .moving → leg = .outbound → (e.count : Int) - 30 < c → t.zoom.state = .moving) ∧
      (s.zoom.state = .moving → leg = .outbound → c ≤ (e.count : Int) - 30 → t.zoom.state = .braking) ∧
      (s.zoom.state = .braking → t.zoom.state = .braking) := by
  let u := taken 18 m s
  have hzoom : u.zoom = s.zoom := by simp [u]
  have ha : stationCount u k = some (e.count : Int) :=
    (stationCount_congr (by rw [hzoom]) k).trans (stationCount_some ht he)
  have hcu : u.zoom.count = some c := by rw [hzoom]; exact hc
  have holdu : u.zoom.target = some (old, leg) := by rw [hzoom]; exact hold
  have haim : u.zoomAim k = u.zoomRetarget k := State.zoomAim_retargets (by rw [hzoom]; exact hz)
  have hmoving (hm : s.zoom.state = .moving) : u.zoom.state = .moving := by rw [hzoom]; exact hm
  refine ⟨_, exec_zoomTo_aims h m hk hs (hz.imp id id |>.elim (.inr ∘ .inr ∘ .inl) (.inr ∘ .inr ∘ .inr)), ?_⟩
  rw [haim]
  refine ⟨State.zoomRetarget_target holdu ha hcu, fun hm hl hlt => ?_, fun hm hl hle => ?_, fun hm hl hlt => ?_,
    fun hm hl hle => ?_, fun hb => ?_⟩
  · subst hl
    rw [State.zoomRetarget_approach (hmoving hm) hne ha hcu holdu]
    dsimp only
    rw [if_pos hlt]
    exact ⟨hmoving hm, rfl⟩
  · subst hl
    rw [State.zoomRetarget_approach (hmoving hm) hne ha hcu holdu]
    dsimp only
    rw [if_neg (by omega)]
    exact ⟨rfl, rfl, rfl⟩
  · subst hl
    rw [State.zoomRetarget_outbound (hmoving hm) hne ha hcu holdu]
    dsimp only
    rw [if_pos hlt]
    exact hmoving hm
  · subst hl
    rw [State.zoomRetarget_outbound (hmoving hm) hne ha hcu holdu]
    dsimp only
    rw [if_neg (by omega)]
    rfl
  · refine (State.zoomRetarget_state (s := u) (by rw [hzoom, hb]; decide)).trans ?_
    rw [hzoom]
    exact hb

/-- The state and the class that a held class keeps when it is resolved (R146). -/
theorem FocusHeld.resolve_eq (x : FocusHeld) (near : Nat) :
    (x.resolve near).cls = min x.cls near ∧ (x.resolve near).state = x.state := by
  cases x <;> exact ⟨rfl, rfl⟩

theorem commitRefusal_none (hs : s.shot.state = .idle)
    (hstill : s.zoom.state ≠ .homing ∧ s.zoom.state ≠ .extending ∧ s.zoom.state ≠ .moving ∧
      s.zoom.state ≠ .braking ∧ s.zoom.state ≠ .parking) (h1 : s.focus.state ≠ .scanning)
    (h2 : s.focus.state ≠ .approaching) : commitRefusal s = none := by
  have hbusy : s.focus.state.busy = false := by
    generalize s.focus.state = f at h1 h2
    cases f with
    | scanning => exact absurd rfl h1
    | approaching => exact absurd rfl h2
    | _ => rfl
  obtain ⟨g1, g2, g3, g4, g5⟩ := hstill
  unfold commitRefusal
  rw [if_neg (not_not_intro hs), hbusy]
  generalize s.zoom.state = z at g1 g2 g3 g4 g5
  cases z <;> simp_all

@[simp] theorem State.tableReady_frame (k : Nat) (s : State) : (s.tableReady k).zoom = { s.zoom with
      working := some (s.zoom.staging.filterMap id), state := .ready, current := some k } ∧
    (s.tableReady k).focus = s.focus := ⟨rfl, rfl⟩

/-- The commit near a station: READY there, and a held class on the new cam (R128, R147). -/
theorem zoomCommit_ready {c : Int} {k d : Nat} {e : StationEntry}
    (hz : s.zoom.state = .ready ∨ s.zoom.state = .noTableHold) (hc : s.zoom.count = some c)
    (he : (s.zoom.staging.filterMap id)[k]? = some e)
    (hn : nearestStation c 0 (s.zoom.staging.filterMap id) = some (k, d)) (hd : d ≤ 3) :
    s.zoomCommit.zoom.state = .ready ∧ s.zoomCommit.zoom.current = some k ∧
      (s.focus.state ≠ .locked → s.focus.state ≠ .manual → s.zoomCommit.focus = s.focus) ∧
      (∀ x p, s.focus.state = .locked ∨ s.focus.state = .manual → s.focus.held = some x →
        s.focus.position = some p →
        let kept := x.resolve e.near
        let aim := e.cams.getD kept.cls 0
        (p ≠ aim → s.zoomCommit.focus = { s.focus with
          state := .approaching, held := none, scan := none, trackOwed := false
          approach := some { aim := aim, dest := .hold kept, owed := false }
          move := some (orderedMove p aim) }) ∧
        (p = aim → s.zoomCommit.focus = { s.focus with
          state := kept.state, held := some kept, scan := none, trackOwed := false, approach := none
          move := none })) := by
  let v := s.tableReady k
  have hcommit : s.zoomCommit = (v.focusCommit k).meterInput := State.zoomCommit_near hz hc hn hd
  have hzoom : s.zoomCommit.zoom = v.zoom := by simp [hcommit]
  have hfocus : s.zoomCommit.focus = (v.focusCommit k).focus := by simp [hcommit]
  have hworking : v.zoom.working = some (s.zoom.staging.filterMap id) := rfl
  refine ⟨by rw [hzoom]; rfl, by rw [hzoom]; rfl, fun h1 h2 => ?_, fun x p hl hx hp => ?_⟩
  · rw [hfocus, State.focusCommit_stays (s := v) h1 h2]
    rfl
  · intro kept aim
    have hnear : x.resolve (nearOf v k) = kept := by rw [nearOf_eq hworking he]
    have hcam : camOf v k kept.cls = aim := camOf_eq hworking he _
    rw [hfocus, State.focusCommit_resettles (s := v) hl]
    refine ⟨fun hne => State.focusResettle_moves (s := v) hx hnear hcam hp hne, fun heq => ?_⟩
    exact State.focusResettle_holds (s := v) hx hnear hcam (heq ▸ hp)

/-- Settles O53: the two zoom requests by the lens's state, the load by its checks, the commit by the first test that
fails and by the nearest station. -/
theorem zoomRequestsAimTheLens : Obligations.ZoomRequestsAimTheLens := by
  unfold Obligations.ZoomRequestsAimTheLens
  intro m s h
  refine ⟨fun k => ?_, fun h1 h2 => ?_, fun tab k leg c j e ht hc hk he hj hcases => ?_,
    fun tab k leg c e ht hc hk => ⟨fun he hs hl hall => ?_, fun he hs hall => ?_⟩, fun k e => ?_, ?_⟩
  · intro u refused
    have hrefused {c : Code} (hc : zoomToRefusal k s = some c) : refused c := exec_zoomTo_refused h m hc
    have hzoom : u.zoom = s.zoom := by simp [u]
    refine ⟨fun hk => hrefused (if_pos hk), fun hk hs => hrefused ((if_neg (by omega)).trans (if_pos hs)),
      fun hk hs => ⟨fun hz => ?_, fun hz => ?_, fun hz hcur => ?_, fun tab e c hz hcur ht he hc => ?_,
        fun old leg hz hold => ⟨fun hsame => ?_, fun tab e c hne ht he hc =>
          zoomTo_retargets h m hk hs hz hold hne ht he hc⟩⟩⟩
    · exact hrefused (by simp [zoomToRefusal, hs, hz]; omega)
    · obtain hz | hz | hz | hz | hz := hz <;> exact hrefused (by simp [zoomToRefusal, hs, hz]; omega)
    · have haim : u.zoomAim k = u.setFlag .zoomEnded := by
        unfold State.zoomAim
        rw [hzoom, hz, hcur]
        exact if_pos rfl
      exact (exec_zoomTo_aims h m hk hs (.inl hz)).trans (congrArg _ (congrArg _ haim))
    · obtain ⟨t, hrun, hstate, hstall, hlink, happroach, hout, hfocus⟩ := zoomTo_starts h m hk hs hz hcur ht he hc
      have hstay : u.focus.state = s.focus.state := by simp [u]
      have hat : u.focus.approach = s.focus.approach := by simp [u]
      have hflag : (u.setFlag .focusEnded).events = (s.setFlag .focusEnded).events := by simp [u]
      have hevents : u.events = s.events := by simp [u]
      obtain ⟨f1, f2, f3, f4, f5⟩ := hfocus
      rw [hstay, hevents] at f1 f2
      rw [hstay, hflag] at f3
      rw [hstay, hat, hevents] at f4
      rw [hstay, hat, hflag] at f5
      exact ⟨t, hrun, hstate, hstall, hlink, happroach, hout, f1, f2, f3, f4, f5⟩
    · subst hsame
      have haim : u.zoomAim old = u := (State.zoomAim_retargets (by rw [hzoom]; exact hz)).trans
        (State.zoomRetarget_same (leg := leg) (by rw [hzoom]; exact hold))
      exact (exec_zoomTo_aims h m hk hs (hz.elim (.inr ∘ .inr ∘ .inl) (.inr ∘ .inr ∘ .inr))).trans
        (congrArg _ (congrArg _ haim))
  · have hrun := exec_zoomStop h m
    rw [stopTarget_none h1 h2] at hrun
    exact hrun
  · have haims (hstop : stopTarget s = some j) : ∃ t, exec (.zoomStop m) s = .next t ∧ t.zoom.target = some (j, leg) ∧
        t.link.pending = some { kind := 19, code := .ok, body := .empty, held := none } := by
      obtain ⟨t, hrun, htarget, -, hlink⟩ := exec_zoomStop_aims h m ht hc hk he hstop
      exact ⟨t, hrun, htarget, hlink⟩
    obtain ⟨hs, rfl, habove, hbelow⟩ | ⟨hs, habove, hbelow⟩ | ⟨hs, rfl, -, hbelow, habove⟩ := hcases
    · exact haims (by rw [stopTarget_approach ht hc hs hk, stationAbove_eq he habove hbelow, Option.getD_some])
    · exact haims (by rw [stopTarget_braking ht hc hs hk, stationAbove_eq he habove hbelow, Option.getD_some])
    · exact haims (by rw [stopTarget_outbound ht hc hs hk, stationBelow_eq he hbelow habove])
  · subst hl
    obtain ⟨t, hrun, htarget, -, hlink⟩ := exec_zoomStop_aims h m ht hc hk he
      (by rw [stopTarget_outbound ht hc hs hk, stationBelow_none hall])
    exact ⟨t, hrun, htarget, hlink⟩
  · obtain ⟨t, hrun, htarget, hstate, hlink⟩ := exec_zoomStop_aims h m ht hc hk he
      (by rw [stopTarget_braking ht hc hs hk, stationAbove_none hall, Option.getD_none])
    exact ⟨t, hrun, htarget, (hstate (by rw [hs]; decide)).trans hs, hlink⟩
  · intro u good
    exact ⟨fun hk hgood => exec_loadLensStation_fills h m hk ((entryOk_iff e).mpr hgood),
      fun hbad => exec_loadLensStation_refused h m (hbad.imp id fun hn hok => hn ((entryOk_iff e).mp hok))⟩
  · intro u refused still
    have hrefused {c : Code} (hc : commitRefusal s = some c) : refused c := exec_commitLensTable_refused h m hc
    refine ⟨fun hs => hrefused (if_pos hs), fun hs hn => ?_, fun hs hst hf => ?_, ?_⟩
    · refine hrefused ((if_neg (not_not_intro hs)).trans ?_)
      dsimp only [still] at hn
      generalize s.zoom.state = z at hn
      cases z <;> simp_all
    · have hbusy : s.focus.state.busy = true := by obtain hf | hf := hf <;> rw [hf] <;> rfl
      refine hrefused ((if_neg (not_not_intro hs)).trans ?_)
      dsimp only [still] at hst
      rw [hbusy]
      generalize s.zoom.state = z at hst
      cases z <;> simp_all
    · intro staged fails rank hs hst h1 h2
      have hnone := commitRefusal_none hs hst h1 h2
      have hfails (k : Nat) (x : TableTest) : fails k x ↔ TableFails s.zoom.staging k x := by cases x <;> rfl
      have hrank (x : TableTest) : rank x = testRank x := by cases x <;> rfl
      refine ⟨fun k x hx hlow hbefore => ?_, fun hgood => ?_⟩
      · refine exec_commitLensTable_bad h m hnone (firstBad_fails ((hfails k x).mp hx) (fun y hy hf => ?_)
          fun j y hj hf => hbefore j y hj ((hfails j y).mpr hf))
        exact hlow y (by rw [hrank, hrank]; exact hy) ((hfails k y).mpr hf)
      · have hpass (k : Nat) (x : TableTest) : ¬TableFails s.zoom.staging k x := fun hf => hgood k x ((hfails k x).mpr hf)
        have hfilled (k : Nat) : s.zoom.staging[k]? ≠ some none := hpass k .empty
        have hzoom : u.zoom = s.zoom := by simp [u]
        obtain ⟨hworking, hstaging, hwriter, hcount, hevents⟩ := u.zoomCommit_keeps
        rw [hzoom] at hworking hstaging hcount
        refine ⟨_, exec_commitLensTable_takes h m hnone (firstBad_passes hpass), hworking, hstaging,
          hwriter.trans (by simp [u]), hcount, rfl, hevents.trans (by simp [u]), fun g1 g2 => ?_,
          fun c k e hz hc he => ?_⟩
        · have haway := State.zoomCommit_away (s := u) (by rw [hzoom]; exact g1) (by rw [hzoom]; exact g2)
          rw [hzoom] at haway
          exact haway
        · intro d hd
          have hentry : (u.zoom.staging.filterMap id)[k]? = some e := by
            rw [hzoom]
            exact (staged_getElem? hfilled k e).mpr he
          have hnear : nearestStation c 0 (u.zoom.staging.filterMap id) = some (k, d e) := by
            refine (nearestStation_eq hentry fun j x hx => ?_).trans (by rw [Nat.zero_add])
            rw [hzoom] at hx
            exact hd j x ((staged_getElem? hfilled j x).mp hx)
          have hcu : u.zoom.count = some c := by rw [hzoom]; exact hc
          have hzu : u.zoom.state = .ready ∨ u.zoom.state = .noTableHold := by rw [hzoom]; exact hz
          have hstay : u.focus.state = s.focus.state := by simp [u]
          have hheld : u.focus.held = s.focus.held := by simp [u]
          refine ⟨fun hle => ?_, fun hgt => ?_⟩
          · obtain ⟨g1, g2, g3, g4⟩ := zoomCommit_ready hzu hcu hentry hnear hle
            rw [hstay] at g3
            refine ⟨g1, g2, g3, fun x p hl hx hp => ?_⟩
            have hkept := g4 x p (by rw [hstay]; exact hl) (by rw [hheld]; exact hx) hp
            cases x <;> exact hkept
          · have hfar := State.zoomCommit_far hzu hcu hnear hgt
            have hstate : u.zoomCommit.zoom.state = .noTableHold := by simp [hfar]
            have hcurrent : u.zoomCommit.zoom.current = none := by simp [hfar]
            have hfocus : u.zoomCommit.focus = u.focus := by simp [hfar]
            exact ⟨hstate, hcurrent, hfocus⟩

end Sys2Proof.Machine
end

section
/-! PROOFS. The scan's visits and the Focus Unit's requests (R132 to R138, R141, R144). -/

namespace Sys2Proof.Machine

variable {s t : State}

/-! ### A visit -/

/-- A scan's visit before its move is ordered (R138). -/
def State.visitBegun (x : Scan) (k : Nat) (s : State) : State :=
  s.onFocus fun f => { f with scan := some { x with current := k, skip := false } }

theorem State.scanVisit_eq {x : Scan} (h : s.focus.scan = some x) (k : Nat) :
    s.scanVisit k = ((s.visitBegun x k).focusMoveTo false (camOf s x.station k)).1 := by
  unfold State.scanVisit
  rw [h]
  rfl

/-- A scan that visits class `k`: its move is ordered, or is complete at once and the next block is skipped (R132,
R138). -/
structure ScanVisits (s : State) (x : Scan) (k : Nat) (t : State) : Prop where
  state : t.focus.state = s.focus.state
  held : t.focus.held = s.focus.held
  approach : t.focus.approach = s.focus.approach
  follow : t.focus.follow = s.focus.follow
  curve : t.focus.curve = s.focus.curve
  scan : ∃ y, t.focus.scan = some y ∧ y = { x with current := k, skip := y.skip } ∧
    ∀ p, s.focus.position = some p →
      (p ≠ camOf s x.station k → y.skip = false ∧ t.timers = s.timers ∧
        t.focus.move = some (orderedMove p (camOf s x.station k))) ∧
      (p = camOf s x.station k → y.skip = true ∧ t.focus.move = none ∧ t.timers.sample = some 0)

theorem State.focusArrive_scanning (h : s.focus.state = .scanning) : s.focusArrive =
    (let t := s.onFocus fun f => { f with scan := f.scan.map fun x => { x with skip := true } }
     { t with timers := { t.timers with sample := some 0 } }, false) := by
  unfold State.focusArrive
  rw [h]

theorem State.scanVisit_visits {x : Scan} (hs : s.focus.state = .scanning) (h : s.focus.scan = some x) (k : Nat) :
    ScanVisits s x k (s.scanVisit k) := by
  rw [State.scanVisit_eq h]
  cases hp : s.focus.position with
  | none =>
    have hstays : (s.visitBegun x k).focusMoveTo false (camOf s x.station k) = (s.visitBegun x k, false) := by
      unfold State.focusMoveTo
      rw [show (s.visitBegun x k).focus.position = none from hp]
    rw [hstays]
    exact ⟨rfl, rfl, rfl, rfl, rfl, _, rfl, rfl, fun p h => nomatch hp.symm.trans h⟩
  | some p =>
    by_cases hne : p = camOf s x.station k
    · rw [State.focusMoveTo_there (s := s.visitBegun x k) (hne ▸ hp), State.focusArrive_scanning (by exact hs)]
      exact ⟨rfl, rfl, rfl, rfl, rfl, _, rfl, rfl, fun q hq =>
        ⟨fun h => absurd (Option.some.inj (hq.symm.trans hp)) (hne ▸ h), fun _ => ⟨rfl, rfl, rfl⟩⟩⟩
    · rw [State.focusMoveTo_away (s := s.visitBegun x k) hp hne, moveFrom_eq]
      refine ⟨rfl, rfl, rfl, rfl, rfl, _, rfl, rfl, fun q hq => ?_⟩
      cases hp.symm.trans hq
      exact ⟨fun _ => ⟨rfl, rfl, rfl⟩, fun h => absurd h hne⟩

/-- A scan before its first visit (R137). -/
def State.scanReady (station first last : Nat) (s : State) : State :=
  s.onFocus fun f =>
    { f with state := .scanning, held := none, approach := none, trackOwed := false, follow := 0
             scan := some { first := first, last := last, current := first, areas := scanAreas s.focus.areas
                            skip := false, station := station }
             curve := (scanAreas s.focus.areas).map fun a =>
               { id := a.id, samples := List.replicate 16 none, peak := none } }

theorem State.scanBegin_eq (station first last : Nat) (s : State) :
    s.scanBegin station first last = (s.scanReady station first last).scanVisit first := rfl

theorem scanAreas_eq (l : List Area) : scanAreas l =
    if l.filter (·.enabled) = [] then
      [{ id := 0, rect := { firstCol := 3, lastCol := 4, firstRow := 2, lastRow := 3 }, enabled := true }]
    else l.filter (·.enabled) := by
  unfold scanAreas
  split
  next h => rw [if_pos h]; rfl
  next h => rw [if_neg h]

/-- A scan that begins: from its first class to its last, over the areas, with an empty curve (R135, R137, R138). -/
structure ScanBegins (s : State) (station first last : Nat) (t : State) : Prop where
  state : t.focus.state = .scanning
  held : t.focus.held = none
  approach : t.focus.approach = none
  follow : t.focus.follow = 0
  curve : t.focus.curve = (scanAreas s.focus.areas).map fun a =>
    { id := a.id, samples := List.replicate 16 none, peak := none }
  scan : ∃ x, t.focus.scan = some x ∧ x.first = first ∧ x.current = first ∧ x.last = last ∧ x.station = station ∧
    x.areas = scanAreas s.focus.areas ∧
    ∀ p, s.focus.position = some p →
      (p ≠ camOf s station first → x.skip = false ∧ t.timers = s.timers ∧
        t.focus.move = some (orderedMove p (camOf s station first))) ∧
      (p = camOf s station first → x.skip = true ∧ t.focus.move = none ∧ t.timers.sample = some 0)

theorem State.scanBegin_begins (station first last : Nat) (s : State) :
    ScanBegins s station first last (s.scanBegin station first last) := by
  rw [State.scanBegin_eq]
  obtain ⟨hstate, hheld, happroach, hfollow, hcurve, y, hy, hsame, hmove⟩ :=
    State.scanVisit_visits (s := s.scanReady station first last) rfl rfl first
  refine ⟨hstate, hheld, happroach, hfollow, hcurve, y, hy, ?_, ?_, ?_, ?_, ?_, hmove⟩ <;> rw [hsame]

/-! ### Requests -/

theorem FocusState.busy_iff (f : FocusState) : f.busy = true ↔ f = .scanning ∨ f = .approaching := by
  cases f <;> simp [FocusState.busy]

/-- The refusal of FOCUS START and of SET DISTANCE by the lens and the focus (R137, R144). -/
def lensRefusal (s : State) : Option Code :=
  if s.zoom.state ≠ .ready ∨ s.focus.state = .unhomed then some .lensNotReady
  else if s.focus.state.busy ∨ s.focus.state = .tracking then some .focusBusy
  else none

theorem lensRefusal_taken (k : Nat) (m : Moment) (s : State) : lensRefusal (taken k m s) = lensRefusal s := by
  simp [lensRefusal]

theorem lensRefusal_none (hz : s.zoom.state = .ready) (hf : s.focus.state ≠ .unhomed)
    (hb : ¬(s.focus.state = .scanning ∨ s.focus.state = .approaching)) (ht : s.focus.state ≠ .tracking) :
    lensRefusal s = none := by
  unfold lensRefusal
  rw [if_neg (by rintro (h | h) <;> contradiction), if_neg]
  rintro (h | h)
  · exact hb ((FocusState.busy_iff _).mp h)
  · exact ht h

theorem lensRefusal_busy (hz : s.zoom.state = .ready)
    (hb : (s.focus.state = .scanning ∨ s.focus.state = .approaching) ∨ s.focus.state = .tracking) :
    lensRefusal s = some .focusBusy := by
  unfold lensRefusal
  rw [if_neg, if_pos (hb.imp (FocusState.busy_iff _).mpr id)]
  rintro (h | h)
  · exact h hz
  · rw [h] at hb
    simp at hb

/-- FOCUS START's refusal (R137). -/
def focusStartRefusal (g : Option FocusRange) (s : State) : Option Code :=
  match g with
  | none => some .badField
  | some _ =>
    if s.shot.state ≠ .idle then some .shotArmed
    else if s.focus.mode = .manual then some .wrongState
    else lensRefusal s

/-- The last class a scan visits at most, by its range (R137). -/
def lastClass (g : FocusRange) : Nat := if g = .normal then 11 else 15

theorem focusStartRefusal_taken (g : Option FocusRange) (k : Nat) (m : Moment) (s : State) :
    focusStartRefusal g (taken k m s) = focusStartRefusal g s := by
  simp [focusStartRefusal, lensRefusal_taken]

theorem exec_focusStart (h : Taking s) (m : Moment) (g : Option FocusRange) : exec (.focusStart m g) s = .next
    (match focusStartRefusal g s, g with
     | some c, _ => (taken 25 m s).respond 25 (c, .empty, none)
     | none, none => taken 25 m s
     | none, some r => ((taken 25 m s).scanBegin (s.zoom.current.getD 0) 0
        (min (lastClass r) (nearOf (taken 25 m s) (s.zoom.current.getD 0)))).respond 25 (.ok, .empty, none)) := by
  have hzoom : s.zoom = (taken 25 m s).zoom := by simp
  refine (request_taking h 25 m _).trans (congrArg _ ?_)
  rw [← focusStartRefusal_taken g 25 m s, hzoom]
  unfold focusStartRefusal lensRefusal
  cases g with
  | none => rfl
  | some r =>
    dsimp only
    by_cases hs : (taken 25 m s).shot.state ≠ .idle
    · rw [if_pos hs, if_pos hs] <;> rfl
    · rw [if_neg hs, if_neg hs]
      by_cases hm : (taken 25 m s).focus.mode = .manual
      · rw [if_pos hm, if_pos hm] <;> rfl
      · rw [if_neg hm, if_neg hm]
        by_cases hl : (taken 25 m s).zoom.state ≠ .ready ∨ (taken 25 m s).focus.state = .unhomed
        · rw [if_pos hl, if_pos hl] <;> rfl
        · rw [if_neg hl, if_neg hl]
          by_cases hb : (taken 25 m s).focus.state.busy ∨ (taken 25 m s).focus.state = .tracking
          · rw [if_pos hb, if_pos hb] <;> rfl
          · rw [if_neg hb, if_neg hb]
            cases r <;> rfl

theorem exec_focusStart_refused (h : Taking s) (m : Moment) {g : Option FocusRange} {c : Code}
    (hc : focusStartRefusal g s = some c) :
    exec (.focusStart m g) s = .next ((taken 25 m s).respond 25 (c, .empty, none)) := by
  rw [exec_focusStart h, hc]

theorem exec_focusStart_scans (h : Taking s) (m : Moment) {g : FocusRange} {k : Nat}
    (hc : focusStartRefusal (some g) s = none) (hk : s.zoom.current = some k) :
    exec (.focusStart m (some g)) s = .next (((taken 25 m s).scanBegin k 0
      (min (lastClass g) (nearOf (taken 25 m s) k))).respond 25 (.ok, .empty, none)) := by
  rw [exec_focusStart h, hc, hk]
  rfl

/-- FOCUS RELEASE drops what the focus is doing (R141). -/
def State.released (s : State) : State := (s.focusDrop .idle).focusEndedIf (endOwed s.focus) .released

/-- The states in which FOCUS RELEASE has nothing to drop (R141). -/
def NothingToRelease (f : Focus) : Prop :=
  f.state = .idle ∨ f.state = .unhomed ∨ (f.state = .approaching ∧ ∃ a, f.approach = some a ∧ a.dest = .idle)

theorem exec_focusRelease_armed (h : Taking s) (m : Moment) (hs : s.shot.state ≠ .idle) :
    exec (.focusRelease m) s = .next ((taken 26 m s).respond 26 (.shotArmed, .empty, none)) := by
  refine (request_taking h 26 m _).trans ?_
  rw [if_pos (by simpa using hs)]
  rfl

theorem exec_focusRelease_nothing (h : Taking s) (m : Moment) (hs : s.shot.state = .idle)
    (hf : NothingToRelease s.focus) :
    exec (.focusRelease m) s = .next ((taken 26 m s).respond 26 (.ok, .empty, none)) := by
  have hstate : (taken 26 m s).focus.state = s.focus.state := by simp
  have happroach : (taken 26 m s).focus.approach = s.focus.approach := by simp
  refine (request_taking h 26 m _).trans ?_
  rw [if_neg (by simpa using hs), hstate, happroach]
  obtain hf | hf | ⟨hf, ⟨aim, dest, owed⟩, ha, hd⟩ := hf
  · rw [hf]; rfl
  · rw [hf]; rfl
  · cases hd
    rw [hf, ha]
    rfl

theorem exec_focusRelease_drops (h : Taking s) (m : Moment) (hs : s.shot.state = .idle)
    (hf : ¬NothingToRelease s.focus) :
    exec (.focusRelease m) s = .next ((taken 26 m s).released.respond 26 (.ok, .empty, none)) := by
  have hstate : (taken 26 m s).focus.state = s.focus.state := by simp
  have happroach : (taken 26 m s).focus.approach = s.focus.approach := by simp
  refine (request_taking h 26 m _).trans ?_
  rw [if_neg (by simpa using hs)]
  split
  next h1 h2 =>
    exact absurd (.inr (.inr ⟨hstate.symm.trans h1, _, happroach.symm.trans h2, rfl⟩)) hf
  next h1 => exact absurd (.inr (.inl (hstate.symm.trans h1))) hf
  next h1 => exact absurd (.inl (hstate.symm.trans h1)) hf
  next => rfl

theorem endOwed_iff (f : Focus) : endOwed f = true ↔
    f.state = .scanning ∨ (f.state = .approaching ∧ ∃ a, f.approach = some a ∧ a.owed = true) := by
  unfold endOwed
  cases f.approach <;> simp

/-- The focus after a release, and the end it gives where one is owed (R141). -/
theorem State.released_focus (s : State) : s.released.focus = { s.focus with
      state := .idle, held := none, approach := none, scan := none, move := none, trackOwed := false
      lastEnd := if endOwed s.focus then .released else s.focus.lastEnd } ∧
    s.released.timers.sample = none ∧
    s.released.events = if endOwed s.focus then (s.setFlag .focusEnded).events else s.events := by
  unfold State.released
  cases endOwed s.focus <;> exact ⟨rfl, rfl, rfl⟩

/-- FOCUS MODE's refusal (R136). -/
def focusModeRefusal (g : Option FocusMode) (s : State) : Option Code :=
  match g with
  | none => some .badField
  | some _ =>
    if s.shot.state ≠ .idle then some .shotArmed
    else if s.focus.state.busy ∨ s.focus.state = .tracking then some .focusBusy
    else none

theorem exec_focusMode (h : Taking s) (m : Moment) (g : Option FocusMode) : exec (.focusMode m g) s = .next
    (match focusModeRefusal g s, g with
     | some c, _ => (taken 27 m s).respond 27 (c, .empty, none)
     | none, none => taken 27 m s
     | none, some x => ((taken 27 m s).setFocusMode x).respond 27 (.ok, .empty, none)) := by
  have hrefusal : focusModeRefusal g s = focusModeRefusal g (taken 27 m s) := by simp [focusModeRefusal]
  refine (request_taking h 27 m _).trans (congrArg _ ?_)
  rw [hrefusal]
  unfold focusModeRefusal
  cases g with
  | none => rfl
  | some x =>
    dsimp only
    by_cases hs : (taken 27 m s).shot.state ≠ .idle
    · rw [if_pos hs, if_pos hs] <;> rfl
    · rw [if_neg hs, if_neg hs]
      by_cases hb : (taken 27 m s).focus.state.busy ∨ (taken 27 m s).focus.state = .tracking
      · rw [if_pos hb, if_pos hb] <;> rfl
      · rw [if_neg hb, if_neg hb] <;> rfl

theorem exec_focusMode_refused (h : Taking s) (m : Moment) {g : Option FocusMode} {c : Code}
    (hc : focusModeRefusal g s = some c) :
    exec (.focusMode m g) s = .next ((taken 27 m s).respond 27 (c, .empty, none)) := by
  rw [exec_focusMode h, hc]

theorem exec_focusMode_sets (h : Taking s) (m : Moment) {g : FocusMode} (hc : focusModeRefusal (some g) s = none) :
    exec (.focusMode m (some g)) s = .next (((taken 27 m s).setFocusMode g).respond 27 (.ok, .empty, none)) := by
  rw [exec_focusMode h, hc]

theorem rectOk_iff (r : Rect) : rectOk r = true ↔
    r.firstCol ≤ r.lastCol ∧ r.lastCol ≤ 7 ∧ r.firstRow ≤ r.lastRow ∧ r.lastRow ≤ 5 := by
  simp [rectOk]
  omega

end Sys2Proof.Machine
end

section
/-! PROOFS. FOCUS START, FOCUS RELEASE, FOCUS MODE, SET AREA, CLEAR AREA and SET DISTANCE (R134 to R137, R141, R144). -/

namespace Sys2Proof.Machine

variable {s t : State}

/-! ### Areas -/

/-- The list with an entry of an id replaced in place or, where none has it, appended (R134). -/
theorem putArea_eq (a : Area) (l : List Area) : putArea a l =
    if l.any (·.id == a.id) then l.map fun b => if b.id == a.id then a else b else l ++ [a] := rfl

theorem putArea_new {a : Area} {l : List Area} (h : ∀ x ∈ l, x.id ≠ a.id) : putArea a l = l ++ [a] := by
  rw [putArea_eq, if_neg (by simpa using h)]

theorem putArea_known {a : Area} {l : List Area} (h : ∃ x ∈ l, x.id = a.id) : (putArea a l).length = l.length ∧
    ∀ (i : Nat) (x : Area), l[i]? = some x → (putArea a l)[i]? = some (if x.id = a.id then a else x) := by
  rw [putArea_eq, if_pos (by simpa using h)]
  exact ⟨List.length_map _, fun i x hx => by simp [hx]⟩

/-- SET AREA's and CLEAR AREA's refusal, given whether the fields are in range (R134, R135). -/
def areaRefusal (good : Bool) (s : State) : Option Code :=
  if !good then some .badField else if s.focus.state.busy then some .focusBusy else none

theorem exec_setArea (h : Taking s) (m : Moment) (id : Nat) (r : Rect) (on : Bool) :
    exec (.setArea m id r on) s = .next
      (match areaRefusal (id ≤ 7 && rectOk r) s with
       | some c => (taken 28 m s).respond 28 (c, .empty, none)
       | none => ((taken 28 m s).onFocus fun f =>
          { f with areas := putArea { id := id, rect := r, enabled := on } f.areas }).respond 28 (.ok, .empty, none)) := by
  have hrefusal : areaRefusal (id ≤ 7 && rectOk r) s = areaRefusal (id ≤ 7 && rectOk r) (taken 28 m s) := by
    simp [areaRefusal]
  refine (request_taking h 28 m _).trans (congrArg _ ?_)
  rw [hrefusal]
  unfold areaRefusal
  have hcond : (decide (7 < id) || !rectOk r) = !(decide (id ≤ 7) && rectOk r) := by
    rw [Bool.not_and, ← decide_not, decide_eq_decide.mpr (Nat.not_le.symm : 7 < id ↔ ¬id ≤ 7)]
  rw [hcond]
  by_cases hg : (!(decide (id ≤ 7) && rectOk r)) = true
  · rw [if_pos hg, if_pos hg] <;> rfl
  · rw [if_neg hg, if_neg hg]
    by_cases hb : (taken 28 m s).focus.state.busy
    · rw [if_pos hb, if_pos hb] <;> rfl
    · rw [if_neg hb, if_neg hb] <;> rfl

theorem exec_clearArea (h : Taking s) (m : Moment) (id : Nat) : exec (.clearArea m id) s = .next
    (match areaRefusal (id ≤ 7) s with
     | some c => (taken 29 m s).respond 29 (c, .empty, none)
     | none => ((taken 29 m s).onFocus fun f =>
        { f with areas := f.areas.filter fun a => a.id != id }).respond 29 (.ok, .empty, none)) := by
  have hrefusal : areaRefusal (id ≤ 7) s = areaRefusal (id ≤ 7) (taken 29 m s) := by simp [areaRefusal]
  refine (request_taking h 29 m _).trans (congrArg _ ?_)
  rw [hrefusal]
  unfold areaRefusal
  have hcond : (!decide (id ≤ 7)) = true ↔ 7 < id := by simp
  by_cases hg : 7 < id
  · rw [if_pos hg, if_pos (hcond.mpr hg)] <;> rfl
  · rw [if_neg hg, if_neg (mt hcond.mp hg)]
    by_cases hb : (taken 29 m s).focus.state.busy
    · rw [if_pos hb, if_pos hb] <;> rfl
    · rw [if_neg hb, if_neg hb] <;> rfl

theorem areaRefusal_bad {good : Bool} (h : good = false) (s : State) : areaRefusal good s = some .badField :=
  if_pos (by rw [h]; rfl)

theorem areaRefusal_busy {good : Bool} (h : good = true)
    (hb : s.focus.state = .scanning ∨ s.focus.state = .approaching) : areaRefusal good s = some .focusBusy :=
  (if_neg (by rw [h]; decide)).trans (if_pos ((FocusState.busy_iff _).mpr hb))

theorem areaRefusal_none {good : Bool} (h : good = true)
    (hb : ¬(s.focus.state = .scanning ∨ s.focus.state = .approaching)) : areaRefusal good s = none :=
  (if_neg (by rw [h]; decide)).trans (if_neg fun hbusy => hb ((FocusState.busy_iff _).mp hbusy))

/-! ### SET DISTANCE -/

/-- SET DISTANCE's refusal (R144). -/
def distanceRefusal (k : Nat) (s : State) : Option Code :=
  if 15 < k then some .badField
  else if s.shot.state ≠ .idle then some .shotArmed
  else if s.focus.mode ≠ .manual then some .wrongState
  else lensRefusal s

theorem exec_setDistance (h : Taking s) (m : Moment) (k : Nat) : exec (.setDistance m k) s = .next
    (match distanceRefusal k s with
     | some c => (taken 30 m s).respond 30 (c, .empty, none)
     | none =>
      let u := taken 30 m s
      let c := min k (nearOf u (s.zoom.current.getD 0))
      (u.beginApproach (camOf u (s.zoom.current.getD 0) c) (.hold (.manual c)) true).1.respond 30
        (.ok, .cls c, none)) := by
  have hrefusal : distanceRefusal k s = distanceRefusal k (taken 30 m s) := by
    simp [distanceRefusal, lensRefusal_taken]
  have hzoom : s.zoom = (taken 30 m s).zoom := by simp
  refine (request_taking h 30 m _).trans (congrArg _ ?_)
  rw [hrefusal, hzoom]
  unfold distanceRefusal lensRefusal
  by_cases hk : 15 < k
  · rw [if_pos hk, if_pos hk] <;> rfl
  · rw [if_neg hk, if_neg hk]
    by_cases hs : (taken 30 m s).shot.state ≠ .idle
    · rw [if_pos hs, if_pos hs] <;> rfl
    · rw [if_neg hs, if_neg hs]
      by_cases hm : (taken 30 m s).focus.mode ≠ .manual
      · rw [if_pos hm, if_pos hm] <;> rfl
      · rw [if_neg hm, if_neg hm]
        by_cases hl : (taken 30 m s).zoom.state ≠ .ready ∨ (taken 30 m s).focus.state = .unhomed
        · rw [if_pos hl, if_pos hl] <;> rfl
        · rw [if_neg hl, if_neg hl]
          by_cases hb : (taken 30 m s).focus.state.busy ∨ (taken 30 m s).focus.state = .tracking
          · rw [if_pos hb, if_pos hb] <;> rfl
          · rw [if_neg hb, if_neg hb] <;> rfl

theorem exec_setDistance_refused (h : Taking s) (m : Moment) {k : Nat} {c : Code} (hc : distanceRefusal k s = some c) :
    exec (.setDistance m k) s = .next ((taken 30 m s).respond 30 (c, .empty, none)) := by
  rw [exec_setDistance h, hc]

/-- SET DISTANCE approaches the class, resolved at the station, or holds it at once (R144). -/
theorem setDistance_approaches (h : Taking s) (m : Moment) {k st : Nat} {tab : List StationEntry} {e : StationEntry}
    (hc : distanceRefusal k s = none) (hst : s.zoom.current = some st) (ht : s.zoom.working = some tab)
    (he : tab[st]? = some e) :
    let u := taken 30 m s
    let c := min k e.near
    ∃ t, exec (.setDistance m k) s = .next t ∧
      t.link.pending = some { kind := 30, code := .ok, body := .cls c, held := none } ∧
      (∀ p, u.focus.position = some p → p ≠ e.cams.getD c 0 → t.focus.state = .approaching ∧
        t.focus.approach = some { aim := e.cams.getD c 0, dest := .hold (.manual c), owed := true } ∧
        t.focus.move = some (orderedMove p (e.cams.getD c 0))) ∧
      (u.focus.position = some (e.cams.getD c 0) → t.focus.state = .manual ∧ t.focus.move = none ∧
        t.focus.held = some (.manual c) ∧ t.focus.lastEnd = .distanceSet ∧
        t.events = (s.setFlag .focusEnded).events) := by
  intro u c
  have hworking : u.zoom.working = some tab := by simpa [u] using ht
  have hrun := exec_setDistance h m k
  rw [hc, hst, Option.getD_some] at hrun
  dsimp only at hrun
  rw [nearOf_eq hworking he, camOf_eq hworking he] at hrun
  refine ⟨_, hrun, rfl, fun p hp hne => ?_, fun hp => ?_⟩
  · rw [State.beginApproach_away (s := u) hp hne, moveFrom_eq]
    exact ⟨rfl, rfl, rfl⟩
  · have hevents : u.events = s.events := by simp [u]
    have hflag : (u.setFlag .focusEnded).events = (s.setFlag .focusEnded).events := by
      rw [State.setFlag_events, hevents, State.setFlag_events]
    rw [State.beginApproach_there (s := u) hp, ← hflag]
    exact ⟨rfl, rfl, rfl, rfl, rfl⟩

/-! ### FOCUS MODE -/

theorem State.setFocusMode_same (s : State) : s.setFocusMode s.focus.mode = s := if_pos rfl

theorem State.setFocusMode_rest {x : FocusMode} (hx : x ≠ s.focus.mode)
    (h : s.focus.state = .unhomed ∨ s.focus.state = .idle) :
    s.setFocusMode x = s.onFocus fun f => { f with mode := x } := (if_neg hx).trans (if_pos h)

/-- Into MANUAL or out of it what is held ends (R136). -/
theorem State.setFocusMode_manual {x : FocusMode} (hx : x ≠ s.focus.mode)
    (h : ¬(s.focus.state = .unhomed ∨ s.focus.state = .idle)) (hm : x = .manual ∨ s.focus.mode = .manual) :
    s.setFocusMode x = s.onFocus fun f => { f with
      mode := x, held := none
      state := match f.state with | .locked | .failedNoPeak | .manual => .idle | y => y } :=
  ((if_neg hx).trans (if_neg h)).trans (if_pos hm)

theorem State.setFocusMode_auto {x : FocusMode} (hx : x ≠ s.focus.mode)
    (h : ¬(s.focus.state = .unhomed ∨ s.focus.state = .idle)) (hm : ¬(x = .manual ∨ s.focus.mode = .manual)) :
    s.setFocusMode x = s.onFocus fun f => { f with mode := x, follow := 0 } :=
  ((if_neg hx).trans (if_neg h)).trans (if_neg hm)

/-- What FOCUS MODE leaves, by the mode and the state (R136). -/
theorem setFocusMode_leaves (hb : ¬(s.focus.state = .scanning ∨ s.focus.state = .approaching))
    (ht : s.focus.state ≠ .tracking) (g : FocusMode) :
    (s.setFocusMode g).focus.mode = g ∧
      (g = s.focus.mode → (s.setFocusMode g).focus = s.focus) ∧
      (g ≠ s.focus.mode → g = .manual ∨ s.focus.mode = .manual → s.focus.state ≠ .unhomed →
        (s.setFocusMode g).focus.state = .idle ∧
          (s.focus.state ≠ .idle → (s.setFocusMode g).focus.held = none)) ∧
      (g ≠ .manual → s.focus.mode ≠ .manual → (s.setFocusMode g).focus.state = s.focus.state ∧
        (s.setFocusMode g).focus.held = s.focus.held) ∧
      (g ≠ s.focus.mode → g ≠ .manual → s.focus.mode ≠ .manual → s.focus.state ≠ .unhomed → s.focus.state ≠ .idle →
        (s.setFocusMode g).focus = { s.focus with mode := g, follow := 0 }) ∧
      (s.focus.state = .unhomed ∨ s.focus.state = .idle →
        (s.setFocusMode g).focus = { s.focus with mode := g }) := by
  by_cases hg : g = s.focus.mode
  · subst hg
    rw [State.setFocusMode_same]
    exact ⟨rfl, fun _ => rfl, fun h => absurd rfl h, fun _ _ => ⟨rfl, rfl⟩, fun h => absurd rfl h, fun _ => rfl⟩
  · by_cases hrest : s.focus.state = .unhomed ∨ s.focus.state = .idle
    · rw [State.setFocusMode_rest hg hrest]
      exact ⟨rfl, fun h => absurd h hg,
        fun _ _ hu => ⟨hrest.resolve_left hu, fun hi => absurd (hrest.resolve_left hu) hi⟩, fun _ _ => ⟨rfl, rfl⟩,
        fun _ _ _ hu hi => absurd hrest (by rintro (h | h) <;> contradiction), fun _ => rfl⟩
    · by_cases hm : g = .manual ∨ s.focus.mode = .manual
      · rw [State.setFocusMode_manual hg hrest hm]
        refine ⟨rfl, fun h => absurd h hg, fun _ _ _ => ⟨?_, fun _ => rfl⟩,
          fun h1 h2 => absurd hm (by rintro (h | h) <;> contradiction),
          fun _ h1 h2 => absurd hm (by rintro (h | h) <;> contradiction), fun h => absurd h hrest⟩
        rw [State.onFocus_focus]
        generalize s.focus.state = f at hb ht hrest
        cases f <;> simp_all
      · rw [State.setFocusMode_auto hg hrest hm]
        exact ⟨rfl, fun h => absurd h hg, fun _ h => absurd h hm, fun _ _ => ⟨rfl, rfl⟩, fun _ _ _ _ _ => rfl,
          fun h => absurd h hrest⟩

end Sys2Proof.Machine
end

section
/-! PROOFS. The Focus Unit's six requests (R134 to R137, R141, R144). -/

namespace Sys2Proof.Machine

variable {s t : State}

/-- FOCUS START accepted: the scan from class 0 (R135, R137, R138). -/
theorem focusStart_scans (h : Taking s) (m : Moment) {g : FocusRange} {tab : List StationEntry} {e : StationEntry}
    {k : Nat} (hc : focusStartRefusal (some g) s = none) (hk : s.zoom.current = some k)
    (ht : s.zoom.working = some tab) (he : tab[k]? = some e) :
    let u := taken 25 m s
    ∃ t x, exec (.focusStart m (some g)) s = .next t ∧ t.focus.state = .scanning ∧ t.focus.scan = some x ∧
      x.first = 0 ∧ x.current = 0 ∧ x.last = min (lastClass g) e.near ∧ x.station = k ∧
      x.areas = scanAreas s.focus.areas ∧ t.focus.held = none ∧ t.focus.approach = none ∧ t.focus.follow = 0 ∧
      t.focus.curve = (scanAreas s.focus.areas).map (fun a : Area =>
        ({ id := a.id, samples := List.replicate 16 none, peak := none } : Curve)) ∧
      (∀ p, u.focus.position = some p → p ≠ e.cams.getD 0 0 → x.skip = false ∧
        t.focus.move = some (orderedMove p (e.cams.getD 0 0))) ∧
      (u.focus.position = some (e.cams.getD 0 0) → x.skip = true ∧ t.focus.move = none ∧ t.timers.sample = some 0) ∧
      t.link.pending = some { kind := 25, code := .ok, body := .empty, held := none } := by
  intro u
  have hworking : u.zoom.working = some tab := by simpa [u] using ht
  have hareas : u.focus.areas = s.focus.areas := by simp [u]
  have hrun := exec_focusStart_scans h m hc hk
  obtain ⟨hstate, hheld, happroach, hfollow, hcurve, x, hx, h1, h2, h3, h4, h5, hmove⟩ :=
    State.scanBegin_begins k 0 (min (lastClass g) (nearOf u k)) u
  rw [nearOf_eq hworking he] at h3
  rw [camOf_eq hworking he] at hmove
  rw [hareas] at h5 hcurve
  exact ⟨_, x, hrun, hstate, hx, h1, h2, h3, h4, h5, hheld, happroach, hfollow, hcurve,
    fun p hp hne => ⟨((hmove p hp).1 hne).1, ((hmove p hp).1 hne).2.2⟩, fun hp => (hmove _ hp).2 rfl, rfl⟩

/-- Settles O54: each request's refusals in their order, then what it leaves. -/
theorem focusRequestsScanReleaseAndSet : Obligations.FocusRequestsScanReleaseAndSet := by
  unfold Obligations.FocusRequestsScanReleaseAndSet
  intro m s h move busy
  refine ⟨?_, ?_, ?_, fun id r on => ?_, fun id => ?_, fun k => ?_⟩
  · intro u refused
    refine ⟨exec_focusStart_refused h m rfl, fun g => ?_⟩
    have hrefused {c : Code} (hc : focusStartRefusal (some g) s = some c) : refused c (some g) :=
      exec_focusStart_refused h m hc
    refine ⟨fun hs => hrefused (if_pos hs), fun hs hm => hrefused ((if_neg (not_not_intro hs)).trans (if_pos hm)),
      fun hs hm => ?_⟩
    have hlens : focusStartRefusal (some g) s = lensRefusal s := (if_neg (not_not_intro hs)).trans (if_neg hm)
    refine ⟨fun hl => hrefused (hlens.trans (if_pos hl)), fun hz hb => hrefused (hlens.trans (lensRefusal_busy hz hb)),
      fun tab e k hz hf hb ht hk hw he => ?_⟩
    rw [← scanAreas_eq]
    exact focusStart_scans h m (hlens.trans (lensRefusal_none hz hf hb ht)) hk hw he
  · intro u
    refine ⟨exec_focusRelease_armed h m, fun hs => ⟨exec_focusRelease_nothing h m hs, fun hf => ?_⟩⟩
    have hdrops : ¬NothingToRelease s.focus := by
      rintro (hi | hi | ⟨hi, a, ha, hd⟩)
      · rw [hi] at hf; simp at hf
      · rw [hi] at hf; simp at hf
      · rw [hi] at hf
        obtain ⟨b, hb, hne⟩ : ∃ a, s.focus.approach = some a ∧ a.dest ≠ .idle := by simpa using hf
        cases ha.symm.trans hb
        exact hne hd
    obtain ⟨hfocus, hsample, hevents⟩ := u.released_focus
    have howed : endOwed u.focus = endOwed s.focus := by simp [endOwed, u]
    have hflag : (u.setFlag .focusEnded).events = (s.setFlag .focusEnded).events := by simp [u]
    have hquiet : u.events = s.events := by simp [u]
    rw [howed] at hfocus
    rw [howed, hflag, hquiet] at hevents
    refine ⟨_, exec_focusRelease_drops h m hs hdrops, ?_⟩
    rw [State.respond_link, show (u.released.respond 26 _).focus = u.released.focus from rfl, hfocus]
    refine ⟨rfl, rfl, rfl, rfl, rfl, rfl, hsample, rfl, by simp [u], fun ho => ?_, fun hn => ?_⟩
    · rw [if_pos ((endOwed_iff _).mpr ho)] at hevents ⊢
      exact ⟨rfl, hevents⟩
    · have hnot : ¬endOwed s.focus = true := by
        rw [endOwed_iff]
        rintro (ho | ⟨ho, a, ha, howes⟩) <;> rw [ho] at hn
        · simp at hn
        · obtain ⟨b, hb, hno⟩ : ∃ a, s.focus.approach = some a ∧ a.owed = false := by simpa using hn
          cases ha.symm.trans hb
          exact nomatch howes.symm.trans hno
      rw [if_neg hnot] at hevents ⊢
      exact ⟨by simp [u], hevents⟩
  · intro u refused
    refine ⟨exec_focusMode_refused h m rfl, fun g => ⟨fun hs => exec_focusMode_refused h m (if_pos hs),
      fun hs hb => exec_focusMode_refused h m ((if_neg (not_not_intro hs)).trans
        (if_pos (hb.imp (FocusState.busy_iff _).mpr id))), fun hs hb ht => ?_⟩⟩
    have hnone : focusModeRefusal (some g) s = none := (if_neg (not_not_intro hs)).trans (if_neg (by
      rintro (hbusy | htrack)
      · exact hb ((FocusState.busy_iff _).mp hbusy)
      · exact ht htrack))
    have hstate : u.focus.state = s.focus.state := by simp [u]
    have hmode : u.focus.mode = s.focus.mode := by simp [u]
    have hheld : u.focus.held = s.focus.held := by simp [u]
    have hleaves := setFocusMode_leaves (s := u) (by rw [hstate]; exact hb) (by rw [hstate]; exact ht) g
    rw [hstate, hmode, hheld] at hleaves
    obtain ⟨h1, h2⟩ := hleaves
    exact ⟨_, exec_focusMode_sets h m hnone, h1, rfl, h2⟩
  · intro u good
    have hgood : (decide (id ≤ 7) && rectOk r) = true ↔ good := by simp [rectOk_iff, good]
    have hrun := exec_setArea h m id r on
    refine ⟨fun hbad => ?_, fun hg hb => ?_, fun hg hb => ?_⟩
    · rw [areaRefusal_bad (by simpa using fun hg => hbad (hgood.mp hg))] at hrun
      exact hrun
    · rw [areaRefusal_busy (hgood.mpr hg) hb] at hrun
      exact hrun
    · rw [areaRefusal_none (hgood.mpr hg) hb] at hrun
      have hareas : u.focus.areas = s.focus.areas := by simp [u]
      refine ⟨putArea { id := id, rect := r, enabled := on } u.focus.areas, hrun, ?_⟩
      rw [hareas]
      exact ⟨putArea_new (a := { id := id, rect := r, enabled := on }),
        putArea_known (a := { id := id, rect := r, enabled := on })⟩
  · intro u
    have hrun := exec_clearArea h m id
    refine ⟨fun hbad => ?_, fun hg hb => ?_, fun hg hb => ?_⟩
    · rw [areaRefusal_bad (by simpa using hbad)] at hrun
      exact hrun
    · rw [areaRefusal_busy (by simpa using hg) hb] at hrun
      exact hrun
    · rw [areaRefusal_none (by simpa using hg) hb] at hrun
      exact hrun
  · intro u refused
    have hrefused {c : Code} (hc : distanceRefusal k s = some c) : refused c := exec_setDistance_refused h m hc
    refine ⟨fun hk => hrefused (if_pos hk), fun hk hs => hrefused ((if_neg (by omega)).trans (if_pos hs)),
      fun hk hs hm => hrefused ((if_neg (by omega)).trans ((if_neg (not_not_intro hs)).trans (if_pos hm))),
      fun hk hs hm => ?_⟩
    have hlens : distanceRefusal k s = lensRefusal s :=
      (if_neg (by omega)).trans ((if_neg (not_not_intro hs)).trans (if_neg (not_not_intro hm)))
    exact ⟨fun hl => hrefused (hlens.trans (if_pos hl)),
      fun hz hb => hrefused (hlens.trans (lensRefusal_busy hz hb)),
      fun tab e st hz hf hb ht hst hw he =>
        setDistance_approaches h m (hlens.trans (lensRefusal_none hz hf hb ht)) hst hw he⟩

end Sys2Proof.Machine
end

section
/-! PROOFS. The focus stepper's steps, a move's completion, and the sample watch (R116, R132, R133, R138, R140, R144). -/

namespace Sys2Proof.Machine

variable {s t : State}

/-! ### Steps -/

theorem Focus.steps_homing {f : Focus} {h : Nat} (hh : f.homing = some h) (n : Nat) :
    f.steps n = { f with homing := some (h + n) } := by
  unfold Focus.steps
  rw [hh]

theorem Focus.steps_still {f : Focus} (hh : f.homing = none) (h : f.move = none ∨ f.position = none) (n : Nat) :
    f.steps n = f := by
  unfold Focus.steps
  rw [hh]
  obtain h | h := h
  · rw [h]
  · rw [h]
    cases f.move <;> rfl

theorem Focus.steps_moving {f : Focus} {v : FocusMove} {p : Nat} (hh : f.homing = none) (hm : f.move = some v)
    (hp : f.position = some p) (n : Nat) :
    f.steps n = { f with position := some (moveSteps n p v).1, move := some (moveSteps n p v).2 } := by
  unfold Focus.steps
  rw [hh, hm, hp]

/-- A move's steps: to the point past the aimed step where it goes there first, then to the aimed step (R132). -/
theorem moveSteps_spec (n p : Nat) (v : FocusMove) :
    (v.via = none → p ≤ v.aim → moveSteps n p v = (min v.aim (p + n), { v with via := none })) ∧
    (v.via = none → v.aim < p → moveSteps n p v = (max v.aim (p - n), { v with via := none })) ∧
    (∀ w, v.via = some w → n < p - w → moveSteps n p v = (p - n, { v with via := some w })) ∧
    (∀ w, v.via = some w → p - w ≤ n → moveSteps n p v = (min v.aim (w + (n - (p - w))), { v with via := none })) := by
  obtain ⟨aim, via⟩ := v
  refine ⟨fun h hle => ?_, fun h hlt => ?_, fun w h hlt => ?_, fun w h hle => ?_⟩ <;> cases h <;> unfold moveSteps
  · exact if_pos hle
  · exact if_neg (by dsimp only at hlt ⊢; omega)
  · exact if_pos hlt
  · exact if_neg (by omega)

theorem Focus.steps_move_none {f : Focus} (h : f.move = none) (n : Nat) : (f.steps n).move = none := by
  unfold Focus.steps
  cases f.homing with
  | some k => exact h
  | none =>
    dsimp only
    rw [h]
    exact h

/-! ### A move completes -/

/-- The lens stands on the aimed step. -/
def State.moveEnded (aim : Nat) (s : State) : State := s.onFocus fun f => { f with move := none, position := some aim }

theorem exec_focusMoveComplete_none (hp : s.supply.powered = true) (m : Moment) (h : s.focus.move = none) :
    exec (.focusMoveComplete m) s = .next (s.arrive m) := by
  have hu : (s.arrive m).focus.move = none := Focus.steps_move_none h _
  change execFocusMoveComplete m s = _
  rw [execFocusMoveComplete, event_powered hp]
  dsimp only
  rw [hu]

theorem exec_focusMoveComplete_arrives (hp : s.supply.powered = true) (m : Moment) {v : FocusMove}
    (h : (s.arrive m).focus.move = some v) : exec (.focusMoveComplete m) s = .next
      (let r := ((s.arrive m).moveEnded v.aim).focusArrive
       if r.2 then r.1.zoomStepReached else r.1) := by
  change execFocusMoveComplete m s = _
  rw [execFocusMoveComplete, event_powered hp]
  dsimp only
  rw [h]
  rfl

theorem State.focusArrive_approach {a : Approach} (h : s.focus.state = .approaching) (ha : s.focus.approach = some a) :
    s.focusArrive = s.approachDone a := by
  unfold State.focusArrive
  rw [h, ha]

theorem State.focusArrive_tracking (h : s.focus.state = .tracking) : s.focusArrive = (s, false) := by
  unfold State.focusArrive
  rw [h]

/-- The Zoom Drive waits for a step only in EXTENDING (R116). -/
theorem State.zoomStepReached_other (h : s.zoom.state ≠ .extending) : s.zoomStepReached = s :=
  if_neg fun hx => h hx.1

/-- The step of station 0 reached within 3 counts of it: READY (R111, R116). -/
theorem State.zoomStepReached_ready {a c : Int} (hs : s.zoom.state = .extending) (h0 : s.zoom.current = some 0)
    (hc : s.zoom.count = some c) (ha : stationCount s 0 = some a) (hin : ¬3 < (c - a).natAbs) :
    s.zoomStepReached.zoom.state = .ready ∧ s.zoomStepReached.zoom.current = some 0 ∧
      s.zoomStepReached.zoom.lastFault = .none ∧ s.zoomStepReached.events = (s.setFlag .zoomEnded).events := by
  let w : State := s.onZoom fun z => { z with state := .ready, lastFault := .none }
  have hready : s.zoomStepReached = w.zoomHoldCheck.meterInput.setFlag .zoomEnded := if_pos ⟨hs, h0⟩
  have hhold : w.zoomHoldCheck = w := by
    rw [State.zoomHoldCheck_ready (s := w) (k := 0) (a := a) (c := c) rfl hc h0
      ((stationCount_congr (by simp [w]) 0).trans ha), if_neg hin]
  rw [hready, hhold]
  exact ⟨by simp [w], by simpa [w] using h0, by simp [w], by simp [w]⟩

/-! ### The sample watch -/

theorem exec_sampleWatchExpiry_ends (hp : s.supply.powered = true) (m : Moment) {x : Nat}
    (hx : (s.arrive m).timers.sample = some x) (hlate : 500000 ≤ x) (hs : s.focus.state = .scanning) :
    exec (.sampleWatchExpiry m) s = .next (((s.arrive m).focusDrop .idle).focusEnded .noStatistics) := by
  change execSampleWatchExpiry m s = _
  rw [execSampleWatchExpiry, event_powered hp]
  exact congrArg _ (if_pos ⟨reached_iff.mpr ⟨x, hx, hlate⟩, by simpa using hs⟩)

theorem exec_sampleWatchExpiry_early (hp : s.supply.powered = true) (m : Moment)
    (h : (∀ x, (s.arrive m).timers.sample = some x → x < 500000) ∨ s.focus.state ≠ .scanning) :
    exec (.sampleWatchExpiry m) s = .next (s.arrive m) := by
  change execSampleWatchExpiry m s = _
  rw [execSampleWatchExpiry, event_powered hp]
  refine congrArg _ (if_neg ?_)
  rintro ⟨hr, hs⟩
  obtain ⟨x, hx, hlate⟩ := reached_iff.mp hr
  obtain h | h := h
  · exact absurd (h x hx) (by simpa [Config.sampleLimit] using hlate)
  · exact h (by simpa using hs)

end Sys2Proof.Machine
end

section
/-! PROOFS. Statistics blocks in a scan and while the focus follows (R135 to R142). -/

namespace Sys2Proof.Machine

variable {s t : State}

theorem State.meterBlock_focus (b : StatBlock) (s : State) : (s.meterBlock b).focus = s.focus ∧
    (s.meterBlock b).timers.sample = s.timers.sample := by
  by_cases h : s.meter.state = .locked
  · rw [State.meterBlock_locked h]
    exact ⟨rfl, rfl⟩
  · rw [State.meterBlock_measured h, State.meterInput_eq]
    split <;> exact ⟨rfl, rfl⟩

/-! ### The focus at a block -/

theorem State.focusBlock_moving {x : Scan} {v : FocusMove} (hs : s.focus.state = .scanning)
    (hx : s.focus.scan = some x) (hm : s.focus.move = some v) (b : StatBlock) : s.focusBlock b = s := by
  unfold State.focusBlock
  rw [hs, hx]
  exact if_pos (by rw [hm]; rfl)

theorem State.focusBlock_skips {x : Scan} (hs : s.focus.state = .scanning) (hx : s.focus.scan = some x)
    (hm : s.focus.move = none) (hk : x.skip = true) (b : StatBlock) :
    (s.focusBlock b).focus = { s.focus with scan := some { x with skip := false } } ∧
      (s.focusBlock b).timers.sample = some 0 := by
  unfold State.focusBlock
  rw [hs, hx]
  dsimp only
  rw [if_neg (by rw [hm]; decide), if_pos hk]
  exact ⟨rfl, rfl⟩

/-- The curves with a block's sample, the sample watch stopped (R138, R139). -/
def State.sampled (x : Scan) (b : StatBlock) (s : State) : State :=
  { s.onFocus (fun f =>
      { f with curve := f.curve.map fun c => c.sample x.first x.current (zoneSum (scanRect x c.id) b.sharpness) }) with
    timers := { s.timers with sample := none } }

theorem State.focusBlock_samples {x : Scan} (hs : s.focus.state = .scanning) (hx : s.focus.scan = some x)
    (hm : s.focus.move = none) (hk : x.skip = false) (b : StatBlock) : s.focusBlock b =
      if (s.sampled x b).focus.curve.all (·.peak.isSome) || x.last ≤ x.current then (s.sampled x b).scanStop x
      else (s.sampled x b).scanVisit (x.current + 1) := by
  unfold State.focusBlock
  rw [hs, hx]
  dsimp only
  rw [if_neg (by rw [hm]; decide), if_neg (by rw [hk]; decide)]
  rfl

/-! ### The area chosen -/

theorem choosePeak_mem {l : List Curve} {k a v : Nat} (h : choosePeak l = some (k, a, v)) :
    ∃ (i : Nat) (c : Curve), l[i]? = some c ∧ c.peak = some k := by
  induction l generalizing k a v with
  | nil => exact nomatch h
  | cons c l ih =>
    have hrest (hl : choosePeak l = some (k, a, v)) :
        ∃ (i : Nat) (x : Curve), (c :: l)[i]? = some x ∧ x.peak = some k := by
      obtain ⟨i, x, hx, hk⟩ := ih hl
      exact ⟨i + 1, x, hx, hk⟩
    unfold choosePeak at h
    cases hp : c.peak with
    | none =>
      rw [hp] at h
      exact hrest h
    | some n =>
      cases hl : choosePeak l with
      | none =>
        rw [hp, hl] at h
        cases h
        exact ⟨0, c, rfl, hp⟩
      | some r =>
        rw [hp, hl] at h
        obtain ⟨k', a', v'⟩ := r
        dsimp only at h
        split at h
        · exact hrest (hl.trans h)
        · cases h
          exact ⟨0, c, rfl, hp⟩

/-- The highest peak class wins, the earlier area on a tie (R140). -/
theorem choosePeak_eq {l : List Curve} {i : Nat} {c : Curve} {k v : Nat} (hi : l[i]? = some c) (hk : c.peak = some k)
    (hv : c.samples[k]? = some (some v))
    (hmax : ∀ (j : Nat) (y : Curve) (n : Nat), l[j]? = some y → y.peak = some n → n ≤ k ∧ (j < i → n < k)) :
    choosePeak l = some (k, c.id, v) := by
  induction l generalizing i with
  | nil => exact nomatch hi
  | cons y l ih =>
    unfold choosePeak
    cases i with
    | zero =>
      cases hi
      have hsample : (sampleAt c.samples k).getD 0 = v := by simp [sampleAt, hv]
      rw [hk]
      cases hl : choosePeak l with
      | none => rw [← hsample]
      | some r =>
        obtain ⟨k', a', v'⟩ := r
        obtain ⟨j, z, hz, hzk⟩ := choosePeak_mem hl
        have hle := (hmax (j + 1) z k' hz hzk).1
        rw [← hsample]
        exact if_neg (by omega)
    | succ i =>
      have hrest := ih (i := i) hi fun j z n hz hn =>
        ⟨(hmax (j + 1) z n hz hn).1, fun hj => (hmax (j + 1) z n hz hn).2 (Nat.succ_lt_succ hj)⟩
      rw [hrest]
      cases hp : y.peak with
      | none => rfl
      | some n => exact if_pos ((hmax 0 y n rfl hp).2 (Nat.succ_pos i))

theorem choosePeak_none {l : List Curve} (h : ∀ c ∈ l, c.peak = none) : choosePeak l = none := by
  cases hl : choosePeak l with
  | none => rfl
  | some r =>
    obtain ⟨i, c, hc, hk⟩ := choosePeak_mem (k := r.1) (a := r.2.1) (v := r.2.2) hl
    exact nomatch (h c (List.mem_of_getElem? hc)).symm.trans hk

/-! ### The end of a scan -/

/-- An approach leaves the curves and no scan goes on. -/
theorem State.beginApproach_ends (aim : Nat) (dest : FocusDest) (owed : Bool) (s : State) :
    (s.beginApproach aim dest owed).1.focus.curve = s.focus.curve ∧
      (s.beginApproach aim dest owed).1.focus.state ≠ .scanning := by
  cases hp : s.focus.position with
  | none =>
    rw [State.beginApproach_lost hp]
    exact ⟨rfl, nofun⟩
  | some p =>
    by_cases hne : p = aim
    · subst hne
      rw [State.beginApproach_there hp]
      cases dest with
      | hold h => cases h <;> cases owed <;> exact ⟨rfl, nofun⟩
      | failed | idle => cases owed <;> exact ⟨rfl, nofun⟩
    · rw [State.beginApproach_away hp hne]
      exact ⟨rfl, nofun⟩

theorem State.scanStop_ends (x : Scan) (s : State) :
    (s.scanStop x).focus.curve = s.focus.curve ∧ (s.scanStop x).focus.state ≠ .scanning := by
  unfold State.scanStop
  split
  · exact s.beginApproach_ends _ _ _
  · exact s.beginApproach_ends _ _ _

theorem State.scanStop_peak {x : Scan} {k a v : Nat} (h : choosePeak s.focus.curve = some (k, a, v)) :
    s.scanStop x = (s.beginApproach (camOf s x.station k) (.hold (.lock k a v)) true).1 := by
  unfold State.scanStop
  rw [h]

theorem State.scanStop_none {x : Scan} (h : choosePeak s.focus.curve = none) :
    s.scanStop x = (s.beginApproach (camOf s x.station 0) .failed true).1 := by
  unfold State.scanStop
  rw [h]

/-! ### Following -/

theorem State.focusBlock_locked (h : s.focus.state = .locked) (b : StatBlock) :
    s.focusBlock b = if followRuns s then s.followBlock b else s := by
  unfold State.focusBlock
  rw [h]

theorem followRuns_iff (s : State) : followRuns s = true ↔
    s.focus.mode = .follow ∧ s.focus.state = .locked ∧ s.zoom.state = .ready ∧ s.focus.suspended = false := by
  simp [followRuns, and_assoc]

section
variable {k a v st : Nat} (hh : s.focus.held = some (.lock k a v)) (hst : s.zoom.current = some st) (b : StatBlock)
include hh hst

theorem State.followBlock_good (hgood : 5 * v ≤ 8 * zoneSum (areaRect s.focus.areas a) b.sharpness) :
    s.followBlock b = s.onFocus fun f => { f with follow := 0 } := by
  unfold State.followBlock
  rw [hh, hst]
  exact if_neg (by omega)

theorem State.followBlock_low (hlow : 8 * zoneSum (areaRect s.focus.areas a) b.sharpness < 5 * v)
    (hn : s.focus.follow ≠ 3) : s.followBlock b = s.onFocus fun f => { f with follow := f.follow + 1 } := by
  unfold State.followBlock
  rw [hh, hst]
  exact (if_pos hlow).trans (if_neg (by omega))

theorem State.followBlock_scans (hlow : 8 * zoneSum (areaRect s.focus.areas a) b.sharpness < 5 * v)
    (hn : s.focus.follow = 3) : s.followBlock b = s.scanBegin st (k - 2) (min (k + 2) (nearOf s st)) := by
  unfold State.followBlock
  rw [hh, hst]
  exact (if_pos hlow).trans (if_pos (by omega))

end

/-! ### Samples and sums -/

theorem marginOk_iff (p n : Nat) : marginOk p n = true ↔ n + max 1 (p / 16) ≤ p := by simp [marginOk]

theorem Curve.sample_samples (c : Curve) (first k v : Nat) :
    (c.sample first k v).samples = c.samples.set k (some v) := rfl

theorem Curve.sample_peak_some {c : Curve} {p : Nat} (h : c.peak = some p) (first k v : Nat) :
    (c.sample first k v).peak = some p := by
  unfold Curve.sample
  rw [h]

theorem Curve.sample_peak_none {c : Curve} (h : c.peak = none) (first k v : Nat) : (c.sample first k v).peak =
    if first < k && isPeak first (c.samples.set k (some v)) (k - 1) then some (k - 1) else none := by
  unfold Curve.sample
  rw [h]

/-- A peak needs its margin over both neighbours, or over the nearer one at the first class (R139). -/
theorem isPeak_iff {first k v w : Nat} {l : List (Option Nat)} (hlen : k < l.length) (hk : first < k)
    (hw : l[k - 1]? = some (some w)) :
    (k = first + 1 → (isPeak first (l.set k (some v)) (k - 1) = true ↔ marginOk w v = true)) ∧
      (∀ y, first + 1 < k → l[k - 2]? = some (some y) →
        (isPeak first (l.set k (some v)) (k - 1) = true ↔ marginOk w v = true ∧ marginOk w y = true)) := by
  have hprev : k - 1 + 1 = k := by omega
  have hat : sampleAt (l.set k (some v)) (k - 1) = some w := by
    simp [sampleAt, hw, show k ≠ k - 1 by omega]
  have hnext : sampleAt (l.set k (some v)) (k - 1 + 1) = some v := by
    simp [sampleAt, hprev, hlen]
  unfold isPeak
  rw [hat, hnext]
  dsimp only
  refine ⟨fun he => ?_, fun y hlt hy => ?_⟩
  · rw [if_pos (by omega), Bool.and_true]
  · have hbefore : sampleAt (l.set k (some v)) (k - 1 - 1) = some y := by
      have h2 : k - 1 - 1 = k - 2 := by omega
      simp [sampleAt, h2, hy, show k ≠ k - 2 by omega]
    rw [if_neg (by omega), hbefore, Bool.and_eq_true]

/-- The sum of the zones that a rectangle covers (R138). -/
theorem zoneSum_eq (r : Rect) (v : List Nat) :
    zoneSum r v = (((List.range 48).filter fun z => rectCovers r z).map fun z => v.getD z 0).sum := by
  have hfold (l : List Nat) (a : Nat) : l.foldl (fun a z => if rectCovers r z then a + nth v z else a) a =
      a + ((l.filter fun z => rectCovers r z).map fun z => v.getD z 0).sum := by
    induction l generalizing a with
    | nil => rfl
    | cons z l ih =>
      rw [List.foldl_cons, ih]
      by_cases hz : rectCovers r z = true
      · rw [if_pos hz, List.filter_cons_of_pos hz, List.map_cons, List.sum_cons, ← Nat.add_assoc]
        rfl
      · rw [if_neg hz, List.filter_cons_of_neg hz]
  exact (hfold _ 0).trans (Nat.zero_add _)

theorem areaRect_eq (l : List Area) (id : Nat) :
    (∀ a, l.find? (fun y => y.id == id) = some a → areaRect l id = a.rect) ∧
      (l.find? (fun y => y.id == id) = none → areaRect l id = centreRect) := by
  unfold areaRect
  exact ⟨fun a h => by rw [show l.find? (fun x => x.id == id) = some a from h],
    fun h => by rw [show l.find? (fun x => x.id == id) = none from h]⟩

end Sys2Proof.Machine
end

section
/-! PROOFS. The scan block by block, and the focus that follows a move of the lens (R132, R138 to R140, R142, R146). -/

namespace Sys2Proof.Machine

variable {s t : State}

/-! ### Blocks -/

/-- A block at the focus: what the measurement leaves before it comes there. -/
def State.blockMeasured (m : Moment) (body : List Byte) (s : State) : State :=
  (s.arrive m).laneFree.meterBlock (statOf body)

@[simp] theorem State.blockMeasured_frame (m : Moment) (body : List Byte) (s : State) :
    (s.blockMeasured m body).focus = (s.arrive m).focus ∧ (s.blockMeasured m body).zoom = s.zoom ∧
      (s.blockMeasured m body).timers.sample = (s.arrive m).timers.sample :=
  ⟨(State.meterBlock_focus _ _).1, (State.meterBlock_frame _ _).2.2.1, (State.meterBlock_focus _ _).2⟩

theorem exec_statistics_block (hp : s.supply.powered = true) (m : Moment) (body : List Byte)
    (h : LaneOpens 1#8 243 (s.arrive m)) (hs : s.supply.shutdown ≠ .starting) :
    exec (.statistics m body) s = .next ((s.blockMeasured m body).focusBlock (statOf body)) :=
  exec_statistics hp m body (.inl ⟨h, hs⟩)

/-- A sample block: the curves, then the next visit or the end of the scan (R138 to R140). -/
theorem focusBlock_samples_spec {x : Scan} (hs : s.focus.state = .scanning) (hx : s.focus.scan = some x)
    (hm : s.focus.move = none) (hk : x.skip = false) (b : StatBlock) :
    let t := s.focusBlock b
    t.focus.curve = s.focus.curve.map (fun c => c.sample x.first x.current
      (zoneSum (areaRect x.areas c.id) b.sharpness)) ∧
    (x.current < x.last → (∃ c ∈ t.focus.curve, c.peak = none) →
      t.focus.state = .scanning ∧ ∃ y, t.focus.scan = some y ∧ y = { x with current := x.current + 1, skip := y.skip } ∧
        ∀ tab e p, s.zoom.working = some tab → tab[x.station]? = some e → s.focus.position = some p →
          ((p ≠ e.cams.getD (x.current + 1) 0 → y.skip = false ∧
              t.focus.move = some (orderedMove p (e.cams.getD (x.current + 1) 0))) ∧
            (p = e.cams.getD (x.current + 1) 0 → y.skip = true ∧ t.focus.move = none ∧ t.timers.sample = some 0)) ∧
          (p ≠ e.cams.getD (x.current + 1) 0 → t.timers.sample = none)) ∧
    (x.last ≤ x.current ∨ (∀ c ∈ t.focus.curve, c.peak ≠ none) → t = (s.sampled x b).scanStop x) := by
  intro t
  have ht : t = _ := State.focusBlock_samples hs hx hm hk b
  let w := s.sampled x b
  have hvisits : ScanVisits w x (x.current + 1) (w.scanVisit (x.current + 1)) :=
    State.scanVisit_visits (s := w) hs hx _
  have hcurve : t.focus.curve = w.focus.curve := by
    rw [ht]
    split
    · exact (State.scanStop_ends x w).1
    · exact hvisits.curve
  rw [hcurve]
  have hall : (w.focus.curve.all (·.peak.isSome) || decide (x.last ≤ x.current)) = true ↔
      x.last ≤ x.current ∨ ∀ c ∈ w.focus.curve, c.peak ≠ none := by
    simp only [Bool.or_eq_true, decide_eq_true_eq, List.all_eq_true, Option.isSome_iff_ne_none]
    exact or_comm
  refine ⟨rfl, fun hlt ⟨c, hc, hpeak⟩ => ?_, fun hend => ht.trans (if_pos (hall.mpr hend))⟩
  have hgoes : t = w.scanVisit (x.current + 1) := ht.trans (if_neg fun hend =>
    (hall.mp hend).elim (fun hle => absurd hlt (by omega)) fun hpeaks => hpeaks c hc hpeak)
  obtain ⟨y, hy, hsame, hmove⟩ := hvisits.scan
  rw [hgoes]
  refine ⟨hvisits.state.trans hs, y, hy, hsame, fun tab e p htab he hp => ?_⟩
  have hm := hmove p hp
  rw [camOf_eq (s := w) htab he] at hm
  exact ⟨⟨fun hne => ⟨(hm.1 hne).1, (hm.1 hne).2.2⟩, hm.2⟩, fun hne => by rw [(hm.1 hne).2.1]; rfl⟩

/-- The end of a scan: the lens goes to the peak of the highest class, or to class 0's step (R140). -/
theorem scanStop_spec (x : Scan) (s : State) :
    (s.scanStop x).focus.state ≠ .scanning ∧
    ∀ tab e p, s.zoom.working = some tab → tab[x.station]? = some e → s.focus.position = some p →
      (∀ (i : Nat) (c : Curve) k v, s.focus.curve[i]? = some c → c.peak = some k → c.samples[k]? = some (some v) →
        (∀ (j : Nat) (y : Curve) n, s.focus.curve[j]? = some y → y.peak = some n → n ≤ k ∧ (j < i → n < k)) →
        (p ≠ e.cams.getD k 0 → (s.scanStop x).focus.state = .approaching ∧ (s.scanStop x).focus.approach =
          some { aim := e.cams.getD k 0, dest := .hold (.lock k c.id v), owed := true } ∧
          (s.scanStop x).focus.move = some (orderedMove p (e.cams.getD k 0))) ∧
        (p = e.cams.getD k 0 → (s.scanStop x).focus.state = .locked ∧
          (s.scanStop x).focus.held = some (.lock k c.id v) ∧
          (s.scanStop x).focus.follow = 0 ∧ (s.scanStop x).focus.lastEnd = .locked)) ∧
      ((∀ c ∈ s.focus.curve, c.peak = none) →
        (p ≠ e.cams.getD 0 0 → (s.scanStop x).focus.state = .approaching ∧
          (s.scanStop x).focus.approach = some { aim := e.cams.getD 0 0, dest := .failed, owed := true } ∧
          (s.scanStop x).focus.move = some (orderedMove p (e.cams.getD 0 0))) ∧
        (p = e.cams.getD 0 0 → (s.scanStop x).focus.state = .failedNoPeak ∧
          (s.scanStop x).focus.lastEnd = .noPeak)) := by
  refine ⟨(State.scanStop_ends x s).2, fun tab e p htab he hp => ⟨fun i c k v hi hk hv hmax => ?_, fun hnone => ?_⟩⟩
  · rw [State.scanStop_peak (choosePeak_eq hi hk hv hmax), camOf_eq htab he]
    refine ⟨fun hne => ?_, fun heq => ?_⟩
    · rw [State.beginApproach_away hp hne, moveFrom_eq]
      exact ⟨rfl, rfl, rfl⟩
    · rw [State.beginApproach_there (heq ▸ hp)]
      exact ⟨rfl, rfl, rfl, rfl⟩
  · rw [State.scanStop_none (choosePeak_none hnone), camOf_eq htab he]
    refine ⟨fun hne => ?_, fun heq => ?_⟩
    · rw [State.beginApproach_away hp hne, moveFrom_eq]
      exact ⟨rfl, rfl, rfl⟩
    · rw [State.beginApproach_there (heq ▸ hp)]
      exact ⟨rfl, rfl⟩

/-! ### The focus on the way -/

/-- The station at a count, the first of the table that has it. -/
theorem stationAt_eq {tab : List StationEntry} {j : Nat} {e : StationEntry} (ht : s.zoom.working = some tab)
    (he : tab[j]? = some e) (hfirst : ∀ (i : Nat) (y : StationEntry), i < j → tab[i]? = some y → y.count ≠ e.count) :
    stationAt s (e.count : Int) = some j := by
  obtain ⟨hj, he⟩ := List.getElem?_eq_some_iff.mp he
  unfold stationAt
  rw [ht]
  refine List.findIdx?_eq_some_iff_getElem.mpr ⟨hj, by simp [he], fun i hi => ?_⟩
  have := hfirst i _ hi (List.getElem?_eq_getElem (Nat.lt_trans hi hj))
  simp only [beq_iff_eq, Int.natCast_inj]
  exact this

theorem State.focusPassed_tracking {x : FocusHeld} (h : s.focus.state = .tracking) (hx : s.focus.held = some x)
    (st : Nat) : s.focusPassed st = ((s.onFocus fun f => { f with held := some (x.resolve (nearOf s st)) }).focusMoveTo
      true (camOf s st (x.resolve (nearOf s st)).cls)).1 := by
  unfold State.focusPassed
  rw [h, hx]

/-- A station passed in TRACKING: the class resolved there is followed straight to its step (R146). -/
theorem focusPassed_spec {x : FocusHeld} {st : Nat} {tab : List StationEntry} {e : StationEntry}
    (h : s.focus.state = .tracking) (hx : s.focus.held = some x) (ht : s.zoom.working = some tab)
    (he : tab[st]? = some e) :
    let kept := x.resolve e.near
    let aim := e.cams.getD kept.cls 0
    (s.focusPassed st).focus.state = .tracking ∧ (s.focusPassed st).focus.held = some kept ∧
      (s.focusPassed st).focus.trackOwed = s.focus.trackOwed ∧
      ∀ p, s.focus.position = some p →
        (p ≠ aim → (s.focusPassed st).focus.move = some { aim := aim, via := none }) ∧
        (p = aim → (s.focusPassed st).focus.move = none) := by
  intro kept aim
  let w := s.onFocus fun f => { f with held := some kept }
  have hpassed : s.focusPassed st = (w.focusMoveTo true aim).1 := by
    rw [State.focusPassed_tracking h hx, nearOf_eq ht he, camOf_eq ht he]
  have hw : w.focus.state = .tracking := h
  rw [hpassed]
  cases hp : s.focus.position with
  | none =>
    have hstays : w.focusMoveTo true aim = (w, false) := by
      unfold State.focusMoveTo
      rw [show w.focus.position = none from hp]
    rw [hstays]
    exact ⟨hw, rfl, rfl, nofun⟩
  | some p =>
    by_cases hne : p = aim
    · rw [State.focusMoveTo_there (s := w) (hne ▸ hp), State.focusArrive_tracking (by exact hw)]
      refine ⟨hw, rfl, rfl, fun q hq => ?_⟩
      cases hq
      exact ⟨fun hno => absurd hne hno, fun _ => rfl⟩
    · rw [State.focusMoveTo_away (s := w) hp hne]
      refine ⟨hw, rfl, rfl, fun q hq => ?_⟩
      cases hq
      exact ⟨fun _ => rfl, fun heq => absurd heq hne⟩

theorem State.focusArrived_tracking (h : s.focus.state = .tracking) (st : Nat) :
    s.focusArrived st = s.focusResettle st s.focus.trackOwed := if_pos h

/-- The station reached in TRACKING: the class resolved there is approached, or held at once (R146). -/
theorem focusArrived_spec {x : FocusHeld} {st : Nat} {tab : List StationEntry} {e : StationEntry}
    (h : s.focus.state = .tracking) (hx : s.focus.held = some x) (ht : s.zoom.working = some tab)
    (he : tab[st]? = some e) :
    let kept := x.resolve e.near
    let aim := e.cams.getD kept.cls 0
    ∀ p, s.focus.position = some p →
      (p ≠ aim → (s.focusArrived st).focus.state = .approaching ∧
        (s.focusArrived st).focus.approach =
          some { aim := aim, dest := .hold kept, owed := s.focus.trackOwed } ∧
        (s.focusArrived st).focus.move = some (orderedMove p aim)) ∧
      (p = aim → (s.focusArrived st).focus.move = none ∧ (s.focusArrived st).focus.held = some kept ∧
        (s.focusArrived st).focus.state = kept.state) := by
  intro kept aim p hp
  have harrived : s.focusArrived st = (s.beginApproach aim (.hold kept) s.focus.trackOwed).1 := by
    rw [State.focusArrived_tracking h, State.focusResettle_held hx, nearOf_eq ht he, camOf_eq ht he]
  rw [harrived]
  refine ⟨fun hne => ?_, fun heq => ?_⟩
  · rw [State.beginApproach_away hp hne, moveFrom_eq]
    exact ⟨rfl, rfl, rfl⟩
  · rw [State.beginApproach_there (heq ▸ hp)]
    generalize s.focus.trackOwed = owed
    cases owed <;> exact ⟨rfl, rfl, rfl⟩

theorem State.zoomArrive_focus (k : Nat) (s : State) : (s.zoomArrive k).focus =
    (State.focusArrived k (s.zoomBrake.onZoom fun z =>
      { z with state := .ready, current := some k, target := none })).focus := by
  simp [State.zoomArrive]

/-- A pulse onto a station passed on the way (R118, R122). -/
theorem State.zoomMoved_passes {k j : Nat} {leg : Leg} {a c : Int} (htarget : s.zoom.target = some (k, leg))
    (ha : stationCount s k = some a) (hc : leg = .approach → c < a) (hj : stationAt s c = some j) :
    (s.zoomMoved c).focus = (s.focusPassed j).focus := by
  have hpassed : s.zoomPassed c = s.focusPassed j := by
    unfold State.zoomPassed
    rw [hj]
  cases leg with
  | approach =>
    rw [State.zoomMoved_approach htarget ha, if_neg (by have := hc rfl; omega), hpassed]
    rfl
  | outbound =>
    rw [State.zoomMoved_outbound htarget ha, hpassed]
    split <;> rfl

end Sys2Proof.Machine
end

section
/-! PROOFS. The focus from block to block and from pulse to pulse (R132 to R142, R146). -/

namespace Sys2Proof.Machine

variable {s t : State}

/-- The steps that a command brings, by what the focus is doing (R132, R133). -/
theorem stepsArrive (m : Moment) (s : State) :
    let u := s.arrive m
    (∀ n, s.focus.homing = some n → u.focus = { s.focus with homing := some (n + m.focusSteps) }) ∧
    (s.focus.homing = none → s.focus.move = none ∨ s.focus.position = none → u.focus = s.focus) ∧
    (∀ p v, s.focus.homing = none → s.focus.position = some p → s.focus.move = some v →
      let n := m.focusSteps
      let stands (q : Nat) (via : Option Nat) : Prop :=
        u.focus = { s.focus with position := some q, move := some { v with via := via } }
      (v.via = none → p ≤ v.aim → stands (min v.aim (p + n)) none) ∧
      (v.via = none → v.aim < p → stands (max v.aim (p - n)) none) ∧
      (∀ w, v.via = some w → n < p - w → stands (p - n) (some w)) ∧
      (∀ w, v.via = some w → p - w ≤ n → stands (min v.aim (w + (n - (p - w)))) none)) := by
  intro u
  refine ⟨fun n hn => Focus.steps_homing hn _, fun hh h => Focus.steps_still hh h _, fun p v hh hp hv => ?_⟩
  intro n stands
  obtain ⟨h1, h2, h3, h4⟩ := moveSteps_spec n p v
  have hmoves : u.focus = _ := Focus.steps_moving hh hv hp n
  have hstands {q : Nat} {via : Option Nat} (h : moveSteps n p v = (q, { v with via := via })) : stands q via := by
    rw [h] at hmoves
    exact hmoves
  exact ⟨fun h hle => hstands (h1 h hle), fun h hlt => hstands (h2 h hlt), fun w h hlt => hstands (h3 w h hlt),
    fun w h hle => hstands (h4 w h hle)⟩

/-- FOCUS MOVE COMPLETE by what the move was for (R116, R132, R138, R140, R144). -/
theorem moveCompletes (hp : s.supply.powered = true) (m : Moment) {v : FocusMove}
    (hv : (s.arrive m).focus.move = some v) :
    let u := s.arrive m
    (∀ x, s.focus.state = .scanning → s.focus.scan = some x → exec (.focusMoveComplete m) s = .next { u with
      focus := { u.focus with move := none, position := some v.aim, scan := some { x with skip := true } }
      timers := { u.timers with sample := some 0 } }) ∧
    (∀ a h owed, s.focus.state = .approaching →
      s.focus.approach = some { aim := a, dest := .hold h, owed := owed } →
      exec (.focusMoveComplete m) s = .next
        (((u.moveEnded v.aim).onFocus fun f => { f with
          state := h.state, held := some h, approach := none
          follow := h.followAfter owed f.follow }).focusEndedIf owed h.cause)) ∧
    (∀ a owed, s.focus.state = .approaching → s.focus.approach = some { aim := a, dest := .failed, owed := owed } →
      exec (.focusMoveComplete m) s = .next (((u.moveEnded v.aim).onFocus fun f => { f with
        state := .failedNoPeak, approach := none }).focusEndedIf owed .noPeak)) ∧
    (∀ a owed, s.focus.state = .approaching → s.focus.approach = some { aim := a, dest := .idle, owed := owed } →
      exec (.focusMoveComplete m) s = .next (State.zoomStepReached ((u.moveEnded v.aim).onFocus fun f => { f with
        state := .idle, approach := none }))) ∧
    (s.focus.state = .tracking → exec (.focusMoveComplete m) s = .next (u.moveEnded v.aim)) := by
  intro u
  have hrun := exec_focusMoveComplete_arrives hp m hv
  let w := u.moveEnded v.aim
  have hstate : w.focus.state = s.focus.state := Focus.steps_state _ _
  have happroach : w.focus.approach = s.focus.approach := (Focus.steps_keeps _ _).1
  have hscan : w.focus.scan = s.focus.scan := (Focus.steps_keeps _ _).2.2.1
  have harrive {r : State × Bool} (hr : w.focusArrive = r) :
      exec (.focusMoveComplete m) s = .next (if r.2 then r.1.zoomStepReached else r.1) := by
    rw [← hr]
    exact hrun
  have hdone {a : Approach} (hs : s.focus.state = .approaching) (ha : s.focus.approach = some a) :=
    harrive (State.focusArrive_approach (s := w) (hstate.trans hs) (happroach.trans ha))
  refine ⟨fun x hs hx => (harrive (State.focusArrive_scanning (s := w) (hstate.trans hs))).trans ?_,
    fun a h owed hs ha => hdone hs ha, fun a owed hs ha => hdone hs ha, fun a owed hs ha => hdone hs ha,
    fun hs => harrive (State.focusArrive_tracking (s := w) (hstate.trans hs))⟩
  have hmap : w.focus.scan.map (fun y => { y with skip := true }) = some { x with skip := true } := by
    rw [hscan, hx, Option.map_some]
  rw [← hmap]
  rfl

/-- Settles O55: the stepper, a move's completion, the sample watch, then the blocks of a scan and of a follow watch, and
the stations passed. -/
theorem scansSampleEveryClass : Obligations.ScansSampleEveryClass := by
  unfold Obligations.ScansSampleEveryClass
  refine ⟨fun m s hp => ?_, fun c first k v hk => ?_, fun r v => ?_, fun l id => areaRect_eq l id⟩
  · intro u move visits
    have hstate : u.focus.state = s.focus.state := Focus.steps_state _ _
    obtain ⟨happroach, hheld, hscan, hmode, hareas, hcurve, hfollow, hsuspended, hlast, htrack⟩ :=
      Focus.steps_keeps m.focusSteps s.focus
    have hstill (h : s.focus.move = none) : u.focus.move = none := Focus.steps_move_none h _
    have hevents : u.events = s.events := by simp [u]
    obtain ⟨hsteps1, hsteps2, hsteps3⟩ := stepsArrive m s
    refine ⟨hsteps1, hsteps2, hsteps3, exec_focusMoveComplete_none hp m, fun v hv => ?_, fun x hx hlate hs => ?_,
      exec_sampleWatchExpiry_early hp m, fun body x ho hst hs hx => ?_, fun body k a v ho hst hs hh => ?_,
      fun tele tab j e h c hs hf hh htab he hc hcount h3200 hfirst => ?_⟩
    · obtain ⟨h1, h2, h3, h4, h5⟩ := moveCompletes hp m hv
      refine ⟨h1, fun a k area v' hs ha => h2 a _ true hs ha, fun a hs ha => h3 a true hs ha,
        fun a k hs ha => h2 a _ true hs ha, fun a h hs ha => (h2 a h false hs ha).trans ?_,
        fun a hs ha => ⟨fun hz => (h4 a false hs ha).trans ?_, fun tab e c hz h0 ht he hc hle hge => ?_⟩, h5⟩
      · cases h <;> rfl
      · exact congrArg _ (State.zoomStepReached_other hz)
      · let w := (u.moveEnded v.aim).onFocus fun f => { f with state := .idle, approach := none }
        obtain ⟨g1, g2, g3, g4⟩ := State.zoomStepReached_ready (s := w) (a := (e.count : Int)) (c := c) hz h0 hc
          (stationCount_some ht he) (by omega)
        exact ⟨_, h4 a false hs ha, g1, g2, g3, by rw [(w.zoomStepReached_keeps).2.2.2.2.2.2.2.2]; rfl, g4⟩
    · exact ⟨_, exec_sampleWatchExpiry_ends hp m hx hlate hs, rfl, rfl, rfl, rfl, rfl, rfl⟩
    · let w := s.blockMeasured m body
      let b := statOf body
      obtain ⟨hwf, hwz, hws⟩ := s.blockMeasured_frame m body
      have hrun : exec (.statistics m body) s = .next (w.focusBlock b) := exec_statistics_block hp m body ho hst
      have hws' : w.focus.state = .scanning := by rw [hwf]; exact hstate.trans hs
      have hwx : w.focus.scan = some x := by rw [hwf]; exact hscan.trans hx
      refine ⟨fun hm hk => ?_, fun v hv => ?_, fun hm hk => ?_⟩
      · obtain ⟨g1, g2⟩ := State.focusBlock_skips hws' hwx (by rw [hwf]; exact hstill hm) hk b
        exact ⟨_, hrun, by rw [g1, hwf], g2⟩
      · refine ⟨_, hrun, ?_⟩
        rw [State.focusBlock_moving hws' hwx (by rw [hwf]; exact hv), hwf]
      · obtain ⟨g1, g2, g3⟩ := focusBlock_samples_spec hws' hwx (by rw [hwf]; exact hstill hm) hk b
        rw [hwf, hwz] at g2
        rw [hwf, show (s.arrive m).focus.curve = s.focus.curve from hcurve] at g1
        refine ⟨_, hrun, g1, g2, fun hend => ?_⟩
        obtain ⟨k1, k2⟩ := scanStop_spec x (w.sampled x b)
        have hends := g3 hend
        have hcurves : (w.focusBlock b).focus.curve = (w.sampled x b).focus.curve := by
          rw [hends]
          exact (State.scanStop_ends x _).1
        rw [hcurves, hends]
        refine ⟨k1, fun tab e p ht he hpos => k2 tab e p (by rw [← hwz] at ht; exact ht) he ?_⟩
        rw [← hwf] at hpos
        exact hpos
    · intro sum
      let w := s.blockMeasured m body
      let b := statOf body
      obtain ⟨hwf, hwz, hws⟩ := s.blockMeasured_frame m body
      have hrun : exec (.statistics m body) s = .next (w.focusBlock b) := exec_statistics_block hp m body ho hst
      have hblock : w.focusBlock b = _ := State.focusBlock_locked (by rw [hwf]; exact hstate.trans hs) b
      have hruns : followRuns w = true ↔
          s.focus.mode = .follow ∧ s.zoom.state = .ready ∧ s.focus.suspended = false := by
        rw [followRuns_iff, hwf, hwz, show (s.arrive m).focus.mode = s.focus.mode from hmode,
          show (s.arrive m).focus.suspended = s.focus.suspended from hsuspended,
          show (s.arrive m).focus.state = s.focus.state from hstate, hs]
        simp
      have hwh : w.focus.held = some (.lock k a v) := by rw [hwf]; exact hheld.trans hh
      have hsum : zoneSum (areaRect w.focus.areas a) b.sharpness = sum := by
        rw [hwf, show (s.arrive m).focus.areas = s.focus.areas from hareas]
      have hwfollow : w.focus.follow = s.focus.follow := by rw [hwf]; exact hfollow
      refine ⟨fun hn => ⟨_, hrun, ?_⟩, fun tab e st hm hz hsus hcur ht he => ?_⟩
      · rw [hblock, if_neg, hwf]
        rw [hruns]
        rintro ⟨g1, g2, g3⟩
        obtain hn | hn | hn := hn
        · exact hn g1
        · exact hn g2
        · exact nomatch g3.symm.trans hn
      · have hfollows : w.focusBlock b = w.followBlock b := hblock.trans (if_pos (hruns.mpr ⟨hm, hz, hsus⟩))
        have hwc : w.zoom.current = some st := by rw [hwz]; exact hcur
        refine ⟨fun hgood => ⟨_, hrun, ?_⟩, fun hlow hn => ⟨_, hrun, ?_⟩, fun hlow hn => ?_⟩
        · rw [hfollows, State.followBlock_good hwh hwc b (by rw [hsum]; exact hgood), State.onFocus_focus, hwf]
        · rw [hfollows, State.followBlock_low hwh hwc b (by rw [hsum]; exact hlow) (by rw [hwfollow]; exact hn),
            State.onFocus_focus, hwf, show (s.arrive m).focus.follow = s.focus.follow from hfollow]
        · intro areas
          have hwt : w.zoom.working = some tab := by rw [hwz]; exact ht
          have hscans : w.focusBlock b = w.scanBegin st (k - 2) (min (k + 2) e.near) := by
            rw [hfollows, State.followBlock_scans hwh hwc b (by rw [hsum]; exact hlow) (by rw [hwfollow]; exact hn),
              nearOf_eq hwt he]
          have hall : scanAreas w.focus.areas = areas := by
            rw [scanAreas_eq, hwf, show (s.arrive m).focus.areas = s.focus.areas from hareas]
          obtain ⟨g1, g2, -, g4, g5, y, g6, g7, g8, g9, g10, g11, g12⟩ := w.scanBegin_begins st (k - 2) (min (k + 2) e.near)
          rw [hall] at g5 g11
          rw [camOf_eq hwt he, hwf] at g12
          refine ⟨_, y, hrun, ?_⟩
          rw [hscans]
          exact ⟨g1, g2, g4, g6, g7, g8, g9, g10, g11, g5, fun p hpos =>
            ⟨fun hne => ⟨((g12 p hpos).1 hne).1, ((g12 p hpos).1 hne).2.2⟩, (g12 p hpos).2⟩⟩
    · intro kept aim passes
      let w := u.zoomCount tele
      have hrun : exec (.encoderPulse m tele) s = .next w.zoomPulse := exec_encoderPulse hp m tele
      have hwz : w.zoom = { s.zoom with
          period := u.timers.pulse, count := s.zoom.count.map fun c => if tele then c + 1 else c - 1 } :=
        (u.zoomCount_frame tele).1
      have hwf : w.focus = u.focus := rfl
      have hwc : w.zoom.count = some c := by
        rw [hwz, hcount]
        cases tele <;> simp
      have hwt : w.zoom.working = some tab := by rw [hwz]; exact htab
      have hin : outOfRange c = false := (outOfRange_iff c).mpr ⟨by omega, h3200⟩
      have hmoved : w.zoomPulse = w.zoomMoved c := State.zoomPulse_moving hwc hin (by rw [hwz]; exact hs)
      have hwtrack : w.focus.state = .tracking := hstate.trans hf
      have hwheld : w.focus.held = some h := hheld.trans hh
      have hkept : kept = h.resolve e.near := by cases h <;> rfl
      have haim : aim = e.cams.getD (h.resolve e.near).cls 0 := by cases h <;> rfl
      have hpasses {k : Nat} {leg : Leg} {y : StationEntry} (ht : s.zoom.target = some (k, leg)) (hy : tab[k]? = some y)
          (hlt : leg = .approach → c < (y.count : Int)) : passes := by
        have hfocus : (w.zoomMoved c).focus = (w.focusPassed j).focus :=
          State.zoomMoved_passes (by rw [hwz]; exact ht) (stationCount_some hwt hy) hlt
            (by rw [hc]; exact stationAt_eq hwt he hfirst)
        have hspec := focusPassed_spec hwtrack hwheld hwt he
        rw [← hkept] at hspec
        obtain ⟨g1, g2, g3, g4⟩ := hspec
        refine ⟨_, hrun, ?_⟩
        rw [hmoved, hfocus]
        rw [hkept, ← haim] at g4
        exact ⟨g1, g2, g3.trans htrack, g4⟩
      refine ⟨fun k y ht hy => hpasses ht hy nofun, fun k y ht hy hlt => hpasses ht hy fun _ => hlt,
        fun ht => ⟨_, hrun, fun p hpos => ?_⟩⟩
      let q : State := w.zoomBrake.onZoom fun z => { z with state := .ready, current := some j, target := none }
      have harrive : w.zoomPulse = w.zoomArrive j := hmoved.trans
        ((State.zoomMoved_approach (by rw [hwz]; exact ht) (stationCount_some hwt he) c).trans (if_pos (by omega)))
      have hfocus : w.zoomPulse.focus = (q.focusArrived j).focus := by rw [harrive, State.zoomArrive_focus]
      have hspec := focusArrived_spec (s := q) hwtrack hwheld hwt he p hpos
      rw [← haim, ← hkept, show q.focus.trackOwed = s.focus.trackOwed from htrack] at hspec
      rw [hfocus]
      refine ⟨hspec.1, fun heq => ?_⟩
      obtain ⟨g1, g2, g3⟩ := hspec.2 heq
      exact ⟨g1, g2, by rw [g3]; cases kept <;> rfl⟩
  · intro margin
    refine ⟨?_, fun j hj => ?_, fun p hpk => Curve.sample_peak_some hpk first k v, fun hn he => ?_, fun w hn hlt hw => ?_⟩
    · rw [Curve.sample_samples]
      simp [hk]
    · rw [Curve.sample_samples, List.getElem?_set_ne (Ne.symm hj)]
    · rw [Curve.sample_peak_none hn]
      exact if_neg (by simp [he])
    · obtain ⟨g1, g2⟩ := isPeak_iff (v := v) hk hlt hw
      have hpeak : (c.sample first k v).peak = some (k - 1) ↔
          isPeak first (c.samples.set k (some v)) (k - 1) = true := by
        rw [Curve.sample_peak_none hn, decide_eq_true hlt, Bool.true_and]
        split
        next h => exact ⟨fun _ => h, fun _ => rfl⟩
        next h => exact ⟨nofun, fun h' => absurd h' h⟩
      refine ⟨fun he => ?_, fun y hlt' hy => ?_⟩
      · rw [hpeak, g1 he, marginOk_iff]
      · rw [hpeak, g2 y hlt' hy, marginOk_iff, marginOk_iff]
  · rw [zoneSum_eq]
    refine congrArg (fun l : List Nat => (l.map fun z => v.getD z 0).sum) (List.filter_congr fun z _ => ?_)
    rw [Bool.eq_iff_iff, rectCovers_iff, decide_eq_true_iff]

end Sys2Proof.Machine
end

section
/-! PROOFS. One good frame on one axis (R157 to R160). -/

namespace Sys2Proof.Machine

/-- The nearest whole number of hundredths, halves away from zero (R160). -/
theorem roundHalfAway_spec (x : Int) {b : Nat} (hb : 0 < b) :
    2 * (x - b * roundHalfAway x b).natAbs ≤ b ∧
      (2 * (x - b * roundHalfAway x b).natAbs = b → x.natAbs < (b * roundHalfAway x b).natAbs) := by
  have hround (y : Int) : ∃ r : Int, 0 ≤ r ∧ r < 2 * b ∧ 2 * y + b = 2 * (b * Int.fdiv (2 * y + b) (2 * b)) + r := by
    refine ⟨Int.fmod (2 * y + b) (2 * b), Int.fmod_nonneg_of_pos _ (by omega), Int.fmod_lt_of_pos _ (by omega), ?_⟩
    rw [← Int.mul_assoc]
    exact (Int.mul_fdiv_add_fmod _ _).symm
  unfold roundHalfAway
  split
  next h =>
    obtain ⟨r, h0, h2, hr⟩ := hround x
    generalize (b : Int) * Int.fdiv (2 * x + b) (2 * b) = m at hr ⊢
    omega
  next h =>
    obtain ⟨r, h0, h2, hr⟩ := hround (-x)
    rw [Int.mul_neg]
    generalize (b : Int) * Int.fdiv (2 * -x + b) (2 * b) = m at hr ⊢
    omega

theorem limit_range {lo hi : Int} (h : lo ≤ hi) (x : Int) : lo ≤ limit lo hi x ∧ limit lo hi x ≤ hi := by
  rw [limit_eq h]
  omega

/-- Division toward zero stays between the number and 0. -/
theorem roundToZero_between (x : Int) (b : Nat) :
    (0 ≤ x → 0 ≤ roundToZero x b ∧ roundToZero x b ≤ x) ∧ (x ≤ 0 → x ≤ roundToZero x b ∧ roundToZero x b ≤ 0) := by
  have hpos {y : Int} (hy : 0 ≤ y) : 0 ≤ Int.tdiv y b ∧ Int.tdiv y b ≤ y :=
    ⟨Int.tdiv_nonneg hy (Int.natCast_nonneg b), Int.tdiv_le_self _ hy⟩
  refine ⟨hpos, fun hx => ?_⟩
  obtain ⟨h0, hle⟩ := hpos (y := -x) (by omega)
  rw [Int.neg_tdiv] at h0 hle
  unfold roundToZero
  omega

/-- The leak takes the angle toward zero (R158). -/
theorem angleLeak_range {n : Int} {x : Int} (hn : -n ≤ x ∧ x ≤ n) (hold pan : Bool) :
    -n ≤ angleLeak hold pan x ∧ angleLeak hold pan x ≤ n := by
  obtain ⟨hpos, hneg⟩ := roundToZero_between x (if pan then 16 else 1024)
  cases hold with
  | true => exact hn
  | false =>
    simp only [angleLeak, Bool.false_eq_true, if_false]
    omega

/-- The pan detector touches the pan flag and its counts only (R159). -/
theorem panAfter_eq (c : Int) (a : Axis) : panAfter c a =
    { a with pan := (panAfter c a).pan, panOn := (panAfter c a).panOn, panOff := (panAfter c a).panOff } := by
  unfold panAfter
  (repeat' split) <;> rfl

/-- The pan detector while the pan flag is set (R159). -/
theorem panAfter_on {a : Axis} (h : a.pan = true) (c : Int) :
    (c.natAbs < 500 → a.panOff + 1 = 50 → panAfter c a = { a with pan := false, panOn := 0, panOff := 0 }) ∧
      (c.natAbs < 500 → a.panOff + 1 ≠ 50 → panAfter c a = { a with panOff := a.panOff + 1 }) ∧
      (500 ≤ c.natAbs → panAfter c a = { a with panOff := 0 }) := by
  unfold panAfter
  rw [if_pos h]
  exact ⟨fun hc h50 => (if_pos hc).trans (if_pos h50), fun hc h50 => (if_pos hc).trans (if_neg h50),
    fun hc => if_neg (by omega)⟩

/-- The pan detector while it is clear (R159). -/
theorem panAfter_off {a : Axis} (h : a.pan = false) (c : Int) :
    (2000 < c.natAbs → a.panOn + 1 = 100 → panAfter c a = { a with pan := true, panOn := 0, panOff := 0 }) ∧
      (2000 < c.natAbs → a.panOn + 1 ≠ 100 → panAfter c a = { a with panOn := a.panOn + 1 }) ∧
      (c.natAbs ≤ 2000 → panAfter c a = { a with panOn := 0 }) := by
  unfold panAfter
  rw [if_neg (by rw [h]; decide)]
  exact ⟨fun hc h100 => (if_pos hc).trans (if_pos h100), fun hc h100 => (if_pos hc).trans (if_neg h100),
    fun hc => if_neg (by omega)⟩

/-- Settles O57: the angle by its limits, the target by the rounding, the pan detector case by case. -/
theorem axesIntegrateLeakAndClip : Obligations.AxesIntegrateLeakAndClip := by
  unfold Obligations.AxesIntegrateLeakAndClip
  intro hold p rate gain a r c sum adv
  have hpan : r.pan = (panAfter c a).pan ∧ r.panOn = (panAfter c a).panOn ∧ r.panOff = (panAfter c a).panOff :=
    ⟨rfl, rfl, rfl⟩
  have hangle : r.angle = angleLeak hold a.pan adv := rfl
  have hrange := angleLeak_range (limit_range (lo := -33554431) (hi := 33554431) (by decide) sum) hold a.pan
  have htarget := limit_range (lo := -1000) (hi := 1000) (by decide) (rawShift r.angle gain)
  obtain ⟨hnear, htie⟩ := roundHalfAway_spec (r.angle * gain) (b := 100000) (by decide)
  refine ⟨?_, hangle.trans ?_, hrange.1, hrange.2, htarget.1, htarget.2,
    ⟨rawShift r.angle gain, hnear, htie, rfl, decide_eq_true_iff⟩, fun hp => ?_, fun hp => ?_⟩
  · change (panAfter c a).bias = a.bias
    rw [panAfter_eq]
  · cases hold <;> cases a.pan <;> rfl
  · obtain ⟨h1, h2, h3⟩ := panAfter_on hp c
    rw [hpan.1, hpan.2.1, hpan.2.2]
    exact ⟨fun hc h50 => by rw [h1 hc h50]; exact ⟨rfl, rfl, rfl⟩, fun hc h50 => by rw [h2 hc h50]; exact ⟨hp, rfl⟩,
      fun hc => by rw [h3 hc]; exact ⟨hp, rfl⟩⟩
  · obtain ⟨h1, h2, h3⟩ := panAfter_off hp c
    rw [hpan.1, hpan.2.1, hpan.2.2]
    exact ⟨fun hc h100 => by rw [h1 hc h100]; exact ⟨rfl, rfl, rfl⟩,
      fun hc h100 => by rw [h2 hc h100]; exact ⟨hp, rfl⟩, fun hc => by rw [h3 hc]; exact ⟨hp, rfl⟩⟩

end Sys2Proof.Machine
end

section
/-! PROOFS. The gyro receiver, the frames it hands on, and STEADY MODE (R123, R150 to R157, R162). -/

namespace Sys2Proof.Machine

variable {s t : State}

/-! ### STEADY MODE -/

theorem exec_steadyMode_none (h : Taking s) (m : Moment) :
    exec (.steadyMode m none) s = .next ((taken 33 m s).respond 33 (.badField, .empty, none)) :=
  request_taking h 33 m _

theorem exec_steadyMode_armed (h : Taking s) (m : Moment) (x : SteadyMode) (hs : s.shot.state ≠ .idle) :
    exec (.steadyMode m (some x)) s = .next ((taken 33 m s).respond 33 (.shotArmed, .empty, none)) := by
  refine (request_taking h 33 m _).trans ?_
  dsimp only
  rw [if_pos (by simpa using hs)]
  rfl

/-- The mode is set, and the Stabilizer starts or goes OFF by it (R154). -/
def State.steadySet (x : SteadyMode) (s : State) : State :=
  let t : State := { s with steady := { s.steady with mode := x } }
  if x = .on then (if s.steady.state = .off ∨ s.steady.state = .fault then t.steadyStart else t) else t.steadyOff

theorem exec_steadyMode_sets (h : Taking s) (m : Moment) (x : SteadyMode) (hs : s.shot.state = .idle) :
    exec (.steadyMode m (some x)) s =
      .next (((taken 33 m s).steadySet x).meterInput.respond 33 (.ok, .empty, none)) := by
  refine (request_taking h 33 m _).trans ?_
  dsimp only
  rw [if_neg (by simpa using hs)]
  cases x <;> rfl

/-! ### The receiver -/

theorem gyroRuns_iff (s : State) : gyroRuns s = true ↔ s.supply.shutdown ≠ .starting := by simp [gyroRuns]

theorem gyroAfter_starting (h : s.supply.shutdown = .starting) (m : Moment) : gyroAfter m s = s.gyro :=
  if_neg (by rw [gyroRuns_iff]; exact not_not_intro h)

theorem gyroAfter_running (h : s.supply.shutdown ≠ .starting) (m : Moment) :
    gyroAfter m s = m.gyro.foldl GyroReceiver.takeByte (s.gyro.advance m.dt) := if_pos ((gyroRuns_iff s).mpr h)

/-- The bytes that come while the receiver hunts (R150). -/
theorem gyroAfter_hunting (h : s.supply.shutdown ≠ .starting) (hp : s.gyro.phase = .hunting) (m : Moment)
    {pass : List Byte} (hpass : ∀ x ∈ pass, x ≠ 126#8) :
    (m.gyro = pass → gyroAfter m s = s.gyro) ∧
    (∀ f, m.gyro = pass ++ 126#8 :: f → f.length < 6 → gyroAfter m s = { s.gyro with phase := .assembling f 0 }) ∧
    (∀ f rest, m.gyro = pass ++ 126#8 :: (f ++ rest) → f.length = 6 → gyroAfter m s =
      rest.foldl GyroReceiver.takeByte { phase := .hunting, whole := s.gyro.whole ++ [f] }) := by
  rw [gyroAfter_running h]
  generalize s.gyro = g at hp ⊢
  obtain ⟨phase, whole⟩ := g
  cases hp
  have hadvance : GyroReceiver.advance m.dt ⟨.hunting, whole⟩ = ⟨.hunting, whole⟩ := rfl
  rw [hadvance]
  refine ⟨fun hm => ?_, fun f hm hf => ?_, fun f rest hm hf => ?_⟩
  · rw [hm, gyro_hunting_pass hpass]
  · rw [hm, List.foldl_append, gyro_hunting_pass hpass, List.foldl_cons, gyro_hunting_marker,
      gyro_frame_bytes (Nat.zero_le _) f (by simpa using hf), List.nil_append]
  · rw [hm, List.foldl_append, gyro_hunting_pass hpass, List.foldl_cons, gyro_hunting_marker, List.foldl_append,
      gyro_frame_whole (Nat.zero_le _) (by decide) (by simpa using hf), List.nil_append]

/-- The bytes that come to a frame being assembled (R150, log 56). -/
theorem gyroAfter_assembling (h : s.supply.shutdown ≠ .starting) {f : List Byte} {t : Nat}
    (hp : s.gyro.phase = .assembling f t) (m : Moment) :
    (t + m.dt ≤ 500 → f.length + m.gyro.length < 6 →
      gyroAfter m s = { s.gyro with phase := .assembling (f ++ m.gyro) (t + m.dt) }) ∧
    (∀ x rest, t + m.dt ≤ 500 → f.length < 6 → m.gyro = x ++ rest → f.length + x.length = 6 → gyroAfter m s =
      rest.foldl GyroReceiver.takeByte { phase := .hunting, whole := s.gyro.whole ++ [f ++ x] }) ∧
    (500 < t + m.dt → gyroAfter m s = { s.gyro with phase := .assembling f (t + m.dt) }) := by
  rw [gyroAfter_running h]
  generalize s.gyro = g at hp ⊢
  obtain ⟨phase, whole⟩ := g
  cases hp
  have hadvance : GyroReceiver.advance m.dt ⟨.assembling f t, whole⟩ = ⟨.assembling f (t + m.dt), whole⟩ := rfl
  rw [hadvance]
  refine ⟨fun ht hf => gyro_frame_bytes ht m.gyro hf, fun x rest ht hf hm hl => ?_,
    fun ht => gyro_frame_still ht m.gyro⟩
  rw [hm, List.foldl_append, gyro_frame_whole ht hf hl]

/-! ### Markers, broken and late frames -/

/-- The frame being assembled is dropped and counted. -/
def State.gyroDropped (s : State) : State :=
  { s with gyro := { s.gyro with phase := .hunting }
           steady := { s.steady with discarded := min 65535 (s.steady.discarded + 1) } }

theorem State.gyroDrop_assembling {f : List Byte} {t : Nat} (h : s.gyro.phase = .assembling f t) :
    s.gyroDrop = s.gyroDropped := by
  unfold State.gyroDrop
  rw [h]
  rfl

theorem State.gyroDrop_hunting (h : s.gyro.phase = .hunting) : s.gyroDrop = s := by
  unfold State.gyroDrop
  rw [h]

theorem exec_gyroStartMarker (hp : s.supply.powered = true) (m : Moment) : exec (.gyroStartMarker m) s = .next
    (let u := s.arrive m
     if s.supply.shutdown ≠ .starting ∧ u.gyro.phase = .hunting then u.gyroAt (.assembling [] 0) else u) := by
  change execGyroStartMarker m s = _
  rw [execGyroStartMarker, event_powered hp]
  refine congrArg _ (ite_congr (propext (and_congr_left fun _ => ?_)) (fun _ => rfl) fun _ => rfl)
  exact gyroRuns_iff _

theorem exec_gyroFrameBroken (hp : s.supply.powered = true) (m : Moment) :
    exec (.gyroFrameBroken m) s = .next (s.arrive m).gyroDrop := event_powered hp m _

theorem exec_gyroFrameTimeout_assembling (hp : s.supply.powered = true) (m : Moment) {f : List Byte} {t : Nat}
    (h : (s.arrive m).gyro.phase = .assembling f t) : exec (.gyroFrameTimeout m) s =
      .next (if 500 ≤ t then (s.arrive m).gyroDrop else s.arrive m) := by
  change execGyroFrameTimeout m s = _
  rw [execGyroFrameTimeout, event_powered hp, h]

theorem exec_gyroFrameTimeout_hunting (hp : s.supply.powered = true) (m : Moment)
    (h : (s.arrive m).gyro.phase = .hunting) : exec (.gyroFrameTimeout m) s = .next (s.arrive m) := by
  change execGyroFrameTimeout m s = _
  rw [execGyroFrameTimeout, event_powered hp, h]

/-! ### Frames handed on -/

theorem exec_gyroFrame (hp : s.supply.powered = true) (m : Moment) (bytes : List Byte) :
    exec (.gyroFrame m bytes) s = .next
      (let u := s.arrive m
       if !gyroRuns u || !u.gyro.opens bytes then u
       else if u.gyro.overdue then u.gyroDrop
       else if gyroGood (gyroOf bytes) u then u.gyroHand.gyroGoodFrame (gyroOf bytes)
       else u.gyroDiscard.gyroHand) := by
  change execGyroFrame m bytes s = _
  rw [execGyroFrame, event_powered hp]

theorem exec_gyroFrame_shut (hp : s.supply.powered = true) (m : Moment) {bytes : List Byte}
    (h : s.supply.shutdown = .starting ∨ (s.arrive m).gyro.opens bytes = false) :
    exec (.gyroFrame m bytes) s = .next (s.arrive m) := by
  refine (exec_gyroFrame hp m bytes).trans (congrArg _ (if_pos ?_))
  obtain h | h := h
  · have hruns : gyroRuns (s.arrive m) = false := Bool.eq_false_iff.mpr fun hr => (gyroRuns_iff _).mp hr h
    rw [hruns]
    rfl
  · rw [h, Bool.not_false, Bool.or_true]

theorem exec_gyroFrame_overdue (hp : s.supply.powered = true) (m : Moment) {bytes : List Byte}
    (h : s.supply.shutdown ≠ .starting) (ho : (s.arrive m).gyro.opens bytes = true)
    (hd : (s.arrive m).gyro.overdue = true) : exec (.gyroFrame m bytes) s = .next (s.arrive m).gyroDrop := by
  have hruns : gyroRuns (s.arrive m) = true := (gyroRuns_iff _).mpr h
  refine (exec_gyroFrame hp m bytes).trans (congrArg _ ((if_neg ?_).trans (if_pos hd)))
  rw [hruns, ho]
  decide

theorem exec_gyroFrame_handed (hp : s.supply.powered = true) (m : Moment) {bytes : List Byte}
    (h : s.supply.shutdown ≠ .starting) (ho : GyroOpens bytes (s.arrive m)) : exec (.gyroFrame m bytes) s = .next
      (if gyroGood (gyroOf bytes) (s.arrive m) then (s.arrive m).gyroHand.gyroGoodFrame (gyroOf bytes)
       else (s.arrive m).gyroDiscard.gyroHand) := by
  obtain ⟨hopens, hdue⟩ := gyro_opens_iff.mpr ho
  have hruns : gyroRuns (s.arrive m) = true := (gyroRuns_iff _).mpr h
  refine (exec_gyroFrame hp m bytes).trans (congrArg _ ((if_neg ?_).trans (if_neg ?_)))
  · rw [hruns, hopens]
    decide
  · rw [hdue]
    decide

theorem gyroGood_iff (g : GyroFields) (s : State) : gyroGood g s = true ↔
    g.checkOk = true ∧ (∀ t, s.timers.good = some t → 750 ≤ t) ∧ s.steady.lastSeq ≠ some g.seq := by
  unfold gyroGood
  cases s.timers.good <;> simp [and_assoc]

/-- The receiver once a frame has gone to R151, spelled out. -/
theorem GyroReceiver.handed_eq (r : GyroReceiver) : r.handed =
    match r.whole with
    | _ :: rest => { r with whole := rest }
    | [] => { phase := .hunting, whole := [] } := by
  obtain ⟨phase, whole⟩ := r
  cases whole <;> rfl

/-- A good frame's state, before a start's end is told (R151, R152, R156, R157). -/
def State.gyroCounted (g : GyroFields) (s : State) : State :=
  { s with
    steady := { s.steady.use g (offeredGain s.zoom) with
      good := countUp s.steady.good, lastSeq := some g.seq, gain := offeredGain s.zoom }
    timers := { s.timers with good := some 0, lost := if s.steady.state.watched then some 0 else s.timers.lost } }

/-- A good frame that does not end a start. -/
theorem State.gyroGoodFrame_counts {g : GyroFields}
    (h : ¬(s.steady.state = .starting ∧ (s.steady.use g (offeredGain s.zoom)).state = .active)) :
    s.gyroGoodFrame g = s.gyroCounted g := by
  have htake : s.gyroTake g = s.gyroCounted g := if_neg h
  unfold State.gyroGoodFrame
  rw [htake]
  exact if_neg h

/-- A good frame that ends a start: the Metering Unit and the Shot Sequencer are told (R153, R156). -/
theorem State.gyroGoodFrame_starts {g : GyroFields} (h : s.steady.state = .starting)
    (ha : (s.steady.use g (offeredGain s.zoom)).state = .active) :
    s.gyroGoodFrame g = (s.gyroCounted g).meterInput.shotSteadyReady := by
  have htake : s.gyroTake g = (s.gyroCounted g).meterInput := if_pos ⟨h, ha⟩
  unfold State.gyroGoodFrame
  rw [htake]
  exact if_pos ⟨h, by rw [(State.meterInput_aside _).2.1]; exact ha⟩

theorem State.shotSteadyReady_idle (h : s.shot.state ≠ .waitSteady) : s.shotSteadyReady = s := if_neg h

/-- A frame summed before the last of a start (R156). -/
theorem Steady.summed_eq (g : GyroFields) (x : Steady) : x.summed g =
    let y := { x with progress := x.progress + 1, pitchSum := x.pitchSum + g.pitch, yawSum := x.yawSum + g.yaw }
    if x.progress + 1 = 256 then
      { y with state := .active, pitch := { x.pitch with bias := some (roundHalfAway (x.pitchSum + g.pitch) 256) }
               yaw := { x.yaw with bias := some (roundHalfAway (x.yawSum + g.yaw) 256) } }
    else y := rfl

theorem Steady.use_starting {x : Steady} (h : x.state = .starting) (g : GyroFields) (gain : Int) :
    x.use g gain = x.summed g := by
  unfold Steady.use
  rw [h]

theorem Steady.use_idle {x : Steady} (h : x.state = .off ∨ x.state = .fault) (g : GyroFields) (gain : Int) :
    x.use g gain = x := by
  unfold Steady.use
  obtain h | h := h <;> rw [h]

theorem Steady.use_runs {x : Steady} (h : x.state = .active ∨ x.state = .hold) (g : GyroFields) (gain : Int) :
    x.use g gain = x.integrated g gain := by
  unfold Steady.use
  obtain h | h := h <;> rw [h]

/-- The gap of a frame: 1 for the first (R152). -/
def gyroGap (last : Option Nat) (seq : Nat) : Nat :=
  match last with
  | none => 1
  | some l => (seq + 256 - l) % 256

theorem gyroPeriods_eq (last : Option Nat) (seq : Nat) : gyroPeriods last seq =
    (if gyroGap last seq ≤ 4 then gyroGap last seq else 1, !decide (gyroGap last seq ≤ 4)) := by
  unfold gyroPeriods gyroGap
  cases last with
  | none => rfl
  | some l =>
    dsimp only
    split <;> simp_all

/-- A frame in ACTIVE or HOLD (R157 to R160, R162). -/
theorem Steady.integrated_spec (g : GyroFields) (gain : Int) (x : Steady) :
    let gap := gyroGap x.lastSeq g.seq
    let p := if gap ≤ 4 then gap else 1
    let hold : Bool := x.state == .hold
    let y := x.integrated g gain
    y.state = x.state ∧ y.pitch = x.pitch.integrate hold p g.pitch gain ∧
      y.yaw = x.yaw.integrate hold p g.yaw gain ∧
      y.longGap = (if gap ≤ 4 then x.longGap else min 65535 (x.longGap + 1)) ∧
      (x.state = .active → y.session = x.session) ∧
      (∀ e, x.state = .hold → x.session = some e → y.session = some { e with
        peak := max e.peak (max y.pitch.target.natAbs y.yaw.target.natAbs)
        clipSeen := e.clipSeen || y.pitch.clip || y.yaw.clip }) := by
  intro gap p hold y
  have hlong : (if (!decide (gap ≤ 4)) = true then countUp x.longGap else x.longGap) =
      if gap ≤ 4 then x.longGap else min 65535 (x.longGap + 1) := by
    by_cases hg : gap ≤ 4 <;> simp [hg, countUp]
  have hy : y = x.integrated g gain := rfl
  unfold Steady.integrated at hy
  rw [gyroPeriods_eq] at hy
  dsimp only at hy
  rw [hlong] at hy
  by_cases hh : x.state = .hold
  · rw [if_pos (by rw [hh]; rfl)] at hy
    rw [hy]
    refine ⟨rfl, rfl, rfl, rfl, fun ha => (nomatch hh.symm.trans ha), fun e _ he => ?_⟩
    dsimp only
    rw [he]
    rfl
  · rw [if_neg (by simpa using hh)] at hy
    rw [hy]
    exact ⟨rfl, rfl, rfl, rfl, fun _ => rfl, fun e h => absurd h hh⟩

/-! ### The gyro is lost -/

theorem exec_gyroLost_early (hp : s.supply.powered = true) (m : Moment)
    (h : ∀ x, (s.arrive m).timers.lost = some x → x < 10000) : exec (.gyroLost m) s = .next (s.arrive m) := by
  change execGyroLost m s = _
  rw [execGyroLost, event_powered hp]
  refine congrArg _ (if_neg fun hr => ?_)
  obtain ⟨x, hx, hlate⟩ := reached_iff.mp hr
  exact absurd (h x hx) (by simpa [Config.lostLimit] using hlate)

theorem exec_gyroLost_late (hp : s.supply.powered = true) (m : Moment) {x : Nat}
    (hx : (s.arrive m).timers.lost = some x) (hlate : 10000 ≤ x) : exec (.gyroLost m) s = .next
      (if s.steady.state = .starting then (s.arrive m).steadyLost.shotSteadyReady else (s.arrive m).steadyLost) := by
  change execGyroLost m s = _
  rw [execGyroLost, event_powered hp]
  exact congrArg _ (if_pos (reached_iff.mpr ⟨x, hx, hlate⟩))

/-- What the loss of the gyro leaves (R153, R162). -/
theorem State.steadyLost_leaves (s : State) : s.steadyLost.steady.state = .fault ∧ s.steadyLost.steady.progress = 0 ∧
    s.steadyLost.steady.pitch = s.steady.pitch.still ∧ s.steadyLost.steady.yaw = s.steady.yaw.still ∧
    s.steadyLost.timers.lost = none ∧ s.steadyLost.events = (s.setFlag .steadyFault).events ∧
    s.steadyLost.steady.session = (if s.steady.state = .hold then
      s.steady.session.map fun e => { e with outcome := .lost } else s.steady.session) := by
  simp [State.steadyLost]

/-! ### The gain -/

theorem ZoomState.offersGain_iff (z : ZoomState) : z.offersGain = true ↔
    z = .extending ∨ z = .ready ∨ z = .moving ∨ z = .braking ∨ z = .noTableHold := by
  cases z <;> simp [ZoomState.offersGain]

/-- The counts of a table rise strictly. -/
def CountsRise (t : List StationEntry) : Prop :=
  ∀ (i j : Nat) (a b : StationEntry), i < j → t[i]? = some a → t[j]? = some b → a.count < b.count

theorem CountsRise.tail {a : StationEntry} {t : List StationEntry} (h : CountsRise (a :: t)) : CountsRise t :=
  fun i j x y hij hx hy => h (i + 1) (j + 1) x y (Nat.succ_lt_succ hij) hx hy

theorem gainAt_low {t : List StationEntry} {a : StationEntry} {c : Int} (h : t[0]? = some a)
    (hc : c < (a.count : Int)) : gainAt c t = a.gain := by
  cases t with
  | nil => exact nomatch h
  | cons x t =>
    cases h
    cases t with
    | nil => rfl
    | cons y t => exact if_pos hc

/-- Between two stations the gain is interpolated and rounded with halves upward (R123). -/
theorem gainAt_between {t : List StationEntry} {i : Nat} {a b : StationEntry} {c : Int} (hrise : CountsRise t)
    (ha : t[i]? = some a) (hb : t[i + 1]? = some b) (hac : (a.count : Int) ≤ c) (hcb : c < (b.count : Int)) :
    gainAt c t = a.gain + roundHalfUp (((b.gain : Int) - a.gain) * (c - a.count)) (b.count - a.count) := by
  induction t generalizing i with
  | nil => exact nomatch ha
  | cons x t ih =>
    cases t with
    | nil => exact nomatch hb
    | cons y t =>
      cases i with
      | zero =>
        cases ha
        cases hb
        exact (if_neg (by omega)).trans (if_pos hcb)
      | succ i =>
        have hx : x.count < a.count := hrise 0 (i + 1) x a (Nat.succ_pos i) rfl ha
        have hy : y.count ≤ a.count := by
          cases i with
          | zero =>
            cases ha
            exact Nat.le_refl _
          | succ i => exact Nat.le_of_lt (hrise 1 (i + 2) y a (by omega) rfl ha)
        refine Eq.trans ?_ (ih hrise.tail ha hb)
        exact (if_neg (by omega)).trans (if_neg (by omega))

theorem gainAt_high {t : List StationEntry} {a : StationEntry} {c : Int} (hrise : CountsRise t)
    (ha : t.getLast? = some a) (hac : (a.count : Int) ≤ c) : gainAt c t = a.gain := by
  induction t with
  | nil => exact nomatch ha
  | cons x t ih =>
    cases t with
    | nil =>
      cases ha
      rfl
    | cons y t =>
      rw [List.getLast?_cons_cons] at ha
      obtain ⟨n, hn⟩ : ∃ n : Nat, (y :: t)[n]? = some a := by
        rw [List.getLast?_eq_getElem?] at ha
        exact ⟨_, ha⟩
      have hx : x.count < a.count := hrise 0 (n + 1) x a (Nat.succ_pos n) rfl hn
      have hy : y.count ≤ a.count := by
        cases n with
        | zero =>
          cases hn
          exact Nat.le_refl _
        | succ n => exact Nat.le_of_lt (hrise 1 (n + 2) y a (by omega) rfl hn)
      refine Eq.trans ?_ (ih hrise.tail ha)
      exact (if_neg (by omega)).trans (if_neg (by omega))

theorem offeredGain_none {z : Zoom} (h : z.state.offersGain = false ∨ z.count = none ∨ z.working = none) :
    offeredGain z = 0 := by
  unfold offeredGain
  cases hc : z.count with
  | none => rfl
  | some c =>
    cases ht : z.working with
    | none => rfl
    | some t =>
      obtain h | h | h := h
      · exact if_neg (by rw [h]; decide)
      · exact nomatch hc.symm.trans h
      · exact nomatch ht.symm.trans h

theorem offeredGain_some {z : Zoom} {c : Int} {t : List StationEntry} (h : z.state.offersGain = true)
    (hc : z.count = some c) (ht : z.working = some t) : offeredGain z = gainAt c t := by
  unfold offeredGain
  rw [hc, ht]
  exact if_pos h

end Sys2Proof.Machine
end

section
/-! PROOFS. STEADY MODE, the gyro's frames and its loss, and the gain offered (R123, R150 to R157, R162). -/

namespace Sys2Proof.Machine

variable {s t : State}

/-- A number of 16 bits in two's complement (section 10.4). -/
theorem signed_half (n : Nat) : signed 16 n = if n < 32768 then (n : Int) else (n : Int) - 65536 := rfl

/-- The check of a frame holds when its six bytes sum to 0 (R151). -/
theorem gyroOf_checkOk (a b c d e f : Byte) :
    (gyroOf [a, b, c, d, e, f]).checkOk = true ↔ a + b + c + d + e + f = 0#8 := by
  have hsum : (gyroOf [a, b, c, d, e, f]).checkOk =
      ((a.toNat + b.toNat + c.toNat + d.toNat + e.toNat + f.toNat) % 256 == 0) := rfl
  rw [hsum, beq_iff_eq, ← BitVec.toNat_inj]
  simp only [BitVec.toNat_add, BitVec.toNat_ofNat]
  omega

/-- STEADY MODE once taken (R154). -/
theorem steadySet_leaves (x : SteadyMode) (s : State) :
    let t := s.steadySet x
    t.steady.mode = x ∧
      (x = .on → s.steady.state = .off ∨ s.steady.state = .fault → t.steady.state = .starting ∧
        t.steady.progress = 0 ∧ t.steady.pitch = resetAxis ∧ t.steady.yaw = resetAxis ∧ t.steady.pitchSum = 0 ∧
        t.steady.yawSum = 0 ∧ t.timers.lost = some 0) ∧
      (x = .on → s.steady.state ≠ .off → s.steady.state ≠ .fault → t.steady = { s.steady with mode := x }) ∧
      (x ≠ .on → t.steady.state = .off ∧ t.timers.lost = none ∧ t.steady.pitch = s.steady.pitch.still ∧
        t.steady.yaw = s.steady.yaw.still) := by
  unfold State.steadySet
  by_cases hx : x = .on
  · subst hx
    dsimp only
    rw [if_pos rfl]
    by_cases hs : s.steady.state = .off ∨ s.steady.state = .fault
    · rw [if_pos hs]
      exact ⟨rfl, fun _ _ => ⟨rfl, rfl, rfl, rfl, rfl, rfl, rfl⟩,
        fun _ h1 h2 => absurd hs (by rintro (h | h) <;> contradiction), fun h => absurd rfl h⟩
    · rw [if_neg hs]
      exact ⟨rfl, fun _ h => absurd h hs, fun _ _ _ => rfl, fun h => absurd rfl h⟩
  · dsimp only
    rw [if_neg hx]
    exact ⟨rfl, fun h => absurd h hx, fun h => absurd h hx, fun _ => ⟨rfl, rfl, rfl, rfl⟩⟩

/-- A frame that is handed on, by whether it is good and by the state it meets (R151, R156, R157, R162). -/
theorem gyroFrame_handed (hp : s.supply.powered = true) (m : Moment) {bytes : List Byte}
    (hst : s.supply.shutdown ≠ .starting) (ho : GyroOpens bytes (s.arrive m)) :
    let u := s.arrive m
    let g := gyroOf bytes
    (gyroGood g u = false → exec (.gyroFrame m bytes) s = .next { u with
      gyro := u.gyro.handed
      steady := { s.steady with discarded := min 65535 (s.steady.discarded + 1) } }) ∧
    (gyroGood g u = true → ¬(s.steady.state = .starting ∧ (s.steady.use g (offeredGain s.zoom)).state = .active) →
      exec (.gyroFrame m bytes) s = .next (u.gyroHand.gyroCounted g)) ∧
    (gyroGood g u = true → s.steady.state = .starting → (s.steady.use g (offeredGain s.zoom)).state = .active →
      s.shot.state ≠ .waitSteady →
      exec (.gyroFrame m bytes) s = .next (u.gyroHand.gyroCounted g).meterInput) := by
  intro u g
  have hrun := exec_gyroFrame_handed hp m hst ho
  refine ⟨fun hg => hrun.trans (congrArg _ (if_neg (by rw [hg]; decide))), fun hg hn => ?_, fun hg hs ha hw => ?_⟩
  · exact hrun.trans (congrArg _ ((if_pos hg).trans (State.gyroGoodFrame_counts (s := u.gyroHand) hn)))
  · have hstarts := State.gyroGoodFrame_starts (s := u.gyroHand) (g := g) hs ha
    rw [State.shotSteadyReady_idle (by simpa [State.gyroCounted, State.gyroHand, u] using hw)] at hstarts
    exact hrun.trans (congrArg _ ((if_pos hg).trans hstarts))

/-- Settles O56: STEADY MODE by the mode, the receiver by what it holds, a frame by its tests and the state it meets, the
gain by the stations that bracket the count. -/
theorem stabilizerStartsMeasuresAndLoses : Obligations.StabilizerStartsMeasuresAndLoses := by
  unfold Obligations.StabilizerStartsMeasuresAndLoses
  refine ⟨fun m s h => ⟨exec_steadyMode_none h m, fun x => ⟨exec_steadyMode_armed h m x, fun hs => ?_⟩⟩,
    fun m s hp => ?_, fun a b c d e f => ⟨rfl, rfl, rfl, gyroOf_checkOk a b c d e f⟩, fun z => ?_⟩
  · obtain ⟨h1, h2, h3, h4⟩ := steadySet_leaves x (taken 33 m s)
    have hsteady : (taken 33 m s).steady = s.steady := by simp
    rw [hsteady] at h2 h3 h4
    refine ⟨_, exec_steadyMode_sets h m x hs, ?_⟩
    rw [State.respond_link, (State.respond_frame _ _ _).2.1,
      show ∀ a, (((taken 33 m s).steadySet x).meterInput.respond 33 a).steady = ((taken 33 m s).steadySet x).meterInput.steady
        from fun _ => rfl, (State.meterInput_aside _).2.1, (State.meterInput_aside _).2.2.2.2.1]
    exact ⟨h1, rfl, h2, h3, h4⟩
  · intro u miss dropped handed onward
    have honward (h rest : List Byte) (hst : s.supply.shutdown ≠ .starting) : onward h rest =
        rest.foldl GyroReceiver.takeByte { phase := .hunting, whole := s.gyro.whole ++ [h] } :=
      gyroAfter_running (s := { s with gyro := { phase := .hunting, whole := s.gyro.whole ++ [h] } }) hst _
    have hhanded : u.gyro.handed = handed := u.gyro.handed_eq
    refine ⟨fun hst => gyroAfter_starting hst m, fun hst => ⟨fun pass hph hpass => ?_, fun h t hph => ?_⟩,
      fun hst hph => ?_, fun hst => ⟨?_, fun bytes => exec_gyroFrame_shut hp m (.inl hst)⟩, fun h t hph => ?_,
      fun hph => ⟨?_, exec_gyroFrameTimeout_hunting hp m hph⟩, fun bytes h t hw hph hst => ⟨fun rest hb ht => ?_,
        fun hb => ?_⟩, fun bytes h rest hw hne => ?_, fun bytes hst ho => ?_, exec_gyroLost_early hp m,
      fun x hx hlate hw => ?_⟩
    · obtain ⟨h1, h2, h3⟩ := gyroAfter_hunting hst hph m hpass
      exact ⟨h1, h2, fun h rest hm hl => (h3 h rest hm hl).trans (honward h rest hst).symm⟩
    · obtain ⟨h1, h2, h3⟩ := gyroAfter_assembling hst hph m
      exact ⟨h1, fun x rest ht hl hm hb => (h2 x rest ht hl hm hb).trans (honward _ rest hst).symm, h3⟩
    · exact (exec_gyroStartMarker hp m).trans (congrArg _ (if_pos ⟨hst, hph⟩))
    · exact (exec_gyroStartMarker hp m).trans (congrArg _ (if_neg fun h => h.1 hst))
    · have hdrop : u.gyroDrop = dropped := State.gyroDrop_assembling hph
      refine ⟨(exec_gyroStartMarker hp m).trans (congrArg _ (if_neg fun hn =>
          nomatch (hph.symm.trans hn.2 : GyroPhase.assembling h t = .hunting))),
        (exec_gyroFrameBroken hp m).trans (congrArg _ hdrop), fun ht => ?_, fun ht => ?_⟩
      · exact (exec_gyroFrameTimeout_assembling hp m hph).trans (congrArg _ ((if_pos ht).trans hdrop))
      · exact (exec_gyroFrameTimeout_assembling hp m hph).trans (congrArg _ (if_neg (by omega)))
    · exact (exec_gyroFrameBroken hp m).trans (congrArg _ (State.gyroDrop_hunting hph))
    · have hopens : u.gyro.opens bytes = true := by
        unfold GyroReceiver.opens
        rw [hw, hph]
        exact List.isPrefixOf_iff_prefix.mpr ⟨rest, hb⟩
      have hdue : u.gyro.overdue = true := by
        unfold GyroReceiver.overdue
        rw [hw, hph]
        exact decide_eq_true ht
      exact (exec_gyroFrame_overdue hp m hst hopens hdue).trans (congrArg _ (State.gyroDrop_assembling hph))
    · refine exec_gyroFrame_shut hp m (.inr (Bool.eq_false_iff.mpr fun hopens => ?_))
      unfold GyroReceiver.opens at hopens
      rw [show (s.arrive m).gyro.whole = [] from hw, show (s.arrive m).gyro.phase = .assembling h t from hph] at hopens
      obtain ⟨rest, hrest⟩ := List.isPrefixOf_iff_prefix.mp hopens
      exact hb rest hrest
    · refine exec_gyroFrame_shut hp m (.inr ?_)
      unfold GyroReceiver.opens
      rw [show (s.arrive m).gyro.whole = h :: rest from hw]
      exact beq_eq_false_iff_ne.mpr hne
    · intro g good counted
      obtain ⟨hbad, hcounts, hends⟩ := gyroFrame_handed hp m hst ho
      have hgood : gyroGood g u = true ↔ good := gyroGood_iff g u
      rw [show (s.arrive m).gyro.handed = handed from hhanded] at hbad
      have hrun (hg : good) (hn : ¬(s.steady.state = .starting ∧ (s.steady.use g (offeredGain s.zoom)).state = .active)) :
          exec (.gyroFrame m bytes) s = .next { u with
            gyro := handed, steady := counted (s.steady.use g (offeredGain s.zoom))
            timers := { u.timers with
              good := some 0, lost := if s.steady.state.watched then some 0 else u.timers.lost } } := by
        rw [← hhanded]
        exact hcounts (hgood.mpr hg) hn
      refine ⟨fun hg => hbad (Bool.eq_false_iff.mpr fun h => hg (hgood.mp h)), fun hg hs => ?_, fun hg hs hlt => ?_,
        fun hg hs h255 hw => ?_, fun hg hs => ?_⟩
      · have hrest := hrun hg (by rintro ⟨h, -⟩; rw [h] at hs; simp at hs)
        rw [Steady.use_idle hs] at hrest
        obtain hs | hs := hs <;> rw [hs] at hrest <;> exact hrest
      · have hsum : s.steady.use g (offeredGain s.zoom) = _ :=
          (Steady.use_starting hs g _).trans ((Steady.summed_eq g _).trans (if_neg (by omega)))
        have hrest := hrun hg (by rw [hsum]; rintro ⟨-, h⟩; exact nomatch hs.symm.trans h)
        rw [hsum, show s.steady.state.watched = true by rw [hs]; rfl] at hrest
        exact hrest
      · have hsum : s.steady.use g (offeredGain s.zoom) = _ :=
          (Steady.use_starting hs g _).trans ((Steady.summed_eq g _).trans (if_pos (by omega)))
        refine ⟨_, hends (hgood.mpr hg) hs (by rw [hsum]) hw, ?_⟩
        have hsteady : (u.gyroHand.gyroCounted g).meterInput.steady =
            counted (s.steady.use g (offeredGain s.zoom)) := (State.meterInput_aside _).2.1
        rw [hsteady, hsum]
        exact ⟨rfl, by change s.steady.progress + 1 = 256; omega, by rw [← hhanded]; simp [State.gyroCounted, State.gyroHand, u],
          rfl, rfl⟩
      · intro gap p gain hold
        have hrest := hrun hg (by rintro ⟨h, -⟩; rw [h] at hs; simp at hs)
        have hwatched : s.steady.state.watched = true := by obtain hs | hs := hs <;> rw [hs] <;> rfl
        rw [Steady.use_runs hs, hwatched] at hrest
        obtain ⟨h1, h2, h3, h4, h5, h6⟩ := Steady.integrated_spec g gain s.steady
        have hgap : gyroGap s.steady.lastSeq g.seq = gap := rfl
        rw [hgap] at h2 h3 h4
        exact ⟨_, hrest, h1, h2, h3, rfl, h4, rfl, rfl, rfl, rfl, rfl, h5, h6⟩
    · obtain ⟨h1, h2, h3, h4, h5, h6, h7⟩ := u.steadyLost_leaves
      have hlost : exec (.gyroLost m) s = .next u.steadyLost := by
        refine (exec_gyroLost_late hp m hx hlate).trans (congrArg _ ?_)
        rw [State.shotSteadyReady_idle (by simpa using hw), ite_self]
      refine ⟨_, hlost, h1, h2, ?_, ?_, ?_, ?_, h5, ?_, fun e hs he => ?_⟩
      · rw [h3]; rfl
      · rw [h4]; rfl
      · rw [h3]; rfl
      · rw [h4]; rfl
      · rw [h6]; simp [u]
      · rw [h7, if_pos (by simpa [u] using hs), show u.steady.session = some e from he]
        rfl
  · intro offers
    have hoffers : z.state.offersGain = true ↔ offers := ZoomState.offersGain_iff z.state
    refine ⟨fun h => offeredGain_none (h.imp_left fun hn => Bool.eq_false_iff.mpr fun ho => hn (hoffers.mp ho)),
      fun c t ho hc ht hrise => ?_⟩
    rw [offeredGain_some (hoffers.mpr ho) hc ht]
    refine ⟨fun a ha hlt => gainAt_low ha hlt, fun i a b ha hb hac hcb => ?_,
      fun a ha hac => gainAt_high hrise ha hac⟩
    intro run rise
    have hrun : ((b.count - a.count : Nat) : Int) = run := by
      have := hrise i (i + 1) a b (Nat.lt_succ_self i) ha hb
      omega
    rw [gainAt_between hrise ha hb hac hcb, roundHalfUp, hrun]

end Sys2Proof.Machine
end

section
/-! PROOFS. The frame that the bytes on data in make, the refusals of a malformed one (O7), and the beginning and the
discarding of a frame (O8). -/

namespace Sys2Proof.Machine

variable {s : State}

/-! ### The bytes of a frame -/

/-- A whole frame takes no further byte (R185). -/
theorem LinkReceiver.foldl_whole {held : List Byte} (h : frameWhole held = true) (p late : Bool) (bs : List Byte) :
    bs.foldl (LinkReceiver.takeByte p) (.receiving late held) = .receiving late held := by
  induction bs with
  | nil => rfl
  | cons b t ih => rw [List.foldl_cons, LinkReceiver.takeByte, if_pos h, ih]

/-- A frame takes every byte while none of the frames before it is whole (R184). -/
theorem LinkReceiver.foldl_partial (p late : Bool) (bs : List Byte) : ∀ held : List Byte,
    (∀ k < bs.length, frameWhole (held ++ bs.take k) = false) →
    bs.foldl (LinkReceiver.takeByte p) (.receiving late held) = .receiving late (held ++ bs) := by
  induction bs with
  | nil => intro held _; rw [List.append_nil]; rfl
  | cons b t ih =>
    intro held h
    have h0 : frameWhole held = false := by simpa using h 0 (Nat.zero_lt_succ _)
    rw [List.foldl_cons, LinkReceiver.takeByte, if_neg (by simp [h0]), ih, List.append_assoc, List.singleton_append]
    intro k hk
    simpa using h (k + 1) (Nat.succ_lt_succ hk)

/-- The first byte of a frame is its first, whatever follows. -/
theorem LinkReceiver.foldl_first (p late : Bool) (bs held : List Byte) :
    ∃ t, bs.foldl (LinkReceiver.takeByte p) (.receiving late held) = .receiving late t ∧
      t.head? = (held ++ bs).head? := by
  induction bs generalizing held with
  | nil => exact ⟨held, rfl, by rw [List.append_nil]⟩
  | cons b t ih =>
    cases hw : frameWhole held with
    | true =>
      refine ⟨held, LinkReceiver.foldl_whole hw p late _, ?_⟩
      cases held with
      | nil => simp [frameWhole] at hw
      | cons n l => rfl
    | false =>
      obtain ⟨x, hx, hh⟩ := ih (held ++ [b])
      refine ⟨x, ?_, by simpa using hh⟩
      rw [List.foldl_cons, LinkReceiver.takeByte, if_neg (by simp [hw]), hx]

/-- What the bytes make of a link that hunts: all up to the start marker are passed over (R184). -/
theorem LinkReceiver.foldl_hunting (p : Bool) (bs : List Byte) :
    bs.foldl (LinkReceiver.takeByte p) .hunting =
      if 90#8 ∈ bs then
        (bs.dropWhile (· != 90#8)).tail.foldl (LinkReceiver.takeByte p) (.receiving p [])
      else .hunting := by
  induction bs with
  | nil => rfl
  | cons b t ih =>
    by_cases hb : b = 90#8
    · subst hb
      simp [LinkReceiver.takeByte]
    · have hb' : ¬90#8 = b := fun h => hb h.symm
      simp [LinkReceiver.takeByte, hb, hb', ih]

/-- A frame with a length byte up to 251 is whole with its second check byte (R185). -/
theorem frameWhole_cons {n : Byte} (hn : n.toNat ≤ 251) (t : List Byte) :
    frameWhole (n :: t) = decide (n.toNat + 3 ≤ t.length) := by
  simp [frameWhole, Nat.not_lt.2 hn]

/-- No part of a frame that ends before its bytes do is whole. -/
theorem frameWhole_take {n : Byte} {t : List Byte} (hn : n.toNat ≤ 251) (ht : t.length ≤ n.toNat + 3) {k : Nat}
    (hk : k < t.length + 1) : frameWhole ((n :: t).take k) = false := by
  cases k with
  | zero => rfl
  | succ k =>
    rw [List.take_succ_cons, frameWhole_cons hn]
    simp only [List.length_take, decide_eq_false_iff_not]
    omega

/-- A frame up to its second check byte is received as it stands. -/
theorem LinkReceiver.foldl_frame {n : Byte} {t held bs : List Byte} (p late : Bool) (hf : held ++ bs = n :: t)
    (hn : n.toNat ≤ 251) (ht : t.length ≤ n.toNat + 3) :
    bs.foldl (LinkReceiver.takeByte p) (.receiving late held) = .receiving late (n :: t) := by
  rw [← hf]
  refine LinkReceiver.foldl_partial p late bs held fun k hk => ?_
  have hl : held.length + bs.length = t.length + 1 := by rw [← List.length_append, hf, List.length_cons]
  have hp : held ++ bs.take k = (n :: t).take (held.length + k) := by
    rw [← hf, List.take_append, List.take_of_length_le (Nat.le_add_right _ _), Nat.add_sub_cancel_left]
  rw [hp]
  exact frameWhole_take hn ht (by omega)

/-! ### What a command's bytes leave -/

/-- The bytes a listening link takes with a command arrive one after the other (R184). -/
theorem State.clock_arrive_received (hc : s.link.condition = .listening) (m : Moment) (bytes : List Byte) :
    ((s.arrive m).clock bytes).link.receiver =
      (m.clocked ++ bytes).foldl (LinkReceiver.takeByte s.link.pending.isSome) s.link.receiver := by
  rw [List.foldl_append]
  show ((s.link.clock m.clocked).received bytes) = _
  simp only [Link.received, Link.clock_condition, Link.clock_pending, Link.clock_receiver, hc]

@[simp] theorem isOverlong_cons (n : Byte) (t : List Byte) : isOverlong (n :: t) = decide (251 < n.toNat) := rfl

/-- The frame that the bytes clocked and a command's own are part of, from the byte behind its start marker on
(R184). -/
def LinkReceiver.frameOf (r : LinkReceiver) (clocked bytes : List Byte) : List Byte :=
  match r with
  | .receiving _ held => held ++ clocked ++ bytes
  | _ => ((clocked ++ bytes).dropWhile (· != 90#8)).tail

theorem dropWhile_all {p : Byte → Bool} {l : List Byte} (h : ∀ x ∈ l, p x = true) : l.dropWhile p = [] := by
  induction l with
  | nil => rfl
  | cons x l ih =>
    rw [List.dropWhile_cons_of_pos (h x List.mem_cons_self)]
    exact ih fun y hy => h y (List.mem_cons_of_mem x hy)

/-- Whether the frame received is overlong says its first byte (R185). -/
theorem isOverlong_received (p : Bool) {r : LinkReceiver} (hr : r ≠ .overlong) (clocked bytes : List Byte) :
    isOverlong ((clocked ++ bytes).foldl (LinkReceiver.takeByte p) r).bytes =
      isOverlong (r.frameOf clocked bytes) := by
  have head : ∀ l l' : List Byte, l.head? = l'.head? → isOverlong l = isOverlong l' := by
    intro l l' h
    cases l <;> cases l' <;> simp_all
  cases r with
  | overlong => exact absurd rfl hr
  | receiving late held =>
    obtain ⟨t, ht, hh⟩ := LinkReceiver.foldl_first p late (clocked ++ bytes) held
    rw [ht]
    rw [← List.append_assoc] at hh
    exact head _ _ hh
  | hunting =>
    rw [LinkReceiver.foldl_hunting]
    split
    · obtain ⟨t, ht, hh⟩ := LinkReceiver.foldl_first p p ((clocked ++ bytes).dropWhile (· != 90#8)).tail []
      rw [ht]
      exact head _ _ hh
    · next hb =>
      have hd : (clocked ++ bytes).dropWhile (· != 90#8) = [] := by
        refine dropWhile_all fun x hx => ?_
        simpa using fun h : x = 90#8 => hb (h ▸ hx)
      simp [LinkReceiver.frameOf, hd, LinkReceiver.bytes]

end Sys2Proof.Machine
end

section
/-! PROOFS. The refusals of a malformed frame, and the link check bit by bit (O7). -/

namespace Sys2Proof.Machine

variable {s : State}

/-! ### The frame that arrives -/

/-- The bytes that make a frame: those received before, those clocked since, and the command's own (R184). -/
def FrameArrives (s : State) (m : Moment) (bytes frame : List Byte) : Prop :=
  (∃ held, s.link.receiver = .receiving false held ∧ frame = held ++ m.clocked ++ bytes) ∨
    (s.link.receiver = .hunting ∧ m.clocked ++ bytes = 90#8 :: frame)

/-- The link still takes frames when a command's bytes are in. -/
theorem Listening.clocked (h : Listening s) (bs : List Byte) : Listening (s.clock bs) := by
  obtain ⟨hp, hc, hn, hr, hl⟩ := h
  exact ⟨hp, hc, hn, fun he => hr ((s.link.received_overlong bs).1 he), Link.received_timely hn hl bs⟩

section
variable {m : Moment} {bytes frame : List Byte}

/-- The frame is received from some part of it on. -/
theorem FrameArrives.received (h : Listening s) (hf : FrameArrives s m bytes frame) :
    ∃ held rest, held ++ rest = frame ∧ ((s.arrive m).clock bytes).link.receiver =
      rest.foldl (LinkReceiver.takeByte false) (.receiving false held) := by
  obtain ⟨-, hc, hn, -, -⟩ := h
  have hr := State.clock_arrive_received hc m bytes
  rw [hn] at hr
  rcases hf with ⟨held, he, hf⟩ | ⟨he, hf⟩
  · rw [he] at hr
    exact ⟨held, m.clocked ++ bytes, by rw [hf, List.append_assoc], hr⟩
  · rw [he, hf] at hr
    exact ⟨[], frame, rfl, hr⟩

/-- A frame up to its second check byte is received as it stands. -/
theorem FrameArrives.received_whole (h : Listening s) {n : Byte} {t : List Byte}
    (hf : FrameArrives s m bytes (n :: t)) (hn : n.toNat ≤ 251) (ht : t.length ≤ n.toNat + 3) :
    ((s.arrive m).clock bytes).link.receiver = .receiving false (n :: t) := by
  obtain ⟨held, rest, hb, hr⟩ := hf.received h
  rw [hr, LinkReceiver.foldl_frame false false hb hn ht]

/-- A frame without bytes. -/
theorem FrameArrives.received_nil (h : Listening s) (hf : FrameArrives s m bytes []) :
    ((s.arrive m).clock bytes).link.receiver = .receiving false [] := by
  obtain ⟨held, rest, hb, hr⟩ := hf.received h
  obtain ⟨rfl, rfl⟩ := List.append_eq_nil_iff.1 hb
  exact hr

/-- The first byte of a frame is received, whatever follows. -/
theorem FrameArrives.received_first (h : Listening s) {n : Byte} {t : List Byte}
    (hf : FrameArrives s m bytes (n :: t)) :
    ∃ x, ((s.arrive m).clock bytes).link.receiver = .receiving false (n :: x) := by
  obtain ⟨held, rest, hb, hr⟩ := hf.received h
  obtain ⟨x, hx, hh⟩ := LinkReceiver.foldl_first false false rest held
  rw [hb] at hh
  cases x with
  | nil => exact nomatch hh
  | cons a x =>
    obtain rfl : a = n := by simpa using hh
    exact ⟨x, hr.trans hx⟩

/-! ### The answers -/

/-- The answer replaces what the command's own bytes left of the link. -/
theorem frameGate_respond (h : Listening s) (m : Moment) (bytes : List Byte) (k : Nat) (a : Answer) :
    frameGate (State.respond k a) ((s.arrive m).clock bytes) = (s.arrive m).hunt.respond k a :=
  frameGate_takes ((h.arrive m).clocked bytes) _

/-- FRAME CHECK of a frame that R185 refuses so. -/
theorem exec_frameCheck_refused (h : Listening s) {ok : Bool} {k : Nat} {b : List Byte}
    (hr : ((s.arrive m).clock bytes).link.receiver = .receiving false b)
    (hv : frameVerdict ok b = some (.frameCheck k)) :
    exec (.frameCheck m { bytes := bytes, accepted := ok }) s =
      .next (((s.arrive m).hunt.respond k (.frameCheck, .empty, none)).frameOver (isOverlong b)) := by
  change execFrameCheck m { bytes := bytes, accepted := ok } s = _
  rw [execFrameCheck, event_powered h.1]
  dsimp only
  rw [hr, LinkReceiver.bytes, hv]
  exact congrArg (fun u : State => Host.Outcome.next (u.frameOver (isOverlong b))) (frameGate_respond h m bytes k _)

/-- FRAME CHECK of a frame taken as a request does nothing (log 4). -/
theorem exec_frameCheck_taken (h : Listening s) {ok : Bool} {k : Nat} {b : List Byte}
    (hr : ((s.arrive m).clock bytes).link.receiver = .receiving false b)
    (hv : frameVerdict ok b = some (.taken k)) :
    exec (.frameCheck m { bytes := bytes, accepted := ok }) s = .next ((s.arrive m).clock bytes) := by
  change execFrameCheck m { bytes := bytes, accepted := ok } s = _
  rw [execFrameCheck, event_powered h.1]
  dsimp only
  rw [hr, LinkReceiver.bytes, hv]

/-- UNKNOWN REQUEST discards the snapshot (R185). -/
theorem exec_unknownRequest (h : Listening s) {k : Nat} {b : List Byte}
    (hr : ((s.arrive m).clock bytes).link.receiver = .receiving false b)
    (hv : frameVerdict true b = some (.unknownRequest k)) :
    exec (.unknownRequest m bytes) s =
      .next ((s.arrive m).hunt.dropSnapshot.respond k (.unknownRequest, .empty, none)) := by
  change execUnknownRequest m bytes s = _
  rw [execUnknownRequest, event_powered h.1]
  dsimp only
  rw [hr, LinkReceiver.bytes, hv]
  exact congrArg Host.Outcome.next (frameGate_takes ((h.arrive m).clocked bytes) _)

/-- FRAME BROKEN of a frame that is not whole. -/
theorem exec_frameBroken (h : Listening s) {b : List Byte}
    (hr : ((s.arrive m).clock bytes).link.receiver = .receiving false b) (hw : frameWhole b = false) :
    exec (.frameBroken m bytes) s = .next ((s.arrive m).hunt.respond (byteAt b 1) (.frameCheck, .empty, none)) := by
  change execFrameBroken m bytes s = _
  rw [execFrameBroken, event_powered h.1]
  dsimp only
  rw [hr]
  dsimp only
  rw [if_neg (by simp [hw])]
  exact congrArg Host.Outcome.next (frameGate_respond h m bytes _ _)

end

/-! ### The steps over a frame's bytes -/

/-- The kinds whose request has no body (section 10.4). -/
def bareKinds : List Nat :=
  [2, 6, 7, 8, 11, 14, 15, 16, 17, 19, 20, 22, 23, 26, 31, 34, 36, 37, 38, 39, 40, 41, 44, 45, 46]

/-- The kinds whose request's body is a number or a mask (section 10.4). -/
def doubleKinds : List Nat := [9, 12, 42]

theorem fixedBody_double {k : Nat} (h : k ∈ doubleKinds) : fixedBody k = some 2 :=
  if_pos (by simpa [doubleKinds] using h)

theorem not_bare_of_double {k : Nat} (h : k ∈ doubleKinds) : k ∉ bareKinds := by
  simp only [doubleKinds, List.mem_cons, List.not_mem_nil, or_false] at h
  rcases h with rfl | rfl | rfl <;> decide

theorem fixedBody_bare {k : Nat} (h : k ∈ bareKinds) : fixedBody k = some 0 :=
  (if_neg fun hd => not_bare_of_double (by simpa [doubleKinds] using hd) h).trans (if_pos h)

theorem fixedBody_other {k : Nat} (h2 : k ∉ doubleKinds) (h0 : k ∉ bareKinds) : fixedBody k = none :=
  (if_neg (by simpa [doubleKinds] using h2)).trans (if_neg h0)

/-- The body lengths that a request takes (R185). -/
theorem bodyLengthOk_iff (ok : Bool) (k n : Nat) :
    bodyLengthOk ok k n = true ↔ k ∈ bareKinds ∧ n = 0 ∨ k ∈ doubleKinds ∧ n = 2 ∨
      k ∉ bareKinds ∧ k ∉ doubleKinds ∧ n ≠ 0 ∧ ok = true := by
  unfold bodyLengthOk
  by_cases h2 : k ∈ doubleKinds
  · simp [fixedBody_double h2, h2, not_bare_of_double h2]
  · by_cases h0 : k ∈ bareKinds
    · simp [fixedBody_bare h0, h0, h2]
    · simp only [fixedBody_other h2 h0, Bool.and_eq_true, decide_eq_true_eq, Nat.pos_iff_ne_zero]
      refine ⟨fun ⟨hok, hn⟩ => .inr (.inr ⟨h0, h2, hn, hok⟩), fun h => ?_⟩
      obtain ⟨hk, -⟩ | ⟨hk, -⟩ | ⟨-, -, hn, hok⟩ := h
      · exact absurd hk h0
      · exact absurd hk h2
      · exact ⟨hok, hn⟩

/-- A frame whose length byte is above 251 is refused on it alone (R185). -/
theorem frameVerdict_overlong {n : Byte} (hn : 251 < n.toNat) (ok : Bool) (t : List Byte) :
    frameVerdict ok (n :: t) = some (.frameCheck 0) := if_pos hn

/-- R185's steps over a frame whose length byte is its body's. -/
theorem frameVerdict_frame {n : Byte} {body : List Byte} (hn : n.toNat = body.length) (hl : body.length ≤ 251)
    (ok : Bool) (k hi lo : Byte) :
    frameVerdict ok (n :: (k :: body ++ [hi, lo])) =
      if hi.toNat * 256 + lo.toNat ≠ (linkCheck (n :: k :: body)).toNat then some (.frameCheck k.toNat)
      else if k.toNat < 1 ∨ 46 < k.toNat then some (.unknownRequest k.toNat)
      else if !bodyLengthOk ok k.toNat n.toNat then some (.frameCheck k.toNat)
      else some (.taken k.toNat) := by
  have h1 : byteAt (k :: (body ++ [hi, lo])) 0 = k.toNat := rfl
  have h2 : halfAt (k :: (body ++ [hi, lo])) (n.toNat + 1) = hi.toNat * 256 + lo.toNat := by
    simp [halfAt, byteAt, hn]
  have h3 : (k :: (body ++ [hi, lo])).take (n.toNat + 1) = k :: body := by simp [hn]
  rw [List.cons_append, frameVerdict, if_neg (by omega), if_neg (by simp [hn]), h1, h2, h3]

/-! ### The link check -/

/-- One byte more into the link check, its highest bit first (R185). -/
theorem linkCheck_append (bs : List Byte) (b : Byte) :
    linkCheck (bs ++ [b]) =
      [7, 6, 5, 4, 3, 2, 1, 0].foldl (fun r i => linkCheckBit r (b.getLsbD i)) (linkCheck bs) := by
  rw [linkCheck, List.foldl_append]
  rfl

theorem linkCheckBit_eq (r : Half) (x : Bool) :
    linkCheckBit r x = if r.msb = x then r <<< 1 else (r <<< 1) ^^^ 0x1021#16 := by
  by_cases h : r.msb = x <;> simp [linkCheckBit, h]

/-! ### O7 -/

/-- Settles O7: the bytes that arrive are the frame's, and R185's steps are taken over them. -/
theorem malformedFramesAreRefused : Obligations.MalformedFramesAreRefused := by
  refine ⟨fun m s bytes frame h hf => ?_, ?_⟩
  · replace hf : FrameArrives s m bytes frame := hf
    refine ⟨?_, ?_, ?_, ?_, ?_⟩
    · rintro n rest ok rfl hn
      obtain ⟨x, hx⟩ := hf.received_first h
      rw [exec_frameCheck_refused h hx (frameVerdict_overlong hn ok x), isOverlong_cons, decide_eq_true hn]
      rfl
    · rintro n k hi lo body rfl hn hl
      have hx := hf.received_whole h (n := n) (t := k :: body ++ [hi, lo]) (by omega) (by simp [hn])
      have hlong : isOverlong (n :: (k :: body ++ [hi, lo])) = false := decide_eq_false (by omega)
      have refused : ∀ ok, frameVerdict ok (n :: (k :: body ++ [hi, lo])) = some (.frameCheck k.toNat) →
          exec (.frameCheck m { bytes := bytes, accepted := ok }) s =
            .next ((s.arrive m).hunt.respond k.toNat (.frameCheck, .empty, none)) := by
        intro ok hv
        rw [exec_frameCheck_refused h hx hv, hlong]
        rfl
      refine ⟨fun hc ok => refused ok ?_, fun hc hk => ?_, fun hc h1 h46 ok => ?_⟩
      · rw [frameVerdict_frame hn hl, if_pos hc]
      · refine exec_unknownRequest h hx ?_
        rw [frameVerdict_frame hn hl, if_neg (not_not_intro hc), if_pos (hk.imp_left fun h => by omega)]
      · have accepted : bodyLengthOk ok k.toNat n.toNat = true ↔ _ := bodyLengthOk_iff ok k.toNat n.toNat
        rw [hn, List.length_eq_zero_iff, Ne, List.length_eq_zero_iff] at accepted
        refine ⟨fun ha => refused ok ?_, fun ha => exec_frameCheck_taken (k := k.toNat) h hx ?_⟩
        · rw [frameVerdict_frame hn hl, if_neg (not_not_intro hc), if_neg (by omega), hn,
            if_pos (by simpa using mt accepted.1 ha)]
        · rw [frameVerdict_frame hn hl, if_neg (not_not_intro hc), if_neg (by omega), hn, accepted.2 ha]
          rfl
    · rintro rfl
      exact exec_frameBroken h (hf.received_nil h) rfl
    · rintro n rfl hn
      exact exec_frameBroken h (hf.received_whole h hn (Nat.zero_le _)) (by simp [frameWhole_cons hn])
    · rintro n k rest rfl hn ht
      refine exec_frameBroken h (hf.received_whole h hn ?_) ?_
      · rw [List.length_cons]
        omega
      · rw [frameWhole_cons hn, List.length_cons]
        exact decide_eq_false (by omega)
  · refine ⟨rfl, fun bs b => ?_⟩
    rw [linkCheck_append]
    simp only [linkCheckBit_eq]

end Sys2Proof.Machine
end

section
/-! PROOFS. The beginning and the discarding of a frame, and the bytes of a response (O8). -/

namespace Sys2Proof.Machine

variable {s : State}

/-! ### The bytes clocked out -/

/-- The bytes of a response clocked out after `n` more, `c` being out (R186). -/
def Response.outAfter (r : Response) (c n : Nat) : Nat :=
  match r.held, r.body with
  | some _, _ => c
  | none, .empty => min 5 (c + n)
  | none, .events b => min (b.length + 5) (c + n)
  | none, _ => min 255 (c + n)

theorem Link.outAfter_pending {l : Link} {r : Response} (h : l.pending = some r) (n : Nat) :
    l.outAfter n = r.outAfter l.clockedOut n := by
  cases hr : r.held with
  | some x =>
    rw [Link.outAfter_held h hr]
    simp only [Response.outAfter, hr]
  | none =>
    rw [Link.outAfter_ready h hr]
    cases hb : r.body <;> simp only [Response.beforeLast, bodyBytes, Response.outAfter, hr, hb] <;> rfl

/-- Bytes clocked in two parts count as in one. -/
theorem Response.outAfter_outAfter (r : Response) (c k n : Nat) :
    r.outAfter (r.outAfter c k) n = r.outAfter c (k + n) := by
  cases hr : r.held with
  | some x => simp only [Response.outAfter, hr]
  | none => cases hb : r.body <;> simp only [Response.outAfter, hr, hb] <;> omega

/-! ### Frames begun and discarded -/

/-- A link that hunts begins a frame at the start marker (R184). -/
theorem exec_requestStartMarker {m : Moment} (hp : s.supply.powered = true) (hc : s.link.condition = .listening)
    (hr : (s.arrive m).link.receiver = .hunting) :
    exec (.requestStartMarker m) s = .next { s.arrive m with link :=
      { (s.arrive m).link with receiver := .receiving s.link.pending.isSome []
                               clockedOut := (s.arrive m).link.outAfter 1 } } := by
  change execRequestStartMarker m s = _
  rw [execRequestStartMarker, event_powered hp, if_pos hr]
  have hx : (s.arrive m).link.received [requestMarker] = .receiving s.link.pending.isSome [] := by
    simp only [Link.received, hr, show (s.arrive m).link.condition = .listening from hc]
    rfl
  exact congrArg (fun x : LinkReceiver => Host.Outcome.next { s.arrive m with link :=
    { (s.arrive m).link with receiver := x, clockedOut := (s.arrive m).link.outAfter 1 } }) hx

/-- What the end of a discarded frame leaves: its bytes are passed over where its length byte is above 251 (R185). -/
def receiverAfter : List Byte → LinkReceiver
  | n :: _ => if 251 < n.toNat then .overlong else .hunting
  | [] => .hunting

theorem State.frameOver_hunt (u : State) (f : EventFlag) (b : List Byte) :
    (u.hunt.setFlag f).frameOver (isOverlong b) =
      { u with link := { u.link with receiver := receiverAfter b } }.setFlag f := by
  cases b with
  | nil => rfl
  | cons n t =>
    by_cases hn : 251 < n.toNat <;> simp only [isOverlong_cons, State.frameOver, receiverAfter, hn] <;> rfl

theorem receiverAfter_congr {b c : List Byte} (h : isOverlong b = isOverlong c) : receiverAfter b = receiverAfter c := by
  have said : ∀ l, receiverAfter l = if isOverlong l then .overlong else .hunting := by
    intro l
    cases l with
    | nil => rfl
    | cons n t => by_cases hn : 251 < n.toNat <;> simp [receiverAfter, hn]
  rw [said, said, h]

/-- A frame that began while a response was pending is discarded with LINK_ORDER (R186). -/
theorem exec_linkOrder {m : Moment} (bytes : List Byte) (hp : s.supply.powered = true)
    (hc : s.link.condition = .listening) (hr : s.link.receiver ≠ .overlong)
    (hl : s.link.pending.isSome = true ∨ s.link.receiver.late = true) :
    exec (.linkOrder m bytes) s = .next ({ s.arrive m with link := { (s.arrive m).link with
      receiver := receiverAfter (s.link.receiver.frameOf m.clocked bytes)
      clockedOut := (s.arrive m).link.outAfter bytes.length } }.setFlag .linkOrder) := by
  have hn : ((s.arrive m).clock bytes).link.receiver ≠ .overlong := fun he =>
    hr ((s.link.received_overlong m.clocked).1 (((s.arrive m).link.received_overlong bytes).1 he))
  have hd : ((s.arrive m).clock bytes).link.pending.isSome = true ∨
      ((s.arrive m).clock bytes).link.receiver.late = true :=
    hl.imp id fun h => Link.received_late (l := (s.arrive m).link) (Link.received_late h m.clocked) bytes
  have hb : receiverAfter ((s.arrive m).clock bytes).link.receiver.bytes =
      receiverAfter (s.link.receiver.frameOf m.clocked bytes) := by
    rw [State.clock_arrive_received hc]
    exact receiverAfter_congr (isOverlong_received _ hr _ _)
  change execLinkOrder m bytes s = _
  rw [execLinkOrder, event_powered hp]
  dsimp only
  rw [if_pos ⟨hc, hn, hd⟩, State.frameOver_hunt, hb]
  rfl

/-- After an overlong frame the quiet makes the link hunt again (R185). -/
theorem exec_linkQuietResume {m : Moment} (hp : s.supply.powered = true) (hr : s.link.receiver = .overlong) :
    exec (.linkQuietResume m) s = .next (s.arrive m).hunt := by
  change execLinkQuietResume m s = _
  rw [execLinkQuietResume, event_powered hp]
  exact congrArg _ (if_pos ((s.link.received_overlong m.clocked).2 hr))

/-! ### The bytes of a response -/

theorem dataOut_held {r : Response} {x : HeldBy} (h : s.link.pending = some r) (hr : r.held = some x) :
    dataOut s = some 0#8 := by
  simp [dataOut, linkReady, Link.ready, h, hr]

theorem dataOut_ready {r : Response} (h : s.link.pending = some r) (hr : r.held = none) :
    dataOut s = responseByte r s.link.clockedOut := by
  simp [dataOut, linkReady, Link.ready, h, hr]

/-- Of every response the marker, the kind and the result code are known (section 10.4). -/
theorem responseByte_known (r : Response) :
    responseByte r 0 = some 165#8 ∧ responseByte r 2 = some (BitVec.ofNat 8 r.kind) ∧
      responseByte r 3 = some (BitVec.ofNat 8 r.code.value) := by
  cases hb : bodyBytes r.body <;> simp [responseByte, responseFrame, hb]

/-- Where the body's layout is known, so is every byte (section 10.4). -/
theorem responseByte_of_body {r : Response} {b : List Byte} (h : bodyBytes r.body = some b) (i : Nat) :
    responseByte r i =
      (165#8 :: ([BitVec.ofNat 8 b.length, BitVec.ofNat 8 r.kind, BitVec.ofNat 8 r.code.value] ++ b) ++
        Half.toBytes (linkCheck
          ([BitVec.ofNat 8 b.length, BitVec.ofNat 8 r.kind, BitVec.ofNat 8 r.code.value] ++ b)))[i]? := by
  simp [responseByte, responseFrame, h]

/-! ### O8 -/

/-- Settles O8: the link's receiver over the bytes that arrive, and the count of those clocked out. -/
theorem framesBeginAndAreDiscarded : Obligations.FramesBeginAndAreDiscarded := by
  refine ⟨fun m s hp => ⟨fun hn => Link.outAfter_none hn _, fun r hr => Link.outAfter_pending hr _, ?_, ?_, ?_, ?_,
    exec_linkQuietResume hp⟩, fun s r h => ⟨fun x => dataOut_held h, fun hr => ?_, fun hr hb => ?_, fun b hr hb => ?_⟩,
    fun s hn => by simp [dataOut, hn]⟩
  · intro hc hr hn
    rw [exec_requestStartMarker hp hc hr, hn, Link.outAfter_none (show (s.arrive m).link.pending = none from hn)]
    rfl
  · intro r hc hr hq
    rw [exec_requestStartMarker hp hc hr, hq,
      Link.outAfter_pending (show (s.arrive m).link.pending = some r from hq),
      State.arrive_link, Link.clock_clockedOut, Link.outAfter_pending hq, Response.outAfter_outAfter]
    rfl
  · intro r bytes hc hr hq
    rw [exec_linkOrder bytes hp hc hr (.inl (by simp [hq])),
      Link.outAfter_pending (show (s.arrive m).link.pending = some r from hq),
      State.arrive_link, Link.clock_clockedOut, Link.outAfter_pending hq, Response.outAfter_outAfter]
    rfl
  · intro bytes hc hl hn
    have hr : s.link.receiver ≠ .overlong := fun he => by simp [he, LinkReceiver.late] at hl
    rw [exec_linkOrder bytes hp hc hr (.inr hl), Link.outAfter_none (show (s.arrive m).link.pending = none from hn)]
    rfl
  · rw [dataOut_ready h hr]
    obtain ⟨h0, h2, h3⟩ := responseByte_known r
    exact ⟨fun hc => hc ▸ h0, fun hc => hc ▸ h2, fun hc => hc ▸ h3⟩
  · rw [dataOut_ready h hr, responseByte_of_body (b := []) (by rw [hb]; rfl)]
    rfl
  · rw [dataOut_ready h hr, responseByte_of_body (b := b) (by rw [hb]; rfl)]
    rfl

end Sys2Proof.Machine
end

section
/-! PROOFS. DISARM with two records of one number that the burst names twice (O58): the first release takes the number
from the record that has it first, so the second finds the other record. -/

namespace Sys2Proof.Machine

/-- A RESERVED record of picture number 5. -/
def reservedFive : PicRecord :=
  { number := some 5, state := .reserved, cause := none, armed := none, measured := none, focusStep := none
    steady := none, peakShift := none, remaining := 0, extent := [], refreshExtent := none, picture := none
    protect := false, rating := 0, caption := [], trim := none, peak := 0, weak := false, unreadable := false
    holds := 0 }

/-- An armed burst that names picture number 5 twice. -/
def burstOfFives : Burst :=
  { group := 1, count := 2, numbers := [5, 5], next := 1, released := false, disarmed := false, tv := 18, av := 11 }

/-- An armed part with two records of picture number 5. -/
def armedTwice : State :=
  { State.reset with
    supply := { State.reset.supply with shutdown := .running }
    cat := { State.reset.cat with places := [(0, reservedFive), (1, reservedFive)] }
    shot := { State.reset.shot with state := .armed, burst := some burstOfFives } }

/-- A command that comes at once. -/
def atOnce : Moment :=
  { dt := 0, shutterClosed := false, focusHome := false, focusSteps := 0, outReady := true, clocked := [], lane := []
    gyro := [] }

theorem armedTwice_canonical : Canonical armedTwice := by
  obtain ⟨-, hmemory, hwriter, hmap, hchain⟩ := resetStateIsCanonical
  exact ⟨⟨by decide, by decide⟩, hmemory, hwriter, hmap, hchain⟩

theorem armedTwice_taking : Taking armedTwice := by decide +kernel

/-- The record at place 1 is not the one that number 5 finds. -/
theorem armedTwice_second : armedTwice.record 1 = some reservedFive ∧
    ∀ k ∈ burstOfFives.numbers, findNumber k armedTwice.cat.places ≠ some (1, reservedFive) := by decide +kernel

/-- DISARM releases both records. -/
theorem armedTwice_disarmed {t : State} (h : exec (.disarm atOnce) armedTwice = .next t) : t.record 1 = none := by
  have hexec := request_taking armedTwice_taking 38 atOnce fun s => (s.shotDisarm, ok)
  have ht : t = (taken 38 atOnce armedTwice).shotDisarm.respond 38 ok := by
    injection h.symm.trans hexec
  rw [ht]
  decide +kernel

/-- Refutes O58: the second record of number 5 is none that a number of the burst finds at first, and DISARM releases it
all the same. -/
theorem not_shotsArmAndDisarm : ¬ Obligations.ShotsArmAndDisarm := by
  rintro ⟨-, hdisarm⟩
  obtain ⟨-, -, -, hrelease, -⟩ := hdisarm atOnce armedTwice armedTwice_taking
  obtain ⟨t, ht, -, hkept, -⟩ := hrelease burstOfFives armedTwice_canonical rfl (by decide) (by decide) (.inr rfl)
  obtain ⟨hsecond, hother⟩ := armedTwice_second
  exact nomatch (armedTwice_disarmed ht).symm.trans (hkept 1 reservedFive hsecond hother)

end Sys2Proof.Machine
end

section
/-! PROOFS. What a release leaves of the records, and what an exposure that starts leaves of the shot (R171 to R173,
R179). -/

namespace Sys2Proof.Machine

variable {s w : State} {q : List Instr}

/-! ### The records still RESERVED -/

/-- One number's release erases its record's place when it is RESERVED, and nothing else (R6). -/
theorem State.releaseReserved_places (s : State) (n : Nat) :
    (s.releaseReserved n).cat.places = s.cat.places ∨ ∃ p r, findNumber n s.cat.places = some (p, r) ∧
      r.state = .reserved ∧ (s.releaseReserved n).cat.places = Table.erase p s.cat.places := by
  unfold State.releaseReserved
  rcases hf : findNumber n s.cat.places with _ | ⟨p, r⟩
  · left
    rw [State.onNumber, hf]
  · rw [State.onNumber_some hf]
    by_cases hr : r.state = .reserved
    · rw [if_pos hr, State.freePlace_places]
      exact .inr ⟨p, r, rfl, hr, rfl⟩
    · rw [if_neg hr]
      exact .inl rfl

theorem State.releaseReserved_found {p : Nat} {r : PicRecord} {n : Nat}
    (hf : findNumber n s.cat.places = some (p, r)) (hr : r.state = .reserved) :
    (s.releaseReserved n).cat.places = Table.erase p s.cat.places := by
  rw [State.releaseReserved, State.onNumber_some hf, if_pos hr, State.freePlace_places]

theorem State.releaseReserved_wf (h : Table.wf anyValue s.cat.places = true) (n : Nat) :
    Table.wf anyValue (s.releaseReserved n).cat.places = true := by
  obtain he | ⟨p, r, -, -, he⟩ := s.releaseReserved_places n
  · rw [he]
    exact h
  · rw [he]
    exact Table.wf_erase h

/-- A record in another state keeps its place (R6). -/
theorem State.releaseReserved_keeps (h : Table.wf anyValue s.cat.places = true) {p : Nat} {r : PicRecord}
    (hp : s.record p = some r) (hr : r.state ≠ .reserved) (n : Nat) : (s.releaseReserved n).record p = some r := by
  unfold State.record at hp ⊢
  obtain he | ⟨k, x, hf, hx, he⟩ := s.releaseReserved_places n
  · rw [he, hp]
  · have hk : Table.get k s.cat.places = some x := Table.get_of_mem h (findNumber_mem hf).1
    have hne : p ≠ k := by
      rintro rfl
      exact hr ((Option.some_inj.1 (hp.symm.trans hk)) ▸ hx)
    rw [he, Table.get_erase_other hne, hp]

/-- Erasing another place leaves the record that a number finds. -/
theorem findNumber_erase_other {k p j : Nat} {x : PicRecord} {l : List (Nat × PicRecord)}
    (hf : findNumber k l = some (j, x)) (hj : j ≠ p) : findNumber k (Table.erase p l) = some (j, x) := by
  induction l with
  | nil => exact hf
  | cons e l ih =>
    obtain ⟨i, y⟩ := e
    rw [findNumber] at hf
    rw [Table.erase]
    split at hf
    next hy =>
      cases hf
      rw [if_neg hj, findNumber, if_pos hy]
    next hy =>
      split
      · exact hf
      · rw [findNumber, if_neg hy]
        exact ih hf

/-- A FREE place stays FREE. -/
theorem State.releaseReserved_none (h : Table.wf anyValue s.cat.places = true) {p : Nat} (hp : s.record p = none)
    (n : Nat) : (s.releaseReserved n).record p = none := by
  unfold State.record at hp ⊢
  obtain he | ⟨j, x, -, -, he⟩ := s.releaseReserved_places n
  · rw [he, hp]
  · rw [he]
    by_cases hj : p = j
    · rw [hj]
      exact Table.get_erase_same h
    · rw [Table.get_erase_other hj, hp]

/-- A record that a number finds is released, or found all the same (R6). -/
theorem State.releaseReserved_found_or_none (h : Table.wf anyValue s.cat.places = true) {k p : Nat} {r : PicRecord}
    (hf : findNumber k s.cat.places = some (p, r)) (n : Nat) :
    (s.releaseReserved n).record p = none ∨ findNumber k (s.releaseReserved n).cat.places = some (p, r) := by
  unfold State.record
  obtain he | ⟨j, x, -, -, he⟩ := s.releaseReserved_places n
  · rw [he]
    exact .inr hf
  · rw [he]
    by_cases hj : p = j
    · rw [hj]
      exact .inl (Table.get_erase_same h)
    · exact .inr (findNumber_erase_other hf hj)

section
variable {ns : List Nat} {p : Nat} {r : PicRecord}

theorem State.releaseAll_keeps (h : Table.wf anyValue s.cat.places = true) (hp : s.record p = some r)
    (hr : r.state ≠ .reserved) : (ns.foldl (fun s n => s.releaseReserved n) s).record p = some r := by
  induction ns generalizing s with
  | nil => exact hp
  | cons n ns ih => exact ih (State.releaseReserved_wf h n) (State.releaseReserved_keeps h hp hr n)

theorem State.releaseAll_none (h : Table.wf anyValue s.cat.places = true) {k : Nat} (hr : r.state = .reserved)
    (hf : s.record p = none ∨ findNumber k s.cat.places = some (p, r) ∧ k ∈ ns) :
    (ns.foldl (fun s n => s.releaseReserved n) s).record p = none := by
  induction ns generalizing s with
  | nil =>
    obtain hn | ⟨-, hm⟩ := hf
    · exact hn
    · cases hm
  | cons n ns ih =>
    refine ih (State.releaseReserved_wf h n) ?_
    obtain hn | ⟨hf, hm⟩ := hf
    · exact .inl (State.releaseReserved_none h hn n)
    · obtain rfl | hm := List.mem_cons.1 hm
      · left
        rw [State.record, State.releaseReserved_found hf hr]
        exact Table.get_erase_same h
      · exact (State.releaseReserved_found_or_none h hf n).imp_right fun hf => ⟨hf, hm⟩

end

/-- The release of a burst keeps every record in another state (R179). -/
theorem State.record_shotRelease_keeps (h : Table.wf anyValue s.cat.places = true) {p : Nat} {r : PicRecord}
    (hp : s.record p = some r) (hr : r.state ≠ .reserved) : s.shotRelease.record p = some r := by
  unfold State.shotRelease
  split
  · exact State.releaseAll_keeps h hp hr
  · exact hp

/-- The release of a burst frees the RESERVED records of its numbers (R179). -/
theorem State.record_shotRelease_none (h : Table.wf anyValue s.cat.places = true) {b : Burst}
    (hb : s.shot.burst = some b) {k p : Nat} {r : PicRecord} (hk : k ∈ b.numbers)
    (hf : findNumber k s.cat.places = some (p, r)) (hr : r.state = .reserved) : s.shotRelease.record p = none := by
  unfold State.shotRelease
  rw [hb]
  exact State.releaseAll_none h hr (.inr ⟨hf, hk⟩)

end Sys2Proof.Machine
end

section
/-! PROOFS. An exposure's start and its end, field by field (R172, R173, R176). -/

namespace Sys2Proof.Machine

variable {s w : State}

/-! ### The session -/

/-- The Stabilizer once an exposure has opened its session (R161). -/
def Steady.opens (x : Steady) : Steady :=
  match x.state with
  | .active => { x with
      state := .hold, session := some { outcome := .steady, peak := peakOf x, clipSeen := x.pitch.clip || x.yaw.clip } }
  | .fault => { x with session := some { outcome := .lost, peak := 0, clipSeen := false } }
  | _ => { x with session := some { outcome := .off, peak := 0, clipSeen := false } }

@[simp] theorem State.steadyOpen_steady (s : State) : s.steadyOpen.steady = s.steady.opens := by
  unfold State.steadyOpen Steady.opens
  split <;> simp_all

@[simp] theorem State.steadyOpen_aside (s : State) :
    s.steadyOpen.timers = s.timers ∧ s.steadyOpen.lines = s.lines ∧ s.steadyOpen.events = s.events ∧
    s.steadyOpen.zoom = s.zoom ∧ s.steadyOpen.focus = s.focus := by
  unfold State.steadyOpen
  split <;> simp

/-- The Stabilizer once the session is closed (R163). -/
def Steady.closes (x : Steady) : Steady :=
  { x with session := none, kept := none, state := if x.state = .hold then .active else x.state }

@[simp] theorem State.steadyClose_steady (s : State) : s.steadyClose.steady = s.steady.closes := by
  simp [State.steadyClose, Steady.closes]

/-! ### The exposure's start -/

/-- The number of the burst's next record. -/
def Burst.nextNumber (b : Burst) : Nat := nth b.numbers (b.next - 1)

/-- The exposure that the burst's next record starts. -/
def Burst.inHand (b : Burst) : InHand :=
  { number := b.nextNumber, tv := b.tv, av := b.av, closedAt := none, cutShort := false }

/-- EXPOSE is high: record, shot, timers and session (R172). -/
def State.shotOpened (b : Burst) (s : State) : State :=
  let t := (s.shotExpose b.nextNumber).onShot fun x =>
    { x with state := .exposing, burst := some { b with next := b.next + 1 }, exposure := some b.inHand }
  { t with timers := { t.timers with frame := some 0, shutter := some 0 } }.steadyOpen

theorem State.shotExpose_recordsOnly (n : Nat) (s : State) : RecordsOnly s (s.shotExpose n) :=
  RecordsOnly.onNumber s n fun _ _ _ => .claim _ _ _

@[simp] theorem State.shotExpose_frame (n : Nat) (s : State) :
    (s.shotExpose n).timers = s.timers ∧ (s.shotExpose n).lines = s.lines ∧ (s.shotExpose n).supply = s.supply ∧
    (s.shotExpose n).events = s.events ∧ (s.shotExpose n).store = s.store ∧ (s.shotExpose n).meter = s.meter ∧
    (s.shotExpose n).focus = s.focus ∧ (s.shotExpose n).steady = s.steady ∧ (s.shotExpose n).shot = s.shot := by
  simp [(State.shotExpose_recordsOnly n s).frame]

@[simp] theorem State.shotOpened_fields (b : Burst) (s : State) :
    (s.shotOpened b).shot = { s.shot with
      state := .exposing, burst := some { b with next := b.next + 1 }, exposure := some b.inHand } ∧
    (s.shotOpened b).timers = { s.timers with frame := some 0, shutter := some 0 } ∧
    (s.shotOpened b).steady = s.steady.opens ∧ (s.shotOpened b).lines = s.lines ∧
    (s.shotOpened b).supply = s.supply ∧ (s.shotOpened b).events = s.events ∧ (s.shotOpened b).store = s.store ∧
    (s.shotOpened b).focus = s.focus := by
  simp [State.shotOpened]

/-- The next record becomes EXPOSING with its focus step (R6, R172). -/
theorem State.shotOpened_record {b : Burst} {p : Nat} {r : PicRecord}
    (hf : findNumber b.nextNumber s.cat.places = some (p, r)) :
    (s.shotOpened b).cat.places = Table.put p { r with state := .exposing, focusStep := s.focus.position } s.cat.places ∧
    (s.shotOpened b).writer = s.writer.mark (.place p) := by
  simp [State.shotOpened, State.shotExpose, State.onNumber_some hf]

/-- The exposure starts, and is closed at once where the learned delay is not below its time (R172). -/
theorem State.shotStart_eq {b : Burst} (hb : s.shot.burst = some b) : s.shotStart =
    if exposureTime b.tv ≤ s.shot.learned then (s.shotOpened b).shotClose else s.shotOpened b := by
  have hl : (s.shotOpened b).shot.learned = s.shot.learned := by simp
  unfold State.shotStart
  rw [hb]
  change (if exposureTime b.tv ≤ (s.shotOpened b).shot.learned then (s.shotOpened b).shotClose else s.shotOpened b) = _
  rw [hl]

/-! ### The close command -/

/-- The close command is issued (R172). -/
def State.shotClosing (s : State) : State :=
  { s with
    shot := { s.shot with
      state := .closing, exposure := s.shot.exposure.map fun e => { e with closedAt := s.timers.shutter } }
    timers := { s.timers with confirm := some 0 } }

theorem State.shotClose_open (h : s.lines.shutterClosed = false) : s.shotClose = s.shotClosing :=
  if_neg (by simpa using h)

theorem State.shotClose_closed (h : s.lines.shutterClosed = true) : s.shotClose = s.shotClosing.shotConfirm :=
  if_pos h

/-! ### The closure -/

/-- An exposed record joins the store queue: times learned, record, session, timers, SHOT_ENDED (R173). -/
def State.shotEnded (e : InHand) (s : State) : State :=
  let measured := s.timers.shutter.getD 0
  let latency := measured - e.closedAt.getD 0
  let t := s.onShot fun x =>
    { x with learned := learnedAfter x.learned latency, lastLatency := some latency, lastMeasured := some measured }
  (t.shotAwait e.number measured e.cutShort).setFlag .shotEnded

theorem State.shotConfirm_awaits {e : InHand} (he : s.shot.exposure = some e) (hp : s.supply.powerLow = false) :
    s.shotConfirm = (s.shotEnded e).shotNext := by
  unfold State.shotConfirm
  rw [he]
  dsimp only
  rw [if_neg (by simp [hp])]
  rfl

@[simp] theorem State.shotEnded_fields (e : InHand) (s : State) :
    (s.shotEnded e).shot = { s.shot with
      exposure := none
      learned := learnedAfter s.shot.learned (s.timers.shutter.getD 0 - e.closedAt.getD 0)
      lastLatency := some (s.timers.shutter.getD 0 - e.closedAt.getD 0)
      lastMeasured := some (s.timers.shutter.getD 0) } ∧
    (s.shotEnded e).timers = { s.timers with shutter := none, confirm := none } ∧
    (s.shotEnded e).steady = s.steady.closes ∧ (s.shotEnded e).lines = s.lines ∧
    (s.shotEnded e).supply = s.supply ∧ (s.shotEnded e).focus = s.focus ∧
    (s.shotEnded e).store = { s.store with queue := s.store.queue ++ [e.number] } ∧
    (s.shotEnded e).events = (s.setFlag .shotEnded).events := by
  simp [State.shotEnded, State.shotEndFrame]

/-- The exposed record becomes AWAITING with its times and its session's outcome (R7, R173). -/
theorem State.shotEnded_record {e : InHand} {p : Nat} {r : PicRecord}
    (hf : findNumber e.number s.cat.places = some (p, r)) :
    (s.shotEnded e).cat.places = Table.put p
      ((r.exposed (some (s.timers.shutter.getD 0)) (steadyResult s.steady)).awaiting e.cutShort) s.cat.places := by
  simp only [State.shotEnded, State.shotAwait, State.setFlag_frame]
  rw [State.onNumber_some (p := p) (r := r) (by simpa using hf)]
  simp

/-! ### The next frame -/

/-- The burst has no more frames (R176, R179). -/
def Burst.over (b : Burst) : Prop := b.count < b.next ∨ b.disarmed = true ∨ b.released = true

theorem State.shotNext_idle {b : Burst} (hb : s.shot.burst = some b) (h : b.over) : s.shotNext = s.shotIdle := by
  unfold State.shotNext
  rw [hb]
  exact if_pos (by rcases h with h | h | h <;> simp [h])

theorem State.shotNext_interval {b : Burst} (hb : s.shot.burst = some b) (h : ¬b.over)
    (hp : s.supply.powerLow = false) : s.shotNext = { s with shot := { s.shot with state := .interval } } := by
  unfold State.shotNext
  rw [hb]
  obtain ⟨h1, h2, h3⟩ : ¬b.count < b.next ∧ b.disarmed = false ∧ b.released = false := by
    simpa [Burst.over] using h
  exact if_neg (by simp [h1, h2, h3, hp])

end Sys2Proof.Machine
end

section
/-! PROOFS. What a frame that begins leads to: the wait for the Stabilizer or the iris, the exposure, or the closure at
once (R171 to R173). -/

namespace Sys2Proof.Machine

variable {s w t : State} {b : Burst} {p : Nat} {r : PicRecord}

@[simp] theorem State.shotClosing_fields (s : State) :
    s.shotClosing.shot = { s.shot with
      state := .closing, exposure := s.shot.exposure.map fun e => { e with closedAt := s.timers.shutter } } ∧
    s.shotClosing.timers = { s.timers with confirm := some 0 } ∧ s.shotClosing.steady = s.steady ∧
    s.shotClosing.lines = s.lines ∧ s.shotClosing.supply = s.supply ∧ s.shotClosing.events = s.events ∧
    s.shotClosing.store = s.store ∧ s.shotClosing.focus = s.focus ∧ s.shotClosing.cat = s.cat ∧
    s.shotClosing.writer = s.writer := ⟨rfl, rfl, rfl, rfl, rfl, rfl, rfl, rfl, rfl, rfl⟩

@[simp] theorem State.steadyShotEnd_timers (s : State) :
    s.steadyShotEnd.timers.frame = s.timers.frame ∧ s.steadyShotEnd.timers.shutter = s.timers.shutter ∧
    s.steadyShotEnd.timers.confirm = s.timers.confirm := by
  unfold State.steadyShotEnd
  split <;> simp [State.steadyOff]

@[simp] theorem State.shotIdle_timers (s : State) :
    s.shotIdle.timers.frame = none ∧ s.shotIdle.timers.shutter = s.timers.shutter ∧
    s.shotIdle.timers.confirm = s.timers.confirm := by
  simp [State.shotIdle]

/-! ### The exposure of a burst that is not disarmed -/

theorem State.shotPrepared_starts (hb : s.shot.burst = some b) (hd : b.disarmed = false) :
    s.shotPrepared = s.shotStart := if_neg (by simp [burstHas, hb, hd])

theorem State.shotPrepared_disarmed (hb : s.shot.burst = some b) (hd : b.disarmed = true) :
    s.shotPrepared = s.shotIdle := if_pos (by simp [burstHas, hb, hd])

/-- The close command is due later than at once (R172). -/
theorem State.shotPrepared_opens (hb : s.shot.burst = some b) (hd : b.disarmed = false)
    (hl : s.shot.learned < exposureTime b.tv) : s.shotPrepared = s.shotOpened b := by
  rw [State.shotPrepared_starts hb hd, State.shotStart_eq hb, if_neg (by omega)]

/-- The close command is due at once (R172). -/
theorem State.shotPrepared_closes (hb : s.shot.burst = some b) (hd : b.disarmed = false)
    (hl : exposureTime b.tv ≤ s.shot.learned) (hs : s.lines.shutterClosed = false) :
    s.shotPrepared = (s.shotOpened b).shotClosing := by
  rw [State.shotPrepared_starts hb hd, State.shotStart_eq hb, if_pos hl, State.shotClose_open (by simp [hs])]

/-- The close command is due at once and the sensor already reads closed (R172, R173). -/
theorem State.shotPrepared_confirms (hb : s.shot.burst = some b) (hd : b.disarmed = false)
    (hl : exposureTime b.tv ≤ s.shot.learned) (hs : s.lines.shutterClosed = true)
    (hp : s.supply.powerLow = false) : s.shotPrepared =
      ((s.shotOpened b).shotClosing.shotEnded { b.inHand with closedAt := some 0 }).shotNext := by
  rw [State.shotPrepared_starts hb hd, State.shotStart_eq hb, if_pos hl, State.shotClose_closed (by simp [hs])]
  exact State.shotConfirm_awaits (by simp) (by simp [hp])

/-- The record that an exposure starts (R6, R172). -/
def PicRecord.begun (step : Option Nat) (r : PicRecord) : PicRecord := { r with state := .exposing, focusStep := step }

/-- An exposure that has started and is not confirmed: what it leaves. -/
def State.Exposes (s : State) (b : Burst) (p : Nat) (r : PicRecord) (t : State) : Prop :=
  t.shot.burst = some { b with next := b.next + 1 } ∧ t.shot.iris = s.shot.iris ∧ t.timers.frame = some 0 ∧
  t.timers.shutter = some 0 ∧ t.cat.places = Table.put p (r.begun s.focus.position) s.cat.places ∧
  t.writer = s.writer.mark (.place p) ∧ t.steady = s.steady.opens ∧ t.store = s.store ∧ t.events = s.events ∧
  (s.shot.learned < exposureTime b.tv ∧ t.shot.state = .exposing ∧ t.shot.exposure = some b.inHand ∨
    exposureTime b.tv ≤ s.shot.learned ∧ t.shot.state = .closing ∧ t.timers.confirm = some 0 ∧
      t.shot.exposure = some { b.inHand with closedAt := some 0 })

theorem State.shotPrepared_exposes (hb : s.shot.burst = some b) (hd : b.disarmed = false)
    (hf : findNumber b.nextNumber s.cat.places = some (p, r))
    (h : s.lines.shutterClosed = false ∨ s.shot.learned < exposureTime b.tv) : s.Exposes b p r s.shotPrepared := by
  obtain ⟨hplaces, hwriter⟩ := State.shotOpened_record hf
  by_cases hl : s.shot.learned < exposureTime b.tv
  · rw [State.shotPrepared_opens hb hd hl]
    simp [State.Exposes, hplaces, hwriter, hl, PicRecord.begun]
  · have hl : exposureTime b.tv ≤ s.shot.learned := Nat.le_of_not_lt hl
    rw [State.shotPrepared_closes hb hd hl (h.resolve_right (Nat.not_lt.2 hl))]
    simp [State.Exposes, hplaces, hwriter, hl, PicRecord.begun]

/-- An exposure confirmed as it starts: what it leaves. -/
def State.Confirms (s : State) (b : Burst) (p : Nat) (r : PicRecord) (t : State) : Prop :=
  t.shot.iris = s.shot.iris ∧ t.record p = some
    (((r.begun s.focus.position).exposed (some 0) (steadyResult s.steady.opens)).awaiting false) ∧
  t.store.queue = s.store.queue ++ [b.nextNumber] ∧ t.shot.exposure = none ∧ t.shot.lastMeasured = some 0 ∧
  t.shot.lastLatency = some 0 ∧ t.timers.shutter = none ∧ t.timers.confirm = none ∧
  (¬({ b with next := b.next + 1 } : Burst).over → t.shot.state = .interval ∧ t.events = (s.setFlag .shotEnded).events) ∧
  (({ b with next := b.next + 1 } : Burst).over → t.shot.state = .idle ∧
    t.events = ((s.setFlag .shotEnded).setFlag .burstEnded).events)

theorem State.shotPrepared_confirmed (hwf : Table.wf anyValue s.cat.places = true) (hb : s.shot.burst = some b)
    (hd : b.disarmed = false) (hf : findNumber b.nextNumber s.cat.places = some (p, r))
    (hl : exposureTime b.tv ≤ s.shot.learned) (hs : s.lines.shutterClosed = true) (hp : s.supply.powerLow = false) :
    s.Confirms b p r s.shotPrepared := by
  let v : State := (s.shotOpened b).shotClosing.shotEnded { b.inHand with closedAt := some 0 }
  have hvb : v.shot.burst = some { b with next := b.next + 1 } := by simp [v]
  have hplaces : v.cat.places = Table.put p
      (((r.begun s.focus.position).exposed (some 0) (steadyResult s.steady.opens)).awaiting false)
      (Table.put p (r.begun s.focus.position) s.cat.places) := by
    have hopened := (State.shotOpened_record hf).1
    refine (State.shotEnded_record (p := p) (r := r.begun s.focus.position) ?_).trans ?_
    · change findNumber b.nextNumber (s.shotOpened b).cat.places = _
      rw [hopened]
      exact findNumber_put_same hwf hf rfl
    · simp [hopened, PicRecord.begun, Burst.inHand]
  have hrecord : v.record p = some
      (((r.begun s.focus.position).exposed (some 0) (steadyResult s.steady.opens)).awaiting false) := by
    rw [State.record, hplaces, Table.get_put_same]
  have hvwf : Table.wf anyValue v.cat.places = true := by
    rw [hplaces]
    exact Table.wf_put rfl (Table.wf_put rfl hwf)
  rw [State.shotPrepared_confirms hb hd hl hs hp]
  by_cases ho : ({ b with next := b.next + 1 } : Burst).over
  · rw [State.shotNext_idle hvb ho]
    have hkeep := State.record_shotRelease_keeps hvwf hrecord (by simp [PicRecord.awaiting])
    have hidle : v.shotIdle.record p = v.shotRelease.record p := by
      simp [State.record]
    refine ⟨by simp [v], hidle.trans hkeep, by simp [v, Burst.inHand], by simp, by simp [v], by simp [v], by simp [v],
      by simp [v], absurd ho, fun _ => by simp [v]⟩
  · rw [State.shotNext_interval hvb ho (by simp [v, hp])]
    refine ⟨by simp [v], hrecord, by simp [v, Burst.inHand], by simp [v], by simp [v], by simp [v], by simp [v],
      by simp [v], fun _ => by simp [v], fun h => absurd h ho⟩

/-! ### The wait for the iris -/

theorem State.shotPrepare_moves (hb : s.shot.burst = some b) {a : Int} (hi : s.shot.iris = .at a) (ha : a ≠ b.av) :
    s.shotPrepare = { s with shot := { s.shot with state := .preparing, iris := .moving b.av } } := by
  unfold State.shotPrepare State.irisToBurst
  simp [State.onShot, hb, hi, ha]

theorem State.shotPrepare_waits (hi : ∀ a, s.shot.iris ≠ .at a) :
    s.shotPrepare = { s with shot := { s.shot with state := .preparing } } := by
  unfold State.shotPrepare State.irisToBurst
  rcases hx : s.shot.iris with a | _ | a
  · exact absurd hx (hi a)
  all_goals cases hb : s.shot.burst <;> simp [State.onShot, hb, hx]

theorem State.shotPrepare_stands (hb : s.shot.burst = some b) (hi : s.shot.iris = .at b.av) :
    s.shotPrepare = { s with shot := { s.shot with state := .preparing } }.shotPrepared := by
  unfold State.shotPrepare State.irisToBurst
  simp [State.onShot, hb, hi]

end Sys2Proof.Machine
end

section
/-! PROOFS. A frame that begins with a command: what the statement of O59 says of it, from what the frame finds. -/

namespace Sys2Proof.Machine

variable {s w t : State} {m : Moment} {b : Burst} {p : Nat} {r : PicRecord} {i : Instr}

/-! ### What is said of an exposure -/

/-- An exposure under way (R172). -/
def Exposing (s u : State) (b : Burst) (p : Nat) (r : PicRecord) (t : State) : Prop :=
  t.shot.burst = some { b with next := b.next + 1 } ∧ t.timers.frame = some 0 ∧ t.timers.shutter = some 0 ∧
  t.record p = some { r with state := .exposing, focusStep := u.focus.position } ∧
  (∀ j, j ≠ p → t.record j = s.record j) ∧ t.writer = s.writer.mark (.place p) ∧
  (s.shot.learned < exposureTime b.tv → t.shot.state = .exposing ∧ t.shot.exposure = some
    { number := b.numbers.getD (b.next - 1) 0, tv := b.tv, av := b.av, closedAt := none, cutShort := false }) ∧
  (exposureTime b.tv ≤ s.shot.learned → t.shot.state = .closing ∧ t.timers.confirm = some 0 ∧
    t.shot.exposure = some { number := b.numbers.getD (b.next - 1) 0, tv := b.tv, av := b.av
                             closedAt := some 0, cutShort := false }) ∧
  (s.steady.state = .active → t.steady.state = .hold ∧ t.steady.session = some {
    outcome := .steady, peak := max s.steady.pitch.target.natAbs s.steady.yaw.target.natAbs
    clipSeen := s.steady.pitch.clip || s.steady.yaw.clip }) ∧
  (s.steady.state = .fault → t.steady.session = some { outcome := .lost, peak := 0, clipSeen := false }) ∧
  (s.steady.state = .off → t.steady.session = some { outcome := .off, peak := 0, clipSeen := false })

/-- The outcome of a session that closes as it opens (R161, R163). -/
def Steady.atOnce (x : Steady) : SteadyOutcome × Nat :=
  match x.state with
  | .active => (if x.pitch.clip || x.yaw.clip then .clipped else .steady,
      max x.pitch.target.natAbs x.yaw.target.natAbs)
  | .fault => (.lost, 0)
  | _ => (.off, 0)

theorem Steady.result_opens {x : Steady} (h : x.kept = none) : steadyResult x.opens = x.atOnce := by
  cases hs : x.state <;> simp only [Steady.opens, Steady.atOnce, hs, steadyResult, h, Session.result, peakOf]

/-- An exposure confirmed as it starts (R172, R173). -/
def Confirmed (s u : State) (b : Burst) (p : Nat) (r : PicRecord) (t : State) : Prop :=
  t.record p = some { r with
    state := .awaiting, focusStep := u.focus.position, measured := some 0, steady := some s.steady.atOnce.1
    peakShift := some s.steady.atOnce.2 } ∧
  t.store.queue = s.store.queue ++ [b.numbers.getD (b.next - 1) 0] ∧ t.shot.exposure = none ∧
  t.shot.lastMeasured = some 0 ∧ t.shot.lastLatency = some 0 ∧ t.timers.shutter = none ∧
  t.timers.confirm = none ∧
  (b.next < b.count → b.released = false → t.shot.state = .interval ∧
    t.events = (s.setFlag .shotEnded).events) ∧
  (b.count ≤ b.next ∨ b.released = true → t.shot.state = .idle ∧
    t.events = ((s.setFlag .shotEnded).setFlag .burstEnded).events)

/-- The sensor lets the exposure go on. -/
def ClosesLater (s : State) (m : Moment) (b : Burst) : Prop :=
  m.shutterClosed = false ∨ s.shot.learned < exposureTime b.tv

/-- The sensor already reads closed as the close command is issued. -/
def ClosesAtOnce (s : State) (m : Moment) (b : Burst) : Prop :=
  m.shutterClosed = true ∧ exposureTime b.tv ≤ s.shot.learned ∧ s.supply.powerLow = false ∧ s.steady.kept = none

/-- A command that begins a frame (R171). -/
def FrameBegins (s : State) (m : Moment) (b : Burst) (p : Nat) (r : PicRecord) (i : Instr) : Prop :=
  (s.steady.state = .starting → ∃ t, exec i s = .next t ∧ t.shot = { s.shot with state := .waitSteady }) ∧
  (s.steady.state ≠ .starting →
    (∀ a, s.shot.iris = .at a → a ≠ b.av → ∃ t, exec i s = .next t ∧
      t.shot = { s.shot with state := .preparing, iris := .moving b.av }) ∧
    (∀ a, s.shot.iris = .startRun ∨ s.shot.iris = .moving a → ∃ t, exec i s = .next t ∧
      t.shot = { s.shot with state := .preparing }) ∧
    (s.shot.iris = .at b.av → b.disarmed = false →
      (ClosesLater s m b → ∃ t, exec i s = .next t ∧ Exposing s (s.arrive m) b p r t) ∧
      (ClosesAtOnce s m b → ∃ t, exec i s = .next t ∧ Confirmed s (s.arrive m) b p r t)))

/-! ### What an exposure finds -/

/-- What an exposure reads stands as the command found it. -/
def Finds (s : State) (m : Moment) (w : State) : Prop :=
  w.shot.learned = s.shot.learned ∧ w.steady = s.steady ∧ w.focus = (s.arrive m).focus ∧
  w.lines.shutterClosed = m.shutterClosed ∧ w.cat.places = s.cat.places ∧ w.writer = s.writer ∧
  w.store.queue = s.store.queue ∧ w.events = s.events ∧ w.supply = s.supply

theorem exposing_of_exposes (hw : Finds s m w) (h : w.Exposes b p r t) : Exposing s (s.arrive m) b p r t := by
  obtain ⟨hlearned, hsteady, hfocus, -, hplaces, hwriter, -⟩ := hw
  obtain ⟨hburst, -, hframe, hshutter, hput, hmark, hopens, -, -, hclose⟩ := h
  rw [hplaces, hfocus] at hput
  rw [hsteady] at hopens
  rw [hlearned] at hclose
  refine ⟨hburst, hframe, hshutter, ?_, fun j hj => ?_, hmark.trans (by rw [hwriter]), fun hl => ?_, fun hl => ?_,
    fun hs => ?_, fun hs => ?_, fun hs => ?_⟩
  · rw [State.record, hput, Table.get_put_same]
    rfl
  · rw [State.record, hput, Table.get_put_other hj]
    rfl
  · obtain ⟨-, h⟩ | ⟨hge, -⟩ := hclose
    · exact h
    · omega
  · obtain ⟨hlt, -⟩ | ⟨-, h⟩ := hclose
    · omega
    · exact h
  all_goals simp [hopens, Steady.opens, hs, peakOf]

theorem confirmed_of_confirms (hw : Finds s m w) (hd : b.disarmed = false) (hk : s.steady.kept = none)
    (h : w.Confirms b p r t) : Confirmed s (s.arrive m) b p r t := by
  obtain ⟨-, hsteady, hfocus, -, -, -, hqueue, hevents, -⟩ := hw
  obtain ⟨-, hrecord, hawaits, hexposure, hmeasured, hlatency, hshutter, hconfirm, hgoes, hends⟩ := h
  rw [hsteady, Steady.result_opens hk, hfocus] at hrecord
  rw [hqueue] at hawaits
  have heq : ∀ f, (w.setFlag f).events = (s.setFlag f).events := fun f => by simp [hevents]
  refine ⟨hrecord, hawaits, hexposure, hmeasured, hlatency, hshutter, hconfirm, fun hn hr => ?_, fun ho => ?_⟩
  · have hgoing : ¬({ b with next := b.next + 1 } : Burst).over := by
      rintro (ho | ho | ho)
      · exact absurd ho (Nat.not_lt_of_le hn)
      · exact absurd (hd.symm.trans ho) Bool.false_ne_true
      · exact absurd (hr.symm.trans ho) Bool.false_ne_true
    obtain ⟨hst, hev⟩ := hgoes hgoing
    exact ⟨hst, hev.trans (heq _)⟩
  · obtain ⟨hst, hev⟩ := hends (ho.imp (fun h => Nat.lt_succ_of_le h) .inr)
    exact ⟨hst, hev.trans (by simp [hevents])⟩

/-- The exposure that a burst which is not disarmed starts. -/
theorem shotPrepared_said (hc : Canonical s) (hw : Finds s m w) (hb : w.shot.burst = some b) (hd : b.disarmed = false)
    (hf : findNumber (b.numbers.getD (b.next - 1) 0) s.cat.places = some (p, r)) :
    (ClosesLater s m b → Exposing s (s.arrive m) b p r w.shotPrepared) ∧
      (ClosesAtOnce s m b → Confirmed s (s.arrive m) b p r w.shotPrepared) := by
  have hfinds := hw
  obtain ⟨hlearned, -, -, hsensor, hplaces, -, -, -, hsupply⟩ := hw
  have hfound : findNumber b.nextNumber w.cat.places = some (p, r) := by rw [hplaces]; exact hf
  refine ⟨fun h => ?_, fun ⟨hs, hl, hp, hk⟩ => ?_⟩
  · refine exposing_of_exposes hfinds (State.shotPrepared_exposes hb hd hfound ?_)
    rw [hsensor, hlearned]
    exact h
  · refine confirmed_of_confirms hfinds hd hk (State.shotPrepared_confirmed ?_ hb hd hfound ?_ ?_ ?_)
    · rw [hplaces]
      exact hc.1.1
    · rw [hlearned]
      exact hl
    · rw [hsensor, hs]
    · rw [hsupply, hp]

/-- A command whose effect is a frame on a state that it finds as it was (R171). -/
theorem frameBegins_of (hc : Canonical s) (hb : s.shot.burst = some b)
    (hf : findNumber (b.numbers.getD (b.next - 1) 0) s.cat.places = some (p, r)) (hw : Finds s m w)
    (hshot : w.shot = s.shot) {l : State → Link}
    (he : exec i s = .next { w.shotFrame with link := l w.shotFrame }) : FrameBegins s m b p r i := by
  have hwb : w.shot.burst = some b := by rw [hshot, hb]
  have hws : w.steady.state = s.steady.state := by rw [hw.2.1]
  refine ⟨fun hs => ⟨_, he, ?_⟩, fun hs => ?_⟩
  · rw [State.shotFrame, if_pos (by rw [hws, hs])]
    exact congrArg (fun x : Shot => { x with state := .waitSteady }) hshot
  · rw [State.shotFrame, if_neg (by rw [hws]; exact hs)] at he
    refine ⟨fun a hi ha => ⟨_, he, ?_⟩, fun a hi => ⟨_, he, ?_⟩, fun hi hd => ?_⟩
    · rw [State.shotPrepare_moves hwb (by rw [hshot, hi]) ha]
      exact congrArg (fun x : Shot => { x with state := .preparing, iris := .moving b.av }) hshot
    · rw [State.shotPrepare_waits fun c hc => by rw [hshot] at hc; rcases hi with hi | hi <;> cases hi.symm.trans hc]
      exact congrArg (fun x : Shot => { x with state := .preparing }) hshot
    · rw [State.shotPrepare_stands hwb (by rw [hshot, hi])] at he
      have hsaid := shotPrepared_said (w := { w with shot := { w.shot with state := .preparing } }) hc hw hwb hd hf
      exact ⟨fun h => ⟨_, he, hsaid.1 h⟩, fun h => ⟨_, he, hsaid.2 h⟩⟩

end Sys2Proof.Machine
end

section
/-! PROOFS. A frame that waited: for the Stabilizer's start, or for the store queue to shrink (R153, R156, R177). -/

namespace Sys2Proof.Machine

variable {s u v w t : State} {m : Moment} {b : Burst} {k n p : Nat} {r : PicRecord} {i : Instr}

/-! ### What is said of a frame that goes on -/

/-- A frame that waited goes on to the iris or to its exposure (R171, R172). -/
def GoesOn (s : State) (m : Moment) (b : Burst) (p : Nat) (r : PicRecord) (i : Instr) : Prop :=
  (∀ a, s.shot.iris = .at a → a ≠ b.av → ∃ t, exec i s = .next t ∧
    t.shot = { s.shot with state := .preparing, iris := .moving b.av }) ∧
  (∀ a, s.shot.iris = .startRun ∨ s.shot.iris = .moving a → ∃ t, exec i s = .next t ∧
    t.shot = { s.shot with state := .preparing }) ∧
  (s.shot.iris = .at b.av → m.shutterClosed = false ∨ s.shot.learned < exposureTime b.tv →
    ∃ t, exec i s = .next t ∧
    t.shot.burst = some { b with next := b.next + 1 } ∧ t.timers.frame = some 0 ∧ t.timers.shutter = some 0 ∧
    t.record p = some { r with state := .exposing, focusStep := (s.arrive m).focus.position } ∧
    (t.shot.state = .exposing ∨ t.shot.state = .closing))

/-- A frame that waited for the queue begins (R177). -/
def Shrunk (s : State) (m : Moment) (b : Burst) (p : Nat) (r : PicRecord) (i : Instr) : Prop :=
  (s.steady.state = .starting → ∃ t, exec i s = .next t ∧ t.shot = { s.shot with state := .waitSteady }) ∧
  (s.steady.state ≠ .starting → GoesOn s m b p r i)

theorem goesOn_of (hb : s.shot.burst = some b) (hd : b.disarmed = false)
    (hf : findNumber b.nextNumber w.cat.places = some (p, r)) (hshot : w.shot = s.shot)
    (hfocus : w.focus = (s.arrive m).focus) (hsensor : w.lines.shutterClosed = m.shutterClosed) {l : State → Link}
    (he : exec i s = .next { w.shotPrepare with link := l w.shotPrepare }) : GoesOn s m b p r i := by
  have hwb : w.shot.burst = some b := by rw [hshot, hb]
  refine ⟨fun a hi ha => ⟨_, he, ?_⟩, fun a hi => ⟨_, he, ?_⟩, fun hi hopen => ⟨_, he, ?_⟩⟩
  · rw [State.shotPrepare_moves hwb (by rw [hshot, hi]) ha]
    exact congrArg (fun x : Shot => { x with state := .preparing, iris := .moving b.av }) hshot
  · rw [State.shotPrepare_waits fun c hc => by rw [hshot] at hc; rcases hi with hi | hi <;> cases hi.symm.trans hc]
    exact congrArg (fun x : Shot => { x with state := .preparing }) hshot
  · rw [State.shotPrepare_stands hwb (by rw [hshot, hi])]
    obtain ⟨hburst, -, hframe, hshutter, hput, -, -, -, -, hclose⟩ :=
      State.shotPrepared_exposes (s := { w with shot := { w.shot with state := .preparing } }) hwb hd hf (by
        show w.lines.shutterClosed = false ∨ w.shot.learned < exposureTime b.tv
        rw [hsensor, hshot]
        exact hopen)
    refine ⟨hburst, hframe, hshutter, ?_, hclose.imp (fun h => h.2.1) (fun h => h.2.1)⟩
    refine (congrArg (Table.get p) hput).trans ((Table.get_put_same _ _ _).trans ?_)
    show some (r.begun w.focus.position) = _
    rw [hfocus]
    rfl

/-! ### What the Store Engine leaves of a waiting frame -/

/-- From `s` to `t` the shot, the Stabilizer, the focus and the lines stand, and number `k` finds the record it found. -/
def Spares (k : Nat) (s t : State) : Prop :=
  t.shot = s.shot ∧ t.steady = s.steady ∧ t.focus = s.focus ∧ t.lines = s.lines ∧
  (Table.wf anyValue s.cat.places = true → Table.wf anyValue t.cat.places = true ∧
    ∀ p r, findNumber k s.cat.places = some (p, r) → findNumber k t.cat.places = some (p, r))

theorem Spares.trans (h : Spares k s t) (h' : Spares k t u) : Spares k s u := by
  obtain ⟨h1, h2, h3, h4, h5⟩ := h
  obtain ⟨g1, g2, g3, g4, g5⟩ := h'
  refine ⟨g1.trans h1, g2.trans h2, g3.trans h3, g4.trans h4, fun hwf => ?_⟩
  obtain ⟨hwf', hk⟩ := h5 hwf
  obtain ⟨hwf'', hk'⟩ := g5 hwf'
  exact ⟨hwf'', fun p r hf => hk' p r (hk p r hf)⟩

/-- A step that leaves the records alone. -/
theorem Spares.of_same (h : t.shot = s.shot ∧ t.steady = s.steady ∧ t.focus = s.focus ∧ t.lines = s.lines)
    (hp : t.cat.places = s.cat.places) : Spares k s t := by
  obtain ⟨h1, h2, h3, h4⟩ := h
  refine ⟨h1, h2, h3, h4, fun hwf => ?_⟩
  rw [hp]
  exact ⟨hwf, fun _ _ h => h⟩

/-- A claim on the record of another number. -/
theorem Spares.onNumber (hn : n ≠ k) {f : Nat → PicRecord → State → State} (hr : ∀ p r, RecordsOnly s (f p r s))
    (hf : ∀ p r, s.record p = some r → ∃ x : PicRecord, x.number = r.number ∧
      (f p r s).cat.places = Table.put p x s.cat.places) : Spares k s (s.onNumber n f) := by
  rcases hq : findNumber n s.cat.places with _ | ⟨q, y⟩
  · rw [show s.onNumber n f = s by rw [State.onNumber, hq]]
    exact .of_same ⟨rfl, rfl, rfl, rfl⟩ rfl
  · rw [State.onNumber_some hq]
    have hframe := (hr q y).frame
    refine ⟨by simp [hframe], by simp [hframe], by simp [hframe], by simp [hframe], fun hwf => ?_⟩
    obtain ⟨x, hx, hput⟩ := hf q y (Table.get_of_mem hwf (findNumber_mem hq).1)
    rw [hput]
    exact ⟨Table.wf_put rfl hwf, fun p r hk => findNumber_put_other hwf (findNumber_mem hq).1 hx hk
      (findNumber_place_ne hwf hq hk hn.symm)⟩

/-- The failure of another number's record (R68). -/
theorem State.storeFail_spares (hn : n ≠ k) (c : FailCause) (s : State) : Spares k s (s.storeFail n c) := by
  have hfail : Spares k s (s.onNumber n fun p _ s => s.failPlace p c) := by
    refine .onNumber hn (fun p _ => s.failPlace_recordsOnly p c) fun p r hr => ⟨r.failedWith c, rfl, ?_⟩
    rw [State.failPlace_some hr]
    rfl
  refine hfail.trans ?_
  unfold State.storeFail
  dsimp only
  refine .of_same ?_ ?_ <;> split <;> simp [State.onStore]

@[simp] theorem State.storeFail_store (c : FailCause) (s : State) :
    (s.storeFail n c).store.queue = removeFirst n s.store.queue ∧
    (s.storeFail n c).store.heldStart = s.store.heldStart ∧
    (s.storeFail n c).store.fullOrder = if isBound n s then [] else s.store.fullOrder := by
  have hstore : (s.onNumber n fun p _ s => s.failPlace p c).store = s.store := by
    have := (RecordsOnly.onNumber s n (f := fun p _ s => s.failPlace p c) fun p _ _ => s.failPlace_recordsOnly p c).frame
    simp [this]
  unfold State.storeFail
  dsimp only
  split <;> simp [State.storeClose_eq, StoreEngine.closed, State.onStore, hstore]

/-- Another number's record STORED (R64). -/
theorem State.storeStored_spares (hn : n ≠ k) (x : EndFields) (s : State) : Spares k s (s.storeStored x n) := by
  have hstored : Spares k s (s.onNumber n fun p r s => (s.onMap (·.release r.remaining)).claim p
      { r with state := .stored, remaining := 0
               picture := some { length := x.length, check := x.check, width := x.width, height := x.height } }) := by
    refine .onNumber hn (fun p r => ?_) fun p r _ => ⟨r.storedWith x, rfl, by simp [PicRecord.storedWith]⟩
    exact (RecordsOnly.onMap s (by rfl)).trans (.claim _ _ _)
  exact hstored.trans (.of_same ⟨rfl, rfl, rfl, rfl⟩ rfl)

theorem State.storeStored_store (x : EndFields) (s : State) :
    (s.storeStored x n).store = { s.store with queue := s.store.queue.tail, stream := .closed, heldEnd := none } := by
  have hstore : (s.onNumber n fun p r s => (s.onMap (·.release r.remaining)).claim p
      { r with state := .stored, remaining := 0
               picture := some { length := x.length, check := x.check, width := x.width, height := x.height } }).store =
      s.store := by
    unfold State.onNumber
    split <;> simp
  unfold State.storeStored
  simp [State.onStore, hstore]

/-- A held start that does not bind number `k` (R55, R63). -/
theorem State.storeHeldStart_spares (h : s.store.heldStart = false ∨ s.store.queue.head? ≠ some k) :
    Spares k s s.storeHeldStart ∧ s.storeHeldStart.store.queue = s.store.queue := by
  by_cases hacts : s.store.heldStart = true ∧ s.store.stream = .closed
  · obtain ⟨hh, hs⟩ := hacts
    rw [State.storeHeldStart_acts hh hs]
    rcases hq : s.store.queue with _ | ⟨n, rest⟩
    · rw [State.storeStart_empty (s := s.onStore fun e => { e with heldStart := false }) hq]
      exact ⟨.of_same ⟨rfl, rfl, rfl, rfl⟩ rfl, hq⟩
    · have hn : n ≠ k := fun he => by simp [hh, hq, he] at h
      have hclaim : Spares k (s.onStore fun e => { e with heldStart := false })
          ((s.onStore fun e => { e with heldStart := false }).onNumber n fun p r s =>
            s.claim p { r with state := .storing }) :=
        .onNumber hn (fun p r => .claim _ _ _) fun p r _ => ⟨{ r with state := .storing }, rfl, rfl⟩
      have hstore : ((s.onStore fun e => { e with heldStart := false }).onNumber n fun p r s =>
          s.claim p { r with state := .storing }).store = { s.store with heldStart := false } := by
        unfold State.onNumber
        split <;> simp [State.onStore]
      unfold State.storeStart
      rw [show (s.onStore fun e => { e with heldStart := false }).store.queue = n :: rest from hq]
      refine ⟨((Spares.of_same ⟨rfl, rfl, rfl, rfl⟩ rfl).trans hclaim).trans (.of_same ⟨rfl, rfl, rfl, rfl⟩ rfl), ?_⟩
      exact (congrArg StoreEngine.queue hstore).trans hq
  · rw [State.storeHeldStart_idle (by
      cases hh : s.store.heldStart
      · exact .inl rfl
      · exact .inr fun hs => hacts ⟨hh, hs⟩)]
    exact ⟨.of_same ⟨rfl, rfl, rfl, rfl⟩ rfl, rfl⟩

/-- The Store Engine goes on with no FULL page and no bind to number `k`: the frame that waited begins (R177). -/
theorem State.storeGoOn_frames (ho : s.store.fullOrder = [])
    (hh : s.store.heldStart = false ∨ s.store.queue.head? ≠ some k) (hw : s.shot.state = .queueWait)
    (hl : s.store.queue.length < 8) : ∃ w, Spares k s w ∧ s.storeGoOn = w.shotFrame := by
  obtain ⟨marks, op, hkick, -⟩ := State.storeKick_calm ho
  have hkicked : Spares k s s.storeKick := by
    rw [hkick]
    exact .of_same ⟨rfl, rfl, rfl, rfl⟩ rfl
  obtain ⟨hheld, hqueue⟩ := State.storeHeldStart_spares (s := s.storeKick) (k := k) (by rw [hkick]; exact hh)
  have hspares := hkicked.trans hheld
  refine ⟨_, hspares, if_pos ⟨?_, ?_⟩⟩
  · rw [hspares.1, hw]
  · rw [hqueue, hkick]
    exact hl

/-- A command after which the Store Engine goes on and the queue is below 8 (R177). -/
theorem shrunk_of (hc : Canonical s) (hb : s.shot.burst = some b) (hd : b.disarmed = false)
    (hf : findNumber b.nextNumber s.cat.places = some (p, r)) (hw : s.shot.state = .queueWait)
    (hu : Spares b.nextNumber (s.arrive m) v) (ho : v.store.fullOrder = [])
    (hh : v.store.heldStart = false ∨ v.store.queue.head? ≠ some b.nextNumber) (hl : v.store.queue.length < 8)
    {l : State → Link} (he : exec i s = .next { v.storeGoOn with link := l v.storeGoOn }) : Shrunk s m b p r i := by
  obtain ⟨w, hvw, hgo⟩ := State.storeGoOn_frames ho hh (by rw [hu.1]; exact hw) hl
  obtain ⟨hshot, hsteady, hfocus, hlines, hplaces⟩ := hu.trans hvw
  replace hshot : w.shot = s.shot := hshot
  rw [hgo] at he
  have hws : w.steady.state = s.steady.state := congrArg Steady.state hsteady
  refine ⟨fun hs => ⟨_, he, ?_⟩, fun hs => ?_⟩
  · rw [State.shotFrame, if_pos (by rw [hws, hs])]
    exact congrArg (fun x : Shot => { x with state := .waitSteady }) hshot
  · rw [State.shotFrame, if_neg (by rw [hws]; exact hs)] at he
    refine goesOn_of hb hd ((hplaces hc.1.1).2 p r hf) hshot hfocus ?_ he
    rw [hlines]
    exact sensorRead_of_ne s (by rw [hw]; nofun) m

end Sys2Proof.Machine
end

section
/-! PROOFS. TRIGGER, RELEASE, FRAME DUE and the iris (R166, R170, R171, R176, R178): O59. -/

namespace Sys2Proof.Machine

variable {s : State} {m : Moment} {b : Burst} {p : Nat} {r : PicRecord}

/-! ### The commands -/

theorem exec_trigger_refused (h : Taking s) (m : Moment) (hs : s.shot.state ≠ .armed) :
    exec (.trigger m) s = .next ((taken 37 m s).respond 37 (.wrongState, .empty, none)) := by
  refine (request_taking h 37 m _).trans ?_
  rw [if_neg (by simpa using hs)]
  rfl

theorem exec_trigger_armed (h : Taking s) (m : Moment) (hs : s.shot.state = .armed) :
    exec (.trigger m) s = .next ((taken 37 m s).shotFrame.respond 37 ok) := by
  refine (request_taking h 37 m _).trans ?_
  rw [if_pos (by simpa using hs)]

theorem exec_releaseFalling (hp : s.supply.powered = true) (m : Moment) : exec (.releaseFalling m) s = .next
    (let w : State := { s.arrive m with lines := { (s.arrive m).lines with release := false } }
     if s.shot.state = .armed ∧ !s.supply.powerLow then w.shotFrame else w) := by
  change execReleaseFalling m s = _
  rw [execReleaseFalling, event_powered hp]
  rfl

/-- The RELEASE line is high (R178). -/
def State.releaseHigh (s : State) : State := { s with lines := { s.lines with release := true } }

theorem exec_releaseRising_press (hp : s.supply.powered = true) (m : Moment)
    (h : s.shot.setup.trigger = .press ∨ s.supply.powerLow = true) :
    exec (.releaseRising m) s = .next (s.arrive m).releaseHigh := by
  change execReleaseRising m s = _
  rw [execReleaseRising, event_powered hp]
  refine congrArg _ (if_neg ?_)
  rintro ⟨ht, hl⟩
  replace ht : s.shot.setup.trigger = .held := ht
  replace hl : (!s.supply.powerLow) = true := hl
  rcases h with h | h
  · exact nomatch h.symm.trans ht
  · simp [h] at hl

/-- A rising edge at a HELD trigger, by the shot's state (R178). -/
def State.releaseHeld (s : State) : State :=
  match s.shot.state with
  | .waitSteady | .preparing | .exposing | .closing => s.onBurst fun b => { b with released := true }
  | .interval | .queueWait => s.shotIdle
  | _ => s

theorem exec_releaseRising_held (hp : s.supply.powered = true) (m : Moment) (ht : s.shot.setup.trigger = .held)
    (hl : s.supply.powerLow = false) :
    exec (.releaseRising m) s = .next (s.arrive m).releaseHigh.releaseHeld := by
  change execReleaseRising m s = _
  rw [execReleaseRising, event_powered hp]
  exact congrArg _ (if_pos ⟨ht, by simpa using hl⟩)

theorem exec_releaseRising_still (hp : s.supply.powered = true) (m : Moment)
    (h : s.shot.state = .armed ∨ s.shot.state = .idle ∨ s.shot.state = .fault) :
    exec (.releaseRising m) s = .next (s.arrive m).releaseHigh := by
  by_cases ht : s.shot.setup.trigger = .held ∧ s.supply.powerLow = false
  · rw [exec_releaseRising_held hp m ht.1 ht.2, State.releaseHeld,
      show (s.arrive m).releaseHigh.shot.state = s.shot.state from rfl]
    rcases h with h | h | h <;> rw [h]
  · refine exec_releaseRising_press hp m ?_
    cases hx : s.shot.setup.trigger
    · exact .inl rfl
    · cases hy : s.supply.powerLow
      · exact absurd ⟨hx, hy⟩ ht
      · exact .inr rfl

theorem exec_frameDue (hp : s.supply.powered = true) (m : Moment) :
    exec (.frameDue m) s = .next (s.arrive m).shotDueCheck := by
  change execFrameDue m s = _
  rw [execFrameDue, event_powered hp]

/-- The next frame is due: the frame timer has reached the interval (R176). -/
def FrameDue (s : State) (m : Moment) : Prop :=
  ∃ f, (s.arrive m).timers.frame = some f ∧ 1000 * s.shot.setup.interval ≤ f

theorem exec_frameDue_due (hp : s.supply.powered = true) (hs : s.shot.state = .interval) (hd : FrameDue s m) :
    exec (.frameDue m) s = .next (s.arrive m).shotDue := by
  obtain ⟨f, hf, hle⟩ := hd
  refine (exec_frameDue hp m).trans (congrArg _ (if_pos ⟨hs, ?_⟩))
  rw [hf]
  exact hle

theorem exec_frameDue_early (hp : s.supply.powered = true)
    (h : s.shot.state ≠ .interval ∨ (1 ≤ s.shot.setup.interval ∧ ¬FrameDue s m)) :
    exec (.frameDue m) s = .next (s.arrive m) := by
  refine (exec_frameDue hp m).trans (congrArg _ (if_neg ?_))
  rintro ⟨hs, hle⟩
  replace hle : 1000 * s.shot.setup.interval ≤ (s.arrive m).timers.frame.getD 0 := hle
  rcases h with h | ⟨h1, hd⟩
  · exact h hs
  · rcases hf : (s.arrive m).timers.frame with _ | f
    · rw [hf, Option.getD_none] at hle
      omega
    · rw [hf, Option.getD_some] at hle
      exact hd ⟨f, hf, hle⟩

/-- The iris at an Av (R166). -/
def State.irisAt (a : Int) (s : State) : State := { s with shot := { s.shot with iris := .at a } }

theorem exec_irisMoveComplete_still (hp : s.supply.powered = true) (m : Moment) {a : Int} (hi : s.shot.iris = .at a) :
    exec (.irisMoveComplete m) s = .next (s.arrive m) := by
  change execIrisMoveComplete m s = _
  rw [execIrisMoveComplete, event_powered hp, show (s.arrive m).shot.iris = .at a from hi]

theorem exec_irisMoveComplete_start (hp : s.supply.powered = true) (m : Moment) (hi : s.shot.iris = .startRun) :
    exec (.irisMoveComplete m) s = .next
      (if s.shot.state = .preparing then ((s.arrive m).irisAt 6).irisToBurst else (s.arrive m).irisAt 6) := by
  change execIrisMoveComplete m s = _
  rw [execIrisMoveComplete, event_powered hp, show (s.arrive m).shot.iris = .startRun from hi]
  rfl

theorem exec_irisMoveComplete_moved (hp : s.supply.powered = true) (m : Moment) {a : Int}
    (hi : s.shot.iris = .moving a) : exec (.irisMoveComplete m) s = .next
      (if s.shot.state = .preparing then ((s.arrive m).irisAt a).shotPrepared else (s.arrive m).irisAt a) := by
  change execIrisMoveComplete m s = _
  rw [execIrisMoveComplete, event_powered hp, show (s.arrive m).shot.iris = .moving a from hi]
  rfl

/-- In PREPARING the end of the iris's way to the burst's Av ends the preparation (R171). -/
theorem exec_irisMoveComplete_prepared (hp : s.supply.powered = true) (hs : s.shot.state = .preparing)
    (hb : s.shot.burst = some b) (hi : s.shot.iris = .moving b.av ∨ s.shot.iris = .startRun ∧ b.av = 6) :
    exec (.irisMoveComplete m) s = .next ((s.arrive m).irisAt b.av).shotPrepared := by
  obtain hi | ⟨hi, ha⟩ := hi
  · rw [exec_irisMoveComplete_moved hp m hi, if_pos hs]
  · rw [exec_irisMoveComplete_start hp m hi, if_pos hs, ha]
    refine congrArg _ ?_
    unfold State.irisToBurst
    rw [show ((s.arrive m).irisAt 6).shot.burst = some b from hb,
      show ((s.arrive m).irisAt 6).shot.iris = .at 6 from rfl]
    exact if_pos ha.symm

theorem exec_irisMoveComplete_sent (hp : s.supply.powered = true) (hs : s.shot.state = .preparing)
    (hb : s.shot.burst = some b) (hi : s.shot.iris = .startRun) (ha : b.av ≠ 6) :
    exec (.irisMoveComplete m) s =
      .next { s.arrive m with shot := { s.shot with iris := .moving b.av } } := by
  rw [exec_irisMoveComplete_start hp m hi, if_pos hs]
  refine congrArg _ ?_
  unfold State.irisToBurst
  rw [show ((s.arrive m).irisAt 6).shot.burst = some b from hb,
    show ((s.arrive m).irisAt 6).shot.iris = .at 6 from rfl]
  exact if_neg (Ne.symm ha)

/-! ### What they find -/

theorem finds_of (hs : s.shot.state ≠ .closing) {w : State} (hl : w.shot.learned = s.shot.learned)
    (hsteady : w.steady = s.steady) (hfocus : w.focus = (s.arrive m).focus)
    (hsensor : w.lines.shutterClosed = (s.arrive m).lines.shutterClosed) (hplaces : w.cat.places = s.cat.places)
    (hwriter : w.writer = s.writer) (hstore : w.store = s.store) (hevents : w.events = s.events)
    (hsupply : w.supply = s.supply) : Finds s m w :=
  ⟨hl, hsteady, hfocus, hsensor.trans (sensorRead_of_ne s hs m), hplaces, hwriter, by rw [hstore], hevents, hsupply⟩

section
variable (hc : Canonical s) (hb : s.shot.burst = some b)
  (hf : findNumber (b.numbers.getD (b.next - 1) 0) s.cat.places = some (p, r))
include hc hb hf

theorem trigger_frameBegins (h : Taking s) (hs : s.shot.state = .armed) : FrameBegins s m b p r (.trigger m) :=
  frameBegins_of (w := taken 37 m s)
    (l := fun t => { t.link with
      pending := some { kind := 37, code := .ok, body := .empty, held := none }, clockedOut := 0 })
    hc hb hf (finds_of (by rw [hs]; nofun) (by simp) (by simp) (by simp) (by simp) (by simp) (by simp) (by simp)
      (by simp) (by simp)) (by simp) (exec_trigger_armed h m hs)

theorem releaseFalling_frameBegins (hp : s.supply.powered = true) (hs : s.shot.state = .armed)
    (hl : s.supply.powerLow = false) : FrameBegins s m b p r (.releaseFalling m) := by
  refine frameBegins_of (w := { s.arrive m with lines := { (s.arrive m).lines with release := false } })
    (l := State.link) hc hb hf (finds_of (by rw [hs]; nofun) rfl rfl rfl rfl rfl rfl rfl rfl rfl) rfl ?_
  exact (exec_releaseFalling hp m).trans (congrArg _ (if_pos ⟨hs, by simp [hl]⟩))

theorem frameDue_frameBegins (hp : s.supply.powered = true) (hs : s.shot.state = .interval) (hd : FrameDue s m)
    (hl : s.store.queue.length < 8) : FrameBegins s m b p r (.frameDue m) := by
  refine frameBegins_of (w := s.arrive m) (l := State.link) hc hb hf
    (finds_of (by rw [hs]; nofun) rfl rfl rfl rfl rfl rfl rfl rfl rfl) rfl ?_
  exact (exec_frameDue_due hp hs hd).trans (congrArg _ (if_pos hl))

/-- The end of the iris's way starts the exposure of a burst that is not disarmed (R171, R172). -/
theorem irisMoveComplete_said (hp : s.supply.powered = true) (hs : s.shot.state = .preparing)
    (hi : s.shot.iris = .moving b.av ∨ s.shot.iris = .startRun ∧ b.av = 6) (hd : b.disarmed = false) :
    (ClosesLater s m b → ∃ t, exec (.irisMoveComplete m) s = .next t ∧ t.shot.iris = .at b.av ∧
      Exposing s (s.arrive m) b p r t) ∧
    (ClosesAtOnce s m b → ∃ t, exec (.irisMoveComplete m) s = .next t ∧ t.shot.iris = .at b.av ∧
      Confirmed s (s.arrive m) b p r t) := by
  have hw : Finds s m ((s.arrive m).irisAt b.av) :=
    finds_of (by rw [hs]; nofun) rfl rfl rfl rfl rfl rfl rfl rfl rfl
  obtain ⟨hlater, honce⟩ := shotPrepared_said hc hw hb hd hf
  have he := exec_irisMoveComplete_prepared (m := m) hp hs hb hi
  have hsensor : (s.arrive m).lines.shutterClosed = m.shutterClosed := sensorRead_of_ne s (by rw [hs]; nofun) m
  refine ⟨fun h => ⟨_, he, ?_, hlater h⟩, fun h => ⟨_, he, ?_, honce h⟩⟩
  · obtain ⟨-, hiris, -⟩ := State.shotPrepared_exposes (s := (s.arrive m).irisAt b.av) hb hd hf
      (h.imp_left fun h => hsensor.trans h)
    exact hiris
  · obtain ⟨hclosed, hl, hlow, -⟩ := h
    obtain ⟨hiris, -⟩ := State.shotPrepared_confirmed (s := (s.arrive m).irisAt b.av) hc.1.1 hb hd hf hl
      (hsensor.trans hclosed) hlow
    exact hiris

end

end Sys2Proof.Machine
end

section
/-! PROOFS. The frames that go on, and O59 put together. -/

namespace Sys2Proof.Machine

variable {s : State} {m : Moment} {b : Burst} {n p : Nat} {r : PicRecord} {rest : List Nat}

section
variable (hc : Canonical s) (hb : s.shot.burst = some b) (hd : b.disarmed = false)
  (hf : findNumber b.nextNumber s.cat.places = some (p, r))

/-! ### The end of the Stabilizer's start -/

section
include hb hd hf

/-- The 256th frame of a start ends it (R153, R156). -/
theorem gyroFrame_goesOn (hp : s.supply.powered = true) {bytes : List Byte} (hw : s.shot.state = .waitSteady)
    (hs : s.steady.state = .starting) (hlast : s.steady.progress = 255) (hst : s.supply.shutdown ≠ .starting)
    (ho : GyroOpens bytes (s.arrive m)) (hgood : gyroGood (gyroOf bytes) (s.arrive m) = true) :
    GoesOn s m b p r (.gyroFrame m bytes) := by
  have hactive : (s.steady.use (gyroOf bytes) (offeredGain s.zoom)).state = .active := by
    rw [Steady.use_starting hs, Steady.summed_eq]
    dsimp only
    rw [if_pos (by rw [hlast])]
  refine goesOn_of (w := ((s.arrive m).gyroHand.gyroCounted (gyroOf bytes)).meterInput) (l := State.link) hb hd
    (by simpa [State.gyroCounted, State.gyroHand] using hf) (by simp [State.gyroCounted, State.gyroHand])
    (by simp [State.gyroCounted, State.gyroHand]) ?_ ?_
  · rw [← sensorRead_of_ne s (by rw [hw]; nofun) m]
    simp [State.gyroCounted, State.gyroHand]
  · refine (exec_gyroFrame_handed hp m hst ho).trans (congrArg _ ((if_pos hgood).trans ?_))
    rw [State.gyroGoodFrame_starts (s := (s.arrive m).gyroHand) hs hactive]
    exact if_pos (by simpa [State.gyroCounted, State.gyroHand] using hw)

/-- The loss of the gyro ends a start (R153). -/
theorem gyroLost_goesOn (hp : s.supply.powered = true) {x : Nat} (hw : s.shot.state = .waitSteady)
    (hs : s.steady.state = .starting) (hx : (s.arrive m).timers.lost = some x) (hlate : 10000 ≤ x) :
    GoesOn s m b p r (.gyroLost m) := by
  refine goesOn_of (w := (s.arrive m).steadyLost) (l := State.link) hb hd (by simpa using hf)
    (by simp) (by simp [State.steadyLost]) ?_ ?_
  · rw [← sensorRead_of_ne s (by rw [hw]; nofun) m]
    simp [State.steadyLost]
  · refine (exec_gyroLost_late hp m hx hlate).trans (congrArg _ ((if_pos hs).trans ?_))
    exact if_pos (by simpa using hw)

end

/-! ### The queue that shrinks -/

include hc hb hd hf

theorem abandon_shrunk {q : Nat} {y : PicRecord} (h : Taking s) (hw : s.shot.state = .queueWait)
    (hh : s.store.heldStart = false ∨ (removeFirst n s.store.queue).head? ≠ some b.nextNumber)
    (ho : s.store.fullOrder = []) (hm : s.map.mode ≠ .preparing) (hn : numberOk n = true)
    (hq : findNumber n s.cat.places = some (q, y)) (hy : y.state = .awaiting ∨ y.state = .storing)
    (hne : b.nextNumber ≠ n) (hl : (removeFirst n s.store.queue).length < 8) :
    Shrunk s m b p r (.abandon m n) := by
  have htaken : Spares b.nextNumber (s.arrive m) (taken 9 m s) := .of_same (by simp) (by simp)
  refine shrunk_of (v := (taken 9 m s).storeFail n .aborted)
    (l := fun t => { t.link with
      pending := some { kind := 9, code := .ok, body := .empty, held := none }, clockedOut := 0 })
    hc hb hd hf hw (htaken.trans (State.storeFail_spares (Ne.symm hne) .aborted _)) (by simp [ho]) ?_ (by simpa using hl)
    (exec_abandon_ok h m hm hn hq hy)
  simpa using hh

/-- The bound record fails, and the queue goes on without it (R56, R66, R177). -/
theorem storeFailBound_shrunk {v : State} {i : Instr} {c : FailCause} (hw : s.shot.state = .queueWait)
    (hv : Spares b.nextNumber (s.arrive m) v) (hstore : v.store = s.store)
    (hh : s.store.heldStart = false ∨ rest.head? ≠ some b.nextNumber)
    (hopen : s.store.stream ≠ .closed) (hq : s.store.queue = n :: rest) (hl : rest.length < 8)
    (hne : b.nextNumber ≠ n) (he : exec i s = .next (v.storeFailBound c).storeGoOn) :
    Shrunk s m b p r i := by
  have hfail : v.storeFailBound c = v.storeFail n c := by rw [State.storeFailBound, hstore, hq]
  have hbound : isBound n v = true := by simp [isBound, hstore, hq, hopen]
  have hqueue : (v.storeFail n c).store.queue = rest := by simp [hstore, hq, removeFirst]
  rw [hfail] at he
  refine shrunk_of (v := v.storeFail n c) (l := State.link) hc hb hd hf hw
    (hv.trans (State.storeFail_spares (Ne.symm hne) c v)) (by simp [hbound]) ?_ (by rw [hqueue]; exact hl) he
  rw [hqueue, (State.storeFail_store c v).2.1, hstore]
  exact hh

theorem pictureAbort_shrunk (hp : s.supply.powered = true) (hw : s.shot.state = .queueWait)
    (hh : s.store.heldStart = false ∨ rest.head? ≠ some b.nextNumber)
    (hopen : s.store.stream ≠ .closed) (hq : s.store.queue = n :: rest) (hl : rest.length < 8)
    (hne : b.nextNumber ≠ n) (hst : s.supply.shutdown ≠ .starting)
    (ht : LaneOpens 5#8 0 (s.arrive m) ∨ LaneHolds 5#8 0 (s.arrive m)) : Shrunk s m b p r (.pictureAbort m) := by
  refine storeFailBound_shrunk (v := (s.arrive m).laneFree) (c := .aborted) hc hb hd hf hw
    (.of_same ⟨rfl, rfl, rfl, rfl⟩ rfl) rfl hh hopen hq hl hne ((exec_pictureAbort hp).trans (congrArg _ ?_))
  rw [laneBlock_taken (s := s.arrive m) (ht.imp_left fun h => ⟨h, hst⟩) (by decide)]
  exact if_neg hopen

theorem dataTimeout_shrunk (hp : s.supply.powered = true) (hw : s.shot.state = .queueWait)
    (hh : s.store.heldStart = false ∨ rest.head? ≠ some b.nextNumber)
    (hopen : s.store.stream = .opened) (hq : s.store.queue = n :: rest) (hl : rest.length < 8)
    (hne : b.nextNumber ≠ n) {x : Nat} (hx : (s.arrive m).timers.data = some x) (hle : 2000000 ≤ x) :
    Shrunk s m b p r (.dataTimeout m) := by
  refine storeFailBound_shrunk (v := s.arrive m) (c := .dataTimeout) hc hb hd hf hw
    (.of_same ⟨rfl, rfl, rfl, rfl⟩ rfl) rfl hh (by rw [hopen]; nofun) hq hl hne
    ((exec_dataTimeout hp).trans (congrArg _ (if_pos ⟨hopen, ?_⟩)))
  exact reached_iff.mpr ⟨x, hx, hle⟩

theorem endTaken_shrunk (hp : s.supply.powered = true) (hw : s.shot.state = .queueWait) {x : EndFields}
    (hs : s.store.stream = .ending) (ha : s.store.bufA.state = .empty) (hbuf : s.store.bufB.state = .empty)
    (hx : s.store.heldEnd = some x) (hq : s.store.queue = n :: rest) (hl : rest.length < 8)
    (hne : b.nextNumber ≠ n)
    (hh : s.store.heldStart = false ∨ rest.head? ≠ some b.nextNumber)
    (ho : s.store.fullOrder = []) : Shrunk s m b p r (.endTaken m) := by
  have hend : exec (.endTaken m) s = .next (if endGood x s.store then (s.arrive m).storeStored x n
      else (s.arrive m).storeFailBound .dataCheck).storeGoOn := by
    refine (exec_endTaken hp).trans (congrArg _ ?_)
    rw [if_pos ((endDue_iff s.store).mpr ⟨hs, ha, hbuf⟩), State.storeEnd_of (s := s.arrive m) hx hq]
    rfl
  by_cases hgood : endGood x s.store = true
  · rw [if_pos hgood] at hend
    have hstore := State.storeStored_store (n := n) x (s.arrive m)
    refine shrunk_of (v := (s.arrive m).storeStored x n) (l := State.link) hc hb hd hf hw
      (State.storeStored_spares (Ne.symm hne) x _) (by rw [hstore]; exact ho) ?_ ?_ hend
    · rw [hstore]
      show s.store.heldStart = false ∨ s.store.queue.tail.head? ≠ _
      rw [hq]
      exact hh
    · rw [hstore]
      show s.store.queue.tail.length < 8
      rw [hq]
      exact hl
  · rw [if_neg hgood] at hend
    exact storeFailBound_shrunk (v := s.arrive m) (c := .dataCheck) hc hb hd hf hw
      (.of_same ⟨rfl, rfl, rfl, rfl⟩ rfl) rfl hh (by rw [hs]; nofun) hq hl hne hend

end

/-! ### O59 -/

/-- Settles O59: each command leads to a frame on a state that it finds as it was, and the frame goes by the Stabilizer,
the iris and the sensor. -/
theorem framesWaitAndExpose : Obligations.FramesWaitAndExpose := by
  unfold Obligations.FramesWaitAndExpose
  intro m s hp u due
  refine ⟨fun h hs => exec_trigger_refused h m hs, fun h hs => ⟨_, exec_trigger_armed h m hs, rfl⟩, ?_, ?_, ?_, ?_, ?_,
    ?_, ?_, ?_, ?_⟩
  · intro b p r hc hb hf exposing outcome confirmed closedOpen closedAtOnce frame
    refine ⟨fun h hs => trigger_frameBegins hc hb hf h hs, fun hs hl => releaseFalling_frameBegins hc hb hf hp hs hl,
      fun hs hd hl => frameDue_frameBegins hc hb hf hp hs hd hl,
      fun hs hi ha => exec_irisMoveComplete_sent hp hs hb hi ha,
      fun hs hi hd => irisMoveComplete_said hc hb hf hp hs hi hd, fun hs hi hd => ?_⟩
    have he := exec_irisMoveComplete_prepared (m := m) hp hs hb hi
    rw [State.shotPrepared_disarmed (s := u.irisAt b.av) hb hd] at he
    exact ⟨_, he, by simp, by simp [State.irisAt, u]⟩
  · intro b p r hc hb hd hf goesOn
    refine ⟨fun bytes hw hs hlast hst ho hok hgood hseq => gyroFrame_goesOn hb hd hf hp hw hs hlast hst ho
        ((gyroGood_iff _ _).mpr ⟨hok, hgood, hseq⟩),
      fun x hw hs hx hlate => gyroLost_goesOn hb hd hf hp hw hs hx hlate,
      fun n q y h hw hh ho hm h1 h2 hq hy hne hl => abandon_shrunk hc hb hd hf h hw hh ho hm
        ((numberOk_iff n).mpr ⟨h1, h2⟩) hq hy hne hl,
      fun n rest hw hh hopen hq hl hne =>
        ⟨fun hst ht => pictureAbort_shrunk hc hb hd hf hp hw hh hopen hq hl hne hst ht,
        fun x ho hx hle => dataTimeout_shrunk hc hb hd hf hp hw hh ho hq hl hne hx hle⟩,
      fun x n rest hw hs ha hbuf hx hq hl hne hh ho =>
        endTaken_shrunk hc hb hd hf hp hw hs ha hbuf hx hq hl hne hh ho⟩
  · intro hs hd hl
    refine (exec_frameDue_due hp hs hd).trans (congrArg _ (if_neg ?_))
    exact Nat.not_lt.2 hl
  · exact exec_frameDue_early hp
  · intro hs
    exact (exec_releaseFalling hp m).trans (congrArg _ (if_neg fun h => hs h.1))
  · rintro (h | h)
    · exact exec_releaseRising_press hp m (.inl h)
    · exact exec_releaseRising_still hp m h
  · intro ht hl
    have he := exec_releaseRising_held hp m ht hl
    rw [State.releaseHeld, show u.releaseHigh.shot.state = s.shot.state from rfl] at he
    refine ⟨fun hs => ?_, fun hs => ?_⟩
    · rcases hs with hs | hs | hs | hs <;> rw [hs] at he <;> exact he
    · rcases hs with hs | hs <;> rw [hs] at he <;> exact ⟨_, he, by simp, by simp [State.releaseHigh],
        by simp [State.releaseHigh]⟩
  · exact fun a hi => exec_irisMoveComplete_still hp m hi
  · intro hs
    exact ⟨fun hi => (exec_irisMoveComplete_start hp m hi).trans (congrArg _ (if_neg hs)),
      fun a hi => (exec_irisMoveComplete_moved hp m hi).trans (congrArg _ (if_neg hs))⟩

end Sys2Proof.Machine
end

section
/-! PROOFS. The exposure time, the close command, the closure and the time-out: what each command leads to (R172 to
R174). -/

namespace Sys2Proof.Machine

variable {s u : State} {m : Moment} {x : InHand}

/-! ### The exposure time -/

/-- The search keeps the root between its lower and its upper bound. -/
theorem cubeRootSearch_spec (a b : Nat) : ∀ n r, (2 * r - 1) ^ 3 * a ≤ b → b < (2 * (r + 2 ^ n) - 1) ^ 3 * a →
    (2 * cubeRootSearch a b n r - 1) ^ 3 * a ≤ b ∧ b < (2 * cubeRootSearch a b n r + 1) ^ 3 * a := by
  intro n
  induction n with
  | zero =>
    intro r hlow hhigh
    exact ⟨hlow, hhigh⟩
  | succ n ih =>
    intro r hlow hhigh
    have hstep : cubeRootSearch a b (n + 1) r =
      cubeRootSearch a b n (if (2 * (r + 2 ^ n) - 1) ^ 3 * a ≤ b then r + 2 ^ n else r) := rfl
    rw [hstep]
    split
    next h =>
      refine ih _ h ?_
      rwa [Nat.add_assoc, ← Nat.two_mul, ← Nat.pow_succ']
    next h => exact ih r hlow (Nat.lt_of_not_le h)

/-- The whole search, from 0 on. -/
theorem cubeRootSearch_zero_spec {a b n : Nat} (h : b < (2 * 2 ^ n - 1) ^ 3 * a) :
    (2 * cubeRootSearch a b n 0 - 1) ^ 3 * a ≤ b ∧ b < (2 * cubeRootSearch a b n 0 + 1) ^ 3 * a :=
  cubeRootSearch_spec a b n 0 (by simp) (by rwa [Nat.zero_add])

/-- The time of a Tv that is not negative (R172). -/
theorem exposureTime_spec (n : Nat) : (2 * exposureTime n - 1) ^ 3 * 2 ^ n ≤ 8 * 10 ^ 18 ∧
    8 * 10 ^ 18 < (2 * exposureTime n + 1) ^ 3 * 2 ^ n := by
  have he : exposureTime n = cubeRootSearch (2 ^ n) (8 * 10 ^ 18) 26 0 := by
    rw [exposureTime, if_pos (Int.natCast_nonneg n), Int.toNat_natCast]
  rw [he]
  refine cubeRootSearch_zero_spec ?_
  calc 8 * 10 ^ 18 < (2 * 2 ^ 26 - 1) ^ 3 * 1 := by decide
    _ ≤ (2 * 2 ^ 26 - 1) ^ 3 * 2 ^ n := Nat.mul_le_mul_left _ Nat.one_le_two_pow

/-- The time of a Tv that is not positive (R172). -/
theorem exposureTime_neg_spec {n : Nat} (hn : n ≤ 15) : (2 * exposureTime (-n) - 1) ^ 3 ≤ 8 * 10 ^ 18 * 2 ^ n ∧
    8 * 10 ^ 18 * 2 ^ n < (2 * exposureTime (-n) + 1) ^ 3 := by
  have he : exposureTime (-n) = cubeRootSearch 1 (8 * 10 ^ 18 * 2 ^ n) 26 0 := by
    cases n with
    | zero =>
      have ht : (-((0 : Nat) : Int)).toNat = 0 := by omega
      rw [exposureTime, if_pos (by omega), ht, Nat.pow_zero, Nat.mul_one]
    | succ n =>
      have ht : (- -((n + 1 : Nat) : Int)).toNat = n + 1 := by omega
      rw [exposureTime, if_neg (by omega), ht]
  have hb : 8 * 10 ^ 18 * 2 ^ n < (2 * 2 ^ 26 - 1) ^ 3 * 1 :=
    calc 8 * 10 ^ 18 * 2 ^ n ≤ 8 * 10 ^ 18 * 2 ^ 15 := Nat.mul_le_mul_left _ (Nat.pow_le_pow_right (by decide) hn)
      _ < (2 * 2 ^ 26 - 1) ^ 3 * 1 := by decide
  have h := cubeRootSearch_zero_spec hb
  rw [Nat.mul_one, Nat.mul_one] at h
  rw [he]
  exact h

/-! ### The commands -/

/-- The close command is due (R172). -/
theorem closeDue_iff (hx : s.shot.exposure = some x) : closeDue s = true ↔
    ∃ t, s.timers.shutter = some t ∧ exposureTime x.tv - s.shot.learned ≤ t := by
  rw [closeDue, hx]
  exact reached_iff

theorem exec_closeCommandDue_due (hp : s.supply.powered = true) (hx : s.shot.exposure = some x)
    (hs : s.shot.state = .exposing)
    (hd : ∃ t, (s.arrive m).timers.shutter = some t ∧ exposureTime x.tv - s.shot.learned ≤ t) :
    exec (.closeCommandDue m) s = .next (s.arrive m).shotClose.shotDueCheck := by
  change execCloseCommandDue m s = _
  rw [execCloseCommandDue, event_powered hp]
  exact congrArg _ (if_pos ⟨hs, (closeDue_iff (s := s.arrive m) hx).mpr hd⟩)

theorem exec_closeCommandDue_early (hp : s.supply.powered = true) (hx : s.shot.exposure = some x)
    (h : s.shot.state ≠ .exposing ∨
      ¬∃ t, (s.arrive m).timers.shutter = some t ∧ exposureTime x.tv - s.shot.learned ≤ t) :
    exec (.closeCommandDue m) s = .next (s.arrive m) := by
  change execCloseCommandDue m s = _
  rw [execCloseCommandDue, event_powered hp]
  refine congrArg _ (if_neg ?_)
  rintro ⟨hs, hd⟩
  exact h.elim (fun h => h hs) fun h => h ((closeDue_iff (s := s.arrive m) hx).mp hd)

/-- The sensor reads closed (R173). -/
def State.sensorClosed (s : State) : State := { s with lines := { s.lines with shutterClosed := true } }

theorem exec_shutterClosed_closing (hp : s.supply.powered = true) (hs : s.shot.state = .closing) :
    exec (.shutterClosed m) s = .next (s.arrive m).sensorClosed.shotConfirm.shotDueCheck := by
  change execShutterClosed m s = _
  rw [execShutterClosed, event_powered hp]
  exact congrArg _ (if_pos hs)

theorem exec_shutterClosed_other (hp : s.supply.powered = true) (hs : s.shot.state ≠ .closing) :
    exec (.shutterClosed m) s = .next (s.arrive m) := by
  change execShutterClosed m s = _
  rw [execShutterClosed, event_powered hp]
  exact congrArg _ (if_neg hs)

theorem exec_shutterTimeout_late (hp : s.supply.powered = true) (hs : s.shot.state = .closing)
    (hl : ∃ t, (s.arrive m).timers.confirm = some t ∧ 50000 ≤ t) :
    exec (.shutterTimeout m) s = .next (s.arrive m).shotTimeout := by
  change execShutterTimeout m s = _
  rw [execShutterTimeout, event_powered hp]
  exact congrArg _ (if_pos ⟨hs, reached_iff.mpr hl⟩)

theorem exec_shutterTimeout_early (hp : s.supply.powered = true)
    (h : s.shot.state ≠ .closing ∨ ¬∃ t, (s.arrive m).timers.confirm = some t ∧ 50000 ≤ t) :
    exec (.shutterTimeout m) s = .next (s.arrive m) := by
  change execShutterTimeout m s = _
  rw [execShutterTimeout, event_powered hp]
  refine congrArg _ (if_neg ?_)
  rintro ⟨hs, hl⟩
  exact h.elim (fun h => h hs) fun h => h (reached_iff.mp hl)

theorem State.shotDueCheck_idle (h : s.shot.state ≠ .interval) : s.shotDueCheck = s := if_neg fun hh => h hh.1

/-- The close command with the sensor open: CLOSING, the confirmation timed (R172). -/
theorem exec_closeCommandDue_opens (hp : s.supply.powered = true) (hx : s.shot.exposure = some x)
    (hs : s.shot.state = .exposing)
    (hd : ∃ t, (s.arrive m).timers.shutter = some t ∧ exposureTime x.tv - s.shot.learned ≤ t)
    (ho : m.shutterClosed = false) : exec (.closeCommandDue m) s = .next { s.arrive m with
      shot := { s.shot with
        state := .closing, exposure := some { x with closedAt := (s.arrive m).timers.shutter } }
      timers := { (s.arrive m).timers with confirm := some 0 } } := by
  have hopen : (s.arrive m).lines.shutterClosed = false := (sensorRead_of_ne s (by rw [hs]; nofun) m).trans ho
  rw [exec_closeCommandDue_due hp hx hs hd, State.shotClose_open hopen, State.shotDueCheck_idle (by simp)]
  have hmap : (s.arrive m).shot.exposure.map (fun e => { e with closedAt := (s.arrive m).timers.shutter }) =
      some { x with closedAt := (s.arrive m).timers.shutter } := congrArg (Option.map _) hx
  unfold State.shotClosing
  rw [hmap]
  rfl

end Sys2Proof.Machine
end

section
/-! PROOFS. The closure confirmed, and what comes behind it: the return to IDLE, INTERVAL, or the next frame (R173,
R176). -/

namespace Sys2Proof.Machine

variable {s v w t : State} {m : Moment} {x : InHand} {b : Burst} {p total at_ : Nat} {r : PicRecord}

/-! ### What is said of the closure -/

/-- The outcome that the session's end gives (R163, R165). -/
def Steady.ended (y : Steady) : SteadyOutcome × Nat :=
  match y.kept, y.session with
  | some k, _ => k
  | none, none => (.off, 0)
  | none, some e => (if e.outcome = .off then .off else if e.outcome = .lost then .lost
      else if e.clipSeen then .clipped else .steady, e.peak)

theorem Steady.result_ended (y : Steady) : steadyResult y = y.ended := by
  unfold steadyResult Steady.ended
  cases y.kept with
  | some k => rfl
  | none =>
    cases y.session with
    | none => rfl
    | some e => cases he : e.outcome <;> simp [Session.result, he]

/-- The record whose exposure has ended (R7, R173). -/
def closedRecord (s : State) (x : InHand) (total : Nat) (r : PicRecord) : PicRecord :=
  { r with
    state := .awaiting, measured := some total, steady := some s.steady.ended.1, peakShift := some s.steady.ended.2
    armed := if x.cutShort then r.armed.map (fun a => { a with flags := { a.flags with cutShort := true } })
      else r.armed }

/-- The learned delay after a latency (R173). -/
def nextLearned (s : State) (latency : Nat) : Int :=
  let q := Int.fdiv (2 * (3 * s.shot.learned + latency) + 4) 8
  if q < 1000 then 1000 else if 20000 < q then 20000 else q

theorem learnedAfter_eq (s : State) (latency : Nat) :
    (learnedAfter s.shot.learned latency : Int) = nextLearned s latency := by
  have hq : roundHalfUp (3 * s.shot.learned + latency) 4 =
      Int.fdiv (2 * (3 * s.shot.learned + latency) + 4) 8 := rfl
  unfold learnedAfter nextLearned limit
  rw [← hq]
  dsimp only
  split
  · rfl
  · split
    · rfl
    · exact Int.toNat_of_nonneg (by omega)

/-- The outcome of a session that the next frame opens and closes at once (R161, R163). -/
def Steady.next (y : Steady) : SteadyOutcome × Nat :=
  match y.state with
  | .active | .hold => (if y.pitch.clip || y.yaw.clip then .clipped else .steady,
      max y.pitch.target.natAbs y.yaw.target.natAbs)
  | .fault => (.lost, 0)
  | _ => (.off, 0)

theorem Steady.result_next (y : Steady) : steadyResult y.closes.opens = y.next := by
  rw [Steady.result_opens rfl]
  cases hs : y.state <;> simp [Steady.atOnce, Steady.closes, Steady.next, hs]

/-- The next frame begins as the exposure ends (R171, R172, R176). -/
def NextFrame (s u : State) (x : InHand) (b : Burst) (p latency : Nat) (t : State) : Prop :=
  let learned := nextLearned s latency
  (7 ≤ s.store.queue.length ∨ s.steady.state = .starting ∨ s.shot.iris ≠ .at b.av ∨
      learned < exposureTime b.tv →
    t.events = (s.setFlag .shotEnded).events ∧ t.store.queue = s.store.queue ++ [x.number]) ∧
  (7 ≤ s.store.queue.length → t.shot.state = .queueWait ∧ t.shot.burst = some b ∧ t.shot.exposure = none) ∧
  (s.store.queue.length < 7 →
    (s.steady.state = .starting → t.shot.state = .waitSteady ∧ t.shot.burst = some b) ∧
    (s.steady.state ≠ .starting →
      (∀ a, s.shot.iris = .at a → a ≠ b.av → t.shot.state = .preparing ∧ t.shot.iris = .moving b.av) ∧
      (∀ a, s.shot.iris = .startRun ∨ s.shot.iris = .moving a → t.shot.state = .preparing) ∧
      (∀ q y, s.shot.iris = .at b.av → learned < exposureTime b.tv →
        findNumber (b.numbers.getD (b.next - 1) 0) s.cat.places = some (q, y) → q ≠ p →
        t.shot.state = .exposing ∧ t.shot.burst = some { b with next := b.next + 1 } ∧
        t.timers.frame = some 0 ∧ t.timers.shutter = some 0 ∧
        t.record q = some { y with state := .exposing, focusStep := u.focus.position } ∧
        t.shot.exposure = some { number := b.numbers.getD (b.next - 1) 0, tv := b.tv, av := b.av
                                 closedAt := none, cutShort := false }) ∧
      (∀ q y, s.shot.iris = .at b.av → (exposureTime b.tv : Int) ≤ learned →
        findNumber (b.numbers.getD (b.next - 1) 0) s.cat.places = some (q, y) → q ≠ p →
        t.record q = some { y with
          state := .awaiting, focusStep := u.focus.position, measured := some 0, steady := some s.steady.next.1
          peakShift := some s.steady.next.2 } ∧
        t.store.queue = s.store.queue ++ [x.number, b.numbers.getD (b.next - 1) 0] ∧
        t.shot.exposure = none ∧ t.shot.lastMeasured = some 0 ∧ t.shot.lastLatency = some 0 ∧
        (b.next < b.count → t.shot.state = .interval ∧ t.events = (s.setFlag .shotEnded).events) ∧
        (b.next = b.count → t.shot.state = .idle ∧
          t.events = ((s.setFlag .shotEnded).setFlag .burstEnded).events))))

/-- What a confirmed closure leaves (R173, R176, R179). -/
def ClosureLeaves (s u : State) (x : InHand) (b : Burst) (p : Nat) (r : PicRecord) (total latency : Nat) (t : State) :
    Prop :=
  (b.numbers.getD (b.next - 1) 0 ≠ x.number ∨ b.count < b.next → t.record p = some (closedRecord s x total r)) ∧
  (b.next ≤ b.count → b.disarmed = false → b.released = false →
    (∀ f, u.timers.frame = some f → f < 1000 * s.shot.setup.interval) →
    1 ≤ s.shot.setup.interval → t.shot.state = .interval ∧ t.store.queue = s.store.queue ++ [x.number] ∧
    t.shot.lastMeasured = some total ∧ t.shot.lastLatency = some latency ∧
    (t.shot.learned : Int) = nextLearned s latency ∧
    t.shot.exposure = none ∧ t.timers.shutter = none ∧ t.timers.confirm = none ∧
    t.events = (s.setFlag .shotEnded).events ∧
    (s.steady.state = .hold → t.steady.state = .active) ∧ t.steady.session = none) ∧
  (∀ f, b.next ≤ b.count → b.disarmed = false → b.released = false → u.timers.frame = some f →
    1000 * s.shot.setup.interval ≤ f → NextFrame s u x b p latency t) ∧
  (b.count < b.next ∨ b.disarmed = true ∨ b.released = true →
    t.shot.state = .idle ∧ t.shot.burst = none ∧ t.store.queue = s.store.queue ++ [x.number] ∧
    t.events = ((s.setFlag .shotEnded).setFlag .burstEnded).events ∧
    ∀ k q y, k ∈ b.numbers → k ≠ x.number → findNumber k s.cat.places = some (q, y) → y.state = .reserved →
      t.record q = none)

/-! ### The exposure's end -/

/-- The state in which the sensor confirms, as far as the closure reads it. -/
def Closes (s u : State) (x : InHand) (total at_ : Nat) (w : State) : Prop :=
  w.shot.exposure = some { x with closedAt := some at_ } ∧ w.shot.burst = s.shot.burst ∧ w.shot.iris = s.shot.iris ∧
  w.shot.setup = s.shot.setup ∧ w.shot.learned = s.shot.learned ∧ w.timers.shutter = some total ∧
  w.timers.frame = u.timers.frame ∧ w.lines.shutterClosed = true ∧ w.steady = s.steady ∧ w.supply = s.supply ∧
  w.events = s.events ∧ w.focus = u.focus ∧ w.store = s.store ∧ w.cat.places = s.cat.places

/-- The state once the exposure has ended, before what comes behind it. -/
def Ended (s u : State) (x : InHand) (p : Nat) (r : PicRecord) (total latency : Nat) (v : State) : Prop :=
  v.shot.burst = s.shot.burst ∧ v.shot.iris = s.shot.iris ∧ v.shot.setup = s.shot.setup ∧
  (v.shot.learned : Int) = nextLearned s latency ∧ v.shot.exposure = none ∧ v.shot.lastMeasured = some total ∧
  v.shot.lastLatency = some latency ∧ v.timers.shutter = none ∧ v.timers.confirm = none ∧
  v.timers.frame = u.timers.frame ∧ v.lines.shutterClosed = true ∧ v.steady = s.steady.closes ∧
  v.supply = s.supply ∧ v.events = (s.setFlag .shotEnded).events ∧ v.focus = u.focus ∧
  v.store = { s.store with queue := s.store.queue ++ [x.number] } ∧
  v.cat.places = Table.put p (closedRecord s x total r) s.cat.places

theorem shotConfirm_ended {u : State} (hw : Closes s u x total at_ w) (hl : s.supply.powerLow = false)
    (hf : findNumber x.number s.cat.places = some (p, r)) :
    ∃ v, Ended s u x p r total (total - at_) v ∧ w.shotConfirm = v.shotNext := by
  obtain ⟨hx, hburst, hiris, hsetup, hlearned, htotal, hframe, hsensor, hsteady, hsupply, hevents, hfocus, hstore,
    hplaces⟩ := hw
  refine ⟨_, ?_, State.shotConfirm_awaits hx (by rw [hsupply, hl])⟩
  refine ⟨by simp [hburst], by simp [hiris], by simp [hsetup], ?_, by simp, by simp [htotal], by simp [htotal], by simp,
    by simp, by simp [hframe], by simp [hsensor], by simp [hsteady], by simp [hsupply], by simp [hevents],
    by simp [hfocus], by simp [hstore], ?_⟩
  · rw [← learnedAfter_eq]
    simp only [State.shotEnded_fields, hlearned, htotal, Option.getD_some]
  · rw [State.shotEnded_record (by rw [hplaces]; exact hf), hplaces, htotal, hsteady, Steady.result_ended]
    rfl

/-! ### The return to IDLE -/

section
variable {u : State} {latency : Nat} (hc : Canonical s) (hb : s.shot.burst = some b)
  (hf : findNumber x.number s.cat.places = some (p, r)) (hv : Ended s u x p r total latency v)
include hc hb hf hv

theorem closure_idle (ho : b.over) : ClosureLeaves s u x b p r total latency v.shotNext.shotDueCheck := by
  obtain ⟨hburst, -, -, -, -, -, -, -, -, -, -, -, -, hevents, -, hstore, hplaces⟩ := hv
  have hvb : v.shot.burst = some b := hburst.trans hb
  have hwf : Table.wf anyValue v.cat.places = true := by
    rw [hplaces]
    exact Table.wf_put rfl hc.1.1
  have hrecord : ∀ j, v.shotIdle.record j = v.shotRelease.record j := fun j => by simp [State.record]
  rw [State.shotNext_idle hvb ho, State.shotDueCheck_idle (by simp)]
  refine ⟨fun _ => ?_, fun h1 h2 h3 => ?_, fun f h1 h2 h3 => ?_, fun _ => ⟨by simp, by simp, by simp [hstore],
    by simp [hevents], fun k q y hk hne hq hy => ?_⟩⟩
  · rw [hrecord]
    refine State.record_shotRelease_keeps hwf ?_ (r := closedRecord s x total r) (by simp [closedRecord])
    rw [State.record, hplaces, Table.get_put_same]
  · rcases ho with ho | ho | ho
    · omega
    · exact nomatch h2.symm.trans ho
    · exact nomatch h3.symm.trans ho
  · rcases ho with ho | ho | ho
    · omega
    · exact nomatch h2.symm.trans ho
    · exact nomatch h3.symm.trans ho
  · rw [hrecord]
    refine State.record_shotRelease_none hwf hvb hk ?_ hy
    rw [hplaces]
    exact findNumber_put_other hc.1.1 (x := closedRecord s x total r) (findNumber_mem hf).1 rfl hq
      (findNumber_place_ne hc.1.1 hf hq hne)

end

end Sys2Proof.Machine
end

section
/-! PROOFS. INTERVAL and the frame that follows an exposure at once (R176). -/

namespace Sys2Proof.Machine

variable {s u v t : State} {x : InHand} {b : Burst} {p n total latency : Nat} {r y : PicRecord} {e : InHand}

/-! ### A record that the next frame does not touch -/

theorem State.onNumber_none (h : findNumber n s.cat.places = none) (f : Nat → PicRecord → State → State) :
    s.onNumber n f = s := by rw [State.onNumber, h]

theorem State.shotOpened_places_none (h : findNumber b.nextNumber s.cat.places = none) :
    (s.shotOpened b).cat.places = s.cat.places := by
  simp [State.shotOpened, State.shotExpose, State.onNumber_none h]

theorem State.shotEnded_places_none (h : findNumber e.number s.cat.places = none) :
    (s.shotEnded e).cat.places = s.cat.places := by
  simp only [State.shotEnded, State.shotAwait, State.setFlag_frame]
  rw [State.onNumber_none (by simpa using h)]
  simp

/-- The exposure of another record leaves the record at `p` (R172). -/
theorem State.shotOpened_other (hwf : Table.wf anyValue s.cat.places = true)
    (hq : ∀ q z, findNumber b.nextNumber s.cat.places = some (q, z) → q ≠ p) :
    Table.wf anyValue (s.shotOpened b).cat.places = true ∧ (s.shotOpened b).record p = s.record p ∧
      ∀ q z, findNumber b.nextNumber (s.shotOpened b).cat.places = some (q, z) → q ≠ p := by
  unfold State.record
  rcases hf : findNumber b.nextNumber s.cat.places with _ | ⟨q, z⟩
  · rw [State.shotOpened_places_none hf, hf]
    exact ⟨hwf, rfl, fun _ _ h => nomatch h⟩
  · have hne := hq q z hf
    rw [(State.shotOpened_record hf).1]
    refine ⟨Table.wf_put rfl hwf, Table.get_put_other (Ne.symm hne) _ _, fun q' z' h => ?_⟩
    rw [findNumber_put_same (x := { z with state := .exposing, focusStep := s.focus.position }) hwf hf rfl] at h
    cases h
    exact hne

/-- The end of another record's exposure leaves the record at `p` (R173). -/
theorem State.shotEnded_other (hwf : Table.wf anyValue s.cat.places = true)
    (hq : ∀ q z, findNumber e.number s.cat.places = some (q, z) → q ≠ p) :
    Table.wf anyValue (s.shotEnded e).cat.places = true ∧ (s.shotEnded e).record p = s.record p := by
  unfold State.record
  rcases hf : findNumber e.number s.cat.places with _ | ⟨q, z⟩
  · rw [State.shotEnded_places_none hf]
    exact ⟨hwf, rfl⟩
  · rw [State.shotEnded_record hf]
    exact ⟨Table.wf_put rfl hwf, Table.get_put_other (Ne.symm (hq q z hf)) _ _⟩

/-- A frame's exposure leaves the record of another number, unless it is RESERVED. -/
theorem State.shotPrepared_keeps (hwf : Table.wf anyValue s.cat.places = true) (hb : s.shot.burst = some b)
    (hd : b.disarmed = false) (hl : s.supply.powerLow = false) (hp : s.record p = some y) (hy : y.state ≠ .reserved)
    (hq : ∀ q z, findNumber b.nextNumber s.cat.places = some (q, z) → q ≠ p) : s.shotPrepared.record p = some y := by
  obtain ⟨hwf', hrec', hq'⟩ := State.shotOpened_other hwf hq
  by_cases hlate : s.shot.learned < exposureTime b.tv
  · rw [State.shotPrepared_opens hb hd hlate, hrec', hp]
  · cases hs : s.lines.shutterClosed with
    | false =>
      rw [State.shotPrepared_closes hb hd (Nat.le_of_not_lt hlate) hs]
      exact hrec'.trans hp
    | true =>
      let v : State := (s.shotOpened b).shotClosing.shotEnded { b.inHand with closedAt := some 0 }
      obtain ⟨hvwf, hvrec⟩ : Table.wf anyValue v.cat.places = true ∧ v.record p = (s.shotOpened b).record p :=
        State.shotEnded_other (s := (s.shotOpened b).shotClosing) hwf' hq'
      have hvp : v.record p = some y := hvrec.trans (hrec'.trans hp)
      have hvb : v.shot.burst = some { b with next := b.next + 1 } := by simp [v]
      rw [State.shotPrepared_confirms hb hd (Nat.le_of_not_lt hlate) hs hl]
      by_cases ho : ({ b with next := b.next + 1 } : Burst).over
      · rw [State.shotNext_idle hvb ho]
        have hidle : v.shotIdle.record p = v.shotRelease.record p := by simp [State.record]
        rw [hidle]
        exact State.record_shotRelease_keeps hvwf hvp hy
      · rw [State.shotNext_interval hvb ho (by simp [v, hl])]
        exact hvp

theorem State.shotFrame_keeps (hwf : Table.wf anyValue s.cat.places = true) (hb : s.shot.burst = some b)
    (hd : b.disarmed = false) (hl : s.supply.powerLow = false) (hp : s.record p = some y) (hy : y.state ≠ .reserved)
    (hq : ∀ q z, findNumber b.nextNumber s.cat.places = some (q, z) → q ≠ p) : s.shotFrame.record p = some y := by
  by_cases hs : s.steady.state = .starting
  · rw [State.shotFrame, if_pos hs]
    exact hp
  · rw [State.shotFrame, if_neg hs]
    by_cases hi : ∃ a, s.shot.iris = .at a
    · obtain ⟨a, hi⟩ := hi
      by_cases ha : a = b.av
      · rw [State.shotPrepare_stands hb (ha ▸ hi)]
        exact State.shotPrepared_keeps (s := { s with shot := { s.shot with state := .preparing } }) hwf hb hd hl hp hy hq
      · rw [State.shotPrepare_moves hb hi ha]
        exact hp
    · rw [State.shotPrepare_waits fun a h => hi ⟨a, h⟩]
      exact hp

/-! ### The frame timer -/

/-- INTERVAL (R176). -/
def State.inInterval (s : State) : State := { s with shot := { s.shot with state := .interval } }

theorem not_over_iff : ¬b.over ↔ b.next ≤ b.count ∧ b.disarmed = false ∧ b.released = false := by
  simp [Burst.over]

section
variable (hc : Canonical s) (hb : s.shot.burst = some b)
  (hf : findNumber x.number s.cat.places = some (p, r)) (hv : Ended s u x p r total latency v)
  (hl : s.supply.powerLow = false) (ho : ¬b.over)
include hb hv hl ho

theorem shotNext_inInterval : v.shotNext = v.inInterval := by
  obtain ⟨hburst, -, -, -, -, -, -, -, -, -, -, -, hsupply, -⟩ := hv
  exact State.shotNext_interval (hburst.trans hb) ho (by rw [hsupply, hl])

/-- The frame timer has not reached the interval (R176). -/
theorem closure_interval (hd : ¬1000 * s.shot.setup.interval ≤ u.timers.frame.getD 0) :
    ClosureLeaves s u x b p r total latency v.shotNext.shotDueCheck := by
  have hnext := shotNext_inInterval hb hv hl ho
  obtain ⟨hburst, hiris, hsetup, hlearned, hexposure, hmeasured, hlatency, hshutter, hconfirm, hframe, -, hsteady,
    hsupply, hevents, hfocus, hstore, hplaces⟩ := hv
  have hstay : v.inInterval.shotDueCheck = v.inInterval := by
    refine if_neg fun h => hd ?_
    obtain ⟨-, hle⟩ := h
    replace hle : 1000 * v.shot.setup.interval ≤ v.timers.frame.getD 0 := hle
    rwa [hsetup, hframe] at hle
  rw [hnext, hstay]
  refine ⟨fun _ => ?_, fun _ _ _ _ _ => ⟨rfl, congrArg StoreEngine.queue hstore, hmeasured, hlatency, hlearned,
    hexposure, hshutter, hconfirm, hevents, fun hh => ?_, ?_⟩, fun f _ _ _ hff hle => ?_, fun h => absurd h ho⟩
  · exact (congrArg (Table.get p) hplaces).trans (Table.get_put_same _ _ _)
  · show v.steady.state = _
    simp [hsteady, Steady.closes, hh]
  · show v.steady.session = _
    rw [hsteady]
    rfl
  · rw [hff, Option.getD_some] at hd
    exact absurd hle hd

end

end Sys2Proof.Machine
end

section
/-! PROOFS. The next frame that begins as an exposure ends (R171, R172, R176). -/

namespace Sys2Proof.Machine

variable {s u v : State} {x : InHand} {b : Burst} {p q total latency : Nat} {r y : PicRecord}

/-- A frame that waits, or whose close command is due later, sets no flag and queues nothing (R171, R172). -/
theorem State.shotFrame_quiet (hb : s.shot.burst = some b) (hd : b.disarmed = false)
    (h : s.steady.state = .starting ∨ s.shot.iris ≠ .at b.av ∨ s.shot.learned < exposureTime b.tv) :
    s.shotFrame.events = s.events ∧ s.shotFrame.store = s.store := by
  by_cases hs : s.steady.state = .starting
  · rw [State.shotFrame, if_pos hs]
    exact ⟨rfl, rfl⟩
  · rw [State.shotFrame, if_neg hs]
    by_cases hi : s.shot.iris = .at b.av
    · have hlt := (h.resolve_left hs).resolve_left (not_not_intro hi)
      rw [State.shotPrepare_stands hb hi,
        State.shotPrepared_opens (s := { s with shot := { s.shot with state := .preparing } }) hb hd hlt]
      simp
    · by_cases ha : ∃ a, s.shot.iris = .at a
      · obtain ⟨a, ha⟩ := ha
        rw [State.shotPrepare_moves hb ha fun h => hi (h ▸ ha)]
        exact ⟨rfl, rfl⟩
      · rw [State.shotPrepare_waits fun a h => ha ⟨a, h⟩]
        exact ⟨rfl, rfl⟩

theorem Steady.closes_starting (z : Steady) : z.closes.state = .starting ↔ z.state = .starting := by
  cases hs : z.state <;> simp [Steady.closes, hs]

section
variable (hc : Canonical s) (hb : s.shot.burst = some b)
  (hf : findNumber x.number s.cat.places = some (p, r)) (hv : Ended s u x p r total latency v)
  (hl : s.supply.powerLow = false) (ho : ¬b.over)
include hc hb hf hv hl ho

omit hl in
/-- The exposure that the next frame starts (R172). -/
theorem nextFrame_exposes (hs : s.steady.state ≠ .starting) (hi : s.shot.iris = .at b.av)
    (hlate : nextLearned s latency < exposureTime b.tv)
    (hn : findNumber b.nextNumber s.cat.places = some (q, y)) (hq : q ≠ p) :
    let t := v.inInterval.shotFrame
    t.shot.state = .exposing ∧ t.shot.burst = some { b with next := b.next + 1 } ∧
      t.timers.frame = some 0 ∧ t.timers.shutter = some 0 ∧
      t.record q = some { y with state := .exposing, focusStep := u.focus.position } ∧ t.shot.exposure = some b.inHand := by
  obtain ⟨-, hd, -⟩ := not_over_iff.1 ho
  obtain ⟨hburst, hiris, -, hlearned, -, -, -, -, -, -, -, hsteady, -, -, hfocus, -, hplaces⟩ := hv
  have hvs : v.inInterval.steady.state ≠ .starting := by
    show v.steady.state ≠ _
    rw [hsteady]
    exact mt (Steady.closes_starting _).1 hs
  have hfound : findNumber b.nextNumber v.cat.places = some (q, y) := by
    rw [hplaces]
    exact findNumber_put_other hc.1.1 (x := closedRecord s x total r) (findNumber_mem hf).1 rfl hn hq
  have hlt : v.shot.learned < exposureTime b.tv := by omega
  rw [State.shotFrame, if_neg hvs, State.shotPrepare_stands (s := v.inInterval) (hburst.trans hb) (hiris.trans hi)]
  obtain ⟨h1, -, h2, h3, h4, -, -, -, -, hclose⟩ :=
    State.shotPrepared_exposes (s := { v.inInterval with shot := { v.inInterval.shot with state := .preparing } })
      (hburst.trans hb) hd hfound (.inr hlt)
  obtain ⟨-, h5, h6⟩ | ⟨hge, -⟩ := hclose
  · refine ⟨h5, h1, h2, h3, (congrArg (Table.get q) h4).trans ((Table.get_put_same _ _ _).trans ?_), h6⟩
    show some (y.begun v.focus.position) = _
    rw [hfocus]
    rfl
  · exact absurd hlt (Nat.not_lt.2 hge)

/-- The next frame's exposure confirmed as it starts (R172, R173). -/
theorem nextFrame_confirms (hs : s.steady.state ≠ .starting) (hi : s.shot.iris = .at b.av)
    (hlate : (exposureTime b.tv : Int) ≤ nextLearned s latency)
    (hn : findNumber b.nextNumber s.cat.places = some (q, y)) (hq : q ≠ p) :
    let t := v.inInterval.shotFrame
    t.record q = some { y with
      state := .awaiting, focusStep := u.focus.position, measured := some 0, steady := some s.steady.next.1
      peakShift := some s.steady.next.2 } ∧
    t.store.queue = s.store.queue ++ [x.number, b.nextNumber] ∧
    t.shot.exposure = none ∧ t.shot.lastMeasured = some 0 ∧ t.shot.lastLatency = some 0 ∧
    (b.next < b.count → t.shot.state = .interval ∧ t.events = (s.setFlag .shotEnded).events) ∧
    (b.next = b.count → t.shot.state = .idle ∧
      t.events = ((s.setFlag .shotEnded).setFlag .burstEnded).events) := by
  obtain ⟨-, hd, hrel⟩ := not_over_iff.1 ho
  obtain ⟨hburst, hiris, -, hlearned, -, -, -, -, -, -, hsensor, hsteady, hsupply, hevents, hfocus, hstore, hplaces⟩ := hv
  have hvs : v.inInterval.steady.state ≠ .starting := by
    show v.steady.state ≠ _
    rw [hsteady]
    exact mt (Steady.closes_starting _).1 hs
  have hfound : findNumber b.nextNumber v.cat.places = some (q, y) := by
    rw [hplaces]
    exact findNumber_put_other hc.1.1 (x := closedRecord s x total r) (findNumber_mem hf).1 rfl hn hq
  have hwf : Table.wf anyValue v.cat.places = true := by
    rw [hplaces]
    exact Table.wf_put rfl hc.1.1
  rw [State.shotFrame, if_neg hvs, State.shotPrepare_stands (s := v.inInterval) (hburst.trans hb) (hiris.trans hi)]
  obtain ⟨-, hrecord, hqueue, hexposure, hmeasured, hlatency, -, -, hgoes, hends⟩ :=
    State.shotPrepared_confirmed (s := { v.inInterval with shot := { v.inInterval.shot with state := .preparing } })
      hwf (hburst.trans hb) hd hfound (show exposureTime b.tv ≤ v.shot.learned by omega) hsensor
      (show v.supply.powerLow = false by rw [hsupply, hl])
  have hres : steadyResult v.steady.opens = s.steady.next := by rw [hsteady, Steady.result_next]
  have hev : (v.setFlag .shotEnded).events = (s.setFlag .shotEnded).events := by
    simp [hevents, BitVec.or_assoc]
  refine ⟨hrecord.trans ?_, hqueue.trans ?_, hexposure, hmeasured, hlatency, fun hlt => ?_, fun heq => ?_⟩
  · show some (((y.begun v.focus.position).exposed (some 0) (steadyResult v.steady.opens)).awaiting false) = _
    rw [hres, hfocus]
    rfl
  · show v.store.queue ++ [b.nextNumber] = _
    rw [hstore]
    simp
  · obtain ⟨hst, he⟩ := hgoes (not_over_iff.2 ⟨hlt, hd, hrel⟩)
    exact ⟨hst, he.trans hev⟩
  · obtain ⟨hst, he⟩ := hends (.inl (by simp [heq]))
    refine ⟨hst, he.trans ?_⟩
    show ((v.setFlag .shotEnded).setFlag .burstEnded).events = _
    rw [State.setFlag_events, hev]
    rfl

/-- The next frame is due as the exposure ends (R176). -/
theorem nextFrame_said : NextFrame s u x b p latency v.inInterval.shotDue := by
  have hended := hv
  obtain ⟨-, hd, -⟩ := not_over_iff.1 ho
  obtain ⟨hburst, hiris, -, hlearned, hexposure, -, -, -, -, -, -, hsteady, -, hevents, -, hstore, -⟩ := hv
  have hvb : v.inInterval.shot.burst = some b := hburst.trans hb
  have hvi : v.inInterval.shot.iris = s.shot.iris := hiris
  have hvs : v.inInterval.steady.state = .starting ↔ s.steady.state = .starting := by
    show v.steady.state = _ ↔ _
    rw [hsteady]
    exact Steady.closes_starting _
  have hlen : v.inInterval.store.queue.length = s.store.queue.length + 1 := by
    show v.store.queue.length = _
    rw [hstore]
    simp
  have hqueue : v.store.queue = s.store.queue ++ [x.number] := congrArg StoreEngine.queue hstore
  have waits : 7 ≤ s.store.queue.length →
      v.inInterval.shotDue = v.inInterval.onShot fun x => { x with state := .queueWait } := fun h =>
    if_neg (by rw [hlen]; exact Nat.not_lt.2 (Nat.succ_le_succ h))
  have begins : s.store.queue.length < 7 → v.inInterval.shotDue = v.inInterval.shotFrame := fun h =>
    if_pos (by rw [hlen]; exact Nat.succ_lt_succ h)
  refine ⟨fun h => ?_, fun h => ?_, fun h => ⟨fun hs => ?_, fun hs => ⟨fun a hi ha => ?_, fun a hi => ?_,
    fun q y hi hlt hn hq => ?_, fun q y hi hge hn hq => ?_⟩⟩⟩
  · by_cases h7 : 7 ≤ s.store.queue.length
    · rw [waits h7]
      exact ⟨hevents, hqueue⟩
    · rw [begins (Nat.lt_of_not_le h7)]
      obtain ⟨he, hst⟩ := State.shotFrame_quiet (s := v.inInterval) hvb hd ((h.resolve_left h7).imp hvs.2
        (.imp (fun h => hvi ▸ h) fun h => show v.shot.learned < _ by omega))
      exact ⟨he.trans hevents, (congrArg StoreEngine.queue hst).trans hqueue⟩
  · rw [waits h]
    exact ⟨rfl, hvb, hexposure⟩
  · rw [begins h, State.shotFrame, if_pos (hvs.2 hs)]
    exact ⟨rfl, hvb⟩
  · rw [begins h, State.shotFrame, if_neg (mt hvs.1 hs), State.shotPrepare_moves hvb (hvi.trans hi) ha]
    exact ⟨rfl, rfl⟩
  · rw [begins h, State.shotFrame, if_neg (mt hvs.1 hs), State.shotPrepare_waits fun c hc => by
      rw [hvi] at hc
      rcases hi with hi | hi <;> cases hi.symm.trans hc]
  · rw [begins h]
    exact nextFrame_exposes hc hb hf hended ho hs hi hlt hn hq
  · rw [begins h]
    exact nextFrame_confirms hc hb hf hended hl ho hs hi hge hn hq

end

end Sys2Proof.Machine
end

section
/-! PROOFS. An exposure that fails, and O60 put together (R174, R181). -/

namespace Sys2Proof.Machine

variable {s u v w : State} {m : Moment} {x : InHand} {b : Burst} {n p total at_ latency : Nat} {r : PicRecord}
  {measured : Option Nat} {c : FailCause}

/-! ### The next frame at once -/

/-- The frame timer has reached the interval (R176). -/
theorem closure_next (hc : Canonical s) (hb : s.shot.burst = some b)
    (hf : findNumber x.number s.cat.places = some (p, r)) (hv : Ended s u x p r total latency v)
    (hl : s.supply.powerLow = false) (ho : ¬b.over) (hd : 1000 * s.shot.setup.interval ≤ u.timers.frame.getD 0) :
    ClosureLeaves s u x b p r total latency v.shotNext.shotDueCheck := by
  have hsaid := nextFrame_said hc hb hf hv hl ho
  have hnext := shotNext_inInterval hb hv hl ho
  obtain ⟨hburst, -, hsetup, -, -, -, -, -, -, hframe, -, -, hsupply, -, -, -, hplaces⟩ := hv
  have hgoes : v.inInterval.shotDueCheck = v.inInterval.shotDue := by
    refine if_pos ⟨rfl, ?_⟩
    show 1000 * v.shot.setup.interval ≤ v.timers.frame.getD 0
    rwa [hsetup, hframe]
  rw [hnext, hgoes]
  refine ⟨fun hne => ?_, fun _ _ _ hf h1 => ?_, fun _ _ _ _ _ _ => hsaid, fun h => absurd h ho⟩
  · have hwf : Table.wf anyValue v.cat.places = true := by
      rw [hplaces]
      exact Table.wf_put rfl hc.1.1
    have hfound : findNumber x.number v.cat.places = some (p, closedRecord s x total r) := by
      rw [hplaces]
      exact findNumber_put_same hc.1.1 hf rfl
    have hrecord : v.record p = some (closedRecord s x total r) := Table.get_of_mem hwf (findNumber_mem hfound).1
    have hother : b.nextNumber ≠ x.number := hne.resolve_right fun h => ho (.inl h)
    unfold State.shotDue
    split
    · exact State.shotFrame_keeps (s := v.inInterval) hwf (hburst.trans hb) (not_over_iff.1 ho).2.1
        (show v.supply.powerLow = false by rw [hsupply, hl]) hrecord (by simp [closedRecord])
        fun q z hq => findNumber_place_ne hwf hfound hq hother
    · exact hrecord
  · rcases hff : u.timers.frame with _ | f
    · rw [hff, Option.getD_none] at hd
      omega
    · rw [hff, Option.getD_some] at hd
      exact absurd hd (Nat.not_le.2 (hf f hff))

/-- What comes behind a confirmed closure (R173, R176, R179). -/
theorem closure_said (hc : Canonical s) (hb : s.shot.burst = some b) (hw : Closes s u x total at_ w)
    (hl : s.supply.powerLow = false) (hf : findNumber x.number s.cat.places = some (p, r)) :
    ClosureLeaves s u x b p r total (total - at_) w.shotConfirm.shotDueCheck := by
  obtain ⟨v, hv, he⟩ := shotConfirm_ended hw hl hf
  rw [he]
  by_cases ho : b.over
  · exact closure_idle hc hb hf hv ho
  · by_cases hd : 1000 * s.shot.setup.interval ≤ u.timers.frame.getD 0
    · exact closure_next hc hb hf hv hl ho hd
    · exact closure_interval hb hv hl ho hd

/-! ### A failed exposure -/

/-- The record of an exposure that failed (R7, R174, R181). -/
def failedRecord (s : State) (measured : Option Nat) (c : FailCause) (r : PicRecord) : PicRecord :=
  (r.exposed measured s.steady.ended).failedWith c

/-- The record takes its measured exposure, then fails. -/
theorem State.shotFail_eq (hf : findNumber n s.cat.places = some (p, r)) : s.shotFail n measured c =
    (s.shotEndFrame.setRecord p (r.exposed measured s.steady.ended)).recordFailed p
      (r.exposed measured s.steady.ended) c := by
  have hset : (s.shotEndFrame.setRecord p (r.exposed measured s.steady.ended)).record p =
      some (r.exposed measured s.steady.ended) := Table.get_put_same _ _ _
  unfold State.shotFail
  rw [Steady.result_ended, State.onNumber_some (p := p) (r := r) (by simpa using hf)]
  exact State.failPlace_some hset c

theorem State.shotFail_found (hf : findNumber n s.cat.places = some (p, r)) :
    (s.shotFail n measured c).record p = some (failedRecord s measured c r) ∧
    (s.shotFail n measured c).map.reserved = s.map.reserved - r.remaining ∧
    (s.shotFail n measured c).cat.places =
      Table.put p (failedRecord s measured c r) (Table.put p (r.exposed measured s.steady.ended) s.cat.places) := by
  rw [State.shotFail_eq hf]
  refine ⟨Table.get_put_same _ _ _, ?_, ?_⟩
  · show (BlockMap.returnAll _ _ _).reserved = _
    rw [BlockMap.returnAll_reserved]
    simp [BlockMap.release, PicRecord.exposed]
  · show Table.put p _ (s.shotEndFrame.setRecord p _).cat.places = _
    simp [failedRecord]

theorem State.shotFail_wf (hwf : Table.wf anyValue s.cat.places = true)
    (hf : findNumber n s.cat.places = some (p, r)) :
    Table.wf anyValue (s.shotFail n measured c).cat.places = true := by
  rw [(State.shotFail_found hf).2.2]
  exact Table.wf_put rfl (Table.wf_put rfl hwf)

/-- Another record is found as before. -/
theorem State.shotFail_other (hwf : Table.wf anyValue s.cat.places = true)
    (hf : findNumber n s.cat.places = some (p, r)) {k q : Nat} {z : PicRecord} (hne : k ≠ n)
    (hq : findNumber k s.cat.places = some (q, z)) :
    findNumber k (s.shotFail n measured c).cat.places = some (q, z) := by
  have hqp := findNumber_place_ne hwf hf hq hne
  rw [(State.shotFail_found hf).2.2]
  have hmid := findNumber_put_same (x := r.exposed measured s.steady.ended) hwf hf rfl
  exact findNumber_put_other (x := failedRecord s measured c r) (Table.wf_put rfl hwf) (findNumber_mem hmid).1 rfl
    (findNumber_put_other (x := r.exposed measured s.steady.ended) hwf (findNumber_mem hf).1 rfl hq hqp) hqp

/-- The failure's own number finds the failed record. -/
theorem State.shotFail_same (hwf : Table.wf anyValue s.cat.places = true)
    (hf : findNumber n s.cat.places = some (p, r)) :
    findNumber n (s.shotFail n measured c).cat.places = some (p, failedRecord s measured c r) := by
  rw [(State.shotFail_found hf).2.2]
  have hmid := findNumber_put_same (x := r.exposed measured s.steady.ended) hwf hf rfl
  exact findNumber_put_same (x := failedRecord s measured c r) (Table.wf_put rfl hwf) hmid rfl

/-- After POWER_LOW a failed exposure ends the burst (R181). -/
theorem State.shotFail_idle (hwf : Table.wf anyValue s.cat.places = true)
    (hf : findNumber n s.cat.places = some (p, r)) :
    let t := ((s.shotFail n measured c).setFlag .shotEnded).shotIdle
    t.shot.state = .idle ∧ t.shot.burst = none ∧ t.record p = some (failedRecord s measured c r) ∧
      t.store.queue = s.store.queue ∧ t.events = ((s.setFlag .shotEnded).setFlag .burstEnded).events := by
  intro t
  refine ⟨by simp [t], by simp [t], ?_, by simp [t], by simp [t]⟩
  have hkeep := State.record_shotRelease_keeps (s := (s.shotFail n measured c).setFlag .shotEnded)
    (State.shotFail_wf hwf hf) (State.shotFail_found (measured := measured) (c := c) hf).1
    (by simp [failedRecord, PicRecord.failedWith])
  refine Eq.trans ?_ hkeep
  simp [t, State.record]

/-! ### The time-out -/

theorem State.shotTimeout_fault (hx : s.shot.exposure = some x) (hl : s.supply.powerLow = false) :
    s.shotTimeout = ((((s.shotFail x.number none .shutter).shotRelease).onShot
      fun y => { y with state := .fault }).setFlag .shotEnded).setFlag .shutterFault := by
  unfold State.shotTimeout
  rw [hx]
  exact if_neg (by simp [hl])

theorem State.shotTimeout_power (hx : s.shot.exposure = some x) (hl : s.supply.powerLow = true) :
    s.shotTimeout = ((s.shotFail x.number none .power).setFlag .shotEnded).shotIdle := by
  unfold State.shotTimeout
  rw [hx]
  exact if_pos hl

/-- After POWER_LOW the closure fails the record, and the burst ends (R181). -/
theorem State.shotConfirm_power (hx : s.shot.exposure = some x) (hl : s.supply.powerLow = true)
    (ht : s.timers.shutter = some total) : ∃ learned, s.shotConfirm =
      (({ s with shot := { s.shot with
        learned := learned, lastLatency := some (total - x.closedAt.getD 0), lastMeasured := some total } }.shotFail
        x.number (some total) .power).setFlag .shotEnded).shotIdle := by
  refine ⟨learnedAfter s.shot.learned (total - x.closedAt.getD 0), ?_⟩
  unfold State.shotConfirm
  rw [hx, ht]
  dsimp only [Option.getD_some]
  rw [if_pos (by exact hl)]
  unfold State.shotNext
  split
  · exact if_pos (by simp [State.onShot, hl])
  · rfl

end Sys2Proof.Machine
end

section
/-! PROOFS. O60: each command leads to the closure, to the time-out, or to nothing. -/

namespace Sys2Proof.Machine

variable {s : State} {m : Moment} {x : InHand} {b : Burst} {p total at_ : Nat} {r : PicRecord}

/-- The sensor confirms, in CLOSING or as the close command is issued (R172, R173). -/
theorem closure_begins (hp : s.supply.powered = true) (hx : s.shot.exposure = some x) {i : Instr}
    (h : (s.shot.state = .closing ∧ i = .shutterClosed m ∧ x.closedAt = some at_) ∨
      (s.shot.state = .exposing ∧
        (∃ t, (s.arrive m).timers.shutter = some t ∧ exposureTime x.tv - s.shot.learned ≤ t) ∧
        m.shutterClosed = true ∧ i = .closeCommandDue m ∧ at_ = total))
    (ht : (s.arrive m).timers.shutter = some total) :
    ∃ w, Closes s (s.arrive m) x total at_ w ∧ exec i s = .next w.shotConfirm.shotDueCheck := by
  obtain ⟨hs, rfl, hat⟩ | ⟨hs, hd, hm, rfl, rfl⟩ := h
  · refine ⟨(s.arrive m).sensorClosed,
      ⟨?_, rfl, rfl, rfl, rfl, ht, rfl, rfl, rfl, rfl, rfl, rfl, rfl, rfl⟩, exec_shutterClosed_closing hp hs⟩
    rw [← hat]
    exact hx
  · have hclosed : (s.arrive m).lines.shutterClosed = true := (sensorRead_of_ne s (by rw [hs]; nofun) m).trans hm
    refine ⟨(s.arrive m).shotClosing,
      ⟨?_, rfl, rfl, rfl, rfl, ht, rfl, hclosed, rfl, rfl, rfl, rfl, rfl, rfl⟩, ?_⟩
    · rw [← ht]
      exact congrArg (Option.map _) hx
    · rw [exec_closeCommandDue_due hp hx hs hd, State.shotClose_closed hclosed]

/-- 50 ms without a closure (R174). -/
theorem shutterTimeout_faults (hp : s.supply.powered = true) (hx : s.shot.exposure = some x) (hc : Canonical s)
    (hs : s.shot.state = .closing) (hl : s.supply.powerLow = false) (hb : s.shot.burst = some b)
    (hf : findNumber x.number s.cat.places = some (p, r))
    (hlate : ∃ t, (s.arrive m).timers.confirm = some t ∧ 50000 ≤ t) :
    ∃ t y, exec (.shutterTimeout m) s = .next t ∧ t.shot.state = .fault ∧ t.shot.exposure = none ∧
      t.record p = some y ∧ y.state = .failed ∧ y.cause = some .shutter ∧ y.measured = none ∧ y.remaining = 0 ∧
      y.steady = some s.steady.ended.1 ∧ y.peakShift = some s.steady.ended.2 ∧ t.steady.session = none ∧
      t.steady.kept = none ∧ (s.steady.state = .hold → t.steady.state = .active) ∧
      t.shot.learned = s.shot.learned ∧ t.shot.lastLatency = s.shot.lastLatency ∧
      t.shot.lastMeasured = s.shot.lastMeasured ∧
      (b.numbers = [x.number] → t.map.reserved = s.map.reserved - r.remaining) ∧ t.store.queue = s.store.queue ∧
      (∀ k q z, k ∈ b.numbers → k ≠ x.number → findNumber k s.cat.places = some (q, z) → z.state = .reserved →
        t.record q = none) ∧
      t.events = ((s.setFlag .shotEnded).setFlag .shutterFault).events ∧
      t.timers.shutter = none ∧ t.timers.confirm = none := by
  let v : State := (s.arrive m).shotFail x.number none .shutter
  obtain ⟨hrecord, hreserved, -⟩ := State.shotFail_found (s := s.arrive m) (measured := none) (c := .shutter) hf
  have hwf : Table.wf anyValue v.cat.places = true := State.shotFail_wf (s := s.arrive m) hc.1.1 hf
  have hvb : v.shot.burst = some b := by simpa [v] using hb
  have hexec := exec_shutterTimeout_late hp hs hlate
  rw [State.shotTimeout_fault (s := s.arrive m) hx hl] at hexec
  let t : State := ((v.shotRelease.onShot fun y => { y with state := .fault }).setFlag .shotEnded).setFlag .shutterFault
  have hplaces : ∀ j, t.record j = v.shotRelease.record j := fun j => by simp [t, State.record]
  refine ⟨_, failedRecord s none .shutter r, hexec, by simp, by simp, ?_, rfl, rfl, rfl, rfl, rfl, rfl,
    by simp [State.shotEndFrame, Steady.closes], by simp [State.shotEndFrame, Steady.closes],
    fun hh => by simp [State.shotEndFrame, Steady.closes, hh], by simp, by simp, by simp, fun hn => ?_, by simp,
    fun k q z hk hne hq hz => ?_, by simp, by simp, by simp⟩
  · exact (hplaces p).trans
      (State.record_shotRelease_keeps hwf hrecord (by simp [failedRecord, PicRecord.failedWith]))
  · have hrelease : v.shotRelease = v := by
      unfold State.shotRelease
      rw [hvb]
      dsimp only
      rw [hn, List.foldl_cons, List.foldl_nil, State.releaseReserved,
        State.onNumber_some (State.shotFail_same (s := s.arrive m) hc.1.1 hf)]
      exact if_neg (by simp [failedRecord, PicRecord.failedWith])
    have hmap : t.map = v.shotRelease.map := by simp [t]
    exact (congrArg BlockMap.reserved (hmap.trans (congrArg State.map hrelease))).trans hreserved
  · exact (hplaces q).trans (State.record_shotRelease_none hwf hvb hk
      (State.shotFail_other (s := s.arrive m) hc.1.1 hf hne hq) hz)

/-- After POWER_LOW the record fails, by the closure or by the time-out (R181). -/
theorem closure_powerLow (hp : s.supply.powered = true) (hx : s.shot.exposure = some x) (hc : Canonical s)
    (hs : s.shot.state = .closing) (hl : s.supply.powerLow = true)
    (hf : findNumber x.number s.cat.places = some (p, r)) (ht : (s.arrive m).timers.shutter = some total) :
    let failed (i : Instr) (measured : Option Nat) : Prop := ∃ t y, exec i s = .next t ∧ t.shot.state = .idle ∧
      t.shot.burst = none ∧ t.record p = some y ∧ y.state = .failed ∧ y.cause = some .power ∧
      y.measured = measured ∧ y.steady = some s.steady.ended.1 ∧ y.peakShift = some s.steady.ended.2 ∧
      y.armed = r.armed ∧ y.remaining = 0 ∧ y.extent = [] ∧ t.store.queue = s.store.queue ∧
      t.events = ((s.setFlag .shotEnded).setFlag .burstEnded).events
    failed (.shutterClosed m) (some total) ∧
      ((∃ t, (s.arrive m).timers.confirm = some t ∧ 50000 ≤ t) → failed (.shutterTimeout m) none) := by
  refine ⟨?_, fun hlate => ?_⟩
  · have hexec := exec_shutterClosed_closing (m := m) hp hs
    obtain ⟨learned, hconfirm⟩ := State.shotConfirm_power (s := (s.arrive m).sensorClosed) hx hl ht
    let w : State := { (s.arrive m).sensorClosed with shot := { s.shot with
      learned := learned, lastLatency := some (total - x.closedAt.getD 0), lastMeasured := some total } }
    obtain ⟨hidle, hburst, hrecord, hqueue, hevents⟩ :=
      State.shotFail_idle (s := w) (measured := some total) (c := .power) hc.1.1 hf
    have hdue := State.shotDueCheck_idle
      (s := ((w.shotFail x.number (some total) .power).setFlag .shotEnded).shotIdle) (by rw [hidle]; nofun)
    have hrun := hexec.trans (congrArg _ ((congrArg State.shotDueCheck hconfirm).trans hdue))
    exact ⟨_, _, hrun, hidle, hburst, hrecord, rfl, rfl, rfl, rfl, rfl, rfl, rfl, rfl, hqueue, hevents⟩
  · have hexec := exec_shutterTimeout_late hp hs hlate
    rw [State.shotTimeout_power (s := s.arrive m) hx hl] at hexec
    obtain ⟨hidle, hburst, hrecord, hqueue, hevents⟩ :=
      State.shotFail_idle (s := s.arrive m) (measured := none) (c := .power) hc.1.1 hf
    exact ⟨_, _, hexec, hidle, hburst, hrecord, rfl, rfl, rfl, rfl, rfl, rfl, rfl, rfl, hqueue, hevents⟩

/-- Settles O60: the close command, the closure and the time-out by the state they meet, the exposure time by the search
for its root. -/
theorem exposuresCloseOrTimeOut : Obligations.ExposuresCloseOrTimeOut := by
  unfold Obligations.ExposuresCloseOrTimeOut
  refine ⟨fun m s x hp hx => ⟨fun hs hd ho => exec_closeCommandDue_opens hp hx hs hd ho,
    exec_closeCommandDue_early hp hx, exec_shutterClosed_other hp, exec_shutterTimeout_early hp,
    fun b p r total at_ i hc h hl hb hf ht => ?_,
    fun b p r hc hs hl hb hf hlate => shutterTimeout_faults hp hx hc hs hl hb hf hlate,
    fun p r total hc hs hl hf ht => closure_powerLow hp hx hc hs hl hf ht⟩,
    fun n => ⟨fun _ => exposureTime_spec n, exposureTime_neg_spec⟩⟩
  obtain ⟨w, hw, he⟩ := closure_begins hp hx h ht
  exact ⟨_, he, closure_said hc hb hw hl hf⟩

end Sys2Proof.Machine
end

section
/-! PROOFS. What releases, failures and holds given back do together: blocks turn DIRTY, the reserved total falls, the
write queue grows, FREE places stay FREE (R3, R9, R22). -/

namespace Sys2Proof.Machine

variable {s t u : State}

/-! ### The Block Map -/

/-- From `a` to `b` blocks in use may have become DIRTY, and the reserved total may have fallen (R3, R38, R43). -/
def BlockMap.Wanes (a b : BlockMap) : Prop :=
  b.reserved ≤ a.reserved ∧ (b.mode = a.mode ∧ b.total = a.total ∧ b.identity = a.identity) ∧ (mapOk a → mapOk b ∧
    ∀ j, b.stateOf j = a.stateOf j ∨ a.stateOf j = .inUse ∧ ∃ w, b.stateOf j = .dirty w)

namespace BlockMap.Wanes

variable {a b c : BlockMap}

theorem refl (a : BlockMap) : a.Wanes a := ⟨Nat.le_refl _, ⟨rfl, rfl, rfl⟩, fun h => ⟨h, fun _ => .inl rfl⟩⟩

theorem trans (h : a.Wanes b) (h' : b.Wanes c) : a.Wanes c := by
  obtain ⟨hle, ⟨hmode, htotal, hidentity⟩, hstates⟩ := h
  obtain ⟨hle', ⟨hmode', htotal', hidentity'⟩, hstates'⟩ := h'
  refine ⟨Nat.le_trans hle' hle, ⟨hmode'.trans hmode, htotal'.trans htotal, hidentity'.trans hidentity⟩, fun hok => ?_⟩
  obtain ⟨hb, hs⟩ := hstates hok
  obtain ⟨hc, hs'⟩ := hstates' hb
  refine ⟨hc, fun j => ?_⟩
  obtain he | ⟨hu, w, hd⟩ := hs j
  · obtain he' | ⟨hu', hd'⟩ := hs' j
    · exact .inl (he'.trans he)
    · exact .inr ⟨he ▸ hu', hd'⟩
  · obtain he' | ⟨hu', -⟩ := hs' j
    · exact .inr ⟨hu, w, he'.trans hd⟩
    · cases hd.symm.trans hu'

theorem release (n : Nat) (a : BlockMap) : a.Wanes (a.release n) :=
  ⟨Nat.sub_le _ _, ⟨rfl, rfl, rfl⟩, fun h => ⟨BlockMap.release_ok h n, fun _ => .inl rfl⟩⟩

theorem returnOne (w : ReturnWait) (k : Nat) (a : BlockMap) : a.Wanes (a.returnOne w k) := by
  have hframe := BlockMap.returnOne_frame w k a
  refine ⟨Nat.le_of_eq (BlockMap.returnAll_reserved w [k] a), ⟨by rw [hframe], by rw [hframe], by rw [hframe]⟩,
    fun h => ⟨BlockMap.returnAll_ok h w [k], fun j => ?_⟩⟩
  rw [BlockMap.returnOne_state h]
  split
  next hj => exact .inr ⟨hj.1 ▸ hj.2, w, rfl⟩
  next => exact .inl rfl

theorem returnAll (w : ReturnWait) (l : List Nat) (a : BlockMap) : a.Wanes (a.returnAll w l) := by
  induction l generalizing a with
  | nil => exact refl a
  | cons k l ih => exact (returnOne w k a).trans (ih (a.returnOne w k))

/-- A DIRTY block stays DIRTY. -/
theorem dirty (h : a.Wanes b) (hok : mapOk a) {j : Nat} (hj : ∃ w, a.stateOf j = .dirty w) :
    ∃ w, b.stateOf j = .dirty w := by
  obtain ⟨w, hw⟩ := hj
  obtain he | ⟨hu, -⟩ := (h.2.2 hok).2 j
  · exact ⟨w, he.trans hw⟩
  · cases hw.symm.trans hu

/-- A block in use stays so or turns DIRTY. -/
theorem inUse (h : a.Wanes b) (hok : mapOk a) {j : Nat} (hj : a.stateOf j = .inUse) :
    b.stateOf j = .inUse ∨ ∃ w, b.stateOf j = .dirty w := by
  obtain he | ⟨-, hd⟩ := (h.2.2 hok).2 j
  · exact .inl (he.trans hj)
  · exact .inr hd

end BlockMap.Wanes

/-! ### The part -/

/-- From `s` to `t` records may have been released, failed or changed: no FREE place is taken. -/
def State.Wanes (s t : State) : Prop :=
  s.map.Wanes t.map ∧ (∀ i ∈ s.writer.queue, i ∈ t.writer.queue) ∧ (Table.wf anyValue s.cat.places = true →
    Table.wf anyValue t.cat.places = true ∧ ∀ p, s.record p = none → t.record p = none)

namespace State.Wanes

theorem of_same (hp : t.cat.places = s.cat.places) (hm : t.map = s.map) (hw : t.writer = s.writer) : s.Wanes t := by
  refine ⟨hm ▸ .refl _, fun i hi => hw ▸ hi, fun hwf => ⟨hp ▸ hwf, fun p h => ?_⟩⟩
  rw [State.record, hp]
  exact h

theorem refl (s : State) : s.Wanes s := of_same rfl rfl rfl

theorem trans (h : s.Wanes t) (h' : t.Wanes u) : s.Wanes u := by
  obtain ⟨hmap, hqueue, hplaces⟩ := h
  obtain ⟨hmap', hqueue', hplaces'⟩ := h'
  refine ⟨hmap.trans hmap', fun i hi => hqueue' i (hqueue i hi), fun hwf => ?_⟩
  obtain ⟨ht, hnone⟩ := hplaces hwf
  obtain ⟨hu, hnone'⟩ := hplaces' ht
  exact ⟨hu, fun p hp => hnone' p (hnone p hp)⟩

theorem foldl {α : Type} (l : List α) {f : State → α → State} (h : ∀ (s : State) (a : α), s.Wanes (f s a))
    (s : State) : s.Wanes (l.foldl f s) := by
  induction l generalizing s with
  | nil => exact refl s
  | cons a l ih => exact (h s a).trans (ih (f s a))

theorem onMap {f : BlockMap → BlockMap} (h : s.map.Wanes (f s.map)) : s.Wanes (s.onMap f) :=
  ⟨h, fun _ hi => hi, fun hwf => ⟨hwf, fun _ hp => hp⟩⟩

/-- The record at a place that is not FREE changes. -/
theorem setRecord {p : Nat} {r : PicRecord} (hp : Table.wf anyValue s.cat.places = true → s.record p = some r)
    (x : PicRecord) : s.Wanes (s.setRecord p x) := by
  refine ⟨.refl _, fun _ hi => hi, fun hwf => ⟨Table.wf_put rfl hwf, fun j hj => ?_⟩⟩
  rw [State.record_setRecord, if_neg ?_]
  · exact hj
  · rintro rfl
    cases hj.symm.trans (hp hwf)

theorem setFlag (s : State) (f : EventFlag) : s.Wanes (s.setFlag f) := of_same rfl rfl rfl

theorem markDirty (s : State) (i : Item) : s.Wanes (s.markDirty i) :=
  ⟨.refl _, fun _ hj => Writer.mem_mark hj, fun hwf => ⟨hwf, fun _ hp => hp⟩⟩

theorem claim {p : Nat} {r : PicRecord} (hp : Table.wf anyValue s.cat.places = true → s.record p = some r)
    (x : PicRecord) : s.Wanes (s.claim p x) :=
  (setRecord hp x).trans (markDirty _ _)

/-- A claim that changes the Block Map and the record. -/
theorem onMap_claim {f : BlockMap → BlockMap} (h : s.map.Wanes (f s.map)) {p : Nat} {r : PicRecord}
    (hp : Table.wf anyValue s.cat.places = true → s.record p = some r) (x : PicRecord) :
    s.Wanes ((s.onMap f).claim p x) :=
  (onMap h).trans (claim (s := s.onMap f) (r := r) hp x)

theorem dropRecord (s : State) (p : Nat) : s.Wanes (s.dropRecord p) := by
  refine ⟨.refl _, fun _ hi => hi, fun hwf => ⟨Table.wf_erase hwf, fun j hj => ?_⟩⟩
  show Table.get j (Table.erase p s.cat.places) = none
  by_cases h : j = p
  · rw [h]
    exact Table.get_erase_same hwf
  · rw [Table.get_erase_other h]
    exact hj

theorem onNumber (n : Nat) {f : Nat → PicRecord → State → State}
    (h : ∀ p r, (Table.wf anyValue s.cat.places = true → s.record p = some r) → s.Wanes (f p r s)) :
    s.Wanes (s.onNumber n f) := by
  rcases hf : findNumber n s.cat.places with _ | ⟨p, r⟩
  · rw [show s.onNumber n f = s by rw [State.onNumber, hf]]
    exact refl s
  · rw [State.onNumber_some hf]
    exact h p r fun hwf => Table.get_of_mem hwf (findNumber_mem hf).1

end State.Wanes

theorem State.freePlace_wanes (s : State) (p : Nat) : s.Wanes (s.freePlace p) := by
  unfold State.freePlace
  split
  · exact .refl s
  next r hr =>
    refine State.Wanes.trans (t := s.onMap fun m => ((m.release r.remaining).returnAll (.begins p) r.extent).returnAll
      .ready (r.refreshExtent.getD [])) (.onMap ?_) ((State.Wanes.dropRecord _ p).trans (.markDirty _ _))
    exact ((BlockMap.Wanes.release _ _).trans (.returnAll _ _ _)).trans (.returnAll _ _ _)

theorem State.failPlace_wanes (s : State) (p : Nat) (c : FailCause) : s.Wanes (s.failPlace p c) := by
  unfold State.failPlace
  split
  · exact .refl s
  next r hr =>
    exact .onMap_claim ((BlockMap.Wanes.release _ _).trans (.returnAll _ _ _)) (fun _ => hr) _

theorem State.releaseReserved_wanes (s : State) (n : Nat) : s.Wanes (s.releaseReserved n) := by
  refine State.Wanes.onNumber n fun p r _ => ?_
  split
  · exact s.freePlace_wanes p
  · exact .refl s

theorem State.dropHold_wanes (s : State) (n : Nat) : s.Wanes (s.dropHold n) :=
  .onNumber n fun _ _ hp => .setRecord hp _

theorem State.shotRelease_wanes (s : State) : s.Wanes s.shotRelease := by
  unfold State.shotRelease
  split
  · exact .foldl _ State.releaseReserved_wanes s
  · exact .refl s

/-! ### The Shot Sequencer's end -/

theorem State.shotIdle_wanes (s : State) : s.Wanes s.shotIdle :=
  s.shotRelease_wanes.trans (.of_same (by simp) (by simp) (by simp))

theorem State.shotNext_wanes (s : State) : s.Wanes s.shotNext := by
  unfold State.shotNext
  split
  · split
    · exact s.shotIdle_wanes
    · exact .of_same rfl rfl rfl
  · exact s.shotIdle_wanes

theorem State.shotFail_wanes (s : State) (n : Nat) (x : Option Nat) (c : FailCause) : s.Wanes (s.shotFail n x c) := by
  refine State.Wanes.trans (t := s.shotEndFrame) (.of_same (by simp) (by simp) (by simp)) ?_
  exact .onNumber n fun p r hp => (State.Wanes.setRecord hp _).trans (State.failPlace_wanes _ p c)

theorem State.shotAwait_wanes (s : State) (n x : Nat) (cut : Bool) : s.Wanes (s.shotAwait n x cut) := by
  refine State.Wanes.trans (t := s.shotEndFrame) (.of_same (by simp) (by simp) (by simp)) ?_
  refine State.Wanes.trans (.onNumber n fun p r hp => ?_) (.of_same rfl rfl rfl)
  exact .claim hp _

theorem State.shotConfirm_wanes (s : State) : s.Wanes s.shotConfirm := by
  unfold State.shotConfirm
  split
  · dsimp only
    refine State.Wanes.trans ?_ (State.shotNext_wanes _)
    refine State.Wanes.trans ?_ (State.Wanes.setFlag _ _)
    split
    · exact (State.Wanes.of_same (by simp) (by simp) (by simp)).trans (State.shotFail_wanes _ _ _ _)
    · exact (State.Wanes.of_same (by simp) (by simp) (by simp)).trans (State.shotAwait_wanes _ _ _ _)
  · exact .refl s

theorem State.shotClose_wanes (s : State) : s.Wanes s.shotClose := by
  have hclosing : s.Wanes s.shotClosing := .of_same rfl rfl rfl
  cases hs : s.lines.shutterClosed with
  | false => rwa [State.shotClose_open hs]
  | true =>
    rw [State.shotClose_closed hs]
    exact hclosing.trans (State.shotConfirm_wanes _)

/-- The shot has a burst whose RESERVED records a DISARM releases (R180). -/
def ShotState.releases : ShotState → Bool
  | .idle | .preparing => false
  | _ => true

/-- Where DISARM releases, it does so first (R180). -/
theorem State.shotDisarm_wanes_released (h : s.shot.state.releases = true) : s.shotRelease.Wanes s.shotDisarm := by
  unfold State.shotDisarm
  have hidle : s.shotRelease.Wanes s.shotIdle := .of_same (by simp) (by simp) (by simp)
  split
  next hs => simp [hs, ShotState.releases] at h
  iterate 5 exact hidle
  next hs => simp [hs, ShotState.releases] at h
  · exact (State.Wanes.of_same (by simp) (by simp) (by simp)).trans (State.shotClose_wanes _)
  · exact .of_same rfl rfl rfl

theorem State.shotDisarm_wanes (s : State) : s.Wanes s.shotDisarm := by
  cases h : s.shot.state.releases with
  | true => exact s.shotRelease_wanes.trans (State.shotDisarm_wanes_released h)
  | false =>
    unfold State.shotDisarm
    cases hs : s.shot.state
    case idle => exact .refl s
    case preparing => exact .of_same rfl rfl rfl
    all_goals simp [hs, ShotState.releases] at h

/-! ### The Store Engine's and the Read Chain's end -/

theorem State.storePowerLow_wanes (s : State) : s.Wanes s.storePowerLow := by
  have hfail := State.Wanes.foldl s.store.queue (f := fun s n => s.onNumber n fun p _ s => s.failPlace p .power)
    (fun s n => .onNumber n fun p _ _ => s.failPlace_wanes p .power) s
  exact hfail.trans (.of_same (by simp [State.storePowerLow]) (by simp [State.storePowerLow])
    (by simp [State.storePowerLow]))

theorem State.chainEmpty_wanes (s : State) (o : Option (Nat × Bool)) : s.Wanes (s.chainEmpty o) := by
  have hdrop := State.Wanes.foldl s.chain.chain (f := fun s d => s.dropHold d.number)
    (fun s d => s.dropHold_wanes d.number) s
  exact hdrop.trans (.of_same (by simp [State.chainEmpty]) (by simp [State.chainEmpty]) (by simp [State.chainEmpty]))

theorem State.refreshOver_wanes (s : State) : s.Wanes s.refreshOver := .of_same (by simp) (by simp) (by simp)

theorem State.refreshDrop_wanes (s : State) (x : Bool) : s.Wanes (s.refreshDrop x) := by
  unfold State.refreshDrop
  split
  next p r hr =>
    have hp : Table.wf anyValue s.cat.places = true → s.record p = some r := fun hwf => by
      unfold refreshRecord at hr
      split at hr
      · exact Table.get_of_mem hwf (findNumber_mem hr).1
      · cases hr
    exact (State.Wanes.onMap_claim ((BlockMap.Wanes.release _ _).trans (.returnAll _ _ _)) hp _).trans
      (State.refreshOver_wanes _)
  · exact s.refreshOver_wanes

theorem State.chainPowerLow_wanes (s : State) : s.Wanes s.chainPowerLow := by
  refine (s.chainEmpty_wanes none).trans ?_
  unfold State.chainPowerLow
  dsimp only
  split
  · refine State.Wanes.trans (t := ((s.chainEmpty none).onChain fun c =>
      { c with item := c.item.map fun x => { x with notify := false } }).refreshDrop false) ?_
      (.of_same (by simp) (by simp) (by simp))
    exact (State.Wanes.of_same (by simp) (by simp) (by simp)).trans (State.refreshDrop_wanes _ _)
  · exact .of_same (by simp) (by simp) (by simp)

end Sys2Proof.Machine
end

section
/-! PROOFS. The record of a number through POWER_LOW's duties (R70, R81, R87, R181). -/

namespace Sys2Proof.Machine

variable {s t u : State} {n p : Nat} {r : PicRecord}

/-! ### A record that nothing of the shot touches -/

/-- Number `n` finds the same record from `s` to `t`. -/
def Tracks (n p : Nat) (r : PicRecord) (s t : State) : Prop :=
  Table.wf anyValue s.cat.places = true → findNumber n s.cat.places = some (p, r) →
    Table.wf anyValue t.cat.places = true ∧ findNumber n t.cat.places = some (p, r)

namespace Tracks

theorem of_same (h : t.cat.places = s.cat.places) : Tracks n p r s t := by
  intro hwf hf
  rw [h]
  exact ⟨hwf, hf⟩

theorem trans (h : Tracks n p r s t) (h' : Tracks n p r t u) : Tracks n p r s u := fun hwf hf =>
  h' (h hwf hf).1 (h hwf hf).2

theorem setFlag (s : State) (f : EventFlag) : Tracks n p r s (s.setFlag f) := of_same rfl

theorem foldl {α : Type} (l : List α) {f : State → α → State} (h : ∀ s, ∀ a ∈ l, Tracks n p r s (f s a)) (s : State) :
    Tracks n p r s (l.foldl f s) := by
  induction l generalizing s with
  | nil => exact of_same rfl
  | cons a l ih =>
    exact (h s a List.mem_cons_self).trans (ih (fun s a ha => h s a (List.mem_cons_of_mem _ ha)) (f s a))

end Tracks

/-- A release passes a record over that is not RESERVED (R6). -/
theorem State.releaseReserved_tracks (hr : r.state ≠ .reserved) (s : State) (k : Nat) :
    Tracks n p r s (s.releaseReserved k) := by
  intro hwf hf
  refine ⟨State.releaseReserved_wf hwf k, ?_⟩
  obtain he | ⟨j, x, hk, hx, he⟩ := s.releaseReserved_places k
  · rw [he, hf]
  · rw [he]
    refine findNumber_erase_other hf ?_
    rintro rfl
    have hxr := (Table.get_of_mem hwf (findNumber_mem hk).1).symm.trans (Table.get_of_mem hwf (findNumber_mem hf).1)
    exact hr (Option.some_inj.1 hxr ▸ hx)

theorem State.shotRelease_tracks (hr : r.state ≠ .reserved) (s : State) : Tracks n p r s s.shotRelease := by
  unfold State.shotRelease
  split
  · exact .foldl _ (fun s k _ => State.releaseReserved_tracks hr s k) s
  · exact .of_same rfl

theorem State.shotIdle_tracks (hr : r.state ≠ .reserved) (s : State) : Tracks n p r s s.shotIdle :=
  (State.shotRelease_tracks hr s).trans (.of_same (by simp))

theorem State.shotNext_tracks (hr : r.state ≠ .reserved) (s : State) : Tracks n p r s s.shotNext := by
  unfold State.shotNext
  split
  · split
    · exact State.shotIdle_tracks hr s
    · exact .of_same rfl
  · exact State.shotIdle_tracks hr s

theorem State.shotFail_tracks {k : Nat} (hk : k ≠ n) (s : State) (x : Option Nat) (c : FailCause) :
    Tracks n p r s (s.shotFail k x c) := by
  intro hwf hf
  rcases hq : findNumber k s.cat.places with _ | ⟨q, z⟩
  · have hsame : (s.shotFail k x c).cat.places = s.cat.places := by
      unfold State.shotFail
      rw [State.onNumber_none (by simpa using hq)]
      simp
    rw [hsame]
    exact ⟨hwf, hf⟩
  · exact ⟨State.shotFail_wf hwf hq, State.shotFail_other hwf hq hk.symm hf⟩

/-- Under POWER_LOW the closure fails the exposing record alone (R181). -/
theorem State.shotConfirm_tracks (hr : r.state ≠ .reserved) (hl : s.supply.powerLow = true)
    (hx : ∀ x, s.shot.exposure = some x → x.number ≠ n) : Tracks n p r s s.shotConfirm := by
  unfold State.shotConfirm
  split
  next e he =>
    dsimp only
    rw [if_pos (by exact hl)]
    refine Tracks.trans ?_ (State.shotNext_tracks hr _)
    refine Tracks.trans ?_ (Tracks.setFlag _ _)
    refine Tracks.trans ?_ (State.shotFail_tracks (hx e he) _ _ _)
    exact .of_same (by simp)
  next => exact .of_same rfl

theorem State.shotClose_tracks (hr : r.state ≠ .reserved) (hl : s.supply.powerLow = true)
    (hx : ∀ x, s.shot.exposure = some x → x.number ≠ n) : Tracks n p r s s.shotClose := by
  cases hs : s.lines.shutterClosed with
  | false =>
    rw [State.shotClose_open hs]
    exact .of_same rfl
  | true =>
    rw [State.shotClose_closed hs]
    refine Tracks.trans (t := s.shotClosing) (.of_same rfl) (State.shotConfirm_tracks hr hl fun x hy => ?_)
    rw [(State.shotClosing_fields s).1, Option.map_eq_some_iff] at hy
    obtain ⟨e, he, rfl⟩ := hy
    exact hx e he

/-- POWER_LOW's DISARM leaves every record alone that it neither releases nor fails (R181). -/
theorem State.shotDisarm_tracks (hr : r.state ≠ .reserved) (hl : s.supply.powerLow = true)
    (hx : ∀ x, s.shot.exposure = some x → x.number ≠ n) : Tracks n p r s s.shotDisarm := by
  unfold State.shotDisarm
  split
  · exact .of_same rfl
  iterate 5 exact State.shotIdle_tracks hr s
  · exact .of_same rfl
  · refine (State.shotRelease_tracks hr s).trans ?_
    refine Tracks.trans ?_ (State.shotClose_tracks hr (by simpa using hl) fun x hy => ?_)
    · exact .of_same rfl
    · simp only [State.onShot, State.onBurst_shot, State.shotRelease_frame, Option.map_eq_some_iff] at hy
      obtain ⟨e, he, rfl⟩ := hy
      exact hx e he
  · exact (State.shotRelease_tracks hr s).trans (.of_same rfl)

/-! ### The store queue -/

/-- The store queue's records fail one after the other (R70). -/
def State.failQueue (l : List Nat) (s : State) : State :=
  l.foldl (fun s n => s.onNumber n fun p _ s => s.failPlace p .power) s

theorem State.failQueue_wanes (l : List Nat) (s : State) : s.Wanes (s.failQueue l) :=
  .foldl l (fun _ k => .onNumber k fun q _ _ => State.failPlace_wanes _ q .power) s

theorem State.failNumber_found (hwf : Table.wf anyValue s.cat.places = true)
    (hf : findNumber n s.cat.places = some (p, r)) :
    s.onNumber n (fun p _ s => s.failPlace p .power) = s.recordFailed p r .power := by
  rw [State.onNumber_some hf]
  exact State.failPlace_some (Table.get_of_mem hwf (findNumber_mem hf).1) .power

/-- Another number's failure (R70). -/
theorem State.failNumber_tracks {k : Nat} (hk : k ≠ n) (s : State) :
    Tracks n p r s (s.onNumber k fun p _ s => s.failPlace p .power) := by
  intro hwf hf
  rcases hq : findNumber k s.cat.places with _ | ⟨q, z⟩
  · rw [State.onNumber_none hq]
    exact ⟨hwf, hf⟩
  · rw [State.failNumber_found hwf hq]
    exact ⟨Table.wf_put rfl hwf, findNumber_put_other (x := z.failedWith .power) hwf (findNumber_mem hq).1 rfl hf
      (findNumber_place_ne hwf hq hf hk.symm)⟩

theorem State.failQueue_tracks {l : List Nat} (hn : n ∉ l) (s : State) : Tracks n p r s (s.failQueue l) :=
  .foldl l (fun s k hk => State.failNumber_tracks (fun h : k = n => hn (h ▸ hk)) s) s

/-- A record that has failed fails again without a change (R9). -/
theorem State.failQueue_failed (l : List Nat) : ∀ s : State, Table.wf anyValue s.cat.places = true →
    findNumber n s.cat.places = some (p, r.failedWith .power) →
    findNumber n (s.failQueue l).cat.places = some (p, r.failedWith .power) := by
  induction l with
  | nil => exact fun s _ hf => hf
  | cons k l ih =>
    intro s hwf hf
    by_cases hk : k = n
    · subst hk
      have hstep := State.failNumber_found hwf hf
      refine ih (s.onNumber k fun p _ s => s.failPlace p .power) ?_ ?_
      · rw [hstep]
        exact Table.wf_put rfl hwf
      · rw [hstep]
        exact findNumber_put_same (x := (r.failedWith .power).failedWith .power) hwf hf rfl
    · obtain ⟨hwf', hf'⟩ := State.failNumber_tracks hk s hwf hf
      exact ih _ hwf' hf'

/-- A queued record fails with POWER: its reservation is released, its blocks turn DIRTY (R70). -/
theorem State.failQueue_found {l : List Nat} (hn : n ∈ l) (hwf : Table.wf anyValue s.cat.places = true)
    (hf : findNumber n s.cat.places = some (p, r)) :
    findNumber n (s.failQueue l).cat.places = some (p, r.failedWith .power) ∧
    Item.place p ∈ (s.failQueue l).writer.queue ∧
    (s.failQueue l).map.reserved ≤ s.map.reserved - r.remaining ∧
    (mapOk s.map → ∀ b ∈ r.extent, s.map.stateOf b = .inUse ∨ (∃ w, s.map.stateOf b = .dirty w) →
      ∃ w, (s.failQueue l).map.stateOf b = .dirty w) := by
  obtain ⟨before, after, rfl, hbefore⟩ := List.eq_append_cons_of_mem hn
  let a : State := s.failQueue before
  obtain ⟨hawf, haf⟩ : Table.wf anyValue a.cat.places = true ∧ findNumber n a.cat.places = some (p, r) :=
    State.failQueue_tracks hbefore s hwf hf
  obtain ⟨hamap, -, -⟩ := State.failQueue_wanes before s
  let c : State := a.recordFailed p r .power
  have hcwf : Table.wf anyValue c.cat.places = true := Table.wf_put rfl hawf
  have hcf : findNumber n c.cat.places = some (p, r.failedWith .power) :=
    findNumber_put_same (x := r.failedWith .power) hawf haf rfl
  have hall : s.failQueue (before ++ n :: after) = c.failQueue after := by
    unfold State.failQueue
    rw [List.foldl_append, List.foldl_cons]
    exact congrArg (State.failQueue after) (State.failNumber_found hawf haf)
  obtain ⟨hcmap, hcqueue, -⟩ := State.failQueue_wanes after c
  rw [hall]
  refine ⟨State.failQueue_failed after c hcwf hcf, hcqueue _ (Writer.mem_mark_self _ _), ?_, fun hok b hb hs => ?_⟩
  · refine Nat.le_trans hcmap.1 ?_
    show (BlockMap.returnAll _ _ _).reserved ≤ _
    rw [BlockMap.returnAll_reserved]
    exact Nat.sub_le_sub_right hamap.1 _
  · have haok := (hamap.2.2 hok).1
    have hcok : mapOk c.map := BlockMap.returnAll_ok (BlockMap.release_ok haok _) _ _
    refine hcmap.dirty hcok ?_
    have hab : a.map.stateOf b = .inUse ∨ ∃ w, a.map.stateOf b = .dirty w :=
      hs.elim (hamap.inUse hok) fun h => .inr (hamap.dirty hok h)
    obtain hu | hd := hab
    · exact ⟨_, BlockMap.returnAll_inUse (BlockMap.release_ok haok r.remaining) (.begins p) hb hu⟩
    · exact ((BlockMap.Wanes.release r.remaining a.map).trans (.returnAll (.begins p) r.extent _)).dirty haok hd

end Sys2Proof.Machine
end

section
/-! PROOFS. What POWER_LOW leaves of the Store Engine, the Read Chain and the Flash Port (R70, R81, R87, R200). -/

namespace Sys2Proof.Machine

variable {s t : State} {n p : Nat} {r : PicRecord}

/-! ### The Read Chain -/

/-- The Read Chain under POWER_LOW, before it looks to its refresh (R81). -/
def State.chainQuiet (s : State) : State :=
  (s.chainEmpty none).onChain fun c => { c with item := c.item.map fun x => { x with notify := false } }

theorem State.chainPowerLow_eq (s : State) : s.chainPowerLow =
    ((if s.chain.refresh.isSome then s.chainQuiet.refreshDrop false else s.chainQuiet).flashWithdraw .refresh).onChain
      fun c => { c with refreshMarks := [] } := by
  have hr : s.chainQuiet.chain.refresh = s.chain.refresh := by
    simp [State.chainQuiet, State.onChain, State.chainEmpty_eq]
  unfold State.chainPowerLow
  dsimp only
  rw [← hr]
  rfl

theorem State.chainQuiet_places (s : State) :
    s.chainQuiet.cat = (s.chain.chain.foldl (fun s d => s.dropHold d.number) s).cat ∧ s.chainQuiet.map = s.map ∧
    s.chainQuiet.writer = s.writer ∧ s.chainQuiet.chain.refresh = s.chain.refresh := by
  simp [State.chainQuiet, State.onChain, State.chainEmpty_eq]

/-- The holds that the Read Chain has on a number (R80, R81). -/
def State.heldBy (n : Nat) (s : State) : Nat := (s.chain.chain.filter fun d => d.number = n).length

theorem State.chainQuiet_found (hwf : Table.wf anyValue s.cat.places = true)
    (hf : findNumber n s.cat.places = some (p, r)) : Table.wf anyValue s.chainQuiet.cat.places = true ∧
    findNumber n s.chainQuiet.cat.places = some (p, { r with holds := r.holds - s.heldBy n }) := by
  rw [s.chainQuiet_places.1]
  exact State.findNumber_dropHolds s.chain.chain hwf hf

/-- A record that no refresh is on has its holds given back (R81). -/
theorem State.chainPowerLow_other (hwf : Table.wf anyValue s.cat.places = true)
    (hf : findNumber n s.cat.places = some (p, r)) (hn : ∀ f, s.chain.refresh = some f → f.number ≠ n) :
    findNumber n s.chainPowerLow.cat.places = some (p, { r with holds := r.holds - s.heldBy n }) := by
  obtain ⟨hqwf, hqf⟩ := State.chainQuiet_found hwf hf
  rw [State.chainPowerLow_eq]
  rcases hr : s.chain.refresh with _ | f
  · simpa using hqf
  · simp only [Option.isSome_some, if_true, State.onChain_frame, State.flashWithdraw_frame]
    unfold State.refreshDrop refreshRecord
    rw [s.chainQuiet_places.2.2.2, hr]
    dsimp only
    rcases hq : findNumber f.number s.chainQuiet.cat.places with _ | ⟨q, z⟩
    · simpa using hqf
    · simp only [State.refreshOver_frame, State.claim_cat, State.onMap_frame]
      exact findNumber_put_other
        (x := { z with
          refreshExtent := none, remaining := 0, holds := z.holds - 1, unreadable := z.unreadable || false })
        hqwf (findNumber_mem hq).1 rfl hqf (findNumber_place_ne hqwf hq hqf (hn f hr).symm)

/-- The record under refresh gives its reservation and its new extent back (R87). -/
theorem State.chainPowerLow_refreshed (hwf : Table.wf anyValue s.cat.places = true)
    (hf : findNumber n s.cat.places = some (p, r)) {f : Refresh} (hr : s.chain.refresh = some f) (hn : f.number = n) :
    findNumber n s.chainPowerLow.cat.places =
      some (p, { r with refreshExtent := none, remaining := 0, holds := r.holds - s.heldBy n - 1 }) ∧
    s.chainPowerLow.writer = s.writer.mark (.place p) ∧
    s.chainPowerLow.map = (s.map.release r.remaining).returnAll .ready (r.refreshExtent.getD []) := by
  obtain ⟨hqwf, hqf⟩ := State.chainQuiet_found hwf hf
  have hrec : refreshRecord s.chainQuiet = some (p, { r with holds := r.holds - s.heldBy n }) := by
    rw [refreshRecord, s.chainQuiet_places.2.2.2, hr]
    exact hn ▸ hqf
  rw [State.chainPowerLow_eq, hr, Option.isSome_some, if_pos rfl, State.refreshDrop, hrec]
  refine ⟨?_, ?_, ?_⟩
  · simp only [State.onChain_frame, State.flashWithdraw_frame, State.refreshOver_frame, State.claim_cat,
      State.onMap_frame]
    refine (findNumber_put_same (x := { r with
      refreshExtent := none, remaining := 0, holds := r.holds - s.heldBy n - 1, unreadable := r.unreadable || false })
      hqwf hqf rfl).trans ?_
    rw [Bool.or_false]
  · simp [s.chainQuiet_places.2.2.1]
  · simp [s.chainQuiet_places.2.1]

/-! ### The Flash Port -/

/-- From `f` to `g` waiting operations may have been withdrawn and those in flight discarded. -/
def FlashPort.Ends (f g : FlashPort) : Prop :=
  g.statusDone = f.statusDone ∧ (f.store = none → g.store = none) ∧ (f.read = none → g.read = none) ∧
  (f.refresh = none → g.refresh = none) ∧ ∀ y, g.inFlight = some y →
    ∃ x, f.inFlight = some x ∧ y.claimant = x.claimant ∧ (x.discard = true → y.discard = true)

namespace FlashPort.Ends

variable {f g h : FlashPort}

theorem refl (f : FlashPort) : f.Ends f := ⟨rfl, id, id, id, fun y hy => ⟨y, hy, rfl, id⟩⟩

theorem trans (a : f.Ends g) (b : g.Ends h) : f.Ends h := by
  obtain ⟨a1, a2, a3, a4, a5⟩ := a
  obtain ⟨b1, b2, b3, b4, b5⟩ := b
  refine ⟨b1.trans a1, b2 ∘ a2, b3 ∘ a3, b4 ∘ a4, fun y hy => ?_⟩
  obtain ⟨x, hx, hc, hd⟩ := b5 y hy
  obtain ⟨z, hz, hc', hd'⟩ := a5 x hx
  exact ⟨z, hz, hc.trans hc', hd ∘ hd'⟩

theorem withdrawn (c : Claimant) (f : FlashPort) : f.Ends (f.withdrawn c) := by
  unfold FlashPort.withdrawn
  split
  · cases c <;> refine ⟨rfl, ?_, ?_, ?_, fun y hy => ⟨y, hy, rfl, id⟩⟩ <;> simp [FlashPort.setWaiting]
  · exact refl f

end FlashPort.Ends

theorem State.flashWithdraw_ends (s : State) (c : Claimant) : s.flash.Ends (s.flashWithdraw c).flash := by
  rw [State.flashWithdraw_eq]
  exact .withdrawn c s.flash

theorem State.flashDiscard_ends (s : State) (c : Claimant) : s.flash.Ends (s.flashDiscard c).flash := by
  refine ⟨rfl, id, id, id, fun y hy => ?_⟩
  have hy : s.flash.inFlight.map (fun x => if x.claimant = c then { x with discard := true } else x) = some y := hy
  obtain ⟨x, hx, rfl⟩ := Option.map_eq_some_iff.1 hy
  refine ⟨x, hx, ?_, fun hd => ?_⟩
  · split <;> rfl
  · split
    · rfl
    · exact hd

/-- What the claimant waits for is withdrawn. -/
theorem State.flashWithdraw_refresh (s : State) : (s.flashWithdraw .refresh).flash.refresh = none := by
  rw [State.flashWithdraw_eq]
  show (s.flash.withdrawn .refresh).refresh = none
  unfold FlashPort.withdrawn
  split
  · rfl
  next h => simpa [FlashPort.waitingOf] using h

theorem State.refreshOver_ends (s : State) : s.flash.Ends s.refreshOver.flash :=
  (State.flashWithdraw_ends (s.onChain _) .refresh).trans (State.flashDiscard_ends _ .refresh)

theorem State.refreshDrop_ends (s : State) (x : Bool) : s.flash.Ends (s.refreshDrop x).flash := by
  unfold State.refreshDrop
  split
  · exact FlashPort.Ends.trans (.refl _) (State.refreshOver_ends _)
  · exact s.refreshOver_ends

/-- The Read Chain's operations end with POWER_LOW (R81, R87). -/
theorem State.chainPowerLow_flash (s : State) : s.flash.Ends s.chainPowerLow.flash ∧
    s.chainPowerLow.flash.read = none ∧ s.chainPowerLow.flash.refresh = none ∧
    ∀ y, s.chainPowerLow.flash.inFlight = some y → y.claimant = .readChain → y.discard = true := by
  have hquiet : s.chainQuiet.flash = s.flash.readDropped := by
    simp [State.chainQuiet, State.onChain, State.chainEmpty_eq]
  have hdropped : s.flash.Ends s.flash.readDropped := by
    refine ⟨rfl, id, fun _ => rfl, id, fun y hy => ?_⟩
    obtain ⟨x, hx, rfl⟩ := Option.map_eq_some_iff.1 hy
    refine ⟨x, hx, ?_, fun hd => ?_⟩
    · split <;> rfl
    · split
      · rfl
      · exact hd
  have hrest : s.flash.readDropped.Ends s.chainPowerLow.flash := by
    rw [State.chainPowerLow_eq, ← hquiet]
    refine FlashPort.Ends.trans ?_ (State.flashWithdraw_ends _ .refresh)
    split
    · exact State.refreshDrop_ends _ _
    · exact .refl _
  refine ⟨hdropped.trans hrest, hrest.2.2.1 rfl, ?_, fun y hy hc => ?_⟩
  · rw [State.chainPowerLow_eq]
    exact State.flashWithdraw_refresh _
  · obtain ⟨x, hx, hcx, hd⟩ := hrest.2.2.2.2 y hy
    exact hd (FlashPort.readDropped_discards hx (hcx.symm.trans hc))

theorem State.chainPowerLow_chain (s : State) : s.chainPowerLow.chain.chain = [] ∧ s.chainPowerLow.chain.owed = none ∧
    s.chainPowerLow.chain.refresh = none ∧ s.chainPowerLow.chain.refreshMarks = [] := by
  have hquiet : s.chainQuiet.chain.chain = [] ∧ s.chainQuiet.chain.owed = none := by
    simp [State.chainQuiet, State.onChain, State.chainEmpty_eq]
  have hover : ∀ a : State, a.refreshOver.chain.chain = a.chain.chain ∧ a.refreshOver.chain.owed = a.chain.owed ∧
      a.refreshOver.chain.refresh = none := fun a => by simp [State.refreshOver, State.onChain]
  have hdrop : ∀ a : State, (a.refreshDrop false).chain.chain = a.chain.chain ∧
      (a.refreshDrop false).chain.owed = a.chain.owed ∧ (a.refreshDrop false).chain.refresh = none := fun a => by
    unfold State.refreshDrop
    split
    · simp [hover]
    · exact hover a
  rw [State.chainPowerLow_eq]
  split
  · simp [State.onChain, hdrop, hquiet]
  next h =>
    have hn : s.chainQuiet.chain.refresh = none := by
      rw [s.chainQuiet_places.2.2.2]
      simpa using h
    simp [State.onChain, hquiet, hn]

/-! ### The Store Engine -/

theorem State.storePowerLow_eq (s : State) : s.storePowerLow =
    (((((s.failQueue s.store.queue).storeClose).storeWithdraw true).onStore fun e =>
      { e with queue := [], heldStart := false, marks := [] }).setFlagIf (!s.store.queue.isEmpty) .storeFailed) := rfl

theorem State.storePowerLow_records (s : State) : s.storePowerLow.cat = (s.failQueue s.store.queue).cat ∧
    s.storePowerLow.map = (s.failQueue s.store.queue).map ∧
    s.storePowerLow.writer = (s.failQueue s.store.queue).writer := by
  simp [State.storePowerLow_eq]

theorem State.storePowerLow_store (s : State) : s.storePowerLow.store.queue = [] ∧
    s.storePowerLow.store.stream = .closed ∧ s.storePowerLow.store.heldStart = false ∧
    s.storePowerLow.store.marks = [] := by
  simp [State.storePowerLow_eq, State.onStore, State.storeClose_eq, StoreEngine.closed]

/-- The Store Engine's operations end with POWER_LOW (R70). -/
theorem State.storePowerLow_flash (s : State) : s.flash.Ends s.storePowerLow.flash ∧
    s.storePowerLow.flash.store = none ∧
    ∀ y, s.storePowerLow.flash.inFlight = some y → y.claimant = .store → y.discard = true := by
  have hfail : (s.failQueue s.store.queue).flash = s.flash := by
    simp [State.failQueue, (s.failQueue_recordsOnly s.store.queue .power).frame]
  have hclosed : ((s.failQueue s.store.queue).storeClose).flash = s.flash.storeDropped := by
    rw [State.storeClose_eq, hfail]
  have hwithdraw : ∀ a : State, (a.storeWithdraw true).flash = { a.flash with store := none } := fun a => by
    unfold State.storeWithdraw
    split
    next op hop => simp [State.flashWithdraw_eq, State.onFlash, FlashPort.withdrawn, FlashPort.waitingOf, hop,
      FlashPort.setWaiting]
    next hop => rw [← hop]
  have hflash : s.storePowerLow.flash = { s.flash.storeDropped with store := none } := by
    rw [State.storePowerLow_eq, ← hclosed, ← hwithdraw]
    simp
  rw [hflash]
  refine ⟨⟨rfl, fun _ => rfl, id, id, fun y hy => ?_⟩, rfl, fun y hy hc => ?_⟩
  · obtain ⟨x, hx, rfl⟩ := Option.map_eq_some_iff.1 hy
    refine ⟨x, hx, ?_, fun hd => ?_⟩
    · split <;> rfl
    · split
      · rfl
      · exact hd
  · obtain ⟨x, hx, rfl⟩ := Option.map_eq_some_iff.1 hy
    split at hc
    next h => rw [if_pos h]
    next h => exact absurd hc h

end Sys2Proof.Machine
end

section
/-! PROOFS. The duties of POWER_LOW one after the other (section 11.3): the prepare (R27, R50), the lens, the focus, the
Stabilizer, and write-protect (R32). -/

namespace Sys2Proof.Machine

variable {s t : State}

/-! ### A prepare -/

theorem State.preparePowerLow_other (h : s.map.mode ≠ .preparing) : s.preparePowerLow = s := if_neg h

/-- A prepare ended: no block known, its operation withdrawn (R27, R50). -/
def State.prepareEnded (s : State) : State :=
  (s.onMap fun m => { m with
    mode := .unprepared, total := 0, blocks := []
    prepare := if s.flash.flies .prepare then some .stopping else none }).flashWithdraw .prepare

theorem State.preparePowerLow_preparing (h : s.map.mode = .preparing) : s.preparePowerLow =
    if s.map.identity.isSome then (s.prepareEnded.onMap fun m => { m with identity := none }).markDirty .identity
    else s.prepareEnded := by
  have hi : s.prepareEnded.map.identity = s.map.identity := by simp [State.prepareEnded, State.onMap]
  rw [← hi]
  exact if_pos h

theorem State.prepareEnded_fields (s : State) : s.prepareEnded.map.mode = .unprepared ∧
    s.prepareEnded.map.total = 0 ∧ s.prepareEnded.map.blocks = [] ∧ s.prepareEnded.map.identity = s.map.identity ∧
    s.prepareEnded.map.reserved = s.map.reserved ∧ s.prepareEnded.writer = s.writer := by
  simp [State.prepareEnded, State.onMap]

/-- A prepare that POWER_LOW ends leaves no block known (R27, R50). -/
theorem State.preparePowerLow_ended (h : s.map.mode = .preparing) :
    s.preparePowerLow.map.mode = .unprepared ∧ s.preparePowerLow.map.total = 0 ∧
    s.preparePowerLow.map.blocks = [] ∧ s.preparePowerLow.map.identity = none := by
  obtain ⟨hmode, htotal, hblocks, hidentity, -, -⟩ := s.prepareEnded_fields
  rw [State.preparePowerLow_preparing h]
  split
  · exact ⟨hmode, htotal, hblocks, rfl⟩
  next hi => exact ⟨hmode, htotal, hblocks, hidentity.trans (by simpa using hi)⟩

/-- The end of a prepare leaves the reserved total, adds to the write queue and withdraws the prepare's operation. -/
theorem State.preparePowerLow_keeps (s : State) : s.preparePowerLow.map.reserved = s.map.reserved ∧
    (∀ i ∈ s.writer.queue, i ∈ s.preparePowerLow.writer.queue) ∧ s.flash.Ends s.preparePowerLow.flash := by
  by_cases h : s.map.mode = .preparing
  · obtain ⟨-, -, -, -, hreserved, hwriter⟩ := s.prepareEnded_fields
    have hflash : s.flash.Ends s.prepareEnded.flash := State.flashWithdraw_ends (s.onMap _) .prepare
    rw [State.preparePowerLow_preparing h]
    split
    · exact ⟨hreserved, fun i hi => Writer.mem_mark (hwriter ▸ hi), hflash⟩
    · exact ⟨hreserved, fun i hi => hwriter ▸ hi, hflash⟩
  · rw [State.preparePowerLow_other h]
    exact ⟨rfl, fun _ hi => hi, .refl _⟩

/-! ### The duties in order -/

/-- POWER_LOW registered: the supply drains, the flag is set (R199). -/
def State.lowTaken (s : State) : State :=
  { s with supply := { s.supply with powerLow := true, shutdown := .draining } }.setFlag .powerLow

/-- The records and the blocks after POWER_LOW: the Shot Sequencer, the Store Engine and the Read Chain have acted. -/
def State.lowHanded (s : State) : State := s.lowTaken.shotDisarm.storePowerLow.chainPowerLow

theorem State.takePowerLow_handed (s : State) : s.takePowerLow =
    s.lowHanded.preparePowerLow.zoomPowerLow.focusPowerLow.steadyPowerLow.meterInput.flashProtect := rfl

/-- The later duties leave the records, the queues and the shot. -/
theorem State.takePowerLow_rest (s : State) : s.takePowerLow.cat = s.lowHanded.cat ∧
    s.takePowerLow.store = s.lowHanded.store ∧ s.takePowerLow.chain = s.lowHanded.chain ∧
    s.takePowerLow.shot = s.lowHanded.shot ∧ s.takePowerLow.events = s.lowHanded.events ∧
    s.takePowerLow.map = s.lowHanded.preparePowerLow.map ∧
    s.takePowerLow.writer = s.lowHanded.preparePowerLow.writer := by
  simp [State.takePowerLow_handed]

/-- The lens, the focus and the Stabilizer after POWER_LOW (R113, R141, R163). -/
theorem State.takePowerLow_lens (s : State) : s.takePowerLow.zoom.state = .unhomed ∧
    s.takePowerLow.zoom.drive = .braked ∧ s.takePowerLow.zoom.count = none ∧
    s.takePowerLow.focus.state = .unhomed ∧ s.takePowerLow.focus.position = none ∧
    s.takePowerLow.focus.move = none ∧ s.takePowerLow.steady.state = .off ∧
    s.takePowerLow.steady.pitch.target = 0 ∧ s.takePowerLow.steady.yaw.target = 0 ∧
    s.takePowerLow.timers.lost = none := by
  simp [State.takePowerLow_handed, State.zoomPowerLow, State.zoomRest, State.onZoom, State.focusPowerLow,
    State.focusDrop, State.onFocus, State.steadyPowerLow, State.steadyOff, Axis.still]

/-- The Store Engine's end stops its data timer alone (R70). -/
theorem State.storePowerLow_timers (s : State) : s.storePowerLow.timers = { s.timers with data := none } := by
  have hfail : (s.failQueue s.store.queue).timers = s.timers := by
    simp [State.failQueue, (s.failQueue_recordsOnly s.store.queue .power).frame]
  rw [State.storePowerLow_eq]
  simp [State.storeClose_eq, hfail]

/-- The timers of the frame stand as the shot's end left them. -/
theorem State.takePowerLow_timers (s : State) :
    s.takePowerLow.timers.frame = s.lowTaken.shotDisarm.timers.frame ∧
    s.takePowerLow.timers.shutter = s.lowTaken.shotDisarm.timers.shutter ∧
    s.takePowerLow.timers.confirm = s.lowTaken.shotDisarm.timers.confirm := by
  simp [State.takePowerLow_handed, State.lowHanded, State.zoomPowerLow, State.zoomRest, State.onZoom,
    State.focusPowerLow, State.focusDrop, State.onFocus, State.steadyPowerLow, State.steadyOff,
    State.storePowerLow_timers]

/-- The metering lock stands as the shot's end left it (R108). -/
theorem State.takePowerLow_meter (s : State) :
    s.takePowerLow.meter.owner = s.lowTaken.shotDisarm.meter.owner ∧
    s.takePowerLow.meter.run = s.lowTaken.shotDisarm.meter.run ∧
    s.takePowerLow.meter.note = s.lowTaken.shotDisarm.meter.note ∧
    s.takePowerLow.meter.state = s.lowTaken.shotDisarm.meter.state := by
  simp [State.takePowerLow_handed, State.lowHanded, State.meterInput_meter]

theorem State.takePowerLow_shot (s : State) : s.takePowerLow.shot = s.lowTaken.shotDisarm.shot := by
  simp [State.takePowerLow_handed, State.lowHanded]

/-! ### The Flash Port -/

/-- Write-protect claimed and settled leaves the operations (R32). -/
theorem FlashPort.Ends.protect (f : FlashPort) : f.Ends ({ f with protectDue := true } : FlashPort).settled := by
  unfold FlashPort.settled
  split <;> exact .refl f

theorem FlashPort.settled_due (f : FlashPort) : f.settled.protectDue = f.protectDue := by
  unfold FlashPort.settled
  split <;> rfl

/-- Owed write-protect is asserted where nothing is in flight and no status poll is owed (R32). -/
theorem FlashPort.settled_protect {f : FlashPort} (hdue : f.protectDue = true) (hf : f.settled.inFlight = none)
    (hd : f.settled.statusDone = true) : f.settled.writeProtect = true := by
  unfold FlashPort.settled at hf hd ⊢
  split
  · rfl
  next h =>
    rw [if_neg h] at hf hd
    exact absurd (by simp [hdue, FlashPort.quiet, hf, hd]) h

/-- POWER_LOW ends the Store Engine's and the Read Chain's operations and claims write-protect (R32, R70, R81). -/
theorem State.takePowerLow_flash (s : State) :
    let f := s.takePowerLow.flash
    f.store = none ∧ f.read = none ∧ f.refresh = none ∧ f.protectDue = true ∧
    (f.inFlight = none → s.flash.statusDone = true → f.writeProtect = true) ∧
    ∀ x, f.inFlight = some x → x.claimant = .store ∨ x.claimant = .readChain → x.discard = true := by
  intro f
  let a : State := s.lowTaken.shotDisarm
  obtain ⟨hstore, hstoreNone, hstoreFlight⟩ := a.storePowerLow_flash
  obtain ⟨hchain, hreadNone, hrefreshNone, hreadFlight⟩ := a.storePowerLow.chainPowerLow_flash
  have hprepare := s.lowHanded.preparePowerLow_keeps.2.2
  let g : FlashPort := { s.lowHanded.preparePowerLow.flash with protectDue := true }
  have hf : f = g.settled := by
    simp only [f, State.takePowerLow_handed, State.flashProtect_eq]
    simp [State.onFlash, g]
  have hlast : s.lowHanded.flash.Ends f := hf ▸ hprepare.trans (.protect _)
  have hall : a.storePowerLow.flash.Ends f := hchain.trans hlast
  have ha : a.flash = s.flash := by simp [a, State.lowTaken]
  obtain ⟨hstatus, hstoreKept, -, -, hflight⟩ := hall
  obtain ⟨-, -, hreadKept, hrefreshKept, hlastFlight⟩ := hlast
  refine ⟨hstoreKept hstoreNone, hreadKept hreadNone, hrefreshKept hrefreshNone, ?_, fun hn hd => ?_, ?_⟩
  · rw [hf, g.settled_due]
  · rw [hf] at hn hstatus ⊢
    refine FlashPort.settled_protect rfl hn ?_
    rw [hstatus, hstore.1, ha]
    exact hd
  · rintro x hx (hc | hc)
    · obtain ⟨y, hy, hcy, hd⟩ := hflight x hx
      exact hd (hstoreFlight y hy (hcy.symm.trans hc))
    · obtain ⟨y, hy, hcy, hd⟩ := hlastFlight x hx
      exact hd (hreadFlight y hy (hcy.symm.trans hc))

end Sys2Proof.Machine
end

section
/-! PROOFS. The Shot Sequencer under POWER_LOW (R108, R173, R181). -/

namespace Sys2Proof.Machine

variable {s : State} {x : InHand} {n p total : Nat} {r : PicRecord}

/-! ### The shot states -/

/-- The shot states that POWER_LOW and DISARM end at once (R179, R181). -/
def ShotState.Ends (x : ShotState) : Prop :=
  x = .armed ∨ x = .waitSteady ∨ x = .interval ∨ x = .queueWait ∨ x = .fault

theorem State.shotDisarm_idle (h : s.shot.state = .idle) : s.shotDisarm = s := by
  unfold State.shotDisarm
  rw [h]

theorem State.shotDisarm_ends (h : s.shot.state.Ends) : s.shotDisarm = s.shotIdle := by
  unfold State.shotDisarm
  rcases h with h | h | h | h | h <;> rw [h]

/-- A burst disarmed, its exposure standing (R181). -/
theorem State.shotDisarm_marked (h : s.shot.state = .preparing ∨ s.shot.state = .closing) :
    s.shotDisarm.shot = { s.shot with burst := s.shot.burst.map fun b : Burst => { b with disarmed := true } } := by
  unfold State.shotDisarm
  rcases h with h | h <;> rw [h] <;> simp

/-- The exposure of a burst that is disarmed, cut short (R173, R181). -/
def State.shotCut (s : State) : State :=
  (s.shotRelease.onBurst fun b => { b with disarmed := true }).onShot fun x =>
    { x with exposure := x.exposure.map fun e => { e with cutShort := true } }

theorem State.shotDisarm_exposing (h : s.shot.state = .exposing) : s.shotDisarm = s.shotCut.shotClose := by
  unfold State.shotDisarm
  rw [h]
  rfl

theorem State.shotCut_fields (s : State) : s.shotCut.shot = { s.shot with
      burst := s.shot.burst.map fun b : Burst => { b with disarmed := true }
      exposure := s.shot.exposure.map fun e => { e with cutShort := true } } ∧
    s.shotCut.timers = s.timers ∧ s.shotCut.lines = s.lines ∧ s.shotCut.supply = s.supply ∧
    s.shotCut.cat = s.shotRelease.cat := by
  simp [State.shotCut, State.onShot]

/-- An open shutter is told to close (R173). -/
theorem State.shotDisarm_closes (h : s.shot.state = .exposing) (hx : s.shot.exposure = some x)
    (ho : s.lines.shutterClosed = false) :
    s.shotDisarm.timers.confirm = some 0 ∧ s.shotDisarm.shot = { s.shot with
      state := .closing, burst := s.shot.burst.map fun b : Burst => { b with disarmed := true }
      exposure := some { x with cutShort := true, closedAt := s.timers.shutter } } := by
  obtain ⟨hshot, htimers, hlines, -, -⟩ := s.shotCut_fields
  have hopen : s.shotCut.lines.shutterClosed = false := hlines ▸ ho
  rw [State.shotDisarm_exposing h, State.shotClose_open hopen]
  refine ⟨rfl, ?_⟩
  simp [hshot, htimers, hx]

/-! ### The metering lock -/

/-- The end of the steadying leaves the lock. -/
@[simp] theorem State.steadyShotEnd_lock (s : State) : s.steadyShotEnd.meter.owner = s.meter.owner ∧
    s.steadyShotEnd.meter.note = s.meter.note ∧ s.steadyShotEnd.meter.run = s.meter.run ∧
    s.steadyShotEnd.meter.state = s.meter.state := by
  unfold State.steadyShotEnd
  split <;> simp [State.steadyOff, State.meterInput_meter]

@[simp] theorem State.focusShotEnd_meter (s : State) : s.focusShotEnd.meter = s.meter := by
  simp [State.focusShotEnd]

/-- The lock of the shot ends with it (R108). -/
theorem State.shotIdle_meter_freed (ho : s.meter.owner = .shot) (hn : s.meter.note = false) :
    s.shotIdle.meter.owner = .none ∧ s.shotIdle.meter.run = 0 ∧
    s.shotIdle.meter.state = if s.timers.block = none then .stale else .tracking := by
  simp [State.shotIdle, State.meterShotEnd, ho, hn, State.meterUnlocked, State.meterInput_meter, unlockedState_eq]

/-- A lock that METER LOCK had taken before stands (R108). -/
theorem State.shotIdle_meter_noted (ho : s.meter.owner = .shot) (hn : s.meter.note = true) :
    s.shotIdle.meter.owner = .request ∧ s.shotIdle.meter.note = false ∧ s.shotIdle.meter.state = s.meter.state := by
  simp [State.shotIdle, State.meterShotEnd, ho, hn, State.meterInput_meter]

/-! ### A shutter that already reads closed -/

/-- What POWER_LOW leaves of an exposure whose shutter reads closed: the shot, the timers, the flags (R173, R181). -/
structure ShotFailed (total : Nat) (t : State) : Prop where
  state : t.shot.state = .idle
  burst : t.shot.burst = none
  exposure : t.shot.exposure = none
  measured : t.shot.lastMeasured = some total
  latency : t.shot.lastLatency = some 0
  shutter : t.timers.shutter = none
  confirm : t.timers.confirm = none
  ended : t.events.has .shotEnded = true
  burstOver : t.events.has .burstEnded = true

/-- The exposure fails with POWER at once, its time measured (R173, R181). -/
theorem State.shotDisarm_fails (hwf : Table.wf anyValue s.cat.places = true) (hl : s.supply.powerLow = true)
    (hs : s.shot.state = .exposing) (hx : s.shot.exposure = some x) (hclosed : s.lines.shutterClosed = true)
    (ht : s.timers.shutter = some total) (hf : findNumber x.number s.cat.places = some (p, r))
    (hr : r.state ≠ .reserved) :
    ShotFailed total s.shotDisarm ∧ Table.wf anyValue s.shotDisarm.cat.places = true ∧
    Item.place p ∈ s.shotDisarm.writer.queue ∧ ∃ ended, findNumber x.number s.shotDisarm.cat.places =
      some (p, (r.exposed (some total) ended).failedWith .power) := by
  obtain ⟨hshot, htimers, hlines, hsupply, hcat⟩ := s.shotCut_fields
  let e : InHand := { x with cutShort := true, closedAt := some total }
  let v : State := s.shotCut.shotClosing
  have hve : v.shot.exposure = some e := by
    simp [v, e, hshot, htimers, hx, ht]
  obtain ⟨learned, hconfirm⟩ := State.shotConfirm_power (s := v) hve (by simp [v, hsupply, hl])
    (show v.timers.shutter = some total by simp [v, htimers, ht])
  let w : State := { v with shot := { v.shot with
    learned := learned, lastLatency := some (total - e.closedAt.getD 0), lastMeasured := some total } }
  have hdisarm : s.shotDisarm = ((w.shotFail x.number (some total) .power).setFlag .shotEnded).shotIdle := by
    rw [State.shotDisarm_exposing hs, State.shotClose_closed (by rw [hlines, hclosed]), hconfirm]
  obtain ⟨hwwf, hwf'⟩ : Table.wf anyValue w.cat.places = true ∧ findNumber x.number w.cat.places = some (p, r) := by
    have hcut := State.shotRelease_tracks (n := x.number) (p := p) hr s hwf hf
    rw [← hcat] at hcut
    exact hcut
  have hfailed := State.shotFail_same (measured := some total) (c := .power) hwwf hwf'
  have hfailedWf := State.shotFail_wf (measured := some total) (c := .power) hwwf hwf'
  obtain ⟨htwf, htf⟩ := State.shotIdle_tracks (s := (w.shotFail x.number (some total) .power).setFlag .shotEnded)
    (show (failedRecord w (some total) .power r).state ≠ .reserved by simp [failedRecord, PicRecord.failedWith])
    hfailedWf hfailed
  rw [hdisarm]
  refine ⟨?_, htwf, ?_, _, htf⟩
  · exact ⟨by simp, by simp, by simp, by simp [w], by simp [w, e], by simp, by simp,
      FlagsGrow.shotIdle _ _ (has_setFlag_same _ _), has_setFlag_same _ _⟩
  · refine (State.shotIdle_wanes _).2.1 _ ?_
    show Item.place p ∈ (w.shotFail x.number (some total) .power).writer.queue
    rw [State.shotFail_eq hwf']
    exact Writer.mem_mark_self _ _

end Sys2Proof.Machine
end

section
/-! PROOFS. The records and the blocks after POWER_LOW (R70, R81, R87, R108, R181). -/

namespace Sys2Proof.Machine

variable {s t : State} {n p : Nat} {r : PicRecord}

/-! ### What the duties leave -/

/-- Under POWER_LOW a closure queues nothing (R181). -/
theorem State.shotDisarm_store (hl : s.supply.powerLow = true) : s.shotDisarm.store = s.store := by
  have hconfirm : ∀ a : State, a.supply.powerLow = true → a.shotConfirm.store = a.store := by
    intro a ha
    unfold State.shotConfirm State.shotNext
    dsimp only
    (repeat' split) <;> simp_all [State.onShot]
  have hclose : ∀ a : State, a.supply.powerLow = true → a.shotClose.store = a.store := by
    intro a ha
    unfold State.shotClose
    dsimp only
    split
    · exact hconfirm _ ha
    · rfl
  unfold State.shotDisarm
  split
  · rfl
  iterate 5 simp
  · rfl
  · refine (hclose _ (by simpa using hl)).trans ?_
    simp
  · simp

theorem State.lowHanded_wanes (s : State) : s.lowTaken.shotDisarm.Wanes s.lowHanded :=
  (State.storePowerLow_wanes _).trans (State.chainPowerLow_wanes _)

theorem State.lowTaken_wanes (s : State) : s.Wanes s.lowHanded :=
  State.Wanes.trans (.of_same rfl rfl rfl) ((State.shotDisarm_wanes s.lowTaken).trans s.lowHanded_wanes)

/-- The block map after POWER_LOW, where no prepare was under way, and where one was. -/
theorem State.takePowerLow_map (s : State) :
    (s.map.mode = .preparing → s.takePowerLow.map.mode = .unprepared ∧ s.takePowerLow.map.total = 0 ∧
      s.takePowerLow.map.blocks = [] ∧ s.takePowerLow.map.identity = none) ∧
    (s.map.mode ≠ .preparing → s.takePowerLow.map = s.lowHanded.map) ∧
    s.takePowerLow.map.reserved = s.lowHanded.map.reserved := by
  obtain ⟨hmode, -, -⟩ := s.lowTaken_wanes.1.2.1
  rw [s.takePowerLow_rest.2.2.2.2.2.1]
  refine ⟨fun h => State.preparePowerLow_ended (hmode.trans h), fun h => ?_, s.lowHanded.preparePowerLow_keeps.1⟩
  rw [State.preparePowerLow_other (hmode ▸ h)]

theorem State.takePowerLow_mode (s : State) : s.takePowerLow.map.mode ≠ .preparing := by
  obtain ⟨hended, hsame, -⟩ := s.takePowerLow_map
  by_cases h : s.map.mode = .preparing
  · rw [(hended h).1]
    nofun
  · rw [hsame h, s.lowTaken_wanes.1.2.1.1]
    exact h

theorem State.takePowerLow_queue (s : State) {i : Item} (h : i ∈ s.lowHanded.writer.queue) :
    i ∈ s.takePowerLow.writer.queue := by
  rw [s.takePowerLow_rest.2.2.2.2.2.2]
  exact s.lowHanded.preparePowerLow_keeps.2.1 i h

/-- The record that a number finds after the last duty on the records. -/
theorem State.takePowerLow_record (hwf : Table.wf anyValue s.cat.places = true)
    (hf : findNumber n s.lowHanded.cat.places = some (p, r)) : s.takePowerLow.record p = some r := by
  unfold State.record
  rw [s.takePowerLow_rest.1]
  exact Table.get_of_mem (s.lowTaken_wanes.2.2 hwf).1 (findNumber_mem hf).1

/-! ### The Read Chain -/

/-- A failed record may lose holds and a refresh's extent; it stays failed (R81, R87). -/
theorem State.chainPowerLow_failed (hwf : Table.wf anyValue s.cat.places = true)
    (hf : findNumber n s.cat.places = some (p, r)) (hr : r.remaining = 0) : ∃ holds extent,
    findNumber n s.chainPowerLow.cat.places = some (p, { r with holds := holds, refreshExtent := extent }) := by
  by_cases hrefresh : ∃ f, s.chain.refresh = some f ∧ f.number = n
  · obtain ⟨f, hfr, hn⟩ := hrefresh
    have hgone := (State.chainPowerLow_refreshed hwf hf hfr hn).1
    rw [← hr] at hgone
    exact ⟨_, _, hgone⟩
  · exact ⟨_, _, State.chainPowerLow_other hwf hf fun f hfr hn => hrefresh ⟨f, hfr, hn⟩⟩

/-! ### The store queue -/

/-- A queued record after POWER_LOW (R70). -/
structure QueuedFailed (s t : State) (n p : Nat) (r : PicRecord) : Prop where
  record : ∃ x, t.record p = some x ∧ x.number = r.number ∧ x.state = .failed ∧ x.cause = some .power ∧
    x.remaining = 0 ∧ x.extent = [] ∧ x.picture = none ∧ x.trim = none
  queued : Item.place p ∈ t.writer.queue
  reserved : t.map.reserved ≤ s.map.reserved - r.remaining
  alone : s.store.queue = [n] → s.shot.state = .idle → s.chain.refresh = none →
    t.map.reserved = s.map.reserved - r.remaining
  blocks : s.map.mode ≠ .preparing → ∀ b ∈ r.extent, s.map.stateOf b = .inUse → ∃ w, t.map.stateOf b = .dirty w

theorem State.takePowerLow_queued (hc : Canonical s) (hn : n ∈ s.store.queue)
    (hf : findNumber n s.cat.places = some (p, r)) (hr : r.state ≠ .reserved)
    (hapart : ∀ x, s.shot.exposure = some x → x.number ≠ n) : QueuedFailed s s.takePowerLow n p r := by
  obtain ⟨⟨hwf, -⟩, -, -, hok, -⟩ := hc
  let a : State := s.lowTaken.shotDisarm
  obtain ⟨hawf, haf⟩ : Table.wf anyValue a.cat.places = true ∧ findNumber n a.cat.places = some (p, r) :=
    State.shotDisarm_tracks (s := s.lowTaken) hr rfl hapart hwf hf
  have hwanes : s.Wanes a := State.Wanes.trans (.of_same rfl rfl rfl) (State.shotDisarm_wanes s.lowTaken)
  have hastore : a.store = s.store := State.shotDisarm_store (s := s.lowTaken) rfl
  obtain ⟨hcat, hmap, hwriter⟩ := a.storePowerLow_records
  obtain ⟨hbf, hbq, hbr, hbd⟩ := State.failQueue_found (s := a) (hastore ▸ hn : n ∈ a.store.queue) hawf haf
  rw [← hcat] at hbf
  rw [← hwriter] at hbq
  rw [← hmap] at hbr hbd
  have hbwf := (a.storePowerLow_wanes.2.2 hawf).1
  obtain ⟨hcwanes, hcqueue, -⟩ := a.storePowerLow.chainPowerLow_wanes
  obtain ⟨-, hsame, hreserved⟩ := s.takePowerLow_map
  refine ⟨?_, s.takePowerLow_queue (hcqueue _ hbq), ?_, fun hone hidle hnone => ?_, fun hmode b hb hu => ?_⟩
  · obtain ⟨holds, extent, hcf⟩ := State.chainPowerLow_failed hbwf hbf rfl
    exact ⟨_, State.takePowerLow_record hwf hcf, rfl, rfl, rfl, rfl, rfl, rfl, rfl⟩
  · rw [hreserved]
    exact Nat.le_trans hcwanes.1 (Nat.le_trans hbr (Nat.sub_le_sub_right hwanes.1.1 _))
  · have ha : a = s.lowTaken := State.shotDisarm_idle (s := s.lowTaken) hidle
    have hbone : a.failQueue a.store.queue = a.recordFailed p r .power := by
      rw [hastore, hone]
      exact State.failNumber_found hawf haf
    have hchain : a.storePowerLow.chainPowerLow.map = a.storePowerLow.map := by
      have hquiet : a.storePowerLow.chain.refresh = none := by simp [ha, State.lowTaken, hnone]
      rw [State.chainPowerLow_eq, hquiet]
      simp [a.storePowerLow.chainQuiet_places.2.1]
    rw [hreserved]
    show a.storePowerLow.chainPowerLow.map.reserved = _
    rw [hchain, hmap, hbone]
    show (BlockMap.returnAll _ _ _).reserved = _
    rw [BlockMap.returnAll_reserved, ha]
    rfl
  · rw [hsame hmode]
    obtain ⟨haok, -⟩ := hwanes.1.2.2 hok
    exact hcwanes.dirty (a.storePowerLow_wanes.1.2.2 haok).1 (hbd haok b hb (hwanes.1.inUse hok hu))

/-! ### A stored picture -/

/-- A stored picture that the refresh was on, after POWER_LOW (R87). -/
structure RefreshDropped (s t : State) (n p : Nat) (r : PicRecord) : Prop where
  record : t.record p = some
    { r with refreshExtent := none, remaining := 0, holds := r.holds - s.heldBy n - 1 }
  queued : Item.place p ∈ t.writer.queue
  reserved : t.map.reserved ≤ s.map.reserved - r.remaining
  blocks : s.map.mode ≠ .preparing → ∀ ns, r.refreshExtent = some ns → ∀ b ∈ ns, s.map.stateOf b = .inUse →
    ∃ w, t.map.stateOf b = .dirty w

/-- A stored picture gives its holds back, and its reservation when the refresh was on it (R81, R87). -/
theorem State.takePowerLow_stored (hc : Canonical s) (hn : n ∉ s.store.queue)
    (hf : findNumber n s.cat.places = some (p, r)) (hr : r.state ≠ .reserved)
    (hapart : ∀ x, s.shot.exposure = some x → x.number ≠ n) :
    ((∀ f, s.chain.refresh = some f → f.number ≠ n) →
      s.takePowerLow.record p = some { r with holds := r.holds - s.heldBy n }) ∧
    ∀ f, s.chain.refresh = some f → f.number = n → RefreshDropped s s.takePowerLow n p r := by
  obtain ⟨⟨hwf, -⟩, -, -, hok, -⟩ := hc
  let a : State := s.lowTaken.shotDisarm
  let b : State := a.storePowerLow
  have hastore : a.store = s.store := State.shotDisarm_store (s := s.lowTaken) rfl
  have hbf : Table.wf anyValue b.cat.places = true ∧ findNumber n b.cat.places = some (p, r) := by
    obtain ⟨hawf, haf⟩ := State.shotDisarm_tracks (s := s.lowTaken) hr rfl hapart hwf hf
    rw [show b.cat = (a.failQueue a.store.queue).cat from a.storePowerLow_records.1, hastore]
    exact State.failQueue_tracks hn a hawf haf
  obtain ⟨hbwf, hbf⟩ := hbf
  have hchain : b.chain = s.chain := by simp [b, a, State.lowTaken]
  have hheld : b.heldBy n = s.heldBy n := by rw [State.heldBy, hchain, State.heldBy]
  have hwanes : s.Wanes b := State.Wanes.trans (.of_same rfl rfl rfl)
    ((State.shotDisarm_wanes s.lowTaken).trans a.storePowerLow_wanes)
  obtain ⟨-, hsame, hreserved⟩ := s.takePowerLow_map
  refine ⟨fun hno => ?_, fun f hfr hfn => ?_⟩
  · have hcf := State.chainPowerLow_other hbwf hbf (hchain ▸ hno)
    rw [hheld] at hcf
    exact State.takePowerLow_record hwf hcf
  · obtain ⟨hcf, hcwriter, hcmap⟩ := State.chainPowerLow_refreshed hbwf hbf (hchain ▸ hfr) hfn
    rw [hheld] at hcf
    refine ⟨State.takePowerLow_record hwf hcf, s.takePowerLow_queue ?_, ?_, fun hmode ns hns k hk hu => ?_⟩
    · show _ ∈ b.chainPowerLow.writer.queue
      rw [hcwriter]
      exact Writer.mem_mark_self _ _
    · rw [hreserved]
      show b.chainPowerLow.map.reserved ≤ _
      rw [hcmap, BlockMap.returnAll_reserved]
      exact Nat.sub_le_sub_right hwanes.1.1 _
    · obtain ⟨hbok, -⟩ := hwanes.1.2.2 hok
      rw [hsame hmode]
      show ∃ w, b.chainPowerLow.map.stateOf k = .dirty w
      rw [hcmap, hns]
      obtain hbu | hbd := hwanes.1.inUse hok hu
      · exact ⟨_, BlockMap.returnAll_inUse (BlockMap.release_ok hbok r.remaining) .ready hk hbu⟩
      · exact ((BlockMap.Wanes.release r.remaining b.map).trans (.returnAll .ready ns _)).dirty hbok hbd

/-! ### The shot's records -/

/-- A RESERVED record of a burst that ends or goes on to its end only is FREE (R6, R181). -/
theorem State.takePowerLow_released (hc : Canonical s) (hs : s.shot.state.releases = true) {b : Burst}
    (hb : s.shot.burst = some b) {k : Nat} (hk : k ∈ b.numbers) (hf : findNumber k s.cat.places = some (p, r))
    (hr : r.state = .reserved) : s.takePowerLow.record p = none := by
  have hwf : Table.wf anyValue s.lowTaken.cat.places = true := hc.1.1
  have hnone := State.record_shotRelease_none (s := s.lowTaken) hwf hb hk hf hr
  have hgone := ((State.shotDisarm_wanes_released (s := s.lowTaken) hs).trans s.lowHanded_wanes).2.2
    (State.shotRelease_wanes s.lowTaken |>.2.2 hwf).1
  unfold State.record at hnone hgone ⊢
  rw [s.takePowerLow_rest.1]
  exact hgone.2 p hnone

/-- The exposing record of a shutter that reads closed fails with its time measured (R173, R181). -/
theorem State.takePowerLow_failed (hc : Canonical s) (hs : s.shot.state = .exposing) {x : InHand}
    (hx : s.shot.exposure = some x) (hclosed : s.lines.shutterClosed = true) {total : Nat}
    (ht : s.timers.shutter = some total) (hf : findNumber x.number s.cat.places = some (p, r))
    (hr : r.state ≠ .reserved) : ShotFailed total s.takePowerLow ∧
    ∃ y, s.takePowerLow.record p = some y ∧ y.number = r.number ∧ y.state = .failed ∧ y.cause = some .power ∧
      y.measured = some total ∧ y.remaining = 0 ∧ y.extent = [] ∧ Item.place p ∈ s.takePowerLow.writer.queue := by
  have hwf := hc.1.1
  obtain ⟨hshot, hawf, hqueue, ended, haf⟩ :=
    State.shotDisarm_fails (s := s.lowTaken) hwf rfl hs hx hclosed ht hf hr
  let a : State := s.lowTaken.shotDisarm
  obtain ⟨-, htshutter, htconfirm⟩ := s.takePowerLow_timers
  have hflags : FlagsGrow a s.takePowerLow := (FlagsGrow.storePowerLow _).trans (FlagsGrow.takePowerLow s)
  refine ⟨?_, ?_⟩
  · obtain ⟨h1, h2, h3, h4, h5, h6, h7, h8, h9⟩ := hshot
    rw [← s.takePowerLow_shot] at h1 h2 h3 h4 h5
    exact ⟨h1, h2, h3, h4, h5, htshutter.trans h6, htconfirm.trans h7, hflags _ h8, hflags _ h9⟩
  · have hbf : findNumber x.number a.storePowerLow.cat.places =
        some (p, (r.exposed (some total) ended).failedWith .power) := by
      rw [a.storePowerLow_records.1]
      exact State.failQueue_failed _ a hawf haf
    obtain ⟨holds, extent, hcf⟩ := State.chainPowerLow_failed (a.storePowerLow_wanes.2.2 hawf).1 hbf rfl
    exact ⟨_, State.takePowerLow_record hwf hcf, rfl, rfl, rfl, rfl, rfl, rfl,
      s.takePowerLow_queue (s.lowHanded_wanes.2.1 _ hqueue)⟩

end Sys2Proof.Machine
end

section
/-! PROOFS. POWER_LOW taken: its duties, block by block (section 11.3; R198 to R200). -/

namespace Sys2Proof.Machine

variable {s : State} {n p : Nat} {r : PicRecord}

theorem exec_powerLow_again (hp : s.supply.powered = true) (m : Moment) (hl : s.supply.powerLow = true)
    (hs : s.supply.shutdown ≠ .starting) : exec (.powerLow m) s = .next (s.arrive m) := by
  rw [exec_powerLow hp, hl]
  cases h : s.supply.shutdown with
  | starting => exact absurd h hs
  | running => rfl
  | draining => rfl
  | shutDown => rfl

theorem exec_powerLow_down (hp : s.supply.powered = true) (m : Moment) (hl : s.supply.powerLow = false)
    (hs : s.supply.shutdown = .shutDown) : exec (.powerLow m) s = .next ((s.arrive m).setFlag .powerLow) := by
  rw [exec_powerLow hp, hl, hs]
  rfl

theorem exec_powerLow_taken (hp : s.supply.powered = true) (m : Moment) (hl : s.supply.powerLow = false)
    (hs : s.supply.shutdown = .running ∨ s.supply.shutdown = .draining) :
    exec (.powerLow m) s = .next (s.arrive m).takePowerLow := by
  rw [exec_powerLow hp, hl]
  rcases hs with hs | hs <;> rw [hs] <;> rfl

/-- POWER_LOW sets STORE_FAILED when a record was queued (R70). -/
theorem State.takePowerLow_storeFailed (h : s.store.queue ≠ []) : s.takePowerLow.events.has .storeFailed = true := by
  have hstore : s.lowTaken.shotDisarm.store = s.store := State.shotDisarm_store (s := s.lowTaken) rfl
  refine FlagsGrow.takePowerLow s _ ?_
  show s.lowTaken.shotDisarm.storePowerLow.events.has .storeFailed = true
  rw [State.storePowerLow_events, State.setFlagIf, hstore, if_pos (by simpa using h)]
  exact has_setFlag_same _ _

/-- The Store Engine's and the Read Chain's fields after POWER_LOW (R70, R81, R87). -/
theorem State.takePowerLow_queues (s : State) : s.takePowerLow.store.queue = [] ∧
    s.takePowerLow.store.stream = .closed ∧ s.takePowerLow.store.heldStart = false ∧
    s.takePowerLow.store.marks = [] ∧ s.takePowerLow.chain.chain = [] ∧ s.takePowerLow.chain.owed = none ∧
    s.takePowerLow.chain.refresh = none ∧ s.takePowerLow.chain.refreshMarks = [] := by
  obtain ⟨-, hstore, hchain, -⟩ := s.takePowerLow_rest
  have hkept : s.lowHanded.store = s.lowTaken.shotDisarm.storePowerLow.store := by simp [State.lowHanded]
  obtain ⟨h1, h2, h3, h4⟩ := s.lowTaken.shotDisarm.storePowerLow_store
  obtain ⟨h5, h6, h7, h8⟩ := s.lowTaken.shotDisarm.storePowerLow.chainPowerLow_chain
  rw [hstore, hchain, hkept]
  exact ⟨h1, h2, h3, h4, h5, h6, h7, h8⟩

/-- What the end of the shot leaves: the shot, the frame timer, the metering lock (R108, R179). -/
structure ShotOver (s t : State) : Prop where
  state : t.shot.state = .idle
  burst : t.shot.burst = none
  exposure : t.shot.exposure = none
  frame : t.timers.frame = none
  ended : t.events.has .burstEnded = true
  freed : s.meter.owner = .shot → s.meter.note = false → t.meter.owner = .none ∧ t.meter.run = 0 ∧
    t.meter.state = if s.timers.block = none then .stale else .tracking
  noted : s.meter.owner = .shot → s.meter.note = true → t.meter.owner = .request ∧ t.meter.note = false ∧
    t.meter.state = s.meter.state

theorem State.takePowerLow_shotOver (h : s.shot.state.Ends) : ShotOver s s.takePowerLow := by
  have hidle : s.lowTaken.shotDisarm = s.lowTaken.shotIdle := State.shotDisarm_ends (s := s.lowTaken) h
  have hshot : s.takePowerLow.shot = { s.shot with state := .idle, burst := none, exposure := none } := by
    rw [s.takePowerLow_shot, hidle]
    simp [State.lowTaken]
  have hflags : FlagsGrow s.lowTaken.shotDisarm s.takePowerLow :=
    (FlagsGrow.storePowerLow _).trans (FlagsGrow.takePowerLow s)
  obtain ⟨howner, hrun, hnote, hstate⟩ := s.takePowerLow_meter
  rw [hidle] at howner hrun hnote hstate hflags
  refine ⟨by rw [hshot], by rw [hshot], by rw [hshot], ?_, hflags _ (has_setFlag_same _ _), fun ho hn => ?_,
    fun ho hn => ?_⟩
  · rw [s.takePowerLow_timers.1, hidle]
    simp
  · rw [howner, hrun, hstate]
    exact State.shotIdle_meter_freed (s := s.lowTaken) ho hn
  · rw [howner, hnote, hstate]
    exact State.shotIdle_meter_noted (s := s.lowTaken) ho hn

/-- Settles O19: POWER_LOW by the shutdown state, then each block's part of what it leaves. -/
theorem powerLowHandsOutItsDuties : Obligations.PowerLowHandsOutItsDuties := by
  unfold Obligations.PowerLowHandsOutItsDuties
  intro m s hp
  refine ⟨exec_powerLow_again hp m, exec_powerLow_down hp m, fun hl hs => ?_⟩
  intro u shotEnds apart
  obtain ⟨-, -, hsupply, hlink, hmemory, hsettings, -⟩ := State.takePowerLow_frame (s := u)
  obtain ⟨hqueue, hstream, hheld, hmarks, hchain, howed, hrefresh, hrefreshMarks⟩ := u.takePowerLow_queues
  obtain ⟨hfstore, hfread, hfrefresh, hprotect, hasserted, hdiscards⟩ := u.takePowerLow_flash
  obtain ⟨hzoom, hdrive, hcount, hfocus, hposition, hmove, hsteady, hpitch, hyaw, hlost⟩ := u.takePowerLow_lens
  obtain ⟨hprepared, hkept, -⟩ := u.takePowerLow_map
  have hlane : inLaneReady u.takePowerLow = false := by simp [inLaneReady]
  refine ⟨u.takePowerLow, exec_powerLow_taken hp m hl hs, hsupply, u.takePowerLow_flags.2, hqueue, hstream,
    hheld, hmarks, hfstore, hfread, hfrefresh, hrefreshMarks, hlane, hchain, howed, hrefresh, hdiscards,
    u.takePowerLow_mode, hzoom, hdrive, hcount, hfocus, hposition, hmove, hsteady, hpitch, hyaw, hlost, hprotect,
    hasserted, hlink, hmemory, hsettings, hprepared, fun h => ?_, State.takePowerLow_storeFailed (s := u),
    fun n p r hc hn hf hr ha => ?_, fun n p r hc hf hr hn ha => ?_, fun h => ?_, fun h => ?_, fun h => ?_,
    fun x h hx ho => ?_, fun x p r total hc h hx hclosed ht hf hr => ?_, fun b k p r hc h hb hk hf hr _ => ?_⟩
  · rw [hkept h]
    exact u.lowTaken_wanes.1.2.1
  · have hr : r.state ≠ .reserved := by
      rcases hr with hr | hr <;> rw [hr] <;> nofun
    obtain ⟨⟨x, hx, hnumber, hfailed⟩, hplace, hreserved, halone, hblocks⟩ :=
      State.takePowerLow_queued (s := u) hc hn hf hr ha
    obtain ⟨hstate, hcause, hremaining, hextent, hpicture, htrim⟩ := hfailed
    exact ⟨x, hx, hnumber.trans (findNumber_mem hf).2, hstate, hcause, hremaining, hextent, hpicture, htrim, hplace,
      hreserved, halone, hblocks⟩
  · have hr : r.state ≠ .reserved := by
      rw [hr]
      nofun
    obtain ⟨hother, hdropped⟩ := State.takePowerLow_stored (s := u) hc hn hf hr ha
    refine ⟨hother, fun f hfr hfn => ?_⟩
    obtain ⟨hrecord, hplace, hreserved, hblocks⟩ := hdropped f hfr hfn
    exact ⟨hrecord, hplace, hreserved, hblocks⟩
  · rw [u.takePowerLow_shot, State.shotDisarm_idle (s := u.lowTaken) h]
    rfl
  · obtain ⟨hstate, hburst, hexposure, hframe, hended, hfreed, hnoted⟩ := State.takePowerLow_shotOver (s := u) h
    exact ⟨hstate, hburst, hexposure, hframe, hended, hfreed, hnoted⟩
  · rw [u.takePowerLow_shot, State.shotDisarm_marked (s := u.lowTaken) h]
    rfl
  · have hopen : u.lowTaken.lines.shutterClosed = false :=
      (sensorRead_of_ne s (by rw [h]; nofun) m).trans ho
    obtain ⟨hconfirm, hshot⟩ := State.shotDisarm_closes (s := u.lowTaken) h hx hopen
    exact ⟨u.takePowerLow_timers.2.2.trans hconfirm, u.takePowerLow_shot.trans hshot⟩
  · have hr : r.state ≠ .reserved := by
      rw [hr]
      nofun
    have hread : u.lines.shutterClosed = true := (sensorRead_of_ne s (by rw [h]; nofun) m).trans hclosed
    obtain ⟨hshot, y, hy, hnumber, hfailed⟩ := State.takePowerLow_failed (s := u) hc h hx hread ht hf hr
    obtain ⟨h1, h2, h3, h4, h5, h6, h7, h8, h9⟩ := hshot
    exact ⟨h1, h2, h3, h4, h5, h6, h7, h8, h9, y, hy, hnumber.trans (findNumber_mem hf).2, hfailed⟩
  · have hreleases : s.shot.state.releases = true := by
      rcases h with (h | h | h | h | h) | h | h <;> rw [h] <;> rfl
    exact State.takePowerLow_released (s := u) hc hreleases hb hk hf hr

end Sys2Proof.Machine
end

section
/-! PROOFS. The picture numbers of the records, and the operations that leave them alone: the Catalogue's claims and the
Shot Sequencer (R2 to R11, R22). -/

namespace Sys2Proof.Machine

variable {f : Nat → Option (Option Nat)} {n : Nat} {s t : State}

/-! ### The numbers in force -/

/-- Every record's number is the one that `f` gives its place, and the counter stands at `n`. -/
structure Numbered (f : Nat → Option (Option Nat)) (n : Nat) (s : State) : Prop where
  wf : Table.wf anyValue s.cat.places = true
  counter : s.cat.counter = n
  numbers : ∀ p x, s.record p = some x → f p = some x.number

/-- The numbers that the places of a state bear. -/
def numbersOf (s : State) (p : Nat) : Option (Option Nat) := (s.record p).map PicRecord.number

theorem Numbered.self (h : Table.wf anyValue s.cat.places = true) : Numbered (numbersOf s) s.cat.counter s :=
  ⟨h, rfl, fun p x hx => by rw [numbersOf, hx]; rfl⟩

namespace Numbered

/-- The numbers read the places and the counter alone. -/
theorem same (h : Numbered f n s) (e : t.cat.places = s.cat.places ∧ t.cat.counter = s.cat.counter) :
    Numbered f n t := by
  obtain ⟨hwf, hcounter, hnumbers⟩ := h
  refine ⟨e.1 ▸ hwf, e.2.trans hcounter, fun p x hx => hnumbers p x ?_⟩
  rw [State.record, e.1] at hx
  exact hx

/-- A record changed, its number left. -/
theorem setRecord (h : Numbered f n s) {p : Nat} {r x : PicRecord} (hr : s.record p = some r)
    (hx : x.number = r.number) : Numbered f n (s.setRecord p x) := by
  refine ⟨Table.wf_put rfl h.wf, h.counter, fun q y hy => ?_⟩
  by_cases hq : q = p
  · subst hq
    rw [State.record] at hy
    cases (Table.get_put_same q x s.cat.places).symm.trans hy
    rw [hx]
    exact h.numbers q r hr
  · exact h.numbers q y ((Table.get_put_other hq x s.cat.places).symm.trans hy)

theorem claim (h : Numbered f n s) {p : Nat} {r x : PicRecord} (hr : s.record p = some r)
    (hx : x.number = r.number) : Numbered f n (s.claim p x) := (h.setRecord hr hx).same ⟨rfl, rfl⟩

theorem claimChanged (h : Numbered f n s) {p : Nat} {r x : PicRecord} (hr : s.record p = some r)
    (hx : x.number = r.number) (y : PicRecord) : Numbered f n (s.claimChanged p y x) :=
  (h.setRecord hr hx).same (by simp [State.setRecord])

theorem dropRecord (h : Numbered f n s) (p : Nat) : Numbered f n (s.dropRecord p) := by
  refine ⟨Table.wf_erase h.wf, h.counter, fun q y hy => ?_⟩
  by_cases hq : q = p
  · subst hq
    cases (Table.get_erase_same h.wf).symm.trans hy
  · exact h.numbers q y ((Table.get_erase_other hq s.cat.places).symm.trans hy)

/-- What is done to the record of a number. -/
theorem onNumber (h : Numbered f n s) (k : Nat) {g : Nat → PicRecord → State → State}
    (hg : ∀ p r, s.record p = some r → Numbered f n (g p r s)) : Numbered f n (s.onNumber k g) := by
  rcases hk : findNumber k s.cat.places with _ | ⟨p, r⟩
  · rwa [State.onNumber_none hk]
  · rw [State.onNumber_some hk]
    exact hg p r (Table.get_of_mem h.wf (findNumber_mem hk).1)

theorem foldl {α : Type} {g : State → α → State} (hg : ∀ t a, Numbered f n t → Numbered f n (g t a)) (l : List α)
    (h : Numbered f n s) : Numbered f n (l.foldl g s) := by
  induction l generalizing s with
  | nil => exact h
  | cons a l ih => exact ih (hg s a h)

theorem onMap (h : Numbered f n s) (g : BlockMap → BlockMap) : Numbered f n (s.onMap g) := h.same ⟨rfl, rfl⟩
theorem onShot (h : Numbered f n s) (g : Shot → Shot) : Numbered f n (s.onShot g) := h.same ⟨rfl, rfl⟩
theorem onBurst (h : Numbered f n s) (g : Burst → Burst) : Numbered f n (s.onBurst g) := h.same ⟨rfl, rfl⟩
theorem onFlash (h : Numbered f n s) (g : FlashPort → FlashPort) : Numbered f n (s.onFlash g) := h.same ⟨rfl, rfl⟩
theorem onStore (h : Numbered f n s) (g : StoreEngine → StoreEngine) : Numbered f n (s.onStore g) := h.same ⟨rfl, rfl⟩
theorem onChain (h : Numbered f n s) (g : ReadChain → ReadChain) : Numbered f n (s.onChain g) := h.same ⟨rfl, rfl⟩
theorem setFlag (h : Numbered f n s) (x : EventFlag) : Numbered f n (s.setFlag x) := h.same ⟨rfl, rfl⟩
theorem setFlagIf (h : Numbered f n s) (c : Bool) (x : EventFlag) : Numbered f n (s.setFlagIf c x) :=
  h.same (by simp)
theorem markDirty (h : Numbered f n s) (i : Item) : Numbered f n (s.markDirty i) := h.same ⟨rfl, rfl⟩

end Numbered

/-! ### The Catalogue's claims -/

theorem State.freePlace_numbered (h : Numbered f n s) (p : Nat) : Numbered f n (s.freePlace p) := by
  unfold State.freePlace
  split
  · exact h
  · exact ((h.onMap _).dropRecord p).markDirty _

theorem State.freePlaces_numbered (h : Numbered f n s) (ps : List Nat) : Numbered f n (s.freePlaces ps) :=
  .foldl (fun _ p ht => State.freePlace_numbered ht p) ps h

theorem State.failPlace_numbered (h : Numbered f n s) (p : Nat) (c : FailCause) : Numbered f n (s.failPlace p c) := by
  unfold State.failPlace
  split
  · exact h
  next r hr => exact (h.onMap _).claim (r := r) hr rfl

theorem State.releaseReserved_numbered (h : Numbered f n s) (k : Nat) : Numbered f n (s.releaseReserved k) :=
  h.onNumber k fun p r _ => by
    split
    · exact State.freePlace_numbered h p
    · exact h

theorem State.addHold_numbered (h : Numbered f n s) (p : Nat) : Numbered f n (s.addHold p) := by
  unfold State.addHold
  split
  next r hr => exact h.setRecord hr rfl
  · exact h

theorem State.dropHold_numbered (h : Numbered f n s) (k : Nat) : Numbered f n (s.dropHold k) :=
  h.onNumber k fun _ _ hr => h.setRecord hr rfl

theorem State.makeBad_numbered (h : Numbered f n s) (b : Nat) (k : BadKind) : Numbered f n (s.makeBad b k) := by
  unfold State.makeBad
  dsimp only
  (repeat' split) <;> exact h.same ⟨rfl, rfl⟩

/-- An allocation changes the extent lists of a record alone. -/
theorem State.allocateFor_numbered (h : Numbered f n s) (p : Nat) {place : Nat → PicRecord → PicRecord}
    (hplace : ∀ b r, (place b r).number = r.number) {b : Option Nat} (ht : s.allocateFor p place = (t, b)) :
    Numbered f n t := by
  unfold State.allocateFor at ht
  (repeat' split at ht) <;> cases ht
  · exact h
  · exact h
  next r hr _ k m _ =>
    have hm : Numbered f n { s with map := m } := h.same ⟨rfl, rfl⟩
    exact hm.claimChanged hr (hplace k { r with remaining := r.remaining - 1 }) r

theorem PicRecord.onList_number (inRefresh : Bool) (g : List Nat → List Nat) (r : PicRecord) :
    (r.onList inRefresh g).number = r.number := by
  unfold PicRecord.onList
  split <;> rfl

theorem State.replaceBlock_numbered (h : Numbered f n s) {p i failed : Nat} {inRefresh : Bool} {b : Option Nat}
    (ht : s.replaceBlock p i failed inRefresh = (t, b)) : Numbered f n t := by
  have hbad := State.makeBad_numbered h failed .grown
  unfold State.replaceBlock at ht
  dsimp only at ht
  split at ht
  next a k ha =>
    cases ht
    exact State.allocateFor_numbered hbad p (fun _ r => r.onList_number _ _) ha
  · split at ht
    next r hr =>
      cases ht
      exact hbad.claimChanged hr (r.onList_number _ _) r
    · cases ht
      exact hbad

/-! ### The Shot Sequencer -/

theorem State.shotRelease_numbered (h : Numbered f n s) : Numbered f n s.shotRelease := by
  unfold State.shotRelease
  split
  · exact .foldl (fun _ k ht => State.releaseReserved_numbered ht k) _ h
  · exact h

theorem State.shotIdle_numbered (h : Numbered f n s) : Numbered f n s.shotIdle :=
  (State.shotRelease_numbered h).same (by simp)

theorem State.shotEndFrame_numbered (h : Numbered f n s) : Numbered f n s.shotEndFrame := h.same (by simp)

theorem State.shotFail_numbered (h : Numbered f n s) (k : Nat) (x : Option Nat) (c : FailCause) :
    Numbered f n (s.shotFail k x c) := by
  have hend := State.shotEndFrame_numbered h
  unfold State.shotFail
  refine hend.onNumber k fun p r hr => State.failPlace_numbered ?_ p c
  exact hend.setRecord hr rfl

theorem State.shotAwait_numbered (h : Numbered f n s) (k x : Nat) (cut : Bool) :
    Numbered f n (s.shotAwait k x cut) := by
  have hend := State.shotEndFrame_numbered h
  have hawait : Numbered f n (s.shotEndFrame.onNumber k fun p r t =>
      t.claim p ((r.exposed (some x) (steadyResult s.steady)).awaiting cut)) := by
    refine hend.onNumber k fun p r hr => ?_
    exact hend.claim hr rfl
  exact hawait.same ⟨rfl, rfl⟩

theorem State.shotNext_numbered (h : Numbered f n s) : Numbered f n s.shotNext := by
  unfold State.shotNext
  split
  · split
    · exact State.shotIdle_numbered h
    · exact h.onShot _
  · exact State.shotIdle_numbered h

theorem State.shotConfirm_numbered (h : Numbered f n s) : Numbered f n s.shotConfirm := by
  unfold State.shotConfirm
  split
  · refine State.shotNext_numbered (Numbered.setFlag ?_ _)
    split
    · exact State.shotFail_numbered (h.onShot _) _ _ _
    · exact State.shotAwait_numbered (h.onShot _) _ _ _
  · exact h

theorem State.shotClose_numbered (h : Numbered f n s) : Numbered f n s.shotClose := by
  have hclosing : Numbered f n s.shotClosing := h.same ⟨rfl, rfl⟩
  cases hs : s.lines.shutterClosed with
  | false => rwa [State.shotClose_open hs]
  | true =>
    rw [State.shotClose_closed hs]
    exact State.shotConfirm_numbered hclosing

theorem State.shotStart_numbered (h : Numbered f n s) : Numbered f n s.shotStart := by
  unfold State.shotStart
  split
  next b hb =>
    have hexpose : Numbered f n (s.shotExpose (nth b.numbers (b.next - 1))) :=
      h.onNumber _ fun _ _ hr => h.claim hr rfl
    dsimp only
    split
    · exact State.shotClose_numbered (hexpose.same (by simp))
    · exact hexpose.same (by simp)
  · exact h

theorem State.shotPrepared_numbered (h : Numbered f n s) : Numbered f n s.shotPrepared := by
  unfold State.shotPrepared
  split
  · exact State.shotIdle_numbered h
  · exact State.shotStart_numbered h

theorem State.irisToBurst_numbered (h : Numbered f n s) : Numbered f n s.irisToBurst := by
  unfold State.irisToBurst
  (repeat' split)
  · exact State.shotPrepared_numbered h
  · exact h.onShot _
  · exact h

theorem State.shotPrepare_numbered (h : Numbered f n s) : Numbered f n s.shotPrepare :=
  State.irisToBurst_numbered (h.onShot _)

theorem State.shotFrame_numbered (h : Numbered f n s) : Numbered f n s.shotFrame := by
  unfold State.shotFrame
  split
  · exact h.onShot _
  · exact State.shotPrepare_numbered h

theorem State.shotDueCheck_numbered (h : Numbered f n s) : Numbered f n s.shotDueCheck := by
  unfold State.shotDueCheck State.shotDue
  (repeat' split)
  · exact State.shotFrame_numbered h
  · exact h.onShot _
  · exact h

theorem State.shotQueueShrunk_numbered (h : Numbered f n s) : Numbered f n s.shotQueueShrunk := by
  unfold State.shotQueueShrunk
  split
  · exact State.shotFrame_numbered h
  · exact h

theorem State.shotSteadyReady_numbered (h : Numbered f n s) : Numbered f n s.shotSteadyReady := by
  unfold State.shotSteadyReady
  split
  · exact State.shotPrepare_numbered h
  · exact h

theorem State.shotDisarm_numbered (h : Numbered f n s) : Numbered f n s.shotDisarm := by
  unfold State.shotDisarm
  split
  · exact h
  iterate 5 exact State.shotIdle_numbered h
  · exact h.onBurst _
  · exact State.shotClose_numbered (((State.shotRelease_numbered h).onBurst _).onShot _)
  · exact (State.shotRelease_numbered h).onBurst _

theorem State.shotTimeout_numbered (h : Numbered f n s) : Numbered f n s.shotTimeout := by
  unfold State.shotTimeout
  split
  · split
    · exact State.shotIdle_numbered ((State.shotFail_numbered h _ _ _).setFlag _)
    · exact (((State.shotRelease_numbered (State.shotFail_numbered h _ _ _)).onShot _).setFlag _).setFlag _
  · exact h

end Sys2Proof.Machine
end

section
/-! PROOFS. The picture numbers through the Store Engine, the Read Chain and the refresh (sections 5 and 6). -/

namespace Sys2Proof.Machine

variable {f : Nat → Option (Option Nat)} {n : Nat} {s t : State}

/-! ### The Flash Port -/

theorem State.flashGrant_numbered (h : Numbered f n s) (c : Claimant) (op : FlashOp) (mid : MiddleGrant) :
    Numbered f n (s.flashGrant c op mid) := by
  unfold State.flashGrant State.flashLoad
  dsimp only
  (repeat' split) <;> exact h.same (by simp)

/-- A result of the flash goes to its claimant (R33). -/
theorem flashResult_numbered (h : Numbered f n s) {kind : FlashOp → Bool} {g : InFlightOp → State → State}
    (hg : ∀ x t, Numbered f n t → Numbered f n (g x t)) : Numbered f n (flashResult kind g s) := by
  unfold flashResult
  split
  · split
    · exact hg _ _ (h.same (by simp))
    · exact h
  · exact h

/-! ### The Store Engine -/

theorem State.storeStart_numbered (h : Numbered f n s) : Numbered f n s.storeStart := by
  unfold State.storeStart
  split
  · exact h.setFlag _
  next k l hq =>
    have hstoring : Numbered f n (s.onNumber k fun p r t => t.claim p { r with state := .storing }) :=
      h.onNumber k fun _ _ hr => h.claim hr rfl
    exact hstoring.same ⟨rfl, rfl⟩

theorem State.storeHeldStart_numbered (h : Numbered f n s) : Numbered f n s.storeHeldStart := by
  unfold State.storeHeldStart
  split
  · exact State.storeStart_numbered (h.onStore _)
  · exact h

theorem State.storeClose_numbered (h : Numbered f n s) : Numbered f n s.storeClose := by
  rw [State.storeClose_eq]
  exact h.same ⟨rfl, rfl⟩

theorem State.storeFail_numbered (h : Numbered f n s) (k : Nat) (c : FailCause) : Numbered f n (s.storeFail k c) := by
  have hfailed : Numbered f n ((s.onNumber k fun p _ s => s.failPlace p c).onStore fun e =>
      { e with queue := removeFirst k e.queue }) :=
    (h.onNumber k fun p _ _ => State.failPlace_numbered h p c).onStore _
  unfold State.storeFail
  dsimp only
  refine Numbered.setFlag ?_ _
  split
  · exact State.storeClose_numbered hfailed
  · exact hfailed

theorem State.storeFailBound_numbered (h : Numbered f n s) (c : FailCause) : Numbered f n (s.storeFailBound c) := by
  unfold State.storeFailBound
  split
  · exact State.storeFail_numbered h _ c
  · exact h

theorem State.storeAskProgram_numbered (h : Numbered f n s) (d : List Byte) : Numbered f n (s.storeAskProgram d) := by
  unfold State.storeAskProgram
  split
  · exact h.onFlash _
  · exact h

theorem State.storeProgram_numbered (h : Numbered f n s) (d : List Byte) : Numbered f n (s.storeProgram d) := by
  unfold State.storeProgram
  split
  · exact State.storeAskProgram_numbered h d
  · split
    · exact State.storeFailBound_numbered h _
    · split
      · split
        next ht =>
          have halloc := State.allocateFor_numbered (place := PicRecord.appendExtent) h _ (fun _ _ => rfl) ht
          exact State.storeAskProgram_numbered halloc d
        · exact State.storeFailBound_numbered h _
      · exact h

theorem State.storeKick_numbered (h : Numbered f n s) : Numbered f n s.storeKick := by
  unfold State.storeKick
  (repeat' split)
  · exact h
  · exact (h.onStore _).onFlash _
  · exact State.storeProgram_numbered h _
  · exact h

theorem State.storeGoOn_numbered (h : Numbered f n s) : Numbered f n s.storeGoOn :=
  State.shotQueueShrunk_numbered (State.storeHeldStart_numbered (State.storeKick_numbered h))

theorem State.storeRecoverNext_numbered (h : Numbered f n s) (r : Recovery) : Numbered f n (s.storeRecoverNext r) := by
  unfold State.storeRecoverNext
  dsimp only
  split
  · split
    · exact (h.onStore _).onFlash _
    · exact h.onStore _
  · exact State.storeAskProgram_numbered (h.onStore _) _

theorem State.storeReplace_numbered (h : Numbered f n s) : Numbered f n s.storeReplace := by
  unfold State.storeReplace
  split
  · dsimp only
    split
    next ht => exact State.storeRecoverNext_numbered (State.replaceBlock_numbered h ht) _
    next ht =>
      exact State.storeGoOn_numbered (State.storeFailBound_numbered ((State.replaceBlock_numbered h ht).onStore _) _)
  · exact h

theorem State.storeProgramDone_numbered (h : Numbered f n s) (d p : Bool) : Numbered f n (s.storeProgramDone d p) := by
  unfold State.storeProgramDone
  split
  · exact State.storeGoOn_numbered (h.onStore _)
  · split
    · exact State.storeGoOn_numbered (h.onStore _)
    · exact State.storeReplace_numbered h

theorem State.storeCopyDone_numbered (h : Numbered f n s) (d : Bool) (cs : List SectorCount) (p : Bool) :
    Numbered f n (s.storeCopyDone d cs p) := by
  have hloss : Numbered f n (if anyUncorrectable cs then s.onStore fun e => { e with loss := true } else s) := by
    split
    · exact h.onStore _
    · exact h
  unfold State.storeCopyDone
  split
  · exact State.storeGoOn_numbered (h.onStore _)
  · dsimp only
    split
    · split
      · exact State.storeRecoverNext_numbered hloss _
      · exact State.storeReplace_numbered hloss
    · exact hloss

theorem State.storeStored_numbered (h : Numbered f n s) (x : EndFields) (k : Nat) :
    Numbered f n (s.storeStored x k) := by
  unfold State.storeStored
  refine ((h.onNumber k fun p r hr => ?_).onStore _).setFlag _
  exact (h.onMap _).claim (r := r) hr rfl

theorem State.storeEnd_numbered (h : Numbered f n s) : Numbered f n s.storeEnd := by
  unfold State.storeEnd
  split
  · refine State.storeGoOn_numbered ?_
    split
    · exact State.storeStored_numbered h _ _
    · exact State.storeFailBound_numbered h _
  · exact h

/-- A picture that fails, with what waits behind it (R68). -/
theorem State.storeFailedOn_numbered (h : Numbered f n s) (c : FailCause) :
    Numbered f n (s.storeFailBound c).storeGoOn := State.storeGoOn_numbered (State.storeFailBound_numbered h c)

theorem State.storePowerLow_numbered (h : Numbered f n s) : Numbered f n s.storePowerLow := by
  have hfail : Numbered f n (s.failQueue s.store.queue) :=
    .foldl (fun t k ht => ht.onNumber k fun p _ _ => State.failPlace_numbered ht p .power) _ h
  refine hfail.same ?_
  rw [s.storePowerLow_records.1]
  exact ⟨rfl, rfl⟩

/-! ### The Read Chain -/

theorem State.chainAskPage_numbered (h : Numbered f n s) : Numbered f n s.chainAskPage := by
  unfold State.chainAskPage
  (repeat' split)
  · exact (h.onChain _).onFlash _
  · exact h
  · exact h

/-- What the sectors of a page report leaves a record's number (R77). -/
theorem PicRecord.reports_number (cs : List SectorCount) (r : PicRecord) :
    (cs.foldl PicRecord.report r).number = r.number := by
  induction cs generalizing r with
  | nil => rfl
  | cons c cs ih =>
    refine (ih (r.report c)).trans ?_
    unfold PicRecord.report
    split <;> rfl

theorem State.chainPageRead_numbered (h : Numbered f n s) (x : PageRead) : Numbered f n (s.chainPageRead x) := by
  have hreport : ∀ k cs, Numbered f n (s.chainReport k cs) := fun k cs => h.onNumber k fun p r hr => by
    dsimp only
    split
    · exact h
    · exact (h.claim hr (r.reports_number cs)).setFlagIf _ _
  unfold State.chainPageRead
  split
  · exact ((hreport _ _).onChain _).onChain _
  · exact h

theorem State.itemGone_numbered (h : Numbered f n s) : Numbered f n s.itemGone := h.onChain _

theorem State.chainSent_numbered (h : Numbered f n s) (k : Nat) : Numbered f n (s.chainSent k) := by
  have hmoved : Numbered f n (s.onHead fun d => { d with position := d.position + k }) := h.onChain _
  unfold State.chainSent
  dsimp only
  (repeat' split)
  · exact hmoved.onChain _
  · exact State.chainAskPage_numbered (hmoved.onChain _)
  · exact hmoved
  · exact hmoved

theorem State.chainPop_numbered (h : Numbered f n s) : Numbered f n s.chainPop := by
  unfold State.chainPop
  split
  · exact (State.dropHold_numbered h _).onChain _
  · exact h

theorem State.chainEmpty_numbered (h : Numbered f n s) (owed : Option (Nat × Bool)) :
    Numbered f n (s.chainEmpty owed) := by
  have hdrop := Numbered.foldl (g := fun (s : State) (d : Descriptor) => s.dropHold d.number)
    (fun t d ht => State.dropHold_numbered ht d.number) s.chain.chain h
  exact hdrop.same (by simp [State.chainEmpty])

/-! ### The refresh -/

theorem refreshRecord_record (hwf : Table.wf anyValue s.cat.places = true) {p : Nat} {r : PicRecord}
    (hr : refreshRecord s = some (p, r)) : s.record p = some r := by
  unfold refreshRecord at hr
  split at hr
  · exact Table.get_of_mem hwf (findNumber_mem hr).1
  · cases hr

theorem State.refreshOver_numbered (h : Numbered f n s) : Numbered f n s.refreshOver := h.same (by simp)

theorem State.refreshDrop_numbered (h : Numbered f n s) (x : Bool) : Numbered f n (s.refreshDrop x) := by
  unfold State.refreshDrop
  split
  next p r hr => exact State.refreshOver_numbered ((h.onMap _).claim (r := r) (refreshRecord_record h.wf hr) rfl)
  · exact State.refreshOver_numbered h

theorem State.refreshMarkNext_numbered (h : Numbered f n s) : Numbered f n s.refreshMarkNext := by
  unfold State.refreshMarkNext
  split
  · exact (h.onChain _).onFlash _
  · exact h

theorem State.refreshAbandon_numbered (h : Numbered f n s) (x : Bool) : Numbered f n (s.refreshAbandon x) :=
  (State.refreshMarkNext_numbered (State.refreshDrop_numbered h x)).setFlag _

theorem State.refreshRead_numbered (h : Numbered f n s) : Numbered f n s.refreshRead := by
  unfold State.refreshRead
  split
  · dsimp only
    split
    · split
      next ht =>
        exact (State.allocateFor_numbered (place := PicRecord.appendRefresh) h _ (fun _ _ => rfl) ht).onFlash _
      · exact State.refreshAbandon_numbered h _
    · exact h.onFlash _
  · exact h

theorem State.refreshKick_numbered (h : Numbered f n s) : Numbered f n s.refreshKick := by
  unfold State.refreshKick
  (repeat' split)
  · exact State.refreshMarkNext_numbered h
  · exact State.refreshRead_numbered h
  · exact h

theorem State.onRefresh_numbered (h : Numbered f n s) (g : Refresh → Refresh) : Numbered f n (s.onRefresh g) :=
  h.onChain _

theorem State.refreshAskProgram_numbered (h : Numbered f n s) : Numbered f n s.refreshAskProgram := by
  unfold State.refreshAskProgram
  split
  · exact h.onFlash _
  · exact h

theorem State.refreshPageRead_numbered (h : Numbered f n s) (x : PageRead) : Numbered f n (s.refreshPageRead x) := by
  unfold State.refreshPageRead
  split
  · exact State.refreshAbandon_numbered h _
  · exact State.refreshAskProgram_numbered (State.onRefresh_numbered h _)

theorem State.refreshComplete_numbered (h : Numbered f n s) : Numbered f n s.refreshComplete := by
  unfold State.refreshComplete
  split
  next p r hr =>
    dsimp only
    refine (State.refreshMarkNext_numbered (State.refreshOver_numbered ?_)).setFlag _
    exact (h.onMap _).claim (r := r) (refreshRecord_record h.wf hr) rfl
  · exact h

theorem State.refreshRecoverNext_numbered (h : Numbered f n s) (v : Recovery) :
    Numbered f n (s.refreshRecoverNext v) := by
  have hnoted := State.onRefresh_numbered h fun r => { r with recovery := some v }
  unfold State.refreshRecoverNext
  dsimp only
  split
  · split
    · exact hnoted.onFlash _
    · exact hnoted
  · exact State.refreshAskProgram_numbered hnoted

theorem State.refreshReplace_numbered (h : Numbered f n s) : Numbered f n s.refreshReplace := by
  unfold State.refreshReplace
  split
  · dsimp only
    split
    next ht => exact State.refreshRecoverNext_numbered (State.replaceBlock_numbered h ht) _
    next ht =>
      exact State.refreshAbandon_numbered (State.onRefresh_numbered (State.replaceBlock_numbered h ht) _) _
  · exact h

theorem State.refreshProgramDone_numbered (h : Numbered f n s) (p : Bool) : Numbered f n (s.refreshProgramDone p) := by
  have hrecovered : Numbered f n s.refreshRecovered := h.onChain _
  unfold State.refreshProgramDone
  split
  · split
    · dsimp only
      split
      · exact State.refreshKick_numbered (State.onRefresh_numbered hrecovered _)
      · exact State.refreshComplete_numbered hrecovered
    · exact State.refreshReplace_numbered h
  · exact h

theorem State.refreshCopyDone_numbered (h : Numbered f n s) (cs : List SectorCount) (p : Bool) :
    Numbered f n (s.refreshCopyDone cs p) := by
  unfold State.refreshCopyDone
  (repeat' split)
  · exact State.refreshAbandon_numbered h _
  · exact State.refreshRecoverNext_numbered h _
  · exact State.refreshReplace_numbered h
  · exact h

theorem State.refreshStart_numbered (h : Numbered f n s) {p : Nat} {r : PicRecord} (hr : s.record p = some r) :
    Numbered f n (s.refreshStart p r) := by
  unfold State.refreshStart
  dsimp only
  refine State.refreshKick_numbered (Numbered.onChain ?_ _)
  exact (h.onMap _).claim (r := r) hr rfl

theorem State.chainPowerLow_numbered (h : Numbered f n s) : Numbered f n s.chainPowerLow := by
  have hquiet : Numbered f n s.chainQuiet := (State.chainEmpty_numbered h none).onChain _
  rw [State.chainPowerLow_eq]
  refine Numbered.onChain (Numbered.same (s := if s.chain.refresh.isSome then s.chainQuiet.refreshDrop false
    else s.chainQuiet) ?_ (by simp)) _
  split
  · exact State.refreshDrop_numbered hquiet _
  · exact hquiet

end Sys2Proof.Machine
end

section
/-! PROOFS. The picture numbers through a prepare, the background work, the In Lane, POWER_LOW and the Record Writer;
what an event and a request do with their effect. -/

namespace Sys2Proof.Machine

variable {f : Nat → Option (Option Nat)} {n : Nat} {s t : State}

/-! ### A prepare -/

theorem State.preparePhase_numbered (h : Numbered f n s) (x : Option PreparePhase) : Numbered f n (s.preparePhase x) :=
  h.onMap _

theorem State.prepareAsk_numbered (h : Numbered f n s) (x : PreparePhase) (op : FlashOp) :
    Numbered f n (s.prepareAsk x op) := (State.preparePhase_numbered h _).onFlash _

theorem State.flashFollowMode_numbered (h : Numbered f n s) : Numbered f n s.flashFollowMode := h.same (by simp)

theorem State.prepareBegin_numbered (h : Numbered f n s) : Numbered f n s.prepareBegin := by
  have hmarked : Numbered f n (((s.backgroundDrop.onMap fun m =>
      { m with mode := .preparing, identity := none, prepare := some (.identityNone false) }).markDirty
      .identity).markAll (allPlaces.map .place)) := h.same (by simp [State.backgroundDrop, State.onMap])
  exact State.flashFollowMode_numbered ((State.freePlaces_numbered hmarked _).onMap _)

theorem State.prepareTooMany_numbered (h : Numbered f n s) : Numbered f n s.prepareTooMany :=
  h.same (by simp [State.prepareTooMany, State.prepareUnprepared, State.onMap])

theorem State.prepareBad_numbered (h : Numbered f n s) (b : Nat) (k : BadKind) : Numbered f n (s.prepareBad b k) :=
  (h.onMap _).markDirty _

theorem State.prepareErase_numbered (h : Numbered f n s) (b : Nat) : Numbered f n (s.prepareErase b) := by
  unfold State.prepareErase
  split
  · exact State.prepareAsk_numbered h _ _
  · exact (h.onMap _).markDirty _

theorem State.prepareScanNext_numbered (h : Numbered f n s) (b : Nat) : Numbered f n (s.prepareScanNext b) := by
  unfold State.prepareScanNext
  split
  · exact State.prepareAsk_numbered h _ _
  · exact State.prepareErase_numbered (h.markDirty _) _

theorem State.prepareScanned_numbered (h : Numbered f n s) {b : Nat} {x : PageRead}
    (ht : s.prepareScanned b x = some t) : Numbered f n t := by
  unfold State.prepareScanned at ht
  (repeat' split at ht) <;> cases ht
  · exact h.onMap _
  · exact State.prepareBad_numbered h b _

theorem State.prepareErased_numbered (h : Numbered f n s) {b : Nat} {p : Bool} (ht : s.prepareErased b p = some t) :
    Numbered f n t := by
  unfold State.prepareErased at ht
  (repeat' split at ht) <;> cases ht
  · exact h.onMap _
  · exact State.prepareBad_numbered h b _

theorem State.prepareStopped_numbered (h : Numbered f n s) : Numbered f n s.prepareStopped := by
  unfold State.prepareStopped
  split
  · exact State.preparePhase_numbered h _
  · exact h

theorem State.prepareRead_numbered (h : Numbered f n s) (b : Nat) (x : PageRead) :
    Numbered f n (s.prepareRead b x) := by
  unfold State.prepareRead
  split
  · exact State.prepareTooMany_numbered h
  next t ht =>
    split
    · exact State.prepareStopped_numbered (State.prepareScanned_numbered h ht)
    · exact State.prepareScanNext_numbered (State.prepareScanned_numbered h ht) b

theorem State.prepareEraseDone_numbered (h : Numbered f n s) (b : Nat) (p : Bool) :
    Numbered f n (s.prepareEraseDone b p) := by
  unfold State.prepareEraseDone
  split
  · exact State.prepareTooMany_numbered h
  next t ht =>
    have herased := State.prepareErased_numbered h ht
    (repeat' split)
    · exact State.prepareStopped_numbered herased
    · exact State.prepareErase_numbered herased _
    · exact State.prepareAsk_numbered herased _ _

theorem State.prepareMarked_numbered (h : Numbered f n s) (b : Nat) : Numbered f n (s.prepareMarked b) := by
  unfold State.prepareMarked
  split
  · exact State.prepareStopped_numbered h
  · exact State.prepareErase_numbered h _

/-! ### Background work -/

theorem State.backgroundDone_numbered (h : Numbered f n s) : Numbered f n s.backgroundDone := h.onMap _

theorem State.backgroundNext_numbered (h : Numbered f n s) (b : Nat) (x : BackPhase) (op : FlashOp) :
    Numbered f n (s.backgroundNext b x op) := by
  unfold State.backgroundNext
  split
  · exact (h.onMap _).onFlash _
  · exact State.backgroundDone_numbered h

theorem State.backgroundErased_numbered (h : Numbered f n s) (b : Nat) (p : Bool) :
    Numbered f n (s.backgroundErased b p) := by
  have hdone := State.backgroundDone_numbered h
  have hbad := State.makeBad_numbered hdone b .grown
  unfold State.backgroundErased
  dsimp only
  (repeat' split)
  · exact hdone.onMap _
  · exact hbad.onFlash _
  · exact hbad

theorem State.backgroundRead_numbered (h : Numbered f n s) (x : PageRead) : Numbered f n (s.backgroundRead x) := by
  have hdone := State.backgroundDone_numbered h
  unfold State.backgroundRead
  (repeat' split)
  · exact State.makeBad_numbered hdone _ _
  · exact State.backgroundNext_numbered h _ _ _
  · exact hdone.onMap _
  · exact State.backgroundNext_numbered h _ _ _
  · exact h

/-- A page read goes to its claimant (R33). -/
theorem pageReadResult_numbered (r : PageRead) (x : InFlightOp) (h : Numbered f n s) :
    Numbered f n (pageReadResult r x s) := by
  unfold pageReadResult
  split
  · split
    · exact h
    · exact State.chainPageRead_numbered h r
  · split
    · exact State.refreshKick_numbered h
    · exact State.refreshPageRead_numbered h r
  · split
    · exact h
    · exact State.prepareRead_numbered h _ r
  · split
    · exact h
    · exact State.backgroundRead_numbered h r
  · exact h

/-! ### The In Lane -/

theorem State.laneFree_numbered (h : Numbered f n s) : Numbered f n s.laneFree := h.same (by simp)

theorem laneBlock_numbered (h : Numbered f n s) (k : Byte) (l : Nat) {g : State → State}
    (hg : ∀ t, Numbered f n t → Numbered f n (g t)) : Numbered f n (laneBlock k l g s) := by
  have hfree := State.laneFree_numbered h
  unfold laneBlock
  (repeat' split)
  · exact hfree
  · exact hg _ hfree
  · exact h
  · exact hfree
  · exact hg _ hfree
  · exact h

theorem laneDataEnd_numbered (h : Numbered f n s) (discard : Bool) {g : State → State}
    (hg : ∀ t, Numbered f n t → Numbered f n (g t)) : Numbered f n (laneDataEnd discard g s) := by
  unfold laneDataEnd
  split
  · exact State.laneFree_numbered h
  · exact hg _ (State.laneFree_numbered h)

theorem dataBlock_numbered (h : Numbered f n s) (l : Nat) {g : State → State}
    (hg : ∀ t, Numbered f n t → Numbered f n (g t)) : Numbered f n (dataBlock l g s) := by
  unfold dataBlock
  (repeat' split)
  · exact laneDataEnd_numbered h _ hg
  · exact h
  · exact hg _ (State.laneFree_numbered h)
  · exact h.same (by simp)
  · exact h

theorem State.pictureStart_numbered (h : Numbered f n s) : Numbered f n s.pictureStart := by
  unfold State.pictureStart
  (repeat' split)
  · exact h
  · exact State.storeStart_numbered h
  · exact State.storeGoOn_numbered (State.storeStart_numbered (State.storeFailBound_numbered h _))
  · exact h.setFlag _
  · exact h.onStore _

theorem State.pictureDataBad_numbered (h : Numbered f n s) : Numbered f n s.pictureDataBad := by
  unfold State.pictureDataBad
  split
  · exact State.storeFailedOn_numbered h _
  · exact h

theorem State.pictureData_numbered (h : Numbered f n s) (b : List Byte) : Numbered f n (s.pictureData b) := by
  unfold State.pictureData
  (repeat' split)
  · exact State.pictureDataBad_numbered h
  · exact State.storeGoOn_numbered (h.same ⟨rfl, rfl⟩)
  · exact h

theorem State.pictureEnd_numbered (h : Numbered f n s) (x : EndFields) : Numbered f n (s.pictureEnd x) := by
  unfold State.pictureEnd
  split
  · exact State.storeGoOn_numbered (h.same ⟨rfl, rfl⟩)
  · exact h

theorem State.laneFault_numbered (h : Numbered f n s) : Numbered f n s.laneFault := by
  have hbad : ∀ discard, Numbered f n (laneDataEnd discard State.pictureDataBad s) := fun _ =>
    laneDataEnd_numbered h _ fun _ ht => State.pictureDataBad_numbered ht
  unfold State.laneFault
  (repeat' split)
  · exact h
  · exact hbad _
  · exact State.laneFree_numbered h
  · exact State.laneFree_numbered h
  · exact h
  · exact hbad _
  · exact State.laneFree_numbered h

/-! ### POWER_LOW and the end of start-up -/

theorem State.takePowerLow_numbered (h : Numbered f n s) : Numbered f n s.takePowerLow := by
  have hlow : Numbered f n s.lowTaken := h.same ⟨rfl, rfl⟩
  have hhanded : Numbered f n s.lowHanded :=
    State.chainPowerLow_numbered (State.storePowerLow_numbered (State.shotDisarm_numbered hlow))
  refine hhanded.same ?_
  rw [s.takePowerLow_rest.1]
  exact ⟨rfl, rfl⟩

theorem State.startUpEnd_numbered (h : Numbered f n s) : Numbered f n s.startUpEnd := by
  cases he : s.supply.powerLowEarly with
  | false =>
    rw [State.startUpEnd_calm he]
    exact h.same ⟨rfl, rfl⟩
  | true =>
    rw [State.startUpEnd_early s he]
    exact State.takePowerLow_numbered (h.same ⟨rfl, rfl⟩)

/-! ### Events and requests -/

/-- A property that reads the records and the counter alone. -/
def ReadsCatalogue (P : State → Prop) : Prop :=
  ∀ u v : State, v.cat.places = u.cat.places ∧ v.cat.counter = u.cat.counter → P u → P v

section
variable {P : State → Prop}

/-- An event keeps what its effect keeps. -/
theorem event_keeps (hP : ReadsCatalogue P) (h : P s) (m : Moment) {g : State → State} (hg : ∀ t, P t → P (g t))
    (ht : event m g s = .next t) : P t := by
  unfold event at ht
  split at ht <;> cases ht
  · exact hg _ (hP s _ (by simp) h)
  · exact h

theorem frameGate_keeps (hP : ReadsCatalogue P) (h : P s) {g : State → State} (hg : ∀ t, P t → P (g t)) :
    P (frameGate g s) := by
  have hhunt : P s.hunt := hP s _ (by simp) h
  unfold frameGate
  (repeat' split)
  · exact h
  · exact hhunt
  · exact hP _ _ (by simp) hhunt
  · exact hP _ _ (by simp) hhunt
  · exact hg _ hhunt

/-- A request keeps what its owner keeps. -/
theorem request_keeps (hP : ReadsCatalogue P) (h : P s) (k : Nat) (m : Moment) {owner : State → State × Answer}
    (hf : ∀ t, P t → P (owner t).1) (ht : request k m owner s = .next t) : P t := by
  refine event_keeps hP h m (fun u hu => frameGate_keeps hP hu fun v hv => ?_) ht
  have htaken : P (if k = nextPartKind then v else v.dropSnapshot) := by
    split
    · exact hv
    · exact hP v _ (by simp) hv
  unfold dispatch
  dsimp only
  split
  · exact hP _ _ (by simp) htaken
  · exact hP _ _ (by simp) (hf _ htaken)

end

theorem Numbered.reads : ReadsCatalogue (Numbered f n) := fun _ _ e h => h.same e

theorem event_numbered (h : Numbered f n s) (m : Moment) {g : State → State}
    (hg : ∀ t, Numbered f n t → Numbered f n (g t)) (ht : event m g s = .next t) : Numbered f n t :=
  event_keeps Numbered.reads h m hg ht

theorem frameGate_numbered (h : Numbered f n s) {g : State → State} (hg : ∀ t, Numbered f n t → Numbered f n (g t)) :
    Numbered f n (frameGate g s) := frameGate_keeps Numbered.reads h hg

theorem request_numbered (h : Numbered f n s) (k : Nat) (m : Moment) {owner : State → State × Answer}
    (hf : ∀ t, Numbered f n t → Numbered f n (owner t).1) (ht : request k m owner s = .next t) : Numbered f n t :=
  request_keeps Numbered.reads h k m hf ht

end Sys2Proof.Machine
end

section
/-! PROOFS. The picture numbers through each command that acts on records, on the link or on the port; all commands but
ARM and the resets leave them alone (R11). -/

namespace Sys2Proof.Machine

variable {f : Nat → Option (Option Nat)} {n : Nat} {s t : State} {m : Moment}

/-! ### The Catalogue -/

/-- A record named by its number or by its place stands at the place found. -/
theorem resolve_record (hwf : Table.wf anyValue s.cat.places = true) {x : RecordName} {p : Nat} {r : PicRecord}
    (hr : resolve s x = .ok (p, r)) : s.record p = some r := by
  unfold resolve at hr
  (repeat' split at hr) <;> cases hr
  next hfound => exact Table.get_of_mem hwf (findNumber_mem hfound).1
  next hfound => exact hfound

theorem execAmend_numbered (h : Numbered f n s) {x : RecordName} {c : AmendChange}
    (ht : execAmend m x c s = .next t) : Numbered f n t := by
  refine request_numbered h _ m (fun u hu => ?_) ht
  split
  · exact hu
  next p r hc =>
    have hr : u.record p = some r := by
      unfold amendCheck at hc
      (repeat' split at hc) <;> cases hc
      exact resolve_record hu.wf (by assumption)
    exact hu.claim hr rfl

theorem execRetire_numbered (h : Numbered f n s) {x : RecordName} (ht : execRetire m x s = .next t) :
    Numbered f n t := by
  refine request_numbered h _ m (fun u hu => ?_) ht
  split
  · exact hu
  · exact State.freePlace_numbered hu _

theorem execClearCatalogue_numbered (h : Numbered f n s) (ht : execClearCatalogue m s = .next t) :
    Numbered f n t := by
  refine request_numbered h _ m (fun u hu => ?_) ht
  split
  · exact hu
  · exact State.freePlaces_numbered hu _

theorem State.lookUp_numbered (h : Numbered f n s) (p : Nat) (r : PicRecord) : Numbered f n (s.lookUp p r).1 :=
  h.same ⟨rfl, rfl⟩

theorem execLookup_numbered (h : Numbered f n s) {x : RecordName} (ht : execLookup m x s = .next t) :
    Numbered f n t := by
  refine request_numbered h _ m (fun u hu => ?_) ht
  split
  · exact hu
  · exact State.lookUp_numbered hu _ _

theorem execFindNext_numbered (h : Numbered f n s) {k : Nat} {x : Option FindFilter}
    (ht : execFindNext m k x s = .next t) : Numbered f n t := by
  refine request_numbered h _ m (fun u hu => ?_) ht
  (repeat' split)
  · exact hu
  · exact hu
  · exact State.lookUp_numbered hu _ _
  · exact hu

theorem execWriteSettings_numbered (h : Numbered f n s) {x : Settings} (ht : execWriteSettings m x s = .next t) :
    Numbered f n t := by
  refine request_numbered h _ m (fun u hu => ?_) ht
  unfold orRefuse
  split
  · exact hu
  · exact hu.same ⟨rfl, rfl⟩

/-! ### The lens table -/

theorem execCommitLensTable_numbered (h : Numbered f n s) (ht : execCommitLensTable m s = .next t) :
    Numbered f n t := by
  have hcommit : ∀ u, Numbered f n u → Numbered f n u.zoomCommit := fun u hu => by
    unfold State.zoomCommit
    dsimp only
    (repeat' split) <;> exact hu.same (by simp)
  refine request_numbered h _ m (fun u hu => ?_) ht
  split
  · exact hu
  · split
    iterate 5 exact hu
    (repeat' split)
    · exact hu
    · exact hu
    · exact hcommit u hu

/-! ### Storing and reading -/

theorem execPrepareStore_numbered (h : Numbered f n s) (ht : execPrepareStore m s = .next t) : Numbered f n t := by
  refine request_numbered h _ m (fun u hu => ?_) ht
  split
  · exact State.prepareBegin_numbered hu
  · exact hu

theorem execAbandon_numbered (h : Numbered f n s) {k : Nat} (ht : execAbandon m k s = .next t) : Numbered f n t := by
  refine request_numbered h _ m (fun u hu => ?_) ht
  (repeat' split)
  · exact hu
  · exact hu
  · exact hu
  · exact hu
  · exact State.storeGoOn_numbered (State.storeFail_numbered hu _ _)

theorem State.chainAppend_numbered (h : Numbered f n s) (p k o l : Nat) (b : Bool) :
    Numbered f n (s.chainAppend p k o l b) := (State.addHold_numbered h p).onChain _

theorem execChainAdd_numbered (h : Numbered f n s) {k o l : Nat} {b : Bool}
    (ht : execChainAdd m k o l b s = .next t) : Numbered f n t := by
  refine request_numbered h _ m (fun u hu => ?_) ht
  dsimp only
  split
  · exact hu
  next p r x hc =>
    exact State.chainAppend_numbered hu p k o _ b

theorem execRefresh_numbered (h : Numbered f n s) {k : Nat} (ht : execRefresh m k s = .next t) : Numbered f n t := by
  refine request_numbered h _ m (fun u hu => ?_) ht
  split
  · exact hu
  next p r hc =>
    refine State.refreshStart_numbered hu ?_
    unfold refreshCheck at hc
    (repeat' split at hc) <;> cases hc
    exact Table.get_of_mem hu.wf (findNumber_mem (by assumption)).1

theorem execPrepareScanStart_numbered (h : Numbered f n s) (ht : execPrepareScanStart m s = .next t) :
    Numbered f n t := by
  refine event_numbered h m (fun u hu => ?_) ht
  split
  · exact State.prepareAsk_numbered ((hu.onMap _).markDirty _) _ _
  · exact hu

theorem execArbiterGrant_numbered (h : Numbered f n s) (ht : execArbiterGrant m s = .next t) : Numbered f n t := by
  refine event_numbered h m (fun u hu => ?_) ht
  (repeat' split)
  · exact State.flashGrant_numbered hu _ _ _
  · exact hu
  · exact hu

theorem execBackgroundTakeBlock_numbered (h : Numbered f n s) (ht : execBackgroundTakeBlock m s = .next t) :
    Numbered f n t := by
  refine event_numbered h m (fun u hu => ?_) ht
  dsimp only
  (repeat' split)
  · exact ((hu.onMap _).onMap _).onFlash _
  · exact ((hu.onMap _).onMap _).onFlash _
  · exact hu
  · exact hu

theorem execPageProgramDone_numbered (h : Numbered f n s) {pass : Bool} (ht : execPageProgramDone m pass s = .next t) :
    Numbered f n t := by
  refine event_numbered h m (fun u hu => flashResult_numbered hu fun x v hv => ?_) ht
  (repeat' split)
  · exact State.storeProgramDone_numbered hv _ _
  · exact State.refreshKick_numbered hv
  · exact State.refreshProgramDone_numbered hv _
  · exact hv

theorem execCopyBackDone_numbered (h : Numbered f n s) {source : CopyRead} {pass : Bool}
    (ht : execCopyBackDone m source pass s = .next t) : Numbered f n t := by
  refine event_numbered h m (fun u hu => flashResult_numbered hu fun x v hv => ?_) ht
  have hloaded : Numbered f n (v.flashRegister source.data) := hv.onFlash _
  dsimp only
  (repeat' split)
  · exact State.storeCopyDone_numbered hloaded _ _ _
  · exact State.refreshKick_numbered hloaded
  · exact State.refreshCopyDone_numbered hloaded _ _
  · exact hloaded

theorem execBlockEraseDone_numbered (h : Numbered f n s) {pass : Bool} (ht : execBlockEraseDone m pass s = .next t) :
    Numbered f n t := by
  refine event_numbered h m (fun u hu => flashResult_numbered hu fun x v hv => ?_) ht
  (repeat' split)
  · exact hv
  · exact State.backgroundErased_numbered hv _ _
  · exact hv
  · exact State.prepareEraseDone_numbered hv _ _
  · exact hv

theorem execGrownMarkProgramDone_numbered (h : Numbered f n s) {pass : Bool}
    (ht : execGrownMarkProgramDone m pass s = .next t) : Numbered f n t := by
  refine event_numbered h m (fun u hu => flashResult_numbered hu fun x v hv => ?_) ht
  split
  · exact State.storeGoOn_numbered hv
  · exact State.refreshKick_numbered hv
  · exact State.prepareMarked_numbered hv _
  · exact hv

/-! ### The In Lane and the Out Lane -/

theorem execStatistics_numbered (h : Numbered f n s) {body : List Byte} (ht : execStatistics m body s = .next t) :
    Numbered f n t :=
  event_numbered h m (fun _ hu => laneBlock_numbered hu _ _ fun _ hv => hv.same (by simp)) ht

theorem execPictureAbort_numbered (h : Numbered f n s) (ht : execPictureAbort m s = .next t) : Numbered f n t := by
  refine event_numbered h m (fun u hu => laneBlock_numbered hu _ _ fun v hv => ?_) ht
  split
  · exact hv
  · exact State.storeFailedOn_numbered hv _

theorem execInLaneBlockDropped_numbered (h : Numbered f n s) {kind : Byte} {l : Nat}
    (ht : execInLaneBlockDropped m kind l s = .next t) : Numbered f n t := by
  refine event_numbered h m (fun u hu => ?_) ht
  (repeat' split)
  · exact dataBlock_numbered hu _ fun _ hv => State.pictureDataBad_numbered hv
  · exact State.laneFree_numbered hu
  · exact hu
  · exact hu

theorem execDataTimeout_numbered (h : Numbered f n s) (ht : execDataTimeout m s = .next t) : Numbered f n t := by
  refine event_numbered h m (fun u hu => ?_) ht
  split
  · exact State.storeFailedOn_numbered hu _
  · exact hu

theorem execDescriptorStartSent_numbered (h : Numbered f n s) (ht : execDescriptorStartSent m s = .next t) :
    Numbered f n t := by
  refine event_numbered h m (fun u hu => ?_) ht
  (repeat' split)
  · exact State.chainAskPage_numbered ((State.itemGone_numbered hu).onChain _)
  · exact State.itemGone_numbered hu
  · exact hu

theorem execDataItemSent_numbered (h : Numbered f n s) (ht : execDataItemSent m s = .next t) : Numbered f n t := by
  refine event_numbered h m (fun u hu => ?_) ht
  (repeat' split)
  · exact State.chainSent_numbered (State.itemGone_numbered hu) _
  · exact State.itemGone_numbered hu
  · exact hu

theorem execDescriptorEndSent_numbered (h : Numbered f n s) (ht : execDescriptorEndSent m s = .next t) :
    Numbered f n t := by
  refine event_numbered h m (fun u hu => ?_) ht
  split
  · split
    · exact hu
    · refine Numbered.setFlagIf ?_ _ _
      split
      · exact State.chainPop_numbered (State.itemGone_numbered hu)
      · exact State.itemGone_numbered hu
  · exact hu

/-! ### The Metering, the focus and the gyro -/

theorem execBlockWatchExpiry_numbered (h : Numbered f n s) (ht : execBlockWatchExpiry m s = .next t) :
    Numbered f n t := by
  refine event_numbered h m (fun u hu => ?_) ht
  dsimp only
  (repeat' split) <;> exact hu.same (by simp)

theorem execFocusMoveComplete_numbered (h : Numbered f n s) (ht : execFocusMoveComplete m s = .next t) :
    Numbered f n t := by
  refine event_numbered h m (fun u hu => ?_) ht
  dsimp only
  (repeat' split)
  · exact hu.same (by simp)
  · exact hu.same (by simp)
  · exact hu

theorem State.gyroGoodFrame_numbered (h : Numbered f n s) (g : GyroFields) : Numbered f n (s.gyroGoodFrame g) := by
  have htaken : Numbered f n (s.gyroTake g) := h.same (by simp)
  unfold State.gyroGoodFrame
  dsimp only
  split
  · exact State.shotSteadyReady_numbered htaken
  · exact htaken

theorem execGyroFrame_numbered (h : Numbered f n s) {bytes : List Byte} (ht : execGyroFrame m bytes s = .next t) :
    Numbered f n t := by
  refine event_numbered h m (fun u hu => ?_) ht
  (repeat' split)
  · exact hu
  · exact hu.same (by simp)
  · exact State.gyroGoodFrame_numbered (hu.same (by simp)) _
  · exact hu.same (by simp)

theorem execGyroLost_numbered (h : Numbered f n s) (ht : execGyroLost m s = .next t) : Numbered f n t := by
  refine event_numbered h m (fun u hu => ?_) ht
  have hlost : Numbered f n u.steadyLost := hu.same (by simp)
  dsimp only
  (repeat' split)
  · exact State.shotSteadyReady_numbered hlost
  · exact hlost
  · exact hu

/-! ### The shot -/

theorem execTrigger_numbered (h : Numbered f n s) (ht : execTrigger m s = .next t) : Numbered f n t := by
  refine request_numbered h _ m (fun u hu => ?_) ht
  split
  · exact State.shotFrame_numbered hu
  · exact hu

theorem execReleaseFalling_numbered (h : Numbered f n s) (ht : execReleaseFalling m s = .next t) : Numbered f n t := by
  refine event_numbered h m (fun u hu => ?_) ht
  dsimp only
  split
  · exact State.shotFrame_numbered (hu.same ⟨rfl, rfl⟩)
  · exact hu.same ⟨rfl, rfl⟩

theorem execReleaseRising_numbered (h : Numbered f n s) (ht : execReleaseRising m s = .next t) : Numbered f n t := by
  refine event_numbered h m (fun u hu => ?_) ht
  have hup : Numbered f n { u with lines := { u.lines with release := true } } := hu.same ⟨rfl, rfl⟩
  dsimp only
  split
  · split
    iterate 4 exact hup.onBurst _
    iterate 2 exact State.shotIdle_numbered hup
    · exact hup
  · exact hup

theorem execIrisMoveComplete_numbered (h : Numbered f n s) (ht : execIrisMoveComplete m s = .next t) :
    Numbered f n t := by
  refine event_numbered h m (fun u hu => ?_) ht
  dsimp only
  (repeat' split)
  · exact hu
  · exact State.irisToBurst_numbered (hu.onShot _)
  · exact hu.onShot _
  · exact State.shotPrepared_numbered (hu.onShot _)
  · exact hu.onShot _

theorem execCloseCommandDue_numbered (h : Numbered f n s) (ht : execCloseCommandDue m s = .next t) :
    Numbered f n t := by
  refine event_numbered h m (fun u hu => ?_) ht
  split
  · exact State.shotDueCheck_numbered (State.shotClose_numbered hu)
  · exact hu

theorem execShutterClosed_numbered (h : Numbered f n s) (ht : execShutterClosed m s = .next t) : Numbered f n t := by
  refine event_numbered h m (fun u hu => ?_) ht
  split
  · exact State.shotDueCheck_numbered (State.shotConfirm_numbered (hu.same ⟨rfl, rfl⟩))
  · exact hu

theorem execShutterTimeout_numbered (h : Numbered f n s) (ht : execShutterTimeout m s = .next t) : Numbered f n t := by
  refine event_numbered h m (fun u hu => ?_) ht
  split
  · exact State.shotTimeout_numbered hu
  · exact hu

/-! ### Power and the Record Writer -/

theorem execStartUpEnd_numbered (h : Numbered f n s) (ht : execStartUpEnd m s = .next t) : Numbered f n t := by
  refine event_numbered h m (fun u hu => ?_) ht
  split
  · exact State.startUpEnd_numbered hu
  · exact hu

theorem execPowerLow_numbered (h : Numbered f n s) (ht : execPowerLow m s = .next t) : Numbered f n t := by
  refine event_numbered h m (fun u hu => ?_) ht
  (repeat' split)
  · exact hu.same ⟨rfl, rfl⟩
  · exact hu
  · exact State.takePowerLow_numbered hu
  · exact hu
  · exact State.takePowerLow_numbered hu
  · exact hu
  · exact hu.setFlag _

theorem execRecordWriteComplete_numbered (h : Numbered f n s) (ht : execRecordWriteComplete m s = .next t) :
    Numbered f n t := by
  refine event_numbered h m (fun u hu => ?_) ht
  dsimp only
  (repeat' split)
  · exact hu
  · exact Numbered.onMap (hu.same (by simp)) _
  · exact State.startUpEnd_numbered (hu.same ⟨rfl, rfl⟩)
  · exact hu.same (by simp [State.markDone])

/-! ### The link -/

theorem State.clock_numbered (h : Numbered f n s) (bytes : List Byte) : Numbered f n (s.clock bytes) :=
  h.same (by simp [State.clock])

theorem State.frameOver_numbered (h : Numbered f n s) (long : Bool) : Numbered f n (s.frameOver long) := by
  unfold State.frameOver
  split
  · exact h.same (by simp)
  · exact h

theorem execFrameCheck_numbered (h : Numbered f n s) {x : FrameEnd} (ht : execFrameCheck m x s = .next t) :
    Numbered f n t := by
  refine event_numbered h m (fun u hu => ?_) ht
  have hclock := State.clock_numbered hu x.bytes
  dsimp only
  split
  · exact State.frameOver_numbered (frameGate_numbered hclock fun v hv => hv.same (by simp)) _
  · exact hclock

theorem execUnknownRequest_numbered (h : Numbered f n s) {bytes : List Byte}
    (ht : execUnknownRequest m bytes s = .next t) : Numbered f n t := by
  refine event_numbered h m (fun u hu => ?_) ht
  have hclock := State.clock_numbered hu bytes
  dsimp only
  split
  · exact frameGate_numbered hclock fun v hv => hv.same (by simp)
  · exact hclock

theorem execFrameBroken_numbered (h : Numbered f n s) {bytes : List Byte} (ht : execFrameBroken m bytes s = .next t) :
    Numbered f n t := by
  refine event_numbered h m (fun u hu => ?_) ht
  have hclock := State.clock_numbered hu bytes
  dsimp only
  (repeat' split)
  · exact hclock
  · exact frameGate_numbered hclock fun v hv => hv.same (by simp)
  · exact hclock

theorem execLinkOrder_numbered (h : Numbered f n s) {bytes : List Byte} (ht : execLinkOrder m bytes s = .next t) :
    Numbered f n t := by
  refine event_numbered h m (fun u hu => ?_) ht
  have hclock := State.clock_numbered hu bytes
  dsimp only
  split
  · exact State.frameOver_numbered (hclock.same (by simp)) _
  · exact hclock

end Sys2Proof.Machine
end

section
/-! PROOFS. Every command but ARM, POWER LOST and the resets leaves the picture numbers of the records alone (R11). -/

namespace Sys2Proof.Machine

variable {f : Nat → Option (Option Nat)} {n : Nat} {s t : State} {c : Instr}

/-- The commands that read Record Memory into the catalogue, and the loss of power that empties it. -/
def Instr.rebuilds : Instr → Bool
  | .reset _ | .powerOn _ | .softResetExecute _ | .powerLost _ => true
  | _ => false

/-- All numbers stay where they are: the requests and the events whose effect reaches no record, then the others one
by one. -/
theorem exec_numbered (h : Numbered f n s) (hc : Instr.rebuilds c = false) (harm : ∀ m, c ≠ .arm m)
    (ht : exec c s = .next t) : Numbered f n t := by
  cases c <;> dsimp only [exec] at ht
  case reset | powerOn | softResetExecute | powerLost => cases hc
  case arm m => exact absurd rfl (harm m)
  case nextPart | catalogueSummary | meterSetup | meterLock | meterUnlock | readMeter | extendLens | zoomTo
    | zoomStop | parkLens | loadLensStation | readZoom | readLensStation | focusStart | focusRelease | focusMode
    | setArea | clearArea | setDistance | readFocus | readFocusCurve | steadyMode | readSteady | shotSetup | readShot
    | readStatus | readEvents | setEventMask | readSettings | softReset | shutDown =>
    refine request_numbered h _ _ (fun u hu => ?_) ht
    (repeat' split) <;> exact hu.same (by simp)
  case linkQuietResume | responseCollected | shutdownMarkWrite | safe | recordWriteBegin | prepareStoreEnd
    | flashStatusReadDone | sampleWatchExpiry | outLaneItemBegin | encoderPulse | parkSensorChange | stallWatchExpiry
    | brakeWatchExpiry | focusHomeSensorSeen | focusHomingFailed | gyroFrameBroken | gyroFrameTimeout
    | gyroStartMarker | inLaneHeader | requestStartMarker | cancelledEndSent =>
    refine event_numbered h _ (fun u hu => ?_) ht
    (repeat' split) <;> exact hu.same (by simp)
  case lookup => exact execLookup_numbered h ht
  case findNext => exact execFindNext_numbered h ht
  case amend => exact execAmend_numbered h ht
  case retire => exact execRetire_numbered h ht
  case clearCatalogue => exact execClearCatalogue_numbered h ht
  case writeSettings => exact execWriteSettings_numbered h ht
  case commitLensTable => exact execCommitLensTable_numbered h ht
  case prepareStore => exact execPrepareStore_numbered h ht
  case abandon => exact execAbandon_numbered h ht
  case chainAdd => exact execChainAdd_numbered h ht
  case chainCancel => exact request_numbered h _ _ (fun _ hu => State.chainEmpty_numbered hu _) ht
  case refresh => exact execRefresh_numbered h ht
  case trigger => exact execTrigger_numbered h ht
  case disarm => exact request_numbered h _ _ (fun _ hu => State.shotDisarm_numbered hu) ht
  case frameCheck => exact execFrameCheck_numbered h ht
  case unknownRequest => exact execUnknownRequest_numbered h ht
  case frameBroken => exact execFrameBroken_numbered h ht
  case linkOrder => exact execLinkOrder_numbered h ht
  case startUpEnd => exact execStartUpEnd_numbered h ht
  case powerLow => exact execPowerLow_numbered h ht
  case recordWriteComplete => exact execRecordWriteComplete_numbered h ht
  case prepareScanStart => exact execPrepareScanStart_numbered h ht
  case arbiterGrant => exact execArbiterGrant_numbered h ht
  case backgroundTakeBlock => exact execBackgroundTakeBlock_numbered h ht
  case pageReadDone =>
    exact event_numbered h _ (fun _ hu => flashResult_numbered hu fun x _ hv => pageReadResult_numbered _ x hv) ht
  case pageProgramDone => exact execPageProgramDone_numbered h ht
  case copyBackDone => exact execCopyBackDone_numbered h ht
  case blockEraseDone => exact execBlockEraseDone_numbered h ht
  case grownMarkProgramDone => exact execGrownMarkProgramDone_numbered h ht
  case statistics => exact execStatistics_numbered h ht
  case blockWatchExpiry => exact execBlockWatchExpiry_numbered h ht
  case pictureStart =>
    exact event_numbered h _ (fun _ hu => laneBlock_numbered hu _ _ fun _ hv => State.pictureStart_numbered hv) ht
  case pictureData =>
    exact event_numbered h _ (fun _ hu => dataBlock_numbered hu _ fun _ hv => State.pictureData_numbered hv _) ht
  case pictureEnd =>
    exact event_numbered h _ (fun _ hu => laneBlock_numbered hu _ _ fun _ hv => State.pictureEnd_numbered hv _) ht
  case pictureAbort => exact execPictureAbort_numbered h ht
  case inLaneBlockDropped => exact execInLaneBlockDropped_numbered h ht
  case inLaneFramingFault => exact event_numbered h _ (fun _ hu => State.laneFault_numbered hu) ht
  case dataTimeout => exact execDataTimeout_numbered h ht
  case endTaken =>
    refine event_numbered h _ (fun u hu => ?_) ht
    split
    · exact State.storeEnd_numbered hu
    · exact hu
  case descriptorStartSent => exact execDescriptorStartSent_numbered h ht
  case dataItemSent => exact execDataItemSent_numbered h ht
  case descriptorEndSent => exact execDescriptorEndSent_numbered h ht
  case focusMoveComplete => exact execFocusMoveComplete_numbered h ht
  case gyroFrame => exact execGyroFrame_numbered h ht
  case gyroLost => exact execGyroLost_numbered h ht
  case releaseFalling => exact execReleaseFalling_numbered h ht
  case releaseRising => exact execReleaseRising_numbered h ht
  case irisMoveComplete => exact execIrisMoveComplete_numbered h ht
  case closeCommandDue => exact execCloseCommandDue_numbered h ht
  case shutterClosed => exact execShutterClosed_numbered h ht
  case shutterTimeout => exact execShutterTimeout_numbered h ht
  case frameDue => exact event_numbered h _ (fun _ hu => State.shotDueCheck_numbered hu) ht

end Sys2Proof.Machine
end

section
/-! PROOFS. The search for a free picture number, a new record, and the numbers of all records (R5, R11). -/

namespace Sys2Proof.Machine

variable {s t : State} {l : List (Nat × PicRecord)} {n d k p q : Nat}

/-! ### The lowest FREE place -/

theorem freePlaceFrom_least {fuel a : Nat} (h : freePlaceFrom l fuel a = some p) :
    ∀ j, a ≤ j → j < p → Table.get j l ≠ none := by
  induction fuel generalizing a with
  | zero => cases h
  | succ fuel ih =>
    rw [freePlaceFrom] at h
    split at h
    next =>
      cases h
      exact fun j h1 h2 => absurd h2 (Nat.not_lt.2 h1)
    next ha =>
      intro j h1 h2
      obtain rfl | h1 := Nat.eq_or_lt_of_le h1
      · exact fun hn => ha (by rw [hn]; rfl)
      · exact ih h j h1 h2

/-- Every place below the lowest FREE one holds a record (R5). -/
theorem lowestFree_least (h : lowestFree l = some p) {j : Nat} (hj : j < p) : Table.get j l ≠ none :=
  freePlaceFrom_least h j (Nat.zero_le j) hj

/-! ### The search upward with the wrap -/

/-- The number `d` steps after `n`, going from 9,999 to 1 (R11). -/
def numberPast (n d : Nat) : Nat := (n - 1 + d) % 9999 + 1

theorem numberPast_zero (h1 : 1 ≤ n) (h2 : n ≤ 9999) : numberPast n 0 = n := by
  unfold numberPast
  omega

theorem numberPast_range (n d : Nat) : 1 ≤ numberPast n d ∧ numberPast n d ≤ 9999 := by
  unfold numberPast
  omega

theorem numberAfter_range (h1 : 1 ≤ n) (h2 : n ≤ 9999) : 1 ≤ numberAfter n ∧ numberAfter n ≤ 9999 := by
  unfold numberAfter Config.maxNumber
  split <;> omega

/-- The steps after the next number, from the number and from the next one. -/
theorem numberPast_after (h1 : 1 ≤ n) (h2 : n ≤ 9999) (d : Nat) :
    numberPast (numberAfter n) d = (n + d) % 9999 + 1 ∧ numberPast (numberAfter n) d = numberPast n (d + 1) := by
  unfold numberPast numberAfter Config.maxNumber
  split <;> omega

/-- The search ends at the first free number, or has seen as many numbers in use as it may. -/
theorem freeNumberFrom_spec (fuel : Nat) (h1 : 1 ≤ n) (h2 : n ≤ 9999) : ∃ d, d ≤ fuel ∧
    freeNumberFrom l fuel n = numberPast n d ∧ (∀ e, e < d → findNumber (numberPast n e) l ≠ none) ∧
    (d < fuel → findNumber (numberPast n d) l = none) := by
  induction fuel generalizing n with
  | zero => exact ⟨0, Nat.le_refl 0, (numberPast_zero h1 h2).symm, fun _ he => absurd he (Nat.not_lt_zero _), nofun⟩
  | succ fuel ih =>
    rw [freeNumberFrom]
    split
    next hn =>
      refine ⟨0, Nat.zero_le _, (numberPast_zero h1 h2).symm, fun _ he => absurd he (Nat.not_lt_zero _), fun _ => ?_⟩
      rw [numberPast_zero h1 h2]
      simpa using hn
    next hn =>
      obtain ⟨h1', h2'⟩ := numberAfter_range h1 h2
      obtain ⟨d, hd, heq, hused, hfree⟩ := ih h1' h2'
      have hstep : ∀ e, numberPast (numberAfter n) e = numberPast n (e + 1) := fun e => (numberPast_after h1 h2 e).2
      refine ⟨d + 1, Nat.succ_le_succ hd, heq.trans (hstep d), fun e he => ?_, fun h => ?_⟩
      · cases e with
        | zero =>
          rw [numberPast_zero h1 h2]
          exact fun h => hn (by rw [h]; rfl)
        | succ e =>
          rw [← hstep e]
          exact hused e (Nat.lt_of_succ_lt_succ he)
      · rw [← hstep d]
        exact hfree (Nat.lt_of_succ_lt_succ h)

/-- Within 9,999 steps no number comes twice. -/
theorem numberPast_injective {a b : Nat} (ha : a < 9999) (hb : b < 9999) (h : numberPast n a = numberPast n b) :
    a = b := by
  unfold numberPast at h
  omega

/-- No more numbers in a row are in use than there are records. -/
theorem used_le (hd : d ≤ 9999) (hused : ∀ e, e < d → findNumber (numberPast n e) l ≠ none) : d ≤ l.length := by
  have hnodup : ((List.range d).map (numberPast n)).Nodup := by
    refine List.pairwise_map.mpr (List.nodup_range.imp_of_mem fun {a b} ha hb hne h => hne ?_)
    rw [List.mem_range] at ha hb
    exact numberPast_injective (Nat.lt_of_lt_of_le ha hd) (Nat.lt_of_lt_of_le hb hd) h
  have hsub : (List.range d).map (numberPast n) ⊆ l.filterMap fun e => e.2.number := fun k hk => by
    obtain ⟨e, he, rfl⟩ := List.mem_map.1 hk
    obtain ⟨⟨p, r⟩, hr⟩ := Option.ne_none_iff_exists'.1 (hused e (List.mem_range.1 he))
    obtain ⟨hmem, hnumber⟩ := findNumber_mem hr
    exact List.mem_filterMap.2 ⟨_, hmem, hnumber⟩
  calc d = ((List.range d).map (numberPast n)).length := by simp
    _ ≤ (l.filterMap fun e => e.2.number).length := hnodup.length_le_of_subset hsub
    _ ≤ l.length := List.length_filterMap_le _ _

/-- A number in use is the number of a record. -/
theorem used_record (hwf : Table.wf anyValue l = true) (h : findNumber n l ≠ none) :
    ∃ j r, Table.get j l = some r ∧ r.number = some n := by
  obtain ⟨⟨p, r⟩, hr⟩ := Option.ne_none_iff_exists'.1 h
  obtain ⟨hmem, hnumber⟩ := findNumber_mem hr
  exact ⟨p, r, Table.get_of_mem hwf hmem, hnumber⟩

/-- The first free number from `n` on is free, and all before it are in use (R11). -/
theorem freeNumber_spec (hl : tableOk Config.placeCount anyValue l) (h1 : 1 ≤ n) (h2 : n ≤ 9999) : ∃ d,
    freeNumber l n = numberPast n d ∧ (∀ e, e < d → ∃ j r, Table.get j l = some r ∧ r.number = some (numberPast n e)) ∧
    ∀ j r, Table.get j l = some r → r.number ≠ some (freeNumber l n) := by
  obtain ⟨d, hd, heq, hused, hfree⟩ := freeNumberFrom_spec (l := l) (Config.placeCount + 1) h1 h2
  have hle : d ≤ l.length := used_le (Nat.le_trans hd (by decide)) hused
  have hnone : findNumber (numberPast n d) l = none := hfree (Nat.lt_succ_of_le (Nat.le_trans hle (Table.length_le hl)))
  refine ⟨d, heq, fun e he => used_record hl.1 (hused e he), fun j r hj hn => ?_⟩
  rw [freeNumber, heq] at hn
  exact findNumber_none.1 hnone _ (Table.get_mem hj) hn

end Sys2Proof.Machine
end

section
/-! PROOFS. New records and the numbers of all records (R5, R11). -/

namespace Sys2Proof.Machine

variable {s t : State} {p : Nat} {q : List Instr}

/-! ### A new record -/

/-- The number that the next record gets (R11). -/
def State.newNumber (s : State) : Nat := freeNumber s.cat.places s.cat.counter

/-- The state with a new record at place `p` (R5, R11). -/
def State.withRecord (p : Nat) (a : ArmFields) (n : Nat) (s : State) : State :=
  let places := Table.put p (newRecord s.newNumber a n) s.cat.places
  { s with cat := { s.cat with places := places, counter := freeNumber places (numberAfter s.newNumber) } }.markDirty
    (.place p)

theorem State.createRecord_eq (hp : lowestFree s.cat.places = some p) (a : ArmFields) (n : Nat) :
    s.createRecord a n = (s.withRecord p a n, [s.newNumber]) := by
  rw [State.createRecord, hp, State.withRecord, State.newNumber]

theorem State.createRecord_full (hp : lowestFree s.cat.places = none) (a : ArmFields) (n : Nat) :
    s.createRecord a n = (s, []) := by
  rw [State.createRecord, hp]

theorem State.withRecord_same (s : State) (p : Nat) (a : ArmFields) (n : Nat) :
    (s.withRecord p a n).record p = some (newRecord s.newNumber a n) := Table.get_put_same _ _ _

theorem State.withRecord_other {j : Nat} (h : j ≠ p) (a : ArmFields) (n : Nat) :
    (s.withRecord p a n).record j = s.record j := Table.get_put_other h _ _

/-- The new number, with the counter from 1 to 9,999: the first free one (R11). -/
theorem State.newNumber_spec (hc : tableOk Config.placeCount anyValue s.cat.places)
    (h1 : 1 ≤ s.cat.counter) (h2 : s.cat.counter ≤ 9999) :
    (∀ j r, s.record j = some r → r.number ≠ some s.newNumber) ∧ 1 ≤ s.newNumber ∧ s.newNumber ≤ 9999 ∧
    ∃ d, s.newNumber = numberPast s.cat.counter d ∧ ∀ e, e < d → ∃ j r, s.record j = some r ∧
      r.number = some (numberPast s.cat.counter e) := by
  obtain ⟨d, heq, hused, hfree⟩ := freeNumber_spec hc h1 h2
  obtain ⟨hlow, hhigh⟩ := numberPast_range s.cat.counter d
  have heq : s.newNumber = numberPast s.cat.counter d := heq
  exact ⟨hfree, heq ▸ hlow, heq ▸ hhigh, d, heq, hused⟩

/-- The counter after a new record: the first free number after the new one (R11). -/
theorem State.withRecord_next (hc : tableOk Config.placeCount anyValue s.cat.places)
    (hp : lowestFree s.cat.places = some p) (h1 : 1 ≤ s.cat.counter) (h2 : s.cat.counter ≤ 9999) (a : ArmFields) (n : Nat) :
    let t := s.withRecord p a n
    (∀ j r, t.record j = some r → r.number ≠ some t.cat.counter) ∧ 1 ≤ t.cat.counter ∧ t.cat.counter ≤ 9999 ∧
    ∃ d, t.cat.counter = (s.newNumber + d) % 9999 + 1 ∧ ∀ e, e < d → ∃ j r, t.record j = some r ∧
      r.number = some ((s.newNumber + e) % 9999 + 1) := by
  intro t
  obtain ⟨-, hlow, hhigh, -⟩ := State.newNumber_spec hc h1 h2
  obtain ⟨hlow', hhigh'⟩ := numberAfter_range hlow hhigh
  have hplaces : tableOk Config.placeCount anyValue t.cat.places := tableOk_put hc (lowestFree_spec hp).1 rfl
  obtain ⟨d, heq, hused, hfree⟩ := freeNumber_spec hplaces hlow' hhigh'
  have hpast : ∀ e, numberPast (numberAfter s.newNumber) e = (s.newNumber + e) % 9999 + 1 := fun e =>
    (numberPast_after hlow hhigh e).1
  have heq : t.cat.counter = (s.newNumber + d) % 9999 + 1 := heq.trans (hpast d)
  refine ⟨hfree, by omega, by omega, d, heq, fun e he => ?_⟩
  rw [← hpast e]
  exact hused e he

/-! ### Distinct numbers -/

/-- No two records hold one number, and the counter stands from 1 to 9,999 (R11). -/
def State.Distinct (s : State) : Prop :=
  1 ≤ s.cat.counter ∧ s.cat.counter ≤ 9999 ∧ ∀ p q x y n, s.record p = some x → s.record q = some y →
    x.number = some n → y.number = some n → p = q

theorem State.Distinct.withRecord (h : s.Distinct) (hc : tableOk Config.placeCount anyValue s.cat.places)
    (hp : lowestFree s.cat.places = some p)
    (a : ArmFields) (n : Nat) : (s.withRecord p a n).Distinct := by
  obtain ⟨h1, h2, hdistinct⟩ := h
  obtain ⟨hfree, -⟩ := State.newNumber_spec hc h1 h2
  obtain ⟨-, hlow, hhigh, -⟩ := State.withRecord_next hc hp h1 h2 a n
  have hnew : ∀ j x k, (s.withRecord p a n).record j = some x → x.number = some k →
      (j = p ∧ k = s.newNumber) ∨ (j ≠ p ∧ s.record j = some x) := fun j x k hj hk => by
    by_cases hjp : j = p
    · subst hjp
      cases (s.withRecord_same j a n).symm.trans hj
      exact .inl ⟨rfl, (Option.some_inj.1 hk).symm⟩
    · exact .inr ⟨hjp, (State.withRecord_other hjp a n).symm.trans hj⟩
  refine ⟨hlow, hhigh, fun i j x y k hi hj hx hy => ?_⟩
  obtain ⟨hip, hik⟩ | ⟨-, hi'⟩ := hnew i x k hi hx
  · obtain ⟨hjp, -⟩ | ⟨-, hj'⟩ := hnew j y k hj hy
    · exact hip.trans hjp.symm
    · exact absurd (hik ▸ hy) (hfree j y hj')
  · obtain ⟨-, hjk⟩ | ⟨-, hj'⟩ := hnew j y k hj hy
    · exact absurd (hjk ▸ hx) (hfree i x hi')
    · exact hdistinct i j x y k hi' hj' hx hy

theorem State.Distinct.createRecord (h : s.Distinct) (hc : tableOk Config.placeCount anyValue s.cat.places)
    (a : ArmFields) (n : Nat) :
    (s.createRecord a n).1.Distinct := by
  rcases hp : lowestFree s.cat.places with _ | p
  · rw [State.createRecord_full hp]
    exact h
  · rw [State.createRecord_eq hp]
    exact h.withRecord hc hp a n

theorem State.createRecord_places (hc : tableOk Config.placeCount anyValue s.cat.places) (a : ArmFields) (n : Nat) :
    tableOk Config.placeCount anyValue (s.createRecord a n).1.cat.places := by
  rcases hp : lowestFree s.cat.places with _ | p
  · rw [State.createRecord_full hp]
    exact hc
  · rw [State.createRecord_eq hp]
    exact tableOk_put hc (lowestFree_spec hp).1 rfl

theorem State.Distinct.same (h : s.Distinct)
    (e : t.cat.places = s.cat.places ∧ t.cat.counter = s.cat.counter) : t.Distinct := by
  unfold State.Distinct State.record
  rw [e.1, e.2]
  exact h

/-- A state whose records keep the numbers of their places keeps them distinct. -/
theorem State.Distinct.of_numbered (h : s.Distinct) (ht : Numbered (numbersOf s) s.cat.counter t) : t.Distinct := by
  obtain ⟨h1, h2, hdistinct⟩ := h
  obtain ⟨-, hcounter, hnumbers⟩ := ht
  have hold : ∀ p x n, t.record p = some x → x.number = some n → ∃ y, s.record p = some y ∧ y.number = some n :=
    fun p x n hp hx => by
      obtain ⟨y, hy, hyx⟩ := Option.map_eq_some_iff.1 (hnumbers p x hp)
      exact ⟨y, hy, hyx.trans hx⟩
  refine ⟨hcounter ▸ h1, hcounter ▸ h2, fun p q x y n hp hq hx hy => ?_⟩
  obtain ⟨x', hp', hx'⟩ := hold p x n hp hx
  obtain ⟨y', hq', hy'⟩ := hold q y n hq hy
  exact hdistinct p q x' y' n hp' hq' hx' hy'

/-! ### The commands -/

/-- The catalogue that ARM meets: its numbers distinct, its table in order. -/
def State.InOrder (s : State) : Prop := s.Distinct ∧ tableOk Config.placeCount anyValue s.cat.places

namespace State.InOrder

theorem reads : ReadsCatalogue State.InOrder := fun _ _ e h => ⟨h.1.same e, e.1 ▸ h.2⟩

theorem createBurst (a : ArmFields) (n k i : Nat) (h : s.InOrder) : (s.createBurst a n k i).1.InOrder := by
  induction k generalizing i s with
  | zero => exact h
  | succ k ih =>
    obtain ⟨hdistinct, hc⟩ := h
    exact ih (i + 1) ⟨hdistinct.createRecord hc { a with index := i } n,
      State.createRecord_places hc { a with index := i } n⟩

theorem shotArm (h : s.InOrder) (e : Computed) : (s.shotArm e).1.InOrder := by
  refine reads _ _ ?_ (h.createBurst (armFields s (burstGroup s.shot) e) s.settings.reservation s.shot.setup.count 1)
  simp [State.shotArm]

end State.InOrder

/-- ARM gives its records distinct numbers (R5, R169). -/
theorem execArm_distinct (h : s.InOrder) {m : Moment} (ht : execArm m s = .next t) : t.Distinct := by
  have hkept : t.InOrder := by
    refine request_keeps State.InOrder.reads h _ m (fun u hu => ?_) ht
    split
    · exact hu
    · exact hu
    next e _ _ =>
      have hlocked : u.meterShotLock.InOrder := State.InOrder.reads u _ (by simp) hu
      exact hlocked.shotArm e
  exact hkept.1

/-- The loss of power leaves no record (R201). -/
theorem execPowerLost_distinct (h : s.Distinct) {m : Moment} (ht : execPowerLost m s = .next t) : t.Distinct := by
  refine event_keeps (P := State.Distinct) (fun _ _ e h => h.same e) h m (fun u _ => ?_) ht
  exact ⟨Nat.le_refl 1, show 1 ≤ 9999 by decide, fun p q x y n hp => nomatch hp⟩

theorem exec_distinct (h : s.Distinct) (hc : Canonical s) {c : Instr}
    (hreset : ∀ m, c ≠ .reset m ∧ c ≠ .powerOn m ∧ c ≠ .softResetExecute m) (ht : exec c s = .next t) :
    t.Distinct := by
  by_cases harm : ∃ m, c = .arm m
  · obtain ⟨m, rfl⟩ := harm
    exact execArm_distinct ⟨h, hc.1⟩ ht
  · by_cases hlost : ∃ m, c = .powerLost m
    · obtain ⟨m, rfl⟩ := hlost
      exact execPowerLost_distinct h ht
    · refine h.of_numbered (exec_numbered (Numbered.self hc.1.1) ?_ (fun m hm => harm ⟨m, hm⟩) ht)
      cases c
      case reset m => exact absurd rfl (hreset m).1
      case powerOn m => exact absurd rfl (hreset m).2.1
      case softResetExecute m => exact absurd rfl (hreset m).2.2
      case powerLost m => exact absurd ⟨m, rfl⟩ hlost
      all_goals rfl

/-- Settles O28: the two searches, then every command either leaves the numbers of the places alone or creates records
one by one. -/
theorem newRecordsTakeFreeNumbersAndPlaces : Obligations.NewRecordsTakeFreeNumbersAndPlaces := by
  unfold Obligations.NewRecordsTakeFreeNumbersAndPlaces
  refine ⟨fun a n p s hc hp => ?_, fun c s t hc h ht hreset => exec_distinct h hc hreset ht⟩
  refine ⟨s.withRecord p a n, s.newNumber, State.createRecord_eq hp a n, (lowestFree_spec hp).2,
    fun _ => lowestFree_least hp, s.withRecord_same p a n, fun _ hj => State.withRecord_other hj a n, rfl,
    fun h1 h2 => ?_⟩
  obtain ⟨hfree, hlow, hhigh, hpast⟩ := State.newNumber_spec hc.1 h1 h2
  exact ⟨hfree, hlow, hhigh, hpast, State.withRecord_next hc.1 hp h1 h2 a n⟩

end Sys2Proof.Machine
end
